-- ==== Sys2Proof/Word.lean ====
section
/-! DEFINITION. The word types of the MWH-8 and the plainest operations on bytes and fields. -/

namespace Sys2Proof

/-- One byte. -/
abbrev Byte := BitVec 8

/-- Panel designators P0 to P7 (00_scope.md, Unit designators). -/
abbrev PanelId := Fin 8

/-- Optical ports OP0 to OP23. -/
abbrev PortId := Fin 24

/-- Laser cartridges LC0 to LC7. -/
abbrev CartId := Fin 8

/-- Ring numbers of a context (R429). -/
abbrev RingId := Fin 4

/-- A 16-bit context identifier (R405), or a 16-bit code of R9. -/
abbrev Code := BitVec 16

/-- Bits `[hi:lo]` of a 64-bit register value, as a number. -/
def fieldOf (v : BitVec 64) (hi lo : Nat) : Nat :=
  (v.toNat >>> lo) % 2 ^ (hi + 1 - lo)

/-- Bit `i` of a 64-bit register value. -/
def bitOf (v : BitVec 64) (i : Nat) : Bool := v.getLsbD i

/-- The little-endian value of a list of bytes (R6). -/
def leNat : List Byte → Nat
  | [] => 0
  | b :: bs => b.toNat + 256 * leNat bs

/-- The `n` little-endian bytes of a value (R6). -/
def leBytes : Nat → Nat → List Byte
  | 0, _ => []
  | n + 1, v => BitVec.ofNat 8 v :: leBytes n (v / 256)

/-- The value `v` saturated at `2 ^ w - 1`: the saturating counters of the register tables. -/
def satTo (w v : Nat) : Nat := min v (2 ^ w - 1)

/-- The number `v` read as a two's-complement value of `w` bits. -/
def signedOf (w v : Nat) : Int :=
  let m := v % 2 ^ w
  if m < 2 ^ (w - 1) then (m : Int) else (m : Int) - (2 ^ w : Nat)

/-- The `w`-bit two's-complement pattern of an integer. -/
def patternOf (w : Nat) (x : Int) : Nat := (x % ((2 ^ w : Nat) : Int)).toNat

/-- `ceil (a / b)` on natural numbers. -/
def ceilDiv (a b : Nat) : Nat := (a + b - 1) / b

/-- `v` rounded up to a multiple of `m`. -/
def roundUp (v m : Nat) : Nat := ceilDiv v m * m

/-- Whether the byte ranges `[a, a+n)` and `[b, b+m)` share a byte. -/
def rangesOverlap (a n b m : Nat) : Bool := n != 0 && m != 0 && a < b + m && b < a + n

end Sys2Proof
end

