-- ==== Sys2Proof/Syntax.lean ====
section
/-! DEFINITION. The commands of the MWH-8: one constructor of `Instr` for each row of the table of operations and
events, with the operands that the row needs from outside the device. -/

namespace Sys2Proof

/-- The colour classes (00_scope.md, Traffic classes), in the codes of R139. -/
inductive ColourClass where
  | vermilion | indigo | slate | ivory
  deriving DecidableEq, Repr

/-- The block that owns a set of performance counters (R832). -/
inductive PmcScope where
  | hub
  | panel (p : PanelId)
  deriving DecidableEq, Repr

/-- The fields of a marker flit (R41). -/
structure Marker where
  hop : BitVec 8
  rank : BitVec 8
  jobId : BitVec 32
  stitch : BitVec 48
  angle : BitVec 12
  srcHoldover : Bool
  ext : Bool
  stitchNs : BitVec 20
  markersLog2 : BitVec 4
  departPs : BitVec 16
  sourceId : BitVec 64
  seq : BitVec 32
  deriving DecidableEq, Repr

/-- What is wrong with the 18 symbols that a memory access returns (R377, R378): the bits in error of each symbol, 16 and
17 being the check symbols, and the panel physical address whose access came back in place of the one asked for. -/
structure ReadError where
  flips : List (Fin 18 × BitVec 32) := []
  from_ : Option Nat := none
  deriving DecidableEq, Repr

/-- Who waits for a memory access (R641). -/
inductive Requester where
  | nobody
  | descriptor (ctx : Code) (ring : RingId)
  | window (ctx : Code)
  | fabric
  deriving DecidableEq, Repr

/-- The identity that a peer presents in LINK_CTL codewords (R503, R505, R506, R509), with the round trip measured
beside it (R43). `trusted`: its certificate verifies against the Stolyon chain. -/
structure PeerIdentity where
  trusted : Bool
  debugOpen : Bool
  ext : Bool
  modNum : BitVec 15
  port : BitVec 5
  identity : BitVec 64
  rtt100ps : BitVec 32
  deriving DecidableEq, Repr

/-- The credits that a peer advertises at link-up (R508, step 7): reserved per virtual channel, and shared. -/
structure PeerCredits where
  reserved : Vector Nat 5
  shared : Nat
  deriving DecidableEq, Repr

/-- The header fields of a packet (R514) but for TYPE, DATA_FLITS and LENGTH, which its body gives. `tenant` is the
tenant domain of a confidential sender, AUTHORITY_ID and JOB_TAG as one number (R783), `none` for any other. -/
structure PktHead where
  cls : ColourClass
  layer : Bool
  dstMod : BitVec 15
  dstPanel : PanelId
  srcMod : BitVec 15
  srcPanel : PanelId
  age : BitVec 16
  dstCtx : Code
  srcCtx : Code
  addr : BitVec 64
  xtag : BitVec 32
  poisonMask : BitVec 64
  tenant : Option (BitVec 320)
  deriving DecidableEq, Repr

/-- A relay grant (R542). -/
structure RelayGrant where
  relayId : BitVec 32
  step : Nat
  steps : Nat
  slotBytes : Nat
  deriving DecidableEq, Repr

/-- One bulk packet of a relay block (R541, R543). -/
structure RelayBlock where
  relayId : BitVec 32
  step : Nat
  offset : Nat
  data : List Byte
  deriving DecidableEq, Repr

/-- The acknowledgement of one relay send (R542, R545). -/
structure RelayAck where
  relayId : BitVec 32
  step : Nat
  deriving DecidableEq, Repr

/-- A join notice (R556). -/
structure JoinNotice where
  commId : BitVec 32
  rank : Nat
  size : Nat
  w24 : Bool
  layout : Nat
  stagePages : Nat
  digest : BitVec 256
  deriving DecidableEq, Repr

/-- Which exchange of a communicator a packet belongs to: a bucket's reduction, or the `k`-th ALLREDUCE. -/
inductive Exchange where
  | bucket (index : Nat)
  | allreduce (nth : Nat)
  deriving DecidableEq, Repr

/-- An exponent and non-finite flag on its way up or down the tree (R567), with the shape that R599 compares. -/
structure ExponentPair where
  commId : BitVec 32
  rank : Nat
  exch : Exchange
  step : BitVec 32
  elements : Nat
  fmt : BitVec 8
  eLoc : Int
  nonFinite : Bool
  deriving DecidableEq, Repr

/-- Tally words of one rank for one slice (R570); `words` holds the bytes of whole words, in element order. -/
structure TallyPacket where
  commId : BitVec 32
  rank : Nat
  exch : Exchange
  step : BitVec 32
  first : Nat
  words : List Byte
  deriving DecidableEq, Repr

/-- The squared-norm integers on their way up (`down = false`) or down the tree (R575). -/
structure NoisePacket where
  commId : BitVec 32
  rank : Nat
  bucket : Nat
  step : BitVec 32
  down : Bool
  a : BitVec 128
  q : BitVec 128
  deriving DecidableEq, Repr

/-- Part of an owner's returned slice (R583), or of an ALLREDUCE's rounded slice (R596). -/
structure ReturnPacket where
  commId : BitVec 32
  rank : Nat
  exch : Exchange
  step : BitVec 32
  first : Nat
  data : List Byte
  deriving DecidableEq, Repr

/-- The kinds of transfer that a receiver grants (R583, R596, R597, R598, R607). -/
inductive TransferKind where
  | broadcast | send | slice (exch : Exchange)
  deriving DecidableEq, Repr

/-- A receiver's grant of a transfer: the `nth` of its kind between the two ranks. -/
structure CollGrant where
  commId : BitVec 32
  rank : Nat
  kind : TransferKind
  nth : Nat
  bytes : Nat
  step : BitVec 32
  deriving DecidableEq, Repr

/-- BROADCAST, SEND or Fitting data. -/
structure CollData where
  commId : BitVec 32
  rank : Nat
  kind : TransferKind
  nth : Nat
  offset : Nat
  data : List Byte
  deriving DecidableEq, Repr

/-- READY(t, U) of one module (R587). -/
structure ReadyPacket where
  modNum : BitVec 15
  step : BitVec 32
  update : BitVec 48
  deriving DecidableEq, Repr

/-- DECIDE(t) (R588, R589). -/
structure DecidePacket where
  jobId : BitVec 32
  step : BitVec 32
  deriving DecidableEq, Repr

/-- A step abort (R691); `lost` is 0xFFFF for none. -/
structure AbortPacket where
  jobId : BitVec 32
  step : BitVec 32
  stitch : BitVec 48
  reason : Code
  lost : BitVec 16
  deriving DecidableEq, Repr

/-- What a packet carries, by its type. The manual numbers only the marker and STEP_ABORT. -/
inductive PktBody where
  | readRequest (bytes : Nat)
  | writeRequest (data : List Byte)
  | readData (data : List Byte)
  | writeAck
  | refusal (code : Code)
  | lossNotice
  | relayGrant (g : RelayGrant)
  | relayBlock (b : RelayBlock)
  | relayAck (a : RelayAck)
  | joinNotice (n : JoinNotice)
  | exponentPair (p : ExponentPair)
  | exponentResult (p : ExponentPair)
  | tally (w : TallyPacket)
  | noise (n : NoisePacket)
  | returnData (r : ReturnPacket)
  | collGrant (g : CollGrant)
  | collData (d : CollData)
  | ready (r : ReadyPacket)
  | decide (d : DecidePacket)
  | abort (a : AbortPacket)
  deriving DecidableEq, Repr

/-- A packet (R512). -/
structure Packet where
  head : PktHead
  body : PktBody
  deriving DecidableEq, Repr

/-- What a LINK_CTL codeword says. -/
inductive LinkCtl where
  | down (moduleCause : Bool)
  | identity (p : PeerIdentity)
  | credits (c : PeerCredits)
  deriving DecidableEq, Repr

/-- The body of a codeword by its KIND (R495): a SEQUENCED flit is the `index`-th flit of a packet. -/
inductive CwBody where
  | idle
  | flit (pkt : Packet) (index : Nat)
  | marker (m : Marker) (phase100ps : BitVec 16)
  | linkCtl (c : LinkCtl)
  deriving DecidableEq, Repr

/-- A received codeword: the number of its symbols in error (R494), what the CRC and the tag found (R496), the trailer, and
the body. -/
structure Codeword where
  symbols : Nat
  crcOk : Bool
  tagOk : Bool
  txSeq : BitVec 16
  ackSeq : Option (BitVec 16)
  nak : Bool
  credit : Option (Fin 5 × Nat)
  body : CwBody
  deriving DecidableEq, Repr

/-- The SRAM structures, in the UNIT codes of R638. -/
inductive SramStructure where
  | spool | bobbin | gusset | seamScratch | accumulator | dma | fabricBuffer | yokeBuffer | seqMemory
  deriving DecidableEq, Repr

/-- Where an uncorrectable SRAM word lies (R626). -/
inductive SramPlace where
  | spoolLine (unit : Nat)
  | accUncommitted
  | seamCommit
  | accCommitted
  | bobbinPage (ctx : Code) (tag : BitVec 16) (page : Nat)
  | gussetLine (ctx : Code) (param : BitVec 32) (line : Nat)
  | dmaBuffer
  | chainStore (ctx : Code) (chain : Nat)
  | tableStore (ctx : Code) (slot : Nat)
  | fabricBuffer (port : PortId) (vc : Fin 5)
  | yokeBuffer
  | seqMemory
  deriving DecidableEq, Repr

/-- The checkers with a self-test (R645). -/
inductive Checker where
  | arrayChecksum (p : PanelId)
  | seamResidue (p : PanelId)
  | reduceResidue (p : PanelId)
  | seqLockstep (p : PanelId)
  | hubLockstep
  | panelConfig (p : PanelId)
  | hubConfig
  | sramEcc (p : PanelId)
  | droop (p : PanelId)
  | clockMonitor (p : PanelId)
  deriving DecidableEq, Repr

/-- What a failed host access served (R809, R848). -/
inductive HostUse where
  | operand (ctx : Code) (ring : RingId)
  | fetch (ctx : Code) (ring : RingId)
  | completion (ctx : Code) (ring : RingId)
  | eventLine (ctx : Code) (ring : RingId)
  | errorRing | heartbeat | crash | dumpRing | admissionRing
  | mailbox
  | admissionRecord
  | retireTable (p : PanelId)
  | doorbell (ctx : Code) (ring : RingId)
  | hostCounter (ctx : Code) (n : Fin 64)
  | counterPage (ctx : Code)
  deriving DecidableEq, Repr

/-- A firmware image as Thimble finds it in a slot (R760, R761). `valid`: magic, digest and signature verify. -/
structure FwImage where
  component : BitVec 8
  version : BitVec 16
  svn : BitVec 8
  fuseSvn : BitVec 8
  digest : BitVec 512
  valid : Bool
  deriving DecidableEq, Repr

/-- A Data Object Exchange request (R801, R785). -/
inductive DoeObject where
  | discovery (index : Nat)
  | spdm (message : List Byte) (opensIde : Bool)
  | cdat (entry : Nat)
  | other
  deriving DecidableEq, Repr

/-- The commands: one constructor for each row of the table of operations and events, in its order. -/
inductive Instr where
  /-- R70. Setting HUB.NEEDLE_CTL.EN runs the enable checks and starts the counter in FREE or LISTEN. -/
  | needleEnable (value : BitVec 32)
  /-- R50. Clearing HUB.NEEDLE_CTL.EN stops the counter, enters DISABLED and fails held needle-scheduled descriptors. -/
  | needleDisable (value : BitVec 32)
  /-- R42. A marker flit arrives, is judged valid or not, and disciplines the counter. -/
  | markerReceive (port : PortId) (m : Marker) (phase100ps : BitVec 16)
  /-- R40. At each marker position the Treadle sends, and every other module re-emits, marker flits on enabled ports. -/
  | markerEmit
  /-- R29. The tick count reaches STITCH_NS, the stitch number advances and the angle restarts at 0. -/
  | stitchEdge
  /-- R905. STITCH_OUT returns low 500 ns after the pulse began. -/
  | stitchOutEnd
  /-- R36. A candidate in LISTEN with no better marker for 8 marker intervals loads HUB.NEEDLE_LOAD and becomes the Treadle. -/
  | election
  /-- R37. A candidate in HOLDOVER whose source has been silent for its rank-dependent wait becomes the Treadle without reloading its counter. -/
  | takeover
  /-- R46. After 4 marker intervals without a valid marker the counter enters HOLDOVER, or LOST from REACQUIRING. -/
  | holdoverEntry
  /-- R50. After 2 s in HOLDOVER the counter enters LOST. -/
  | holdoverLimit
  /-- R50. After 50 ms in ACQUIRING without lock the counter enters LOST with reason NEEDLE_LOCK_TIMEOUT. -/
  | lockTimeout
  /-- R50. After 2 s in REACQUIRING without lock the counter enters LOST. -/
  | reacquireTimeout
  /-- R50. When the duplicated Needle counters disagree, the counter enters LOST and a fault record is written. -/
  | needleCounterFault
  /-- R878. A 4-byte read of the low half of a 64-bit register latches its high half for the next read. -/
  | lowHalfReadLatch (offset : Nat)
  /-- R834. A read of counter n - 1 of a chained pair latches counter n for the next read. -/
  | pmcChainedRead (scope : PmcScope) (n : Nat)
  /-- R60. A waiting descriptor's start position is reached, its lateness is judged and its first tack may begin. -/
  | descriptorStart (ctx : Code) (ring : RingId)
  /-- R683. At its scheduled position a panel writes its heartbeat line and progress entries. -/
  | heartbeat (panel : PanelId)
  /-- R592. At the abort stitch the aborted contexts' rings are flushed with STEP_ABORTED and their Gusset, Bobbin and buckets are cleared. -/
  | stepAbortApply
  /-- R591. At the update stitch the module flips every commit set, or aborts the step, or becomes COMMIT_UNCERTAIN. -/
  | updateCommit
  /-- R604. At its stitch edge a Fitting snapshots the active banks of its commit sets. -/
  | fittingSnapshot (ctx : Code) (ring : RingId)
  /-- R713. At a stitch edge the power controller changes each panel by at most one frequency step or one allowance unit. -/
  | powerRampStep
  /-- R600. A collective with a start position begins its first send at that position, or at once marked LATE. -/
  | collectivePhase (ctx : Code) (ring : RingId)
  /-- R852. Every K_STITCHES stitches all counters are sampled at one NCLK tick for a dump. -/
  | counterDumpSnapshot
  /-- R855. A waiting snapshot is written to the dump ring once the previous record is written and room exists. -/
  | dumpRecordWrite
  /-- R541. A relay step's send begins once its position, its grant and the previous receive have all been reached. -/
  | relayStepStart (ctx : Code) (ring : RingId)
  /-- R120. At a tack boundary the panel sequencer chooses replay, pre-emption, an idle tack or the next tack. -/
  | tackBoundary (panel : PanelId)
  /-- R115. After its last entry and passing checks, a tack commits and releases its held effects. -/
  | tackCommit (panel : PanelId)
  /-- R124. A checksum or row-parity failure stops and discards the tack, writes a record and starts its replay. -/
  | tackCheckFail (panel : PanelId) (column entry : Nat) (diff : BitVec 64) (parity : Bool)
  /-- R83. A stationary tile completes loading into the shadow plane. -/
  | shadowLoadDone (panel : PanelId)
  /-- R98. Writing 1 to PANELp.ARRAY_CTL.CERT_RUN restarts certification if no context is resident, and is otherwise ignored with ARRAY_CERT_BUSY. -/
  | certRun (panel : PanelId)
  /-- R97. Certification finishes and sets CERT_DONE and leaves chain mode, or sets CERT_FAIL. -/
  | certComplete (panel : PanelId) (pass : Bool)
  /-- R136. A matrix-product descriptor computes Y = X * W in tacks. -/
  | matmul (ctx : Code) (ring : RingId)
  /-- R336. A SEAM descriptor runs a registered chain over an input matrix. -/
  | seam (ctx : Code) (ring : RingId)
  /-- R326. SEAM_CTL CHAIN_REG registers or removes a chain record. -/
  | seamCtlChainReg (ctx : Code) (ring : RingId)
  /-- R302. SEAM_CTL TABLE_LOAD copies a table image into a slot or empties it. -/
  | seamCtlTableLoad (ctx : Code) (ring : RingId)
  /-- R274. STORE_CTL CONFIG sets the context's Bobbin share, Gusset share and spill area. -/
  | storeCtlConfig (ctx : Code) (ring : RingId)
  /-- R242. STORE_CTL RECOMP registers or removes a recompute descriptor for a tag. -/
  | storeCtlRecomp (ctx : Code) (ring : RingId)
  /-- R247. STORE_CTL RELEASE releases every stash entry in a tag range. -/
  | storeCtlRelease (ctx : Code) (ring : RingId)
  /-- R276. GUSSET_OPEN opens a Gusset entry with its home and front lines. -/
  | gussetOpen (ctx : Code) (ring : RingId)
  /-- R258. GUSSET_ACC adds a matrix from memory into a Gusset entry. -/
  | gussetAcc (ctx : Code) (ring : RingId)
  /-- R265. GUSSET_FLUSH delivers, writes or drops an entry, and optionally clears or closes it. -/
  | gussetFlush (ctx : Code) (ring : RingId)
  /-- R452. COPY moves rows of bytes between context addresses in DMA tacks. -/
  | copy (ctx : Code) (ring : RingId)
  /-- R453. FILL writes a repeating 8-byte pattern over rows. -/
  | fill (ctx : Code) (ring : RingId)
  /-- R392. MEM_WINDOW OPEN creates an open-region entry of the host window. -/
  | memWindowOpen (ctx : Code) (ring : RingId)
  /-- R397. MEM_WINDOW CLOSE removes an entry after its accepted window accesses complete. -/
  | memWindowClose (ctx : Code) (ring : RingId)
  /-- R440. SYNC performs only its header's wait, start position and signal. -/
  | sync (ctx : Code) (ring : RingId)
  /-- R552. COMM_JOIN joins the context to a communicator and completes after exchanging join notices. -/
  | commJoin (ctx : Code) (ring : RingId)
  /-- R559. COMM_LEAVE frees the communicator slot. -/
  | commLeave (ctx : Code) (ring : RingId)
  /-- R574. REDUCE completes when its bucket's reduction, sums and statistic exchange for the step have finished. -/
  | reduce (ctx : Code) (ring : RingId)
  /-- R596. ALLREDUCE sums a tensor over the members by tally words and returns identical bits to all. -/
  | allreduce (ctx : Code) (ring : RingId)
  /-- R597. BROADCAST sends bytes from the root member to every other member. -/
  | broadcast (ctx : Code) (ring : RingId)
  /-- R583. RETURN sends the owner's updated slice into every member's pending bank. -/
  | collReturn (ctx : Code) (ring : RingId)
  /-- R598. SEND transfers bytes to a peer rank after its matching RECV grants. -/
  | collSend (ctx : Code) (ring : RingId)
  /-- R598. RECV grants and receives the matching SEND of a peer rank. -/
  | collRecv (ctx : Code) (ring : RingId)
  /-- R540. RELAY circulates blocks around a ring of modules step by step. -/
  | relay (ctx : Code) (ring : RingId)
  /-- R606. FITTING ships a signed snapshot of commit sets to host memory or a fabric rank. -/
  | fitting (ctx : Code) (ring : RingId)
  /-- R578. STEP_COMMIT DEFINE declares or removes a commit set of two banks and a view. -/
  | stepCommitDefine (ctx : Code) (ring : RingId)
  /-- R586. STEP_COMMIT COMMIT prepares a step for its update stitch and completes as the vote decides. -/
  | stepCommitCommit (ctx : Code) (ring : RingId)
  /-- R590. STEP_COMMIT ABORT issues a step abort with abort stitch s + 2. -/
  | stepCommitAbort (ctx : Code) (ring : RingId)
  /-- R437. A fetched descriptor has its SEQ and header checked and is queued on its ring. -/
  | descriptorFetch (ctx : Code) (ring : RingId)
  /-- R467. Once all effects are visible, a descriptor's completion is made in ring order. -/
  | descriptorComplete (ctx : Code) (ring : RingId)
  /-- R424. ADMIT verifies and measures a signed admission record and admits the context. -/
  | admitContext
  /-- R426. LEAVE removes a context, flushing its rings first when FORCE is set. -/
  | leave
  /-- R476. RESUME continues or retries halted rings. -/
  | resume
  /-- R479. FLUSH completes a ring's descriptors up to TAIL with FLUSHED. -/
  | flush
  /-- R418. REMAP makes changed map entries take effect and claims or releases frames. -/
  | remap
  /-- R484. Setting HUB.ADMIT_CTL.EN checks the admission ring setup and starts processing at sequence 0. -/
  | admitEnable (value : BitVec 32)
  /-- R485. Clearing HUB.ADMIT_CTL.EN stops admission processing after the current command. -/
  | admitDisable (value : BitVec 32)
  /-- R435. At each polling interval the device reads doorbell, head and host-counter lines. -/
  | doorbellPoll
  /-- R814. A SnpInv to a held line is answered RspIHitSE and the line is dropped. -/
  | snpinv (addr : Nat) (line : List Byte)
  /-- R814. A SnpData is answered RspSHitSE for a held line and RspIHitI otherwise. -/
  | snpdata (addr : Nat)
  /-- R814. A SnpCur is answered RspSHitSE for a held line and RspIHitI otherwise. -/
  | snpcur (addr : Nat)
  /-- R410. A resident unpinned context is swapped out to its save area at a tack boundary. -/
  | swapOut (ctx : Code)
  /-- R410. A swapped context with a ready ring is read back from its save area before its next tack. -/
  | swapIn (ctx : Code)
  /-- R240. Spilled entries are prefetched back into the Bobbin when share space has returned. -/
  | bobbinPrefetch (ctx : Code)
  /-- R402. Setting PANELp.MEM_CTL.EN runs the memory checks and lowers the fence. -/
  | memEnable (panel : PanelId) (value : BitVec 32)
  /-- R400. Clearing PANELp.MEM_CTL.EN is ignored while the panel is enabled, and otherwise disables memory. -/
  | memDisable (panel : PanelId) (value : BitVec 32)
  /-- R388. Writing 1 to PANELp.MEM_RETIRE_CTL.LOAD starts loading the retire table from host memory. -/
  | retireLoad (panel : PanelId) (value : BitVec 32)
  /-- R926. A retire-table load finishes with LOADED set, or fails with RETIRE_TABLE_INVALID. -/
  | retireLoadDone (panel : PanelId)
  /-- R389. A write to PANELp.MEM_RETIRE_ADD retires one page at run time. -/
  | memRetireAdd (panel : PanelId) (value : BitVec 32)
  /-- R378. A memory access returns, is decoded, and is corrected or reported. -/
  | memoryReadReturn (mpa : Nat) (error : ReadError) (by_ : Requester)
  /-- R379. A corrected-error rate window ends, its count restarts and a scrub pass begins. -/
  | rateWindowEnd (panel : PanelId)
  /-- R383. Scrub reads an access at Ivory class and corrects it or poisons it. -/
  | scrubRead (panel : PanelId) (access : Nat) (error : ReadError)
  /-- R367. A channel refreshes all its banks for 160 ns at its interval. -/
  | refresh (panel : PanelId) (stack : Fin 4) (channel : Fin 128)
  /-- R369. A channel spends 98 ns in each 2.0 us on retraining and a command-path check. -/
  | interfaceMaintenance (panel : PanelId) (stack : Fin 4) (channel : Fin 128)
  /-- R368. Every 8 us the controller samples stack sensors and adjusts the refresh interval. -/
  | stackSensorSample (panel : PanelId) (stack : Fin 4) (hottest : BitVec 8)
  /-- R362. A request older than its class's age limit is promoted to the Vermilion-rank queue. -/
  | requestPromotion (panel : PanelId) (channel : Fin 512)
  /-- R395. A CXL.mem MemRd through the window resolves by the open-region table and is served or poisoned. -/
  | memrd (offset : Nat)
  /-- R395. A CXL.mem MemRdData through the window resolves by the open-region table and is served or poisoned. -/
  | memrddata (offset : Nat)
  /-- R396. A CXL.mem MemWr through the window is written, or is dropped when unmapped. -/
  | memwr (offset : Nat) (data : List Byte) (poison : Bool)
  /-- R396. A CXL.mem MemWrPtl through the window is merged and written, or is dropped when unmapped. -/
  | memwrptl (offset : Nat) (data : List Byte) (mask : BitVec 64) (poison : Bool)
  /-- R798. A CXL.mem MemInv is answered Cmp as a no-op. -/
  | meminv (offset : Nat)
  /-- R548. Setting PORTn.CTL.EN runs the port checks and starts bring-up from WAIT_LASER. -/
  | portEnable (port : PortId) (value : BitVec 32)
  /-- R511. Clearing PORTn.CTL.EN takes the port to DISABLED from any state. -/
  | portDisable (port : PortId) (value : BitVec 32)
  /-- R510. Writing 1 to PORTn.CTL.DRAIN moves an UP port to DRAINING. -/
  | portDrain (port : PortId) (value : BitVec 32)
  /-- R510. Writing 0 to PORTn.CTL.DRAIN returns the port to UP. -/
  | portUndrain (port : PortId) (value : BitVec 32)
  /-- R510. A draining port whose queues and replay buffer are empty enters SAFE if its cartridge is being removed. -/
  | drainComplete (port : PortId)
  /-- R491. Setting a HUB.LC_CTL.REMOVE bit drains the cartridge's three ports and then turns its lasers off. -/
  | lcRemoveRequest (value : BitVec 32)
  /-- R491. Clearing a REMOVE bit reads the cartridge identity and brings its lasers up. -/
  | lcRemoveRelease (value : BitVec 32) (genuine : BitVec 8)
  /-- R491. A cartridge's lasers lock, it reports READY, and its ports train. -/
  | lcLasersLocked (cart : CartId)
  /-- R493. A cartridge not identified or not locked within 2 s sets FAULT, and its ports stay in WAIT_LASER. -/
  | lcLockTimeout (cart : CartId)
  /-- R492. A latch opened without request turns the cartridge's lasers off and takes its ports down. -/
  | lcLatchOpen (cart : CartId)
  /-- R509. A peer identity in a LINK_CTL codeword is checked, and the port goes DOWN if the peer is wrong or untrusted. -/
  | linkCtlIdentity (port : PortId) (peer : PeerIdentity)
  /-- R503. The ML-KEM link key exchange completes and the port enters SECURING. -/
  | keyExchangeDone (port : PortId) (ok : Bool)
  /-- R508. After credits are advertised the port becomes UP. -/
  | linkTrainingComplete (port : PortId) (credits : PeerCredits)
  /-- R508. A bring-up exceeding 100 ms takes the port DOWN with PORT_TRAIN_FAIL. -/
  | portTrainTimeout (port : PortId)
  /-- R496. A received codeword is decoded and checked by CRC, tag and sequence, then accepted or discarded. -/
  | codewordReceive (port : PortId) (cw : Codeword)
  /-- R500. No acknowledgement advancing for 2 us makes the sender replay. -/
  | replayTimeout (port : PortId)
  /-- R536. A received DOWN codeword takes the port down, and with cause MODULE marks routes to the sender unusable. -/
  | linkCtlDown (port : PortId) (moduleCause : Bool)
  /-- R535. No valid codeword for 500 ns takes the port down with PORT_PEER_DOWN. -/
  | peerSilence (port : PortId)
  /-- R535. Loss of signal on any lane takes the port down. -/
  | laneSignalLost (port : PortId) (lane : Fin 16)
  /-- R535. 8 consecutive uncorrectable codewords take the port down with PORT_LANE_FAIL. -/
  | codewordLockLost (port : PortId)
  /-- R528. MAX_AGE_US after the last old-route packet, held packets leave on the new egress. -/
  | routeHoldExpiry (dst : BitVec 15)
  /-- R511. 1 s after going DOWN with AUTO_RETRAIN set, the port returns to WAIT_LASER. -/
  | autoRetrain (port : PortId)
  /-- R529. An arriving packet is routed to its egress under the turn masks, or discarded. -/
  | packetForward (ingress : Fin 25) (pkt : Packet)
  /-- R517. A remote read request is served from memory, with poison marked. -/
  | remoteRead (head : PktHead) (bytes : Nat)
  /-- R517. A remote write request is written, and poison-marked accesses receive the poison code. -/
  | remoteWrite (head : PktHead) (data : List Byte)
  /-- R516. Read data or a write acknowledgement lands in the requester's reserved buffer. -/
  | remoteResponse (head : PktHead) (data : Option (List Byte))
  /-- R518. A refusal response fails the requesting descriptor with FABRIC_REFUSED or PANEL_FENCED. -/
  | refusal (head : PktHead) (code : Code)
  /-- R538. A loss notice fails the sending operation with FABRIC_LINK_LOST. -/
  | lossNotice (head : PktHead)
  /-- R533. No response within RESP_TIMEOUT_US fails the operation with FABRIC_TIMEOUT. -/
  | responseTimeout (xtag : BitVec 32)
  /-- R534. Writing 1 to HUB.FAB_ROUTE_CTL.LOAD starts reading the route image into the standby table. -/
  | routeLoad (value : BitVec 32)
  /-- R534. The route image has been read and checked, and STANDBY_VALID or a reason is set. -/
  | routeLoadDone
  /-- R534. Writing 1 to HUB.FAB_ROUTE_CTL.SWAP makes a valid standby table active under the route hold. -/
  | routeSwap (value : BitVec 32)
  /-- R542. A relay grant from the successor permits this member's send of a step. -/
  | relayGrant (head : PktHead) (grant : RelayGrant)
  /-- R543. Relay bulk packets from the predecessor land in a slot, and the full step raises RECV_EC. -/
  | relayBlock (head : PktHead) (block : RelayBlock)
  /-- R545. An acknowledgement of a relay send frees the slot for forwarding and advances completion. -/
  | relayAck (head : PktHead) (ack : RelayAck)
  /-- R556. A tree neighbour's join notice is compared, and the join completes or fails with COLL_MISMATCH. -/
  | joinNotice (head : PktHead) (notice : JoinNotice)
  /-- R567. A child's exponent and non-finite flag are combined and sent up the tree. -/
  | exponentPair (head : PktHead) (pair : ExponentPair)
  /-- R568. The root's combined exponent starts REDUCING, or returns the bucket to IDLE on a non-finite flag. -/
  | exponentResult (head : PktHead) (pair : ExponentPair)
  /-- R571. Arriving tally words are added into the owner's accumulation words. -/
  | tallyWords (head : PktHead) (words : TallyPacket)
  /-- R575. The exact squared-norm totals are summed up the tree and returned down it. -/
  | noiseStatistic (head : PktHead) (stat : NoisePacket)
  /-- R583. An owner's returned slice is written into this member's pending bank. -/
  | returnData (head : PktHead) (slice : ReturnPacket)
  /-- R598. A receiver's grant permits a BROADCAST, SEND or Fitting transfer to move. -/
  | collGrant (head : PktHead) (grant : CollGrant)
  /-- R597. BROADCAST, SEND or Fitting data lands at the receiver's destination. -/
  | collData (head : PktHead) (data : CollData)
  /-- R587. The commit root receives a READY(t, U) packet. -/
  | commitReady (head : PktHead) (ready : ReadyPacket)
  /-- R588. A DECIDE(t) packet is received and flooded once. -/
  | commitDecide (port : Option PortId) (decide_ : DecidePacket)
  /-- R588. At (U - 2, 0) a root missing a READY issues an abort with COMMIT_NOT_READY. -/
  | commitVoteDeadline
  /-- R692. A received step abort is latched in HUB.ABORT_STATUS and flooded once. -/
  | stepAbortPacket (port : Option PortId) (abort : AbortPacket)
  /-- R624. A Seam residue or lane parity failure replays the SEAM tack, or resets the panel on the second failure. -/
  | seamResidueFail (panel : PanelId) (stage lane : Nat)
  /-- R624. A reduction residue failure repeats the addition, or fails the collective on the second failure. -/
  | reduceResidueFail (panel : PanelId) (wordAddr : Nat) (again : Bool)
  /-- R624. A near-memory residue failure repeats the addition, or poisons the access on the second failure. -/
  | nearmemResidueFail (panel : PanelId) (elementAddr : Nat) (again : Bool)
  /-- R624. A panel sequencer lockstep mismatch resets the panel. -/
  | seqLockstepMismatch (panel : PanelId) (output : Nat) (fwPc : BitVec 64)
  /-- R624. A hub control lockstep mismatch starts a device warm reset. -/
  | hubLockstepMismatch (output : Nat) (fwPc : BitVec 64)
  /-- R624. A register parity error reloads the register from its shadow. -/
  | cfgParityError (offset : Nat) (flipped : BitVec 64)
  /-- R624. Every 8,000 NCLK ticks registers are compared with their shadows, and a mismatch is treated as a lockstep fault. -/
  | cfgShadowCheck (bad : Option (Nat × BitVec 64))
  /-- R624. A PLL outside its frequency limit discards the affected tacks for replay. -/
  | clockFault (domain : Fin 18) (kHz : BitVec 32)
  /-- R725. A rail outside its window discards running tacks, which replay or end in a panel reset. -/
  | railFault (rail : Nat) (mV : BitVec 16)
  /-- R624. A Thimble self-check failure stops Thimble until a device warm reset. -/
  | thimbleSelfCheckFail (engine : Nat)
  /-- R625. A single-bit SRAM error is corrected in line and written back. -/
  | sramCorrected (panel : PanelId) (where_ : SramStructure) (bank addr bit : Nat)
  /-- R626. An uncorrectable SRAM word is handled by the structure that holds it. -/
  | sramUncorrectable (panel : PanelId) (place : SramPlace) (bank addr : Nat)
  /-- R625. A Yoke flit retried 8 times resets the sending panel. -/
  | yokeRetryLimit (yokePort : Fin 9)
  /-- R625. Host link errors masked by replay are recorded in a coalesced record. -/
  | hostLinkError (lane : Nat) (replays : BitVec 32)
  /-- R645. A periodic checker self-test injects a known failure, and a miss resets the unit. -/
  | checkerSelftest (checker : Checker) (seen : Bool)
  /-- R633. A queued error record takes its sequence number and is written when the ring has room. -/
  | errorRecordWrite
  /-- R822. At the end of a MOD_ANGLES interval one message covers the SUCCESS completions written during it. -/
  | irqModerationExpiry (panel : PanelId)
  /-- R660. A detection or a write to PANELp.RESET_CTL.RESET starts a panel reset. -/
  | panelReset (panel : PanelId) (value : BitVec 32)
  /-- R661. After retraining and poison fill the panel reaches READY, and PANEL_RESET_DONE is recorded. -/
  | panelResetDone (panel : PanelId) (retrained : BitVec 4)
  /-- R674. A warm reset fences everything, ends all work, zeroises and reboots. -/
  | deviceWarmReset (value : BitVec 32) (zeroised imageSame : Bool)
  /-- R677. A cold reset switches off every package rail and repeats power-up. -/
  | deviceColdReset (value : BitVec 32)
  /-- R678. A 15-minute or 60-minute reset-counting window runs out. -/
  | escalationWindowExpiry (device : Bool)
  /-- R740. Every 10 us the input power is measured and the current integrator is updated. -/
  | powerSample (watts : Nat) (millivolts : Nat)
  /-- R724. A droop detector trip stretches PCLKp by 25 % within 2 array cycles. -/
  | droopTrip (panel : PanelId) (detector : Fin 16) (mV : BitVec 16)
  /-- R724. 64 array cycles without a trip end the stretch. -/
  | droopStretchEnd (panel : PanelId)
  /-- R727. A deferred frequency step takes effect after 5 us without a trip, and FREQ_DEFERRED is recorded. -/
  | freqStepDeferred (panel : PanelId)
  /-- R736. Junction and stack readings throttle, hold or release the panels. -/
  | tempSample (dies : Vector (BitVec 8) 4) (hub : BitVec 8) (stackTemps : Vector (BitVec 8) 32)
  /-- R743. Input current above 110 A for 50 us opens the input switch. -/
  | currentTrip
  /-- R733. 50 ms above the cap at the floor sets ADMIT_HOLD, and 50 ms at or below it clears ADMIT_HOLD. -/
  | admitHoldTimer
  /-- R739. Sprint ends after 2.0 s, or when the integrator reaches 1,400 J. -/
  | sprintLimit
  /-- R741. Every 60 s powered time and sprint residency are stored, and the sprint budget is judged. -/
  | lifetimeUpdate
  /-- R748. A write to HUB.PWR_CTL, PWR_CAP or PWR_RAMP is range-checked and takes effect at the next stitch edge. -/
  | pwrRegWrite (offset size : Nat) (value : BitVec 64)
  /-- R754. The mailbox returns the DIK certificate chain. -/
  | certChain
  /-- R764. The mailbox returns a signed device or context attestation report. -/
  | attest
  /-- R766. The mailbox creates a key-open pair and returns its report and encapsulation key. -/
  | keyOpen
  /-- R769. The mailbox unwraps and installs a tenant data key for a confidential context. -/
  | keyInstall
  /-- R793. The mailbox registers an admission authority and extends MEAS4. -/
  | authRegister
  /-- R793. The mailbox removes an admission authority and extends MEAS4. -/
  | authRemove
  /-- R787. A 32-byte debug challenge is generated and returned. -/
  | debugChallenge
  /-- R788. A valid token ends confidential contexts, destroys keys, sets DEBUG_OPEN and grants scopes. -/
  | debugUnlock
  /-- R763. A firmware image set is verified and staged in the slot that did not boot. -/
  | fwStage
  /-- R766. A key-open pair is destroyed 60 s after its creation. -/
  | kemPairExpiry (slot : Fin 16)
  /-- R758. After Thimble's reset release, ROM and Thimble verify and measure firmware and open the mailbox. -/
  | thimbleBoot (storeSound : Bool)
  /-- R782. The background zeroing of a fresh unowned frame completes and sets CLEAN. -/
  | frameZeroed (frame : Nat)
  /-- R828. Setting HUB.DEV_CTL.EN runs the device checks and starts the error ring, heartbeats and MEAS3. -/
  | deviceEnable (value : BitVec 32)
  /-- R829. Clearing HUB.DEV_CTL.EN is ignored while blocks are enabled, and otherwise stops heartbeats and ring writes. -/
  | deviceDisable (value : BitVec 32)
  /-- R803. A configuration request is answered with CRS until the boot completes. -/
  | configRequest (offset : Nat) (write : Option (BitVec 32))
  /-- R818. A commit of HDM decoder 0 is accepted or refused with Error Not Committed. -/
  | hdmCommit (commit : Bool) (base size ways : Nat) (lock : Bool)
  /-- R808. An ATS invalidation drops the affected translations and held lines. -/
  | atsInvalidate (addr size : Nat)
  /-- R809. A failed host access is handled according to what it served. -/
  | hostAccessFault (use : HostUse) (addr : Nat) (refused : Bool)
  /-- R809. Writing 1 to a HUB.HOST_FAULT bit resumes writes to that area. -/
  | hostFaultClear (value : BitVec 32)
  /-- R801. A Data Object Exchange request for discovery, SPDM or CDAT is answered. -/
  | doeRequest (obj : DoeObject)
  /-- R823. Conventional reset asserted on the host connector starts a warm reset. -/
  | perstAssert
  /-- R823. A received hot reset starts a warm reset. -/
  | hotReset
  /-- R823. A received link disable starts a warm reset. -/
  | linkDisable
  /-- R824. Entry to D3hot starts a warm reset while the device is enabled, and changes nothing otherwise. -/
  | d3hotEntry
  /-- R823. Loss of the host link starts a warm reset within 1 us. -/
  | hostLinkLoss
  /-- R823. While the link is in Recovery host-bound requests are held, and they resume in order on return to L0. -/
  | linkRecovery (enter : Bool)
  /-- R873. Writing 1 to PMC_CTL.CLEAR zeroes every counter in scope and clears OVF. -/
  | pmcClear (scope : PmcScope) (value : BitVec 32)
  /-- R837. Setting or clearing PMC_CTL.FREEZE freezes or releases the counters in scope at one NCLK tick. -/
  | pmcFreeze (scope : PmcScope) (value : BitVec 32)
  /-- R858. Setting HUB.DUMP_CTL.EN checks the dump ring and starts dumps. -/
  | dumpEnable (value : BitVec 32)
  /-- R859. Test-Logic-Reset through TMS or TRST_N selects IDCODE. -/
  | tapReset
  /-- R859. The IDCODE instruction selects the 32-bit identification register. -/
  | idcode
  /-- R859. SAMPLE/PRELOAD selects the boundary-scan register. -/
  | samplePreload
  /-- R860. EXTEST drives sideband pins while the device enable is clear, and acts as BYPASS otherwise. -/
  | extest
  /-- R861. The DAP instruction selects the 96-bit debug access register. -/
  | dap
  /-- R859. BYPASS, and every unlisted code, selects the 1-bit bypass register. -/
  | bypass
  /-- R862. A DAP NOP returns the status of the last completed request. -/
  | dapNop
  /-- R864. A DAP READ32 reads a word from the selected space, after unlock. -/
  | dapRead32 (space : BitVec 4) (addr : BitVec 48)
  /-- R864. A DAP WRITE32 writes a word to the selected space, after unlock. -/
  | dapWrite32 (space : BitVec 4) (addr : BitVec 48) (data : BitVec 32)
  /-- R862. A DAP READ_INC reads a word and advances ADDR by 4. -/
  | dapReadInc (space : BitVec 4) (addr : BitVec 48)
  /-- R862. A DAP WRITE_INC writes a word and advances ADDR by 4. -/
  | dapWriteInc (space : BitVec 4) (addr : BitVec 48) (data : BitVec 32)
  /-- R865. A DAP CHALLENGE requests a debug challenge into the token buffer. -/
  | dapChallenge
  /-- R865. A DAP UNLOCK submits the token buffer for a debug unlock. -/
  | dapUnlock
  /-- R867. A DAP HALT stops both cores of a panel sequencer at one instruction boundary. -/
  | dapHalt (space : BitVec 4) (addr : BitVec 48)
  /-- R868. A DAP RESUME restarts a halted panel sequencer. -/
  | dapResume (space : BitVec 4) (addr : BitVec 48)
  /-- R862. A DAP STEP makes a halted sequencer execute one instruction. -/
  | dapStep (space : BitVec 4) (addr : BitVec 48)
  /-- R870. A DAP STEP_TACK runs the sequencer until one tack has committed or been discarded. -/
  | dapStepTack (space : BitVec 4) (addr : BitVec 48)
  /-- R871. A sequencer instruction at an enabled breakpoint halts before it executes. -/
  | breakpointHit (panel : PanelId) (index : Fin 8) (pc : BitVec 32)
  /-- R871. A matching data access halts the sequencer after it completes. -/
  | watchpointHit (panel : PanelId) (index : Fin 4) (pc addr : BitVec 32) (write : Bool)
  /-- R885. Setting PANELp.CTL.EN runs the panel checks and starts certification. -/
  | panelEnable (panel : PanelId) (value : BitVec 32)
  /-- R886. Clearing PANELp.CTL.EN is ignored while contexts are bound to the panel. -/
  | panelDisable (panel : PanelId) (value : BitVec 32)
  /-- R879. A write to a register without a row of its own updates its fields, subject to RWL locks and W1C. -/
  | registerWrite (offset size : Nat) (value : BitVec 64)
  /-- R916. PWR_EN high with input and PSENSE present starts the power-up sequence. -/
  | pwrEnRise
  /-- R916. The stacks finish training at power-up and set their TRAINED bits. -/
  | stackTrainingDone (panel : PanelId) (trained : BitVec 4)
  /-- R920. PWR_EN falling starts a power-down. -/
  | pwrEnFall
  /-- R920. Input falling below 38.0 V starts a power-down. -/
  | inputUndervoltage (mV : Nat)
  /-- R900. Input above 58.0 V opens the switch and acts as a loss of input power. -/
  | inputOvervoltage (mV : Nat)
  /-- R920. PSENSE breaking starts a power-down. -/
  | psenseBreak
  /-- R901. RESET_N low for at least 10 us starts a device cold reset. -/
  | resetNAssert
  /-- R917. Release of RESET_N restarts the power-up sequence from t0. -/
  | resetNRelease
  /-- R523. At each codeword slot an egress port chooses its next codeword by the precedence of marker, LINK_CTL, replay, channels and IDLE, encrypts it under the current epoch key and advances the codeword index. -/
  | nextCodeword (port : PortId)
  /-- R508. During training a port's receiver decodes 64 consecutive codewords and gains codeword lock, after which identity exchange can begin. -/
  | codewordLock (port : PortId)
  /-- R624. A supply rail that left its window returns within it, and the tacks discarded on that rail replay. -/
  | railReturn (rail : Nat)
  /-- R624. A rail that has not returned within its window 100 us after the fault causes a panel reset. -/
  | railWindowTimeout (rail : Nat)
  /-- R624. A PLL that was outside its frequency limit returns within it, and the discarded tacks of the affected panels replay. -/
  | clockReturn (domain : Fin 18)
  /-- R799. The host link trains with a partner and reaches L0, in CXL mode or PCIe mode. -/
  | hostLinkUp (cxl : Bool) (width speed : Nat)
  /-- R823. Release of PERST_N on J1 lets the host link leave its reset state and train. -/
  | perstRelease
  /-- R898. The 48 V input rises above 38.5 V, or falls back below 57.0 V after an overvoltage switch-off, so that the input switch may close and power-up start. -/
  | inputReturn (mV : Nat)
  /-- R898. PSENSE mates when the module is inserted, so that the input switch may close and power-up start. -/
  | psenseMate
  /-- R491. A cartridge's bay latch closes after an insertion, and the cartridge becomes present. -/
  | lcLatchClose (cart : CartId)
  deriving DecidableEq, Repr

end Sys2Proof
end

