-- ==== Sys2Proof/Decode.lean ====
section
/-! DEFINITION. The words of commands. The table of operations and events gives no row any bits: a command is not a word
but an event with operands, so no word spells one. -/

namespace Sys2Proof

/-- The command that a word spells: none, since the table gives no row any bits. -/
def decodeTableWord (_ _ : Nat) : Option Instr := none

end Sys2Proof
end

