-- ==== Sys2Proof/Config.lean ====
section
/-! DEFINITION. What the manual leaves to the part, to a published standard, or open: the uninterpreted constants
of the model. None has a body that a proof could see. -/

namespace Sys2Proof

/-- A free value: the `n`-th draw of a value that the manual leaves undefined or random (assumption log 3). -/
opaque Config.freeNat : Nat → Nat

/-- The two check symbols of a 64-byte access, over its data and its panel physical address (R377); the manual does not
give the code. -/
opaque Config.checkSymbols : List Byte → Nat → BitVec 64

/-- The single-symbol error from which the decoder cannot tell an error in two or more symbols, if there is one (R378). -/
opaque Config.eccAlias : List (Fin 18 × BitVec 32) → Option (Fin 18 × BitVec 32)

/-- The shared secret of a link key exchange, by the draw that names the exchange (R503: an ML-KEM-1024 exchange). -/
opaque Config.linkSecret : Nat → List Byte

/-- The transcript digest of a link key exchange, by the draw that names the exchange (R503). -/
opaque Config.linkTranscript : Nat → List Byte

/-- The TYPE code of a packet of a kind (R514): the manual numbers only the marker and STEP_ABORT. -/
opaque Config.packetType : Nat → BitVec 16

/-- The bytes in which a packet or LINK_CTL codeword of a kind carries its values (R514: defined by the packet type, and the
manual defines them for the marker and STEP_ABORT only). -/
opaque Config.typeData : Nat → List Nat → List Byte

/-- The 16 parity symbols, 20 bytes, of the Reed-Solomon code over the 280 bytes of a codeword's data (R494); the manual gives
no generator. -/
opaque Config.rsParity : List Byte → List Byte

/-- SHA3-512 of a byte string, 64 bytes (00_scope.md names the published standard; assumption log 4). -/
opaque Config.sha3 : List Byte → BitVec 512

/-- Whether an ML-DSA-87 signature (third) over the digest (second) verifies under a public key (first). -/
opaque Config.mlDsaVerify : List Byte → BitVec 512 → List Byte → Bool

/-- The public key of the ML-DSA-87 key pair of a seed (R753). -/
opaque Config.mlDsaPublic : List Byte → List Byte

/-- The ML-DSA-87 signature that the key pair of a seed makes over a digest. -/
opaque Config.mlDsaSign : List Byte → BitVec 512 → List Byte

/-- ML-KEM-1024: the encapsulation key (1,568 bytes) of the key-open pair drawn with a number. -/
opaque Config.kemPublic : Nat → List Byte

/-- ML-KEM-1024 decapsulation of a ciphertext with the key-open pair drawn with a number (R768). -/
opaque Config.kemDecaps : Nat → List Byte → Option (List Byte)

/-- AES-256-GCM decryption: key, initialisation vector, additional data, ciphertext, tag (R768, R773). -/
opaque Config.gcmOpen : List Byte → List Byte → List Byte → List Byte → List Byte → Option (List Byte)

/-- AES-256-GCM encryption: key, initialisation vector, additional data, plaintext; the ciphertext and its 16-byte tag. -/
opaque Config.gcmSeal : List Byte → List Byte → List Byte → List Byte → List Byte × List Byte

/-- The silicon stepping of the part: `false` A0, `true` A1 (R4). -/
opaque Config.steppingA1 : Bool

/-- The response of the part's physical unclonable function (R753). -/
opaque Config.pufResponse : List Byte

/-- The part's fuse seed, 32 bytes as a number, little-endian (R753). -/
opaque Config.fuseSeed : BitVec 256

/-- The DIK certificate chain held in the non-volatile store (R754). -/
opaque Config.certChain : List Byte

/-- The ROM version (R756). -/
opaque Config.romVersion : Nat

/-- The content of the ROM start event (R756), whose layout the manual leaves open: the fuse seed digest, the fuse counters
THIMBLE_SVN, MAIN_SVN and DEBUG_COUNT, and the stepping. -/
opaque Config.romContent : BitVec 512 → Nat → Nat → Nat → Bool → List Byte

/-- The public key of the Stolyon debug authority, whose digest the fuses hold (R786). -/
opaque Config.debugAuthority : List Byte

/-- The SHA3-512 digest of the whole image of a component of the image set that a new module holds. -/
opaque Config.factoryDigest : Nat → BitVec 512

/-- The Stolyon firmware key, whose digest the fuses hold (R760). -/
opaque Config.firmwareKey : List Byte

/-- The power controller's calibrated prediction of the steady input power in watts (R720, R731), as a function
of the eight panels' frequency points (units of 40 MHz) and allowances. The manual gives no formula. -/
opaque Config.predictedWatts : List Nat → List Nat → Nat

/-- A configuration dword that the manual does not lay out: by its offset and the value last written to it (R801). -/
opaque Config.configWord : Nat → BitVec 32 → BitVec 32

/-- The number by which a CONFIG record names a register block (R638), by the block's BAR0 base; the manual gives none. -/
opaque Config.blockNumber : Nat → BitVec 16

/-- The answer of the SPDM responder to a message (R785, R801), whose content a published standard fixes. -/
opaque Config.spdmAnswer : List Byte → List Byte

/-- An entry of the CDAT (R801, R820). -/
opaque Config.cdat : Nat → List Byte

end Sys2Proof
end

