-- ==== Sys2Proof/Machine/Numerics.lean ====
section
/-! DEFINITION. Training numerics (04_training_numerics.md): formats, products and column sums, accumulator words,
rounding, the generator, value plus Lining, and binary32 lane words (06_seam_engine.md). -/

namespace Sys2Proof.Machine

/-! ## Exact numbers -/

/-- The dyadic number `m * 2 ^ e`. -/
structure Dy where
  m : Int
  e : Int
  deriving DecidableEq, Repr

/-- The value of a stored element or lane: a finite number with the sign of its zero, an infinity, or NaN. -/
inductive Num where
  | fin (neg : Bool) (m : Nat) (e : Int)
  | inf (neg : Bool)
  | nan
  deriving DecidableEq, Repr

/-- `2 ^ n` for a natural exponent given as an integer. -/
def pow2 (n : Int) : Int := 2 ^ n.toNat

/-- `floor (log2 n)` for `n > 0`; 0 for 0. -/
def floorLog2 (n : Nat) : Nat := Nat.log2 n

/-- `x / 2 ^ g`, rounded down. -/
def Dy.floorAt (x : Dy) (g : Int) : Int := if g ≤ x.e then x.m * pow2 (x.e - g) else x.m / pow2 (g - x.e)

/-- `x / 2 ^ g`, rounded toward zero. -/
def Dy.truncAt (x : Dy) (g : Int) : Int := if g ≤ x.e then x.m * pow2 (x.e - g) else Int.tdiv x.m (pow2 (g - x.e))

/-- The exact sum. -/
def Dy.add (x y : Dy) : Dy := let e := min x.e y.e; ⟨x.floorAt e + y.floorAt e, e⟩

/-- The exact product. -/
def Dy.mul (x y : Dy) : Dy := ⟨x.m * y.m, x.e + y.e⟩

/-- `x < y`. -/
def Dy.lt (x y : Dy) : Bool := let e := min x.e y.e; x.floorAt e < y.floorAt e

/-- The number with a given sign bit. -/
def Num.ofDy (x : Dy) : Num := .fin (x.m < 0) x.m.natAbs x.e

/-- The finite value; 0 for the others. -/
def Num.dy : Num → Dy
  | .fin neg m e => ⟨if neg then -(m : Int) else m, e⟩
  | _ => ⟨0, 0⟩

/-- The sign bit. -/
def Num.neg : Num → Bool
  | .fin n _ _ => n
  | .inf n => n
  | .nan => false

/-- The value with the other sign. -/
def Num.negate : Num → Num
  | .fin n m e => .fin (!n) m e
  | .inf n => .inf (!n)
  | .nan => .nan

/-- The magnitude. -/
def Num.abs : Num → Num
  | .fin _ m e => .fin false m e
  | .inf _ => .inf false
  | .nan => .nan

/-- The value is a zero. -/
def Num.isZero : Num → Bool
  | .fin _ m _ => m = 0
  | _ => false

/-- The exact product. -/
def Num.mul : Num → Num → Num
  | .nan, _ => .nan
  | _, .nan => .nan
  | .inf a, y => if y.isZero then .nan else .inf (a != y.neg)
  | x, .inf b => if x.isZero then .nan else .inf (x.neg != b)
  | .fin a m e, .fin b n f => .fin (a != b) (m * n) (e + f)

/-- The exact sum; a zero sum is +0 unless both terms are −0. -/
def Num.add : Num → Num → Num
  | .nan, _ => .nan
  | _, .nan => .nan
  | .inf a, .inf b => if a = b then .inf a else .nan
  | .inf a, _ => .inf a
  | _, .inf b => .inf b
  | .fin a m e, .fin b n f =>
    let s := ((Num.fin a m e).dy).add ((Num.fin b n f).dy)
    if s.m = 0 then .fin (a && b && m = 0 && n = 0) 0 0 else .ofDy s

/-- The value scaled by a power of two. -/
def Num.scale (x : Num) (k : Int) : Num :=
  match x with
  | .fin n m e => .fin n m (e + k)
  | y => y

/-- `x < y` on numbers that are not NaN. -/
def Num.lt : Num → Num → Bool
  | .nan, _ => false
  | _, .nan => false
  | .inf a, .inf b => a && !b
  | .inf a, _ => a
  | _, .inf b => !b
  | x, y => x.dy.lt y.dy

/-! ## Formats (R147) -/

/-- The format codes of R147. -/
def fmtBF16 : Nat := 1
/-- FP16 (R147). -/
def fmtFP16 : Nat := 2
/-- E4M3 (R147). -/
def fmtE4M3 : Nat := 3
/-- E5M2 (R147). -/
def fmtE5M2 : Nat := 4
/-- INT8 (R147). -/
def fmtINT8 : Nat := 5
/-- FP4MX (R147). -/
def fmtFP4 : Nat := 6
/-- CBF16 (R147). -/
def fmtCBF16 : Nat := 7

/-- A floating layout: significand bits with the hidden bit, bits in all, the exponent of its smallest subnormal, the
code of its largest finite magnitude, and whether its top exponent holds infinities. -/
structure FloatFmt where
  p : Nat
  width : Nat
  grid : Int
  maxCode : Nat
  ieee : Bool
  deriving DecidableEq, Repr

/-- BF16. -/
def ffBF16 : FloatFmt := ⟨8, 16, -133, 0x7F7F, true⟩
/-- FP16. -/
def ffFP16 : FloatFmt := ⟨11, 16, -24, 0x7BFF, true⟩
/-- E4M3. -/
def ffE4M3 : FloatFmt := ⟨4, 8, -9, 0x7E, false⟩
/-- E5M2. -/
def ffE5M2 : FloatFmt := ⟨3, 8, -16, 0x7B, true⟩
/-- E2M1, the elements of FP4MX. -/
def ffE2M1 : FloatFmt := ⟨2, 4, -1, 7, false⟩
/-- binary32, the lane word (R287). -/
def ffF32 : FloatFmt := ⟨24, 32, -149, 0x7F7FFFFF, true⟩

/-- The layout of a floating format code; BF16 for CBF16 components. -/
def floatFmt (fmt : Nat) : FloatFmt :=
  if fmt = 2 then ffFP16 else if fmt = 3 then ffE4M3 else if fmt = 4 then ffE5M2 else if fmt = 6 then ffE2M1 else ffBF16

/-- Bytes of one stored element; FP4MX elements take half a byte and are counted as 0 here. -/
def elemBytes (fmt : Nat) : Nat := if fmt = 3 || fmt = 4 || fmt = 5 then 1 else if fmt = 6 then 0 else 2

/-- Bytes of a stored row of `n` elements. -/
def rowBytes (fmt n : Nat) : Nat := if fmt = 6 then ceilDiv n 2 else n * elemBytes fmt

/-- The narrow formats, with a tensor scale or block scales (R153, R189). -/
def isNarrow (fmt : Nat) : Bool := 3 ≤ fmt && fmt ≤ 6

/-- The 16-bit formats. -/
def is16 (fmt : Nat) : Bool := fmt = 1 || fmt = 2

/-- The value of a floating code (R147, R150). -/
def FloatFmt.decode (f : FloatFmt) (code : Nat) : Num :=
  let neg := code.testBit (f.width - 1)
  let mag := code % 2 ^ (f.width - 1)
  if f.maxCode < mag then
    (if f.ieee && mag = f.maxCode + 1 then .inf neg else .nan)
  else
    let exp := mag / 2 ^ (f.p - 1)
    let man := mag % 2 ^ (f.p - 1)
    if exp = 0 then .fin neg man f.grid else .fin neg (man + 2 ^ (f.p - 1)) (f.grid + (exp - 1 : Nat))

/-- A stored element's value before its tensor or block scale. -/
def decodeElem (fmt code : Nat) : Num :=
  if fmt = 5 then let v := signedOf 8 code; .fin (v < 0) v.natAbs 0 else (floatFmt fmt).decode code

/-- The canonical NaN of a 16-bit or 8-bit floating format (R151). -/
def canonicalNan (fmt : Nat) : Nat :=
  if fmt = 2 then 0x7E00 else if fmt = 3 then 0x7F else if fmt = 4 then 0x7E else if fmt = 5 then 0 else 0x7FC0

/-! ## The rounding generator (R176 to R179) -/

/-- The key of a generator call (R176). -/
structure Key where
  seed : BitVec 64
  domain : Nat
  tid : Nat
  step : Nat
  i : Nat
  deriving DecidableEq, Repr

/-- The four counter words of R177. -/
structure GenWords where
  c0 : BitVec 32
  c1 : BitVec 32
  c2 : BitVec 32
  c3 : BitVec 32
  deriving DecidableEq, Repr

/-- One round of R177 under round keys. -/
def genRound (w : GenWords) (k0 k1 : BitVec 32) : GenWords :=
  let p0 := 0xD2B74407 * w.c0.toNat
  let p1 := 0xA94C3F2B * w.c2.toNat
  ⟨BitVec.ofNat 32 (p1 / 2 ^ 32) ^^^ w.c1 ^^^ k0, BitVec.ofNat 32 p1,
   BitVec.ofNat 32 (p0 / 2 ^ 32) ^^^ w.c3 ^^^ k1, BitVec.ofNat 32 p0⟩

/-- `n` rounds of R177, the round keys advancing by BUMP_A and BUMP_B (R178). -/
def genRounds : Nat → GenWords → BitVec 32 → BitVec 32 → GenWords
  | 0, w, _, _ => w
  | n + 1, w, k0, k1 => genRounds n (genRound w k0 k1) (k0 + 0x7F4A7C15) (k1 + 0x5851F42D)

/-- The generator word (R177). -/
def Key.gen (k : Key) : BitVec 32 :=
  let g := k.i / 4
  let w := genRounds 10 ⟨BitVec.ofNat 32 g, BitVec.ofNat 32 (k.domain * 2 ^ 28 + g / 2 ^ 32 % 2 ^ 28), BitVec.ofNat 32 k.tid,
    BitVec.ofNat 32 k.step⟩ (k.seed.setWidth 32) ((k.seed >>> 32).setWidth 32)
  if k.i % 4 = 0 then w.c0 else if k.i % 4 = 1 then w.c1 else if k.i % 4 = 2 then w.c2 else w.c3

/-- u24(κ): bits [31:8] of the generator word (R173). -/
def Key.u24 (k : Key) : Nat := k.gen.toNat / 256

/-! ## Rounding to a stored format (R170 to R172) -/

/-- Round `n + rem / den` (rem < den) to an integer by RMODE (R170). -/
def roundUp1 (rmode : Nat) (k : Key) (n rem den : Nat) : Nat :=
  let up := if rmode = 0 then decide (den < 2 * rem) || (decide (2 * rem = den) && n % 2 = 1)
            else decide (k.u24 < rem * 2 ^ 24 / den)
  if up then n + 1 else n

/-- The magnitude code of `m * 2 ^ e` in a floating layout, not yet held to its largest finite magnitude. -/
def FloatFmt.roundMag (f : FloatFmt) (rmode : Nat) (k : Key) (m : Nat) (e : Int) : Nat :=
  if m = 0 then 0 else
  let ulp := max ((floorLog2 m : Int) + e - (f.p - 1 : Nat)) f.grid
  let n := if ulp ≤ e then roundUp1 rmode k (m * 2 ^ (e - ulp).toNat) 0 1
           else roundUp1 rmode k (m / 2 ^ (ulp - e).toNat) (m % 2 ^ (ulp - e).toNat) (2 ^ (ulp - e).toNat)
  (ulp - f.grid).toNat * 2 ^ (f.p - 1) + n

/-- A code with its sign bit. -/
def FloatFmt.signed (f : FloatFmt) (neg : Bool) (mag : Nat) : Nat := if neg then 2 ^ (f.width - 1) + mag else mag

/-- Round a value, already divided by its scale, to a format: the code, and whether it saturated (R151, R152, R170 to
R172). FP4MX elements come with their block scale removed. -/
def roundTo (fmt rmode : Nat) (k : Key) (x : Num) : Nat × Bool :=
  match x with
  | .nan => (canonicalNan fmt, fmt = 5)
  | .inf neg =>
    if fmt = 5 then (patternOf 8 (if neg then -127 else 127), true)
    else let f := floatFmt fmt
      if fmt = 3 || fmt = 6 then (f.signed neg f.maxCode, true) else (f.signed neg (f.maxCode + 1), false)
  | .fin neg m e =>
    if m = 0 then (0, false)
    else if fmt = 5 then
      let n := if 0 ≤ e then m * 2 ^ e.toNat else roundUp1 rmode k (m / 2 ^ (-e).toNat) (m % 2 ^ (-e).toNat) (2 ^ (-e).toNat)
      (patternOf 8 (if neg then -((min n 127 : Nat) : Int) else (min n 127 : Nat)), decide (127 < n))
    else
      let f := floatFmt fmt
      let c := f.roundMag rmode k m e
      if c = 0 then (0, false)
      else if f.maxCode < c then
        (if fmt = 1 || fmt = 2 || fmt = 7 then (f.signed neg (f.maxCode + 1), false) else (f.signed neg f.maxCode, true))
      else (f.signed neg c, false)

/-- A magnitude rounded toward zero to BF16, as a pattern (R198); infinities count as the largest finite one. -/
def bf16Trunc (x : Num) : Nat :=
  match x with
  | .nan => 0
  | .inf _ => 0x7F7F
  | .fin _ m e =>
    if m = 0 then 0 else
    let ulp := max ((floorLog2 m : Int) + e - 7) (-133)
    let n := if ulp ≤ e then m * 2 ^ (e - ulp).toNat else m / 2 ^ (ulp - e).toNat
    min ((ulp + 133).toNat * 128 + n) 0x7F7F

/-! ## Operands, column sums and accumulator words (R155 to R169) -/

/-- How an operand or result is read or written: its effective format code and its scale exponent σ (for FP4MX, its
window top T), and whether it is cold (R156, R201, R205). -/
structure OperandFmt where
  fmt : Nat := 0
  sigma : Int := 0
  cold : Bool := false
  deriving DecidableEq, Repr

/-- The grid exponent of an operand (R156). -/
def OperandFmt.grid (o : OperandFmt) : Int :=
  if o.fmt = 2 then -24 else if o.fmt = 3 then -9 + o.sigma else if o.fmt = 4 then -16 + o.sigma
  else if o.fmt = 5 then o.sigma else if o.fmt = 6 then -1 + (o.sigma - 31) else -133

/-- The operand formats of fixed pairs (R155). -/
def OperandFmt.isFixed (o : OperandFmt) : Bool := 3 ≤ o.fmt && o.fmt ≤ 6

/-- The class of a column result or an accumulator word (R163). -/
inductive AccClass where
  | finite | posInf | negInf | nan
  deriving DecidableEq, Repr

/-- Classes combine (R164). -/
def AccClass.join : AccClass → AccClass → AccClass
  | .nan, _ => .nan
  | _, .nan => .nan
  | .finite, c => c
  | c, .finite => c
  | .posInf, .posInf => .posInf
  | .negInf, .negInf => .negInf
  | _, _ => .nan

/-- An accumulator word, or a column result: a class and `m * 2 ^ e` (R166). -/
structure AccWord where
  cls : AccClass := .finite
  m : Int := 0
  e : Int := 0
  deriving DecidableEq, Repr

/-- The class of one product (R164). -/
def Num.accClass : Num → AccClass
  | .fin .. => .finite
  | .inf false => .posInf
  | .inf true => .negInf
  | .nan => .nan

/-- floor(log2 |p|) of a finite non-zero product. -/
def Num.exponent : Num → Option Int
  | .fin _ m e => if m = 0 then none else some ((floorLog2 m : Int) + e)
  | _ => none

/-- The column result of a list of products (R157, R160). -/
def columnResult (fixed : Bool) (gmin : Int) (ps : List Num) : AccWord :=
  let cls := ps.foldl (fun c p => c.join p.accClass) .finite
  let g := if fixed then gmin
    else match (ps.filterMap Num.exponent).max? with
      | some e => max (e - 40) gmin
      | none => gmin
  ⟨cls, ps.foldl (fun a p => a + p.dy.truncAt g) 0, g⟩

/-- acc_add (R167): exact on the fixed payload, cut to 62 bits on the floating one. -/
def accAdd (fixed : Bool) (gmin : Int) (a u : AccWord) : AccWord :=
  let cls := a.cls.join u.cls
  let e0 := min a.e u.e
  let s := a.m * pow2 (a.e - e0) + u.m * pow2 (u.e - e0)
  if fixed then ⟨cls, s, e0⟩
  else if s = 0 then ⟨cls, 0, gmin⟩
  else
    let shift := (floorLog2 s.natAbs + 1) - 62
    ⟨cls, Int.tdiv s (2 ^ shift), e0 + shift⟩

/-- The negated column result (R168). -/
def AccWord.negate (u : AccWord) : AccWord :=
  { u with m := -u.m, cls := match u.cls with | .posInf => .negInf | .negInf => .posInf | c => c }

/-- The value that an accumulator word stands for. -/
def AccWord.num (a : AccWord) : Num :=
  match a.cls with
  | .nan => .nan
  | .posInf => .inf false
  | .negInf => .inf true
  | .finite => .fin (a.m < 0) a.m.natAbs a.e

/-- The upper part of an FP16 value, its 8 upper significand bits (R101). -/
def fp16Hi (x : Num) : Num :=
  match x with
  | .fin n m e => .fin n (m / 8 * 8) e
  | y => y

/-- The lower part of an FP16 value, its 3 lower significand bits (R101). -/
def fp16Lo (x : Num) : Num :=
  match x with
  | .fin n m e => .fin n (m % 8) e
  | _ => .fin false 0 0

/-- The product of component `c` of an FP16 pair as it enters the column (R74, R101, R161): the cross mode enters the sum
of its two products. Special operands enter once, with the first. -/
def fp16Products (c : Nat) (ab : Num × Num) : List Num :=
  if c = 0 then
    match ab.1.mul ab.2 with
    | .fin .. => [(fp16Hi ab.1).mul (fp16Hi ab.2)]
    | p => [p]
  else
    match ab.1.mul ab.2 with
    | .fin .. => [((fp16Hi ab.1).mul (fp16Lo ab.2)).add ((fp16Lo ab.1).mul (fp16Hi ab.2))]
    | _ => []

/-! ## Value plus Lining (R181 to R187) -/

/-- The code of the next value above a finite 16-bit value, as an ordered integer step: codes of a sign and magnitude. -/
def stepUp (f : FloatFmt) (code : Nat) : Nat :=
  let half := 2 ^ (f.width - 1)
  if code < half then code + 1 else if code = half then 1 else if code = half + 1 then 0 else code - 1

/-- The exponent of unit(v) for a finite value code (R181). -/
def liningUnit (f : FloatFmt) (code : Nat) : Int :=
  let exp := code % 2 ^ (f.width - 1) / 2 ^ (f.p - 1)
  f.grid + (exp - 1 : Nat) - 8

/-- The nearest value to `x`, ties toward +∞ (R184): a code, with +∞ and −∞ as codes too. -/
def nearestUp (f : FloatFmt) (x : Dy) : Nat :=
  if x.m = 0 then 0 else
  let m := x.m.natAbs
  let ulp := max ((floorLog2 m : Int) + x.e - (f.p - 1 : Nat)) f.grid
  let n := if ulp ≤ x.e then m * 2 ^ (x.e - ulp).toNat else m / 2 ^ (ulp - x.e).toNat
  let rem := if ulp ≤ x.e then 0 else m % 2 ^ (ulp - x.e).toNat
  let den := if ulp ≤ x.e then 1 else 2 ^ (ulp - x.e).toNat
  let up := decide (den < 2 * rem) || (decide (2 * rem = den) && decide (0 ≤ x.m))
  let c := min ((ulp - f.grid).toNat * 2 ^ (f.p - 1) + (if up then n + 1 else n)) (f.maxCode + 1)
  if c = 0 then 0 else f.signed (x.m < 0) c

/-- split (R184): the value code and its Lining. -/
def splitLining (fmt rmode : Nat) (k : Key) (x : Num) : Nat × Int :=
  let f := floatFmt fmt
  match x with
  | .nan => (canonicalNan fmt, 0)
  | .inf neg => (f.signed neg (f.maxCode + 1), 0)
  | .fin .. =>
    let v := nearestUp f x.dy
    if f.maxCode < v % 2 ^ (f.width - 1) then (v, 0)
    else
      let unit := liningUnit f v
      let vd := (f.decode v).dy
      let diff := x.dy.add ⟨-vd.m, vd.e⟩
      let lo := diff.floorAt unit
      let remE := min diff.e unit
      let rem := (diff.floorAt remE - lo * pow2 (unit - remE)).toNat
      let den := 2 ^ (unit - remE).toNat
      let lam : Int :=
        if rmode = 0 then
          (if decide (den < 2 * rem) || (decide (2 * rem = den) && lo % 2 = 1) then lo + 1 else lo)
        else (if decide (k.u24 < rem * 2 ^ 24 / den) then lo + 1 else lo)
      if lam = 128 then
        (if v = f.maxCode then (v, 127)
         else
          let w := stepUp f v
          let wu := liningUnit f w
          let wd := (f.decode w).dy
          let t := ((vd.add ⟨128, unit⟩).add ⟨-wd.m, wd.e⟩).floorAt wu
          (w, t))
      else (v, lam)

/-- The value V of a value-plus-Lining pair (R181, R185). -/
def liningValue (fmt code : Nat) (lam : Int) : Num :=
  let f := floatFmt fmt
  match f.decode code with
  | .fin n m e => let s := ((Num.fin n m e).dy).add ⟨lam, liningUnit f code⟩
                  if s.m = 0 then .fin n 0 0 else .ofDy s
  | v => v

/-- The sum of a pair and an addend (R185). -/
def pairAdd (fmt rmode : Nat) (k : Key) (code : Nat) (lam : Int) (y : Num) : Nat × Int :=
  splitLining fmt rmode k ((liningValue fmt code lam).add y)

/-! ## FP4MX blocks (R175) -/

/-- The maximum magnitude of a block: NaN when any value is NaN. -/
def blockMax (xs : List Num) : Num :=
  xs.foldl (fun a x =>
    match a, x with
    | .nan, _ => .nan
    | _, .nan => .nan
    | a, x => if a.lt x.abs then x.abs else a) (.fin false 0 0)

/-- Convert one block to FP4MX: the scale code, the element codes, and how many saturated (R151, R175). -/
def toFp4Block (sigma : Int) (rmode : Nat) (xs : List (Num × Key)) : Nat × List Nat × Nat :=
  match blockMax (xs.map (fun x => x.1)) with
  | .nan => (0xFF, xs.map (fun _ => 0), 0)
  | mb =>
    let s0 : Int := match mb with
      | .inf _ => sigma
      | .fin _ m e => if m = 0 then sigma - 31 else min sigma (max (sigma - 31) ((floorLog2 m : Int) + e - 2))
      | .nan => sigma
    let s := max s0 (-127)
    let rs := xs.map (fun x => roundTo fmtFP4 rmode x.2 (x.1.scale (-s)))
    ((s + 127).toNat, rs.map (fun r => r.1), (rs.filter (fun r => r.2)).length)

/-! ## Lane words (R287, R300) -/

/-- A lane word: a binary32 pattern. -/
abbrev Lane := BitVec 32

/-- The value of a lane word. -/
def laneNum (v : Lane) : Num := ffF32.decode v.toNat

/-- Round to nearest even in binary32 (R287). -/
def laneOf (x : Num) : Lane :=
  match x with
  | .nan => 0x7FC00000
  | .inf neg => BitVec.ofNat 32 (ffF32.signed neg 0x7F800000)
  | .fin neg m e => BitVec.ofNat 32 (ffF32.signed neg (min (ffF32.roundMag 0 ⟨0, 0, 0, 0, 0⟩ m e) 0x7F800000))

/-- Fused multiply-add with one rounding. -/
def laneFma (a b c : Lane) : Lane := laneOf (((laneNum a).mul (laneNum b)).add (laneNum c))

/-- The larger of two lane words (R300, MAX). -/
def laneMax (a b : Lane) : Lane :=
  let x := laneNum a
  let y := laneNum b
  if x = .nan || y = .nan then laneOf .nan
  else if x.isZero && y.isZero then (if x.neg && y.neg then a else 0)
  else if x.lt y then b else a

/-- The smaller of two lane words (R300, MIN). -/
def laneMin (a b : Lane) : Lane :=
  let x := laneNum a
  let y := laneNum b
  if x = .nan || y = .nan then laneOf .nan
  else if x.isZero && y.isZero then (if x.neg || y.neg then 0x80000000 else 0)
  else if y.lt x then b else a

/-- One operation of the arithmetic table (R300). -/
def laneOp (op : Nat) (a b c : Lane) : Lane :=
  match op with
  | 0 => a
  | 1 => laneOf ((laneNum a).add (laneNum b))
  | 2 => laneOf ((laneNum a).add (laneNum b).negate)
  | 3 => laneOf ((laneNum a).mul (laneNum b))
  | 4 => laneFma a b c
  | 5 => laneMax a b
  | 6 => laneMin a b
  | 7 => a &&& 0x7FFFFFFF
  | 8 => a ^^^ 0x80000000
  | _ => if (Num.fin false 0 0).lt (laneNum c) then a else b

end Sys2Proof.Machine
end

