-- ==== Sys2Proof/Machine/State.lean ====
section
/-! DEFINITION. The state of the MWH-8 as plain data, the reasons a step can stop, and the state right after reset. -/

namespace Sys2Proof.Machine

/-- Reasons a command could stop the device. The manual gives every command an effect, so there is none. -/
inductive Fault where
  deriving DecidableEq, Repr

/-- Refusals of the model. -/
inductive Refusal where
  /-- Raised by the dispatcher for a command whose meaning is not written yet. Safe: the run stops. -/
  | notModelled (mnemonic : String)
  deriving DecidableEq, Repr

/-- Byte memory in canonical form: addresses strictly rising, no entry equal to 0, the value of an unlisted byte
(assumption log 2). -/
abbrev Memory := List Host.Cell

/-! ## Needle time (02_needle_time.md) -/

/-- The states of the Needle counter (R49). -/
inductive NeedleState where
  | disabled | free | listen | acquiring | locked | treadle | holdover | lost | reacquiring
  deriving DecidableEq, Repr

/-- The source whose markers the counter follows (R35). -/
structure NeedleSource where
  rank : Nat
  identity : BitVec 64
  ext : Bool
  port : PortId
  hop : Nat
  deriving DecidableEq, Repr

/-- The Needle counter, its status registers and its discipline loop. Times are of `Device.now`. `held` is the position
at which a stopped counter stands (R49); `arrived`: the counter has been loaded and the events of the loaded position
are still to come (R31). `lastValid` is the time of the last valid marker, `lastSource` of the followed source's last
one, `lastBetter` of the last one from a source better than the module itself (R37). -/
structure Needle where
  state : NeedleState := .disabled
  stitch : Nat := 0
  tick : Nat := 0
  held : Nat := 0
  arrived : Bool := false
  reason : Code := 0
  badReg : Nat := 0
  hop : Nat := 0
  holdUs : Nat := 0
  phase : BitVec 16 := 0
  freq : BitVec 16 := 0
  source : Option NeedleSource := none
  inLock : Nat := 0
  lastValid : Nat := 0
  lastSource : Nat := 0
  lastBetter : Nat := 0
  entered : Nat := 0
  takenOver : Option Nat := none
  emitted : Option (Nat × Nat) := none
  outSeq : Vector (BitVec 32) 24 := Vector.replicate 24 0
  stitchOut : Option Nat := none
  deriving DecidableEq, Repr

/-! ## Error records (11_fault_coverage.md) -/

/-- The content of an error record (R637) but for SEQ and PHASE, which it takes when it is written. -/
structure ErrRec where
  reason : Code
  mech : Nat
  outcome : Nat
  position : BitVec 64 := 0
  ctx : Code := 0
  panel : Nat := 0xFF
  ring : Nat := 0
  descSeq : Nat := 0
  unit : Nat := 0
  sub : Nat := 0
  count : Nat := 1
  attr : Nat := 0
  addr : Nat := 0
  detail : BitVec 128 := 0
  tacks : Nat := 0
  deriving DecidableEq, Repr

/-- A record in the internal queue (R635). A needed record carries the ticket by which completions name it. -/
structure QueuedRec where
  content : ErrRec
  reserve : Bool
  ticket : Option Nat
  deriving DecidableEq, Repr

/-- The device error ring's state beside its setup registers. `written` maps a needed record's ticket to the sequence
number under which it was written. -/
structure ErrRing where
  nextSeq : Nat := 0
  head : Nat := 0
  queue : List QueuedRec := []
  lost : Nat := 0
  lostUnreported : Nat := 0
  nextTicket : Nat := 0
  written : List (Nat × Nat) := []
  coalesced : List ErrRec := []
  coalesceSince : Nat := 0
  guardReason : Code := 0
  guardBits : BitVec 8 := 0x80
  ratingsExceeded : Bool := false
  deriving DecidableEq, Repr

/-! ## Rings and contexts (08_work_submission.md) -/

/-- How far a descriptor has come. -/
inductive DescPhase where
  | fetched      -- header checked, waiting for its event wait or its operation checks
  | checked      -- operation checks passed
  | started      -- start position reached and judged (R60 to R65)
  | running      -- first tack begun, or taking effect
  | finished (status : Code)
  deriving DecidableEq, Repr

/-- Which descriptor: context, ring, sequence number. -/
structure DescRef where
  ctx : Code
  ring : RingId
  seq : Nat
  deriving DecidableEq, Repr

/-- A row of an accumulator slot: its two sets of words, CUR and TOUCHED (R109, R114). -/
structure AccRow where
  row : Nat
  cur : Bool := false
  touched : Bool := false
  set0 : List AccWord := []
  set1 : List AccWord := []
  deriving DecidableEq, Repr

/-- The scan state of a chain: carries, reductions under way and the statistics of R318 (R314, R315, R323). -/
structure SeamScan where
  carries : List (Nat × Lane) := []
  reds : List (Nat × Lane) := []
  sumM : Int := 0
  sumE : Int := 0
  amax : Nat := 0
  nans : Nat := 0
  infs : Nat := 0
  deriving DecidableEq, Repr

/-- How a prepared descriptor reads its operands and writes its result, and how far its tacks have committed: the pass
(jt and vb in the order of R89) and its committed entries, or the committed vectors or bytes. `next` is the progress of the pass after it, which chain mode begins beside it (R99); `in2` and `in2Tag` say how a chain's second stream is read. `gather`
holds the output vectors that the round-and-pack stage has gathered and not yet written (R80).
`stash` is the sequence number of the stash entry that it fills, `recomputed` the tags recomputed for it. -/
structure Work where
  prepared : Bool := false
  pass : Nat := 0
  done : Nat := 0
  next : Nat := 0
  x : OperandFmt := {}
  w : OperandFmt := {}
  y : OperandFmt := {}
  out : OperandFmt := {}
  in2 : OperandFmt := {}
  in2Tag : Option Nat := none
  scan : SeamScan := {}
  gather : List (Nat × List Num) := []
  stash : Option Nat := none
  recomputed : List Nat := []
  deriving DecidableEq, Repr

/-- A pass of a product (R89): its descriptor, the tag of the recompute descriptor when it is one of that (R243), and its
number in the order of R89. -/
structure PassRef where
  ref : DescRef
  inner : Option Nat
  pass : Nat
  deriving DecidableEq, Repr

/-- A pass that lies in its context's save area (R121): its rows by their numbers, each of `words` accumulator words, from
byte `off` of the area. -/
structure SavedPass where
  pass : PassRef
  rows : List Nat
  words : Nat
  off : Nat
  deriving DecidableEq, Repr

/-- A recompute descriptor that runs as part of its reader (R243): the tag it serves, its 128 bytes, its progress. -/
structure InnerDesc where
  tag : Nat
  raw : BitVec 1024
  work : Work := {}
  deriving DecidableEq, Repr

/-- A descriptor taken from a submission slot, with its progress. -/
structure Desc where
  seq : Nat
  raw : BitVec 1024
  phase : DescPhase := .fetched
  begun : Bool := false
  tacks : Nat := 0
  fetchPos : Nat := 0
  fetchedAt : Nat := 0
  startPos : BitVec 64 := 0
  flags : BitVec 8 := 0
  ticket : Option Nat := none
  effect : Bool := false
  views : List (Nat × Bool) := []
  keyEpoch : Nat := 0
  work : Work := {}
  inner : Option InnerDesc := none
  deriving DecidableEq, Repr

/-- What a halted ring remembers of its failed descriptor (R474 to R478, R482). -/
structure FailedDesc where
  seq : Nat
  effect : Bool
  raw : BitVec 1024
  deriving DecidableEq, Repr

/-- A ring pair of a context (R429). `unclean` holds the descriptors, since the ring's last committed step, whose completion was
neither SUCCESS nor LATE_SKIPPED: a COMMIT behind one is not prepared (R586). -/
structure Ring where
  sqAddr : Nat
  cqAddr : Nat
  dbAddr : Nat
  sizeLog2 : Nat
  tail : Nat := 0
  next : Nat := 0
  complNext : Nat := 0
  queue : List Desc := []
  halted : Bool := false
  failed : Option FailedDesc := none
  undelivered : List (Nat × List Byte) := []
  doorbellFault : Bool := false
  unclean : List Nat := []
  deriving DecidableEq, Repr

/-- A registered recompute descriptor (R242). -/
structure Recomp where
  tag : Nat
  descAddr : Nat
  bufAddr : Nat
  bufBytes : Nat
  deriving DecidableEq, Repr

/-- A stash entry of a context (R220 to R231): shape, format as read, its Bobbin copy, its spill pages in the order of
its bytes. `data` holds the Bobbin copy's non-zero bytes by offset. -/
structure StashEntry where
  tag : Nat
  seq : Nat
  rows : Nat
  cols : Nat
  named : Nat
  fmt : Nat
  sigma : Int
  cold : Bool
  bobbin : Bool := false
  spill : List Nat := []
  dropped : Bool := false
  readable : Bool := false
  data : Memory := []
  bad : List Nat := []
  deriving DecidableEq, Repr

/-- An open Gusset entry (R250 to R261). `front` lists the values and Linings of those front lines that are not all
zero, by line; `frontLines` is F. -/
structure GussetEntry where
  param : BitVec 32
  rows : Nat
  cols : Nat
  ld : Nat
  home : Nat
  lin : Nat
  fmt : Nat
  frontLines : Nat
  homeOnly : Bool := false
  segs : List (Nat × Nat) := []
  contrib : Nat := 0
  front : List (Nat × List (Nat × Int)) := []
  bad : List Nat := []
  deriving DecidableEq, Repr

/-- A commit set (R578, R579): `commits` counts the steps committed since the DEFINE. -/
structure CommitSet where
  index : Nat
  bank0 : Nat
  bank1 : Nat
  view : Nat
  bytes : Nat
  commits : Nat
  deriving DecidableEq, Repr

/-- The states of a gradient bucket (R562). -/
inductive BucketState where
  | idle
  | filling (t : BitVec 32)
  | agreeing (t : BitVec 32)
  | reducing (t : BitVec 32)
  | done (t : BitVec 32)
  deriving DecidableEq, Repr

/-- The progress of one exact reduction (R567 to R575): of a bucket, or of an ALLREDUCE (R596). `pairs` holds the
children's exponents and flags by rank, `received` the tally words that arrived by rank, `noise` the children's norms. -/
structure Reduction where
  eLoc : Int := 0
  nonFinite : Bool := false
  pairs : List (Nat × Int × Bool) := []
  sentUp : Bool := false
  agreed : Option (Int × Bool) := none
  sent : Bool := false
  received : List (Nat × Nat) := []
  sentA : Nat := 0
  sumQ : Option Nat := none
  noise : List (Nat × Nat × Nat) := []
  noiseUp : Bool := false
  totals : Option (Nat × Nat) := none
  deriving DecidableEq, Repr

/-- A gradient bucket of a communicator (R560, R562). `staged` is the staging bitmap, as runs of elements (first, count,
format of the values); `failed` a step whose reduction ended with a status (R568, R599). -/
structure Bucket where
  elements : Nat
  tid : BitVec 32
  stage : Nat
  acc : Nat
  sum : Nat
  sumLin : Nat
  fmt : BitVec 8
  rmode : Nat
  shift : Int
  state : BucketState := .idle
  staged : List (Nat × Nat × Nat) := []
  failed : Option (BitVec 32 × Code) := none
  red : Reduction := {}
  deriving DecidableEq, Repr

/-- A communicator that a context has joined, or is joining (R552 to R560). `issued` counts the transfers issued by kind
and peer rank; `early` keeps grants and exponents of exchanges that this member has not begun. -/
structure Comm where
  slot : Nat
  commId : BitVec 32
  size : Nat
  rank : Nat
  ring : RingId
  joinSeq : Nat
  table : Nat
  digest : BitVec 256
  w24 : Bool
  layout : Nat
  stagePages : Nat
  commitComm : Bool
  joined : Bool := false
  notices : List Nat := []
  lostMods : List Nat := []
  broken : Bool := false
  buckets : List Bucket := []
  stepA : Int × Int := (0, 0)
  stepQ : Int × Int := (0, 0)
  issued : List (TransferKind × Nat × Nat) := []
  early : List Packet := []
  deriving DecidableEq, Repr

/-- A collective in progress on a ring (R583, R596 to R598): grants received and sent by rank, ranks sent to, bytes
landed by rank; `own` says that this member's own slice is in place. -/
structure CollRun where
  ctx : Code
  ring : RingId
  seq : Nat
  commId : BitVec 32
  nth : Nat := 0
  startOk : Bool := true
  grantsIn : List Nat := []
  grantsOut : List Nat := []
  sentTo : List Nat := []
  landed : List (Nat × Nat) := []
  own : Bool := false
  red : Reduction := {}
  deriving DecidableEq, Repr

/-- A RELAY in progress (R540 to R546). -/
structure RelayRun where
  ctx : Code
  ring : RingId
  seq : Nat
  relayId : BitVec 32
  grantsIn : List Nat := []
  grantsOut : List Nat := []
  sent : Nat := 0
  acked : List Nat := []
  recvBytes : List (Nat × Nat) := []
  received : Nat := 0
  deriving DecidableEq, Repr

/-- A FITTING in progress (R604 to R607). `held` lists the banks of the snapshot (base and bytes) until they have been
shipped; `cow` the regions of 2 MiB copied to the COW area (context address, and the copy's). -/
structure FittingRun where
  ctx : Code
  ring : RingId
  seq : Nat
  snapped : Bool := false
  stitch : Nat := 0
  committed : BitVec 32 := 0
  held : List (Nat × Nat) := []
  cow : List (Nat × Nat) := []
  shipped : Bool := false
  nth : Nat := 0
  granted : Bool := false
  deriving DecidableEq, Repr

/-- A request or transfer that waits for its response (R516, R533): the descriptor that sent it, and with it the
communicator, the exchange or the relay step it belongs to, and the module it went to. -/
structure Outstanding where
  xtag : BitVec 32
  ctx : Code
  ring : RingId
  seq : Nat
  comm : Option (BitVec 32) := none
  exch : Option Exchange := none
  step : Option Nat := none
  dstMod : BitVec 15
  deadline : Nat
  deriving DecidableEq, Repr

/-- The tenant data key of a confidential context (R769, R774). -/
structure TenantKey where
  epoch : Nat
  key : List Byte
  installId : Nat
  counter : Nat
  tagBase : Nat
  deriving DecidableEq, Repr

/-- An admitted context. -/
structure Context where
  id : Code
  panel : PanelId
  pinned : Bool
  resident : Bool
  residentSince : Nat := 0
  readySince : Option Nat := none
  idleSince : Nat := 0
  rings : List Ring
  rights : BitVec 4
  confidential : Bool
  ledgerAddr : Nat
  ledgerEntries : Nat
  seed : BitVec 64
  jobTag : BitVec 64
  authority : BitVec 256
  mapAddr : Nat
  mapEntries : Nat
  saveAddr : Nat
  saveBytes : Nat
  bobbinMax : Nat
  ecAddr : Nat
  tlb : List (Nat × BitVec 64) := []
  events : Vector (BitVec 64) 64 := Vector.replicate 64 0
  stashSeq : Nat := 1
  releasedSince : Bool := false
  bobbinPages : Nat := 0
  gussetLines : Nat := 0
  spillAddr : Nat := 0
  spillBytes : Nat := 0
  recomps : List Recomp := []
  stash : List StashEntry := []
  saved : List SavedPass := []
  gusset : List GussetEntry := []
  chains : List (Nat × BitVec 1024) := []
  tables : List (Nat × List Byte) := []
  badChains : List Nat := []
  badTables : List Nat := []
  comms : List Comm := []
  sets : List CommitSet := []
  tacks : Nat := 0
  measure : BitVec 512 := 0
  recordDigest : BitVec 512 := 0
  keys : List TenantKey := []
  pageCounts : Vector Nat 16 := Vector.replicate 16 0
  pageGen : Nat := 0
  deriving DecidableEq, Repr

/-- The admission ring beside its setup registers (R419). -/
structure AdmitRing where
  next : Nat := 0
  tail : Nat := 0
  halted : Bool := false
  reason : Code := 0
  badReg : Nat := 0
  lastPoll : Nat := 0
  pollTurn : Nat := 0
  deriving DecidableEq, Repr

/-! ## The array, the Seam and the DMA engine (03_matrix_arrays.md, 06_seam_engine.md) -/

/-- What a tack has computed and holds until it commits (R117): stash captures, the ledger maxima and saturations of a
product's own result and of the Seam's, the scan state and the gathered vectors after it, the vectors that entered the
Seam, the source rows of a GUSSET_ACC (R264), the units read for the last time (R353), and the writes: those of a DMA
tack wait in its transfer buffer (R455), those of the array and the Seam in a half of the commit region (R118). -/
structure Held where
  writes : List (Nat × List Byte) := []
  captures : List (Nat × List Byte) := []
  mag : Option Nat := none
  sats : Nat := 0
  outMag : Option Nat := none
  outSats : Nat := 0
  scan : SeamScan := {}
  gather : List (Nat × List Num) := []
  permRange : Nat := 0
  vectors : Nat := 0
  sources : List (Nat × Nat × List Num) := []
  last : List Nat := []
  deriving DecidableEq, Repr

/-- One half of the commit region (R118): rows of Y and of Seam outputs, and GUSSET_ACC source rows (R264), that wait for
their tack's commit. -/
structure CommitHalf where
  writes : List (Nat × List Byte) := []
  sources : List (Nat × Nat × List Num) := []
  deriving DecidableEq, Repr

/-- What the checksum column and the bank form for one streamed vector (R128 to R131): s, g and r, whether the pair is
compared exactly, the least accumulator increment, and the grid of every column's result (R160). -/
structure VectorCheck where
  s : Dy
  g : Dy
  r : Dy
  exact_ : Bool
  least : Int
  grids : List Int
  deriving DecidableEq, Repr

/-- A running tack: its descriptor, whether it belongs to the recompute descriptor, its length, whether it is a replay, and
the epoch of the tenant key that was current when it began (R770).
A tack that waits for its replay keeps the record of its fault, which takes its outcome from the replay (R626, R643). -/
structure TackRun where
  ref : DescRef
  inner : Bool := false
  pass : Nat := 0
  first : Nat := 0
  len : Nat
  replay : Bool := false
  since : Nat := 0
  epoch : Nat := 0
  half : Fin 2 := 0
  held : Held := {}
  checks : List (Option VectorCheck) := []
  fault : Option ErrRec := none
  deriving DecidableEq, Repr

/-- A stationary tile: its descriptor and the recompute descriptor's tag, J-tile, K-tile and component (R83 to R89), and
the format that its elements are read in. -/
structure TileRef where
  ref : DescRef
  inner : Option Nat
  jt : Nat
  kt : Nat
  comp : Nat
  fmt : Nat
  deriving DecidableEq, Repr

/-- A plane of the array (R73, R86): the tile that rests in it or is being loaded, the pass that it was loaded for, the 16-bit registers of its cells, column by column and in
each from row 0, its scale plane, and the checksum cells of the tile's rows along k (R128): c[k] and a[k]. A register that
is not listed holds zero. -/
structure Plane where
  tile : Option TileRef := none
  pass : Nat := 0
  cells : List (List (BitVec 16)) := []
  scales : List (List (BitVec 8)) := []
  sums : List (Dy × Dy) := []
  deriving DecidableEq, Repr

/-- A slot of the accumulator bank (R108, R109): the pass whose output block it holds, and the block's rows. A row that no
contribution has reached is not listed. -/
structure BankSlot where
  pass : Option PassRef := none
  rows : List AccRow := []
  deriving DecidableEq, Repr

/-- A panel's array: status and check counters (R143), planes (R73, R83), the two slots of the accumulator bank (R108), the
two halves of the commit region and the one that fills next (R118), the running tack, in chain mode the tack that drains
(R99), and the tack that waits for its replay. `certified`: the last certification that ended has passed, and none has
begun since. `idle`: power control holds the array (R712). -/
structure ArrayState where
  reason : Code := 0
  certFail : Bool := false
  certDone : Bool := false
  certified : Bool := false
  chain : Bool := true
  certRunning : Bool := false
  certTurn : Nat := 0
  persistent : Nat := 0
  replays : Nat := 0
  mismatches : Nat := 0
  active : Plane := {}
  shadow : Plane := {}
  shadowReady : Bool := false
  slots : Vector BankSlot 2 := Vector.replicate 2 {}
  region : Vector CommitHalf 2 := Vector.replicate 2 {}
  fill : Fin 2 := 0
  idle : Bool := false
  run : Option TackRun := none
  drain : Option TackRun := none
  failedTack : Option TackRun := none
  grant : Option (Code × RingId × Nat) := none
  lastGrant : Option (Code × RingId) := none
  dma : Option TackRun := none
  failedDma : Option TackRun := none
  dmaGrant : Option (Code × RingId × Nat) := none
  dmaLast : Option (Code × RingId) := none
  deriving DecidableEq, Repr

/-! ## The memory system (07_memory_system.md) -/

/-- A line of a panel's Spool (R348 to R352). The list of lines is kept most recently used first. The bytes lie in
`Device.mem`, the one coherent view of stacks and Spool (R349, assumption log 6). `bad` lists the line's 64-byte accesses,
0 to 3, that hold poisoned data (R356, R381). -/
structure SpoolLine where
  unit : Nat
  keep : Bool
  dirty : Bool
  cls : ColourClass
  bad : List Nat := []
  deriving DecidableEq, Repr

/-- A request waiting in a channel's queue (R359 to R362). -/
structure MemRequest where
  mpa : Nat
  cls : ColourClass
  write : Bool
  since : Nat
  promoted : Bool
  requester : Requester
  deriving DecidableEq, Repr

/-- One stack of a panel as its sensors show it, and its refresh and throttle state (R365 to R368). -/
structure StackState where
  temp : Nat := 0
  refresh : Nat := 0
  refreshNext : Nat := 0
  throttled : Bool := false
  deriving DecidableEq, Repr

/-- A panel's memory: status, queues, Spool, retire table, error counts. `stalled` holds the requests that wait at their
requesters for buffer space or a write credit (R360), `scrubbed` the accesses that this scrub period has read (R383), `batches` the writes left of a channel's batch (R372), `loading` the
BASE and COUNT of the table load in progress (R926). -/
structure PanelMem where
  reason : Code := 0
  badReg : Nat := 0
  trained : BitVec 4 := 0
  present : Bool := true
  loadBusy : Bool := false
  loading : Nat × Nat := (0, 0)
  loaded : Bool := false
  retired : List Nat := []
  spool : List SpoolLine := []
  queues : List (Nat × List MemRequest) := []
  stalled : List MemRequest := []
  batches : List (Nat × Nat) := []
  refreshed : List (Nat × Nat) := []
  maintained : List (Nat × Nat) := []
  stackStates : Vector StackState 4 := Vector.replicate 4 {}
  uncorr : Nat := 0
  corr : Nat := 0
  rateCount : Nat := 0
  rateRecorded : Bool := false
  windowSince : Nat := 0
  scrubbed : List Nat := []
  uePage : Option Nat := none
  ueLast : Nat := 0
  deriving DecidableEq, Repr

/-- An entry of Thimble's frame table (R779): one frame of 2 MiB, with the contexts that own it. -/
structure Frame where
  index : Nat
  owners : List Code
  conf : Bool
  clean : Bool
  fresh : Bool
  deriving DecidableEq, Repr

/-- The frame table. A frame that is not listed is unowned, not CLEAN, and FRESH as `freshDefault` says. -/
structure FrameTable where
  entries : List Frame := []
  freshDefault : Bool := true
  deriving DecidableEq, Repr

/-- An entry of the open-region table (R392). -/
structure OpenRegion where
  ctx : Code
  base : Nat
  bytes : Nat
  offset : Nat
  read : Bool
  write : Bool
  deriving DecidableEq, Repr

/-! ## The optical fabric (09_optical_fabric.md) -/

/-- The states of a port (R507). -/
inductive PortState where
  | disabled | waitLaser | training | securing | up | draining | down | safe
  deriving DecidableEq, Repr

/-- A SEQUENCED flit in a replay buffer (R499, R500). -/
structure ReplayFlit where
  seq : BitVec 16
  pkt : Packet
  index : Nat
  resends : Nat
  deriving DecidableEq, Repr

/-- A packet queued at an egress port, by the input it came from (R524), with the flits still to be sent. -/
structure QueuedPacket where
  input : Fin 25
  pkt : Packet
  sent : Nat
  since : Nat
  deriving DecidableEq, Repr

/-- The trailer of a codeword as sent (R495): sequence, acknowledgement, NAK and returned credits. -/
structure SentTrailer where
  txSeq : BitVec 16
  ackSeq : BitVec 16
  nak : Bool
  credit : Option (Fin 5)
  deriving DecidableEq, Repr

/-- The next codeword an egress port chose (R523). -/
inductive SentCodeword where
  | idle | marker (m : Marker) | linkCtl (c : LinkCtl) | flit (seq : BitVec 16) (pkt : Packet) (index : Nat)
  deriving DecidableEq, Repr

/-- An optical port: setup registers, status registers and link layer. `occupied` counts the flits of each channel in the receive
buffer (R519), `wire` is the codeword last sent, as its 300 bytes (R494). -/
structure Port where
  ctl : BitVec 64 := 4
  creditRes : BitVec 64 := 4 + 17 * 2 ^ 11 + 17 * 2 ^ 22 + 17 * 2 ^ 33 + 17 * 2 ^ 44
  creditShr : BitVec 64 := 952
  arb : BitVec 64 := 4 + 8 * 16 + 4 * 256
  peerExpect : BitVec 64 := 0
  state : PortState := .disabled
  reason : Code := 0
  badReg : Nat := 0
  peer : Option PeerIdentity := none
  rtt : BitVec 32 := 0
  replays : Nat := 0
  corrSymbols : Nat := 0
  authFails : Nat := 0
  downCount : Nat := 0
  turnDrops : Nat := 0
  uncorrCw : Nat := 0
  txSeq : BitVec 16 := 0
  rxSeq : BitVec 16 := 0
  lastAck : BitVec 16 := 0
  nakOut : Bool := false
  replayBuf : List ReplayFlit := []
  replayCursor : Option Nat := none
  ackSince : Nat := 0
  txIndex : Nat := 0
  rxIndex : Nat := 0
  exchange : Nat := 0
  txKey : List Byte := []
  rxKey : List Byte := []
  txSalt : List Byte := []
  rxSalt : List Byte := []
  lastCipher : Option (List Byte × List Byte) := none
  uncorrRun : Nat := 0
  locked : Bool := false
  identified : Bool := false
  keyed : Bool := false
  since : Nat := 0
  lastGood : Nat := 0
  credits : Vector Nat 5 := Vector.replicate 5 0
  creditsShared : Nat := 0
  sharedOut : Vector Nat 5 := Vector.replicate 5 0
  toReturn : List (Fin 5) := []
  occupied : Vector Nat 5 := Vector.replicate 5 0
  recv : List (Packet × Nat) := []
  queues : Vector (List QueuedPacket) 5 := Vector.replicate 5 []
  lastInput : Vector Nat 5 := Vector.replicate 5 0
  wrrLeft : Vector Nat 3 := Vector.replicate 3 0
  respLast : Bool := false
  linkCtlOut : List LinkCtl := []
  markerOut : Option Marker := none
  lastSent : Option (SentCodeword × SentTrailer) := none
  wire : List Byte := []
  ageRecorded : Option Nat := none
  deriving DecidableEq, Repr

/-- A laser cartridge bay (R490 to R493). -/
structure Cartridge where
  present : Bool := true
  genuine : Bool := true
  lasers : Bool := false
  ready : Bool := false
  fault : Bool := false
  since : Nat := 0
  deriving DecidableEq, Repr

/-- A route table (R527): TURN masks by ingress and layer, and ROUTE words by destination. -/
structure RouteTable where
  turn : List (BitVec 32)
  route : List (BitVec 32)
  deriving DecidableEq, Repr

/-- The egress in use for a destination, and the hold of R528: packets by their ingress, and since when they wait. -/
structure RouteUse where
  dst : BitVec 15
  egress : PortId
  lastQueued : Nat
  holdUntil : Option Nat := none
  held : List (Fin 25 × Packet × Nat) := []
  deriving DecidableEq, Repr

/-- The fabric state of the hub. `inbox` holds packets that have reached this module,
by ingress; `deadMods` the modules
to which no hop is usable (R689); `relayEarly` relay grants for a RELAY that this module has not begun. -/
structure Fabric where
  ageDiscards : Nat := 0
  refused : Nat := 0
  reason : Code := 0
  loadBusy : Bool := false
  standby : Option RouteTable := none
  active : Option RouteTable := none
  uses : List RouteUse := []
  carts : Vector Cartridge 8 := Vector.replicate 8 {}
  outstanding : List Outstanding := []
  nextXtag : BitVec 32 := 1
  inbox : List (Fin 25 × Packet) := []
  deadMods : List (BitVec 15) := []
  colls : List CollRun := []
  relays : List RelayRun := []
  fittings : List FittingRun := []
  relayEarly : List Packet := []
  deriving DecidableEq, Repr

/-- The states of HUB.COMMIT_STATUS (10_job_mapping_and_reduction.md, COMMIT registers). -/
inductive CommitState where
  | idle | preparing | voted | decided | uncertain | split
  deriving DecidableEq, Repr

/-- The module's part in step commits (R585 to R593, R690 to R692). -/
structure Commit where
  state : CommitState := .idle
  reason : Code := 0
  lastStep : BitVec 32 := 0
  applied : Bool := false
  aborts : Nat := 0
  commits : Nat := 0
  step : BitVec 32 := 0
  update : Nat := 0
  ready : List (BitVec 15 × BitVec 32 × Nat) := []
  decided : List (BitVec 32) := []
  pendingAbort : Option AbortPacket := none
  flooded : List (BitVec 32 × Bool × BitVec 32) := []
  abortStep : BitVec 32 := 0
  abortReason : Code := 0
  abortLost : BitVec 16 := 0xFFFF
  abortStitch : BitVec 48 := 0
  lostSelf : Bool := false
  deriving DecidableEq, Repr

/-! ## The host link (15_host_attachment.md) -/

/-- The host link's state (R798, R799, R823). -/
inductive LinkState where
  | detect | heldInReset | l0 | recovery
  deriving DecidableEq, Repr

/-- HDM decoder 0 (R818, R819). -/
structure HdmDecoder where
  base : Nat := 0
  size : Nat := 0
  ways : Nat := 0
  lockOnCommit : Bool := false
  committed : Bool := false
  error : Bool := false
  deriving DecidableEq, Repr

/-- A request of the device for host memory (R807, R810, R811): it goes out in pieces of at most `unit` bytes. -/
structure HostReq where
  write : Bool
  addr : Nat
  size : Nat
  unit : Nat
  relaxed : Bool
  translated : Bool
  deriving DecidableEq, Repr

/-- The host link: link state, configuration space, held lines, faults, messages. `lines` holds each held line with
the address of its 64 bytes, `translations` the pages of 4 KiB whose translations are cached (R808). `heldWrites` and
`heldMessages` wait for the link to leave Recovery (R823), each write with its Relaxed Ordering. `lastReq` is the last request
for host memory. -/
structure HostLink where
  link : LinkState := .detect
  cxl : Bool := false
  width : Nat := 0
  speed : Nat := 0
  config : List (Nat × BitVec 32) := []
  lastAnswer : Option (BitVec 32) := none
  retryStatus : Bool := false
  hdm : HdmDecoder := {}
  translations : List Nat := []
  lines : List Nat := []
  heldWrites : List (Nat × List Byte × Bool) := []
  lastReq : Option HostReq := none
  reason : Code := 0
  badReg : Nat := 0
  fault : BitVec 5 := 0
  xlateFaults : Nat := 0
  accessFaults : Nat := 0
  linkReplays : Nat := 0
  messages : Vector Nat 11 := Vector.replicate 11 0
  heldMessages : List (Fin 11) := []
  lastMessage : Vector (Option Nat) 8 := Vector.replicate 8 none
  moderated : Vector Bool 8 := Vector.replicate 8 false
  snoopAnswer : Nat := 0
  counterFaults : List (Code × Nat) := []
  winAnswer : Option (List Byte × Bool) := none
  doeAnswer : List Byte := []
  ideActive : Bool := false
  deriving DecidableEq, Repr

/-! ## Panels, hub and device -/

/-- The states of a panel that PANELp.RESET_STATUS.STATE reports (R661); `idle` reads as DISABLED or RUNNING. -/
inductive PanelState where
  | idle | fenced | resetting | retraining | ready | outOfService
  deriving DecidableEq, Repr

/-- A panel reset under way (R661): the ticket of its record, the reason, the context named, the position at the fence,
the stacks that are suspect. -/
structure PanelReset where
  ticket : Nat
  cause : Code
  ctx : Code
  pos : Nat
  suspects : BitVec 4
  deriving DecidableEq, Repr

/-- A device warm reset under way (R674): the ticket of its record, the cause, and what its zeroisation and the digest of
the power controller's image will find (R676, R759). `quiet`: no completion is written (R675). -/
structure WarmReset where
  ticket : Nat
  cause : Code
  quiet : Bool
  viaLink : Bool
  pos : Nat
  zeroised : Bool
  imageSame : Bool
  deriving DecidableEq, Repr

/-- The escalation states (R679). -/
inductive Escalation where
  | inService | outOfService | serviceRequired
  deriving DecidableEq, Repr

/-- Resets, escalation and crash samples (12_reset_and_recovery.md). The windows list the times at which their resets
started. -/
structure ResetCtl where
  escalation : Escalation := .inService
  lastKind : Nat := 0
  lastCause : Code := 0
  deviceResets : Nat := 0
  panelWindow : List Nat := []
  deviceWindow : List Nat := []
  crashValid : BitVec 8 := 0
  crashInStack : BitVec 8 := 0
  crashDropped : Nat := 0
  outDue : Option PanelId := none
  outEnter : Option Nat := none
  warm : Option WarmReset := none
  trip : Option Code := none
  deriving DecidableEq, Repr

/-- The module's pins and supplies (18_module_hardware.md). `cool`: every sensor stood below 85 °C at the last sample. -/
structure ModulePins where
  inputMv : Nat := 48000
  psense : Bool := true
  inputSwitch : Bool := true
  pwrEn : Bool := true
  resetN : Bool := true
  perstN : Bool := true
  railsOn : Bool := true
  pwrGood : Bool := true
  thermtrip : Bool := false
  cool : Bool := true
  sensorWait : Bool := false
  overvoltage : Bool := false
  deriving DecidableEq, Repr

/-- A performance counter: selector, value, wrapped flag, and the value latched for a chained read (R832 to R834). -/
structure PmcCounter where
  sel : BitVec 64 := 0x7F0000
  val : BitVec 48 := 0
  ovf : Bool := false
  latched : Option (BitVec 64) := none
  deriving DecidableEq, Repr

/-- A counter that resets enabled for an event (R874). -/
def PmcCounter.on (event : Nat) : PmcCounter := { sel := BitVec.ofNat 64 (2 ^ 63 + 0x7F0000 + event) }

/-- A tag record in the making or waiting for its dump (R849 to R851). `stamps` are NCLK times of the
stages of R851; `placed`: a snapshot that waits carries the record. -/
structure TagRec where
  ref : DescRef
  flags : Nat
  index : Nat
  entries : Nat
  position : Nat
  from_ : Nat
  stamps : List (Option Nat)
  done : Bool := false
  placed : Bool := false
  deriving DecidableEq, Repr

/-- The debug state of a panel's sequencer (R867 to R872). `mem` holds the words of its private memory that the debugger
has written while it is halted; what firmware keeps there is a free value. `stepTack`: 1 a tack is to be issued, 2 it has
been. -/
structure SeqDebug where
  halted : Bool := false
  cause : Nat := 0
  index : Nat := 0
  pc : BitVec 32 := 0
  bps : Vector (BitVec 32) 8 := Vector.replicate 8 0
  wps : Vector (BitVec 64) 4 := Vector.replicate 4 0
  mem : List (Nat × BitVec 32) := []
  stepTack : Nat := 0
  deriving DecidableEq, Repr

/-- A panel. -/
structure Panel where
  ctl : BitVec 64 := 0
  reason : Code := 0
  badReg : Nat := 0
  arrayCtl : BitVec 64 := 4000 * 2 ^ 16
  schedCfg : BitVec 64 := 1000 * 2 ^ 16 + 8
  memCtl : BitVec 64 := 2 * 2 ^ 8 + 2
  memScrub : BitVec 64 := 24
  memRetireBase : BitVec 64 := 0
  memRetireCtl : BitVec 64 := 0
  memEccThresh : BitVec 64 := 1000000
  spoolCfg : BitVec 64 := 12
  pmcCtl : BitVec 64 := 0
  tagCtl : BitVec 64 := 8 * 2 ^ 4
  array : ArrayState := {}
  permRange : Nat := 0
  exhausted : Nat := 0
  drops : Nat := 0
  spills : Nat := 0
  mem : PanelMem := {}
  homeSegs : List (Nat × Nat) := []
  state : PanelState := .idle
  resetRun : Option PanelReset := none
  suspects : BitVec 4 := 0
  resets : Nat := 0
  lastCause : Code := 0
  lockstep : Nat := 0
  seamReplays : Nat := 0
  sramUncorr : Nat := 0
  sramCorr : Nat := 0
  replayTacks : List Nat := []
  tackCount : Nat := 0
  entryDue : Nat := 0
  fillerPreempts : Nat := 0
  hbSeq : Nat := 0
  hbStitch : Option Nat := none
  hbBase : Nat := 0
  pmc : Vector PmcCounter 64 :=
    Vector.ofFn (fun n : Fin 64 => if n.val < 7 then .on (n.val + 1) else if n.val = 7 then .on 0x20 else {})
  tagWait : Option Nat := none
  tag : Option TagRec := none
  dbg : SeqDebug := {}
  deriving DecidableEq, Repr

/-- A panel as the power controller drives it (R708 to R716, R724 to R728, R736 to R738). Frequencies are in steps of
40 MHz: 10 is level 0, 20 level 5, 24 level 6. `railMv` is the setpoint of the core rail in mV (R710), `issued` is a step that waits for its tack boundary, `ceilFreq` and
`ceilAllow` are the junction's throttle ceiling, `stackAllow` the stacks', `used` the entry cycles of the stitch,
`sinceChange` the stitches since the last change, up to 16. -/
structure PanelPower where
  freq : Nat := 10
  allow : Nat := 0
  railMv : Nat := 600
  issued : Option Nat := none
  deferred : Bool := false
  used : Nat := 0
  debt : Nat := 0
  ceilFreq : Nat := 24
  ceilAllow : Nat := 32
  stackAllow : Nat := 32
  stackHot : Bool := false
  emergency : Bool := false
  trips : BitVec 16 := 0
  clearSince : Option Nat := none
  stretched : Bool := false
  sinceChange : Nat := 16
  deriving DecidableEq, Repr

/-- A throttle reason's counters (R746), and the panels it holds now. -/
structure Throttle where
  events : Nat := 0
  durationUs : Nat := 0
  holds : BitVec 8 := 0
  deriving DecidableEq, Repr

/-- The power controller (13_power_and_thermal.md): setup registers as written and as in effect (R748), measurements,
module ceiling, calibration, sprint, integrator (in units of 10 µJ), throttle counters. `sprintCounted` is how many seconds of
`sprintUs`, the sprint residency since power-up, the non-volatile store already counts (R741). `samples` holds the power
samples of the averaging window, newest first. -/
structure Power where
  ctl : BitVec 64 := 2 ^ 24 + 5 * 2 ^ 20 + 5 * 2 ^ 16 + 4
  cap : BitVec 64 := 10 * 2 ^ 16 + 4300
  ramp : BitVec 64 := 32 * 2 ^ 48
  actCtl : BitVec 64 := 2 ^ 24 + 5 * 2 ^ 20 + 5 * 2 ^ 16 + 4
  actCap : BitVec 64 := 10 * 2 ^ 16 + 4300
  actRamp : BitVec 64 := 32 * 2 ^ 48
  reason : Code := 0
  panels : Vector PanelPower 8 := Vector.replicate 8 {}
  modFreq : Nat := 24
  modAllow : Nat := 32
  watts : Nat := 0
  samples : List Nat := []
  inputW : Nat := 0
  millivolts : Nat := 48000
  inputOut : Bool := false
  calibrated : Bool := false
  calStitches : Nat := 0
  lockout : Bool := false
  admitHold : Bool := false
  atFloor : Bool := false
  capMet : Bool := true
  aboveSince : Option Nat := none
  belowSince : Option Nat := none
  floorSince : Nat := 0
  floorUs : Nat := 0
  sprinting : Bool := false
  sprintSince : Nat := 0
  sprintMs : Nat := 0
  integ : Nat := 0
  thr : Vector Throttle 7 := Vector.replicate 7 {}
  throttled : BitVec 8 := 0
  dies : Vector Nat 4 := Vector.replicate 4 0
  hubTemp : Nat := 0
  stackTemps : Vector Nat 32 := Vector.replicate 32 0
  lastStep : Nat := 0
  sprintUs : Nat := 0
  sprintCounted : Nat := 0
  deriving DecidableEq, Repr

/-- A live key-open pair of Thimble (R766): its slot, the number it was drawn with, its time of creation. -/
structure KemPair where
  slot : Nat
  draw : Nat
  created : Nat
  deriving DecidableEq, Repr

/-- Thimble (14_security.md). `booted`: the boot of R758 has completed; `failed`: a step of it failed, and the module
stays in reset; `stopped`: the self-check stopped Thimble. `images` are the images accepted at the last boot, from slot
`slot`; `cold`: the next boot is a cold one. -/
structure Thimble where
  booted : Bool := false
  failed : Bool := false
  stopped : Bool := false
  cold : Bool := true
  slot : Fin 2 := 0
  images : List FwImage := []
  fallback : Bool := false
  fusesRaised : Bool := false
  meas : Vector (BitVec 512) 5 := Vector.replicate 5 0
  authorities : List (Nat × List Byte) := []
  kem : List KemPair := []
  challenge : Option (List Byte) := none
  debugOpen : Bool := false
  scopes : BitVec 3 := 0
  fromBoot : Bool := true
  mboxAddr : Nat := 0
  busy : Bool := false
  reason : Code := 0
  respBytes : Nat := 0
  deriving DecidableEq, Repr

/-- The setup registers of the hub blocks (17_register_map.md), whole; an enable bit lies in its register. -/
structure HubRegs where
  devCtl : BitVec 64 := 0
  hostIrq : BitVec 64 := 256
  needleCtl : BitVec 64 := 255 * 2 ^ 8
  needleCfg : BitVec 64 := 10000
  needleJob : BitVec 64 := 0
  needleSrc : BitVec 64 := 0
  needleOut : BitVec 64 := 0
  needleLoad : BitVec 64 := 0
  needleLate : BitVec 64 := 16
  admitCtl : BitVec 64 := 64 * 2 ^ 16 + 6 * 2 ^ 8
  admitBase : BitVec 64 := 0
  admitCplBase : BitVec 64 := 0
  admitDb : BitVec 64 := 0
  admitPoll : BitVec 64 := 16
  fabCfg : BitVec 64 := 1200 * 2 ^ 32 + 500 * 2 ^ 16
  fabRouteBase : BitVec 64 := 0
  lcCtl : BitVec 64 := 0
  guardCtl : BitVec 64 := 64 * 2 ^ 8 + 1
  errBase : BitVec 64 := 0
  errHeadLine : BitVec 64 := 0
  errCtl : BitVec 64 := 8 * 2 ^ 8
  hbBase : BitVec 64 := 0
  crashBase : BitVec 64 := 0
  secMboxAddr : BitVec 64 := 0
  pmcCtl : BitVec 64 := 0
  dumpCtl : BitVec 64 := 16 * 2 ^ 16 + 6 * 2 ^ 8
  dumpBase : BitVec 64 := 0
  dumpHeadLine : BitVec 64 := 0
  pmcPageBase : BitVec 64 := 0
  deriving DecidableEq, Repr

/-- The hub's performance counters and the counter dumps (R832, R852 to R856). `waiting` holds the snapshots that wait
to be written, each as the 5,504 bytes but for SEQ, PHASE and SKIPPED, with the panels whose tag records it carries. -/
structure Counters where
  hub : Vector PmcCounter 32 := Vector.ofFn (fun n : Fin 32 => if n.val = 0 then .on 0x100 else {})
  reason : Code := 0
  badReg : Nat := 0
  skipped : Nat := 0
  skippedSince : Nat := 0
  next : Nat := 0
  head : Nat := 0
  waiting : List (List Byte × BitVec 8) := []
  lastDump : Option Nat := none
  deriving DecidableEq, Repr

/-- The Bodkin port (R859 to R865): TAP instruction, boundary-scan register, DAP response, token buffer with the
challenge at 0x1400. `waiting` is a CHALLENGE or UNLOCK (5 or 6) that Thimble has not taken yet. -/
structure Bodkin where
  ir : BitVec 8 := 1
  scan : Nat := 0
  op : Nat := 0
  status : Nat := 0
  waiting : Option Nat := none
  addr : BitVec 48 := 0
  data : BitVec 32 := 0
  token : Memory := []
  deriving DecidableEq, Repr

/-- The powered package and the memories it reaches. `poison` lists 64-byte accesses that hold the poison code,
`faulty` those that ECC cannot correct; `lostStacks` the stacks that hold poison everywhere but in the accesses written
since (first access and count of each range). `latches` holds the high halves that a read of a low half latched (R878),
`railsOut` and `clocksOut` the rails (with the time since) and the clock domains that are outside their limits. -/
structure Device where
  now : Nat := 0
  fresh : Nat := 0
  regs : HubRegs := {}
  needle : Needle := {}
  err : ErrRing := {}
  admitRing : AdmitRing := {}
  contexts : List Context := []
  panels : Vector Panel 8 := Vector.replicate 8 {}
  openRegions : List OpenRegion := []
  unmapped : Nat := 0
  mem : Memory := []
  poison : List Nat := []
  faulty : List Nat := []
  lostStacks : List (Nat × List (Nat × Nat)) := []
  hostMem : Memory := []
  latches : List (Nat × BitVec 32) := []
  railsOut : List (Nat × Nat) := []
  clocksOut : List Nat := []
  ports : Vector Port 24 := Vector.replicate 24 {}
  fabric : Fabric := {}
  commit : Commit := {}
  host : HostLink := {}
  reset : ResetCtl := {}
  frames : FrameTable := {}
  power : Power := {}
  counters : Counters := {}
  bodkin : Bodkin := {}
  thimble : Thimble := {}
  deriving DecidableEq, Repr

/-- The image set of a new module: the six components, at version and security version 0 (assumption log 8). -/
def factoryImages : List FwImage :=
  (List.range 6).map (fun c => { component := BitVec.ofNat 8 c, version := 0, svn := 0, fuseSvn := 0,
                                 digest := Config.factoryDigest c, valid := true })

/-- What outlives a loss of power: fuses and the non-volatile store (R18). `debugFull`: an unlock has found every DEBUG_COUNT
fuse blown (R790). -/
structure Vault where
  debugCount : Nat := 0
  debugFull : Bool := false
  thimbleSvn : Nat := 0
  mainSvn : Nat := 0
  serviceRequired : Bool := false
  poweredMin : Nat := 0
  sprintSeconds : Nat := 0
  slots : Vector (Option (List FwImage)) 2 := #v[some factoryImages, none]
  boots : Fin 2 := 0
  deriving DecidableEq, Repr

/-- The state of the model: the commands that wait, the device, and what it keeps without power. -/
structure State where
  pending : List Instr := []
  dev : Device := {}
  pins : ModulePins := {}
  vault : Vault := {}
  deriving DecidableEq, Repr

/-- The machine right after reset: power-up has released the package, and Thimble's boot is still to come (assumption
log 1). -/
def State.reset : State := {}

end Sys2Proof.Machine
end

