-- ==== Sys2Proof/Machine/Ops.lean ====
section
/-! DEFINITION. The shared operations: bytes of memory, panels, contexts, Needle positions, error records, messages to
the host, and free values. -/

namespace Sys2Proof.Machine

/-! ## Bytes of memory -/

/-- The byte at an address; an unlisted byte reads 0 (assumption log 2). -/
def memGet : Memory → Nat → Byte
  | [], _ => 0
  | (b, v) :: m, a => if b = a then v else if a < b then 0 else memGet m a

/-- Store one byte, keeping the canonical form. -/
def memPut : Memory → Nat → Byte → Memory
  | [], a, v => if v = 0 then [] else [(a, v)]
  | (b, w) :: m, a, v =>
    if a < b then (if v = 0 then (b, w) :: m else (a, v) :: (b, w) :: m)
    else if a = b then (if v = 0 then m else (b, v) :: m)
    else (b, w) :: memPut m a v

/-- The `n` bytes from an address upward. -/
def memRead (m : Memory) (a n : Nat) : List Byte := (List.range n).map (fun i => memGet m (a + i))

/-- Store bytes from an address upward. -/
def memWrite : Memory → Nat → List Byte → Memory
  | m, _, [] => m
  | m, a, v :: vs => memWrite (memPut m a v) (a + 1) vs

/-- Set the `n` bytes from an address upward to 0. -/
def memZero (m : Memory) (a n : Nat) : Memory := m.filter (fun c => c.1 < a || a + n ≤ c.1)

/-- The canonical form of a memory: addresses strictly rising, no byte 0 listed. -/
def memWf : Memory → Bool
  | [] => true
  | [(_, v)] => v != 0
  | (a, v) :: (b, w) :: m => v != 0 && a < b && memWf ((b, w) :: m)

/-- The little-endian number of `n` bytes at an address (R6). -/
def memNat (m : Memory) (a n : Nat) : Nat := leNat (memRead m a n)

/-- The field of `size` bytes at byte `off` of a descriptor or record held as one number (R6). -/
def rawField (raw : BitVec 1024) (off size : Nat) : Nat := (raw.toNat / 2 ^ (8 * off)) % 2 ^ (8 * size)

/-- The field of `size` bytes at byte `off` of a byte list. -/
def bytesField (bs : List Byte) (off size : Nat) : Nat := leNat ((bs.drop off).take size)

/-- The bytes of an ASCII string. -/
def ascii (s : String) : List Byte := s.toList.map (fun c => BitVec.ofNat 8 c.toNat)

/-- A byte list cut or filled with zeros to `n` bytes. -/
def padTo (n : Nat) (l : List Byte) : List Byte := (l ++ List.replicate n 0).take n

/-! ## The keys of the part (R753, R754) -/

/-- Bytes 0 to 31 of the SHA3-512 digest of a byte string. -/
def sha3Key (bs : List Byte) : List Byte := leBytes 32 (Config.sha3 bs).toNat

/-- The device secret DS. -/
def deviceSecret : List Byte := sha3Key (Config.pufResponse ++ leBytes 32 Config.fuseSeed.toNat)

/-- The seed of the device identity key DIK. -/
def dikSeed : List Byte := sha3Key (deviceSecret ++ ascii "MWH8-DIK")

/-- The key that authenticates the records of the non-volatile store. -/
def storeKey : List Byte := sha3Key (deviceSecret ++ ascii "MWH8-STORE")

/-- The part's DEVICE_ID as a number, little-endian: bytes 0 to 31 of the digest of the DIK public key. -/
def deviceId : BitVec 256 := (Config.sha3 (padTo 2592 (Config.mlDsaPublic dikSeed))).setWidth 256

/-- The DIK's signature over a digest. -/
def signDik (digest : BitVec 512) : List Byte := padTo 4627 (Config.mlDsaSign dikSeed digest)

/-! ## Free values -/

/-- Draw a free value below `2 ^ w` (assumption log 3). -/
def drawFree (d : Device) (w : Nat) : Device × Nat :=
  ({ d with fresh := d.fresh + 1 }, Config.freeNat d.fresh % 2 ^ w)

/-- The `n` free bytes that follow draw `k`. -/
def freeBytes (k n : Nat) : List Byte := (List.range n).map (fun i => BitVec.ofNat 8 (Config.freeNat (k + i)))

/-! ## Panels, ports, contexts and rings -/

/-- Panel `p`. -/
def Device.panel (d : Device) (p : PanelId) : Panel := d.panels[p.val]

/-- Change panel `p`. -/
def Device.updPanel (d : Device) (p : PanelId) (f : Panel → Panel) : Device :=
  { d with panels := d.panels.set p.val (f (d.panel p)) p.isLt }

/-- Change the memory part of panel `p`. -/
def Device.updPMem (d : Device) (p : PanelId) (f : PanelMem → PanelMem) : Device :=
  d.updPanel p (fun q => { q with mem := f q.mem })

/-- Change every panel. -/
def Device.mapPanels (d : Device) (f : PanelId → Panel → Panel) : Device :=
  { d with panels := Vector.ofFn (fun p => f p (d.panel p)) }

/-- Port `n`. -/
def Device.port (d : Device) (n : PortId) : Port := d.ports[n.val]

/-- Change port `n`. -/
def Device.updPort (d : Device) (n : PortId) (f : Port → Port) : Device :=
  { d with ports := d.ports.set n.val (f (d.port n)) n.isLt }

/-- Change the context with an identifier. -/
def updCtxIn (id : Code) (f : Context → Context) : List Context → List Context
  | [] => []
  | c :: cs => if c.id = id then f c :: cs else c :: updCtxIn id f cs

/-- The admitted context with an identifier (R405). -/
def Device.ctx? (d : Device) (id : Code) : Option Context := d.contexts.find? (fun c => c.id = id)

/-- Change an admitted context. -/
def Device.updCtx (d : Device) (id : Code) (f : Context → Context) : Device :=
  { d with contexts := updCtxIn id f d.contexts }

/-- Ring `n` of a context (R429). -/
def Context.ring? (c : Context) (n : RingId) : Option Ring := c.rings[n.val]?

/-- Change ring `n` of a context. -/
def Device.updRing (d : Device) (id : Code) (n : RingId) (f : Ring → Ring) : Device :=
  d.updCtx id (fun c => { c with rings := c.rings.modify n.val f })

/-- Ring `n` of an admitted context. -/
def Device.ring? (d : Device) (id : Code) (n : RingId) : Option Ring := (d.ctx? id).bind (fun c => c.ring? n)

/-- The context is confidential (R422). -/
def Device.isConfidential (d : Device) (id : Code) : Bool := (d.ctx? id).any (fun c => c.confidential)

/-- Needle-scheduled events of a context wait while its panel's sequencer is halted (R869). -/
def Device.haltedFor (d : Device) (ctx : Code) : Bool := (d.ctx? ctx).any (fun c => (d.panel c.panel).dbg.halted)

/-- Every ring of every context, as (context, ring). -/
def Device.allRings (d : Device) : List (Code × RingId) :=
  d.contexts.flatMap (fun c => (List.finRange 4).filterMap (fun n => if n.val < c.rings.length then some (c.id, n) else none))

/-- Whether two descriptors' places are the same. -/
def Device.desc? (d : Device) (id : Code) (n : RingId) (seq : Nat) : Option Desc :=
  (d.ring? id n).bind (fun r => r.queue.find? (fun x => x.seq = seq))

/-- Change the descriptor with a sequence number in a ring's queue. -/
def Device.updDesc (d : Device) (id : Code) (n : RingId) (seq : Nat) (f : Desc → Desc) : Device :=
  d.updRing id n (fun r => { r with queue := r.queue.map (fun x => if x.seq = seq then f x else x) })

/-- The head descriptor of a ring: the oldest one that has not finished (R464). -/
def Ring.head? (r : Ring) : Option Desc :=
  r.queue.find? (fun x => match x.phase with | .finished _ => false | _ => true)

/-! ## Needle positions -/

/-- STITCH_NS (R28). -/
def Device.stitchNs (d : Device) : Nat := fieldOf d.regs.needleCfg 19 0

/-- The angle of a tick count (R29). -/
def angleOf (stitchNs tick : Nat) : Nat := tick * 4096 / stitchNs

/-- A position as one number, stitch in bits [59:12], angle in bits [11:0] (R32). -/
def posNat (stitch angle : Nat) : Nat := stitch % 2 ^ 48 * 4096 + angle % 4096

/-- The counter runs (R49). -/
def NeedleState.runs : NeedleState → Bool
  | .disabled | .listen => false
  | _ => true

/-- The current Needle position; a stopped counter stands where it last stopped (R49). -/
def Device.position (d : Device) : Nat :=
  if d.needle.state.runs then posNat d.needle.stitch (angleOf d.stitchNs d.needle.tick) else d.needle.held

/-- Needle-scheduled events run (R49). -/
def NeedleState.schedules : NeedleState → Bool
  | .free | .locked | .treadle | .holdover | .reacquiring => true
  | _ => false

/-- The state's code (R49). -/
def NeedleState.code : NeedleState → Nat
  | .disabled => 0 | .free => 1 | .listen => 2 | .acquiring => 3 | .locked => 4
  | .treadle => 5 | .holdover => 6 | .lost => 7 | .reacquiring => 8

/-- A position word as records and heartbeats carry it: bit 63 HOLDOVER, bit 62 LOST (R637). -/
def Device.stampedPosition (d : Device) : BitVec 64 :=
  BitVec.ofNat 64 (d.position + (if d.needle.state = .holdover then 2 ^ 63 else 0)
    + (if d.needle.state = .lost then 2 ^ 62 else 0))

/-- The duration of `n` angles in ns, as R435 counts it. -/
def Device.anglesNs (d : Device) (n : Nat) : Nat := n * d.stitchNs / 4096

/-! ## Enable bits -/

/-- The device enable, HUB.DEV_CTL.EN. -/
def Device.enabled (d : Device) : Bool := bitOf d.regs.devCtl 0
/-- HUB.NEEDLE_CTL.EN. -/
def Device.needleOn (d : Device) : Bool := bitOf d.regs.needleCtl 0
/-- HUB.ADMIT_CTL.EN. -/
def Device.admitOn (d : Device) : Bool := bitOf d.regs.admitCtl 0
/-- HUB.DUMP_CTL.EN. -/
def Device.dumpOn (d : Device) : Bool := bitOf d.regs.dumpCtl 0
/-- PANELp.CTL.EN. -/
def Panel.enabled (p : Panel) : Bool := bitOf p.ctl 0
/-- PANELp.MEM_CTL.EN. -/
def Panel.memOn (p : Panel) : Bool := bitOf p.memCtl 0
/-- PORTn.CTL.EN. -/
def Port.enabled (p : Port) : Bool := bitOf p.ctl 0
/-- Guarantee mode, HUB.GUARD_CTL.GUARANTEE (R622). -/
def Device.guarantee (d : Device) : Bool := bitOf d.regs.guardCtl 0

/-- Bit `i` of a register set to `b`. -/
def setBit (v : BitVec 64) (i : Nat) (b : Bool) : BitVec 64 :=
  if b then v ||| (1#64 <<< i) else v &&& ~~~(1#64 <<< i)

/-- The panel is in a reset, or out of service. -/
def PanelState.resets : PanelState → Bool
  | .fenced | .resetting | .retraining | .outOfService => true
  | _ => false

/-- A panel under the Selvedge fence (R653, R923): its memory disabled, a reset under way, or the device out of service. -/
def Panel.fenced (p : Panel) : Bool := !p.memOn || p.state.resets

/-! ## Performance counters (R832 to R840) -/

/-- What an event is counted under: its code, context, class and unit. -/
structure PmcEvent where
  code : Nat
  ctx : Code := 0
  cls : Option ColourClass := none
  unit : Option Nat := none

/-- The code of a colour class (R139). -/
def classCode : ColourClass → Nat
  | .vermilion => 0 | .indigo => 1 | .slate => 2 | .ivory => 3

/-- A counter with this selector counts the event (R835, R836). -/
def PmcCounter.takes (c : PmcCounter) (e : PmcEvent) : Bool :=
  let ctx := fieldOf c.sel 47 32
  let mask := fieldOf c.sel 27 24
  let unit := fieldOf c.sel 22 16
  bitOf c.sel 63 && fieldOf c.sel 11 0 = e.code && (ctx = 0 || ctx = e.ctx.toNat)
    && (mask = 0 || (match e.cls with
      | some k => mask.testBit (classCode k)
      | none => true))
    && (unit = 0x7F || (match e.unit with
      | some u => unit = u
      | none => true))

/-- A counter after `n` more (R833). -/
def PmcCounter.add (c : PmcCounter) (n : Nat) : PmcCounter :=
  { c with val := c.val + BitVec.ofNat 48 n, ovf := c.ovf || decide (2 ^ 48 ≤ c.val.toNat + n) }

/-- All counters of a block after an event that happened `n` times; an odd chained one counts wraps (R834). -/
def countAll {k : Nat} (cs : Vector PmcCounter k) (e : PmcEvent) (n : Nat) : Vector PmcCounter k :=
  if !cs.toList.any (fun c => c.takes e) then cs
  else Vector.ofFn (fun i : Fin k =>
    let c := cs[i.val]
    let chained := i.val % 2 = 1 && bitOf c.sel 62
    if chained then
      match cs.toList[i.val - 1]? with
      | some p => if p.takes e && bitOf c.sel 63 then c.add ((p.val.toNat + n) / 2 ^ 48) else c
      | none => c
    else if c.takes e then c.add n else c)

/-- Every counter of the module is frozen (R837). -/
def Device.frozen (d : Device) : Bool := bitOf d.regs.pmcCtl 0

/-- Count an event of a panel. -/
def Device.count (d : Device) (p : PanelId) (e : PmcEvent) (n : Nat) : Device :=
  if d.frozen || bitOf (d.panel p).pmcCtl 0 then d else d.updPanel p (fun q => { q with pmc := countAll q.pmc e n })

/-- Count an event of the hub. -/
def Device.countHub (d : Device) (e : PmcEvent) (n : Nat) : Device :=
  if d.frozen then d else { d with counters := { d.counters with hub := countAll d.counters.hub e n } }

/-- Count an event of a panel that belongs to a context (R641, R835). -/
def Device.countCtx (d : Device) (id : Code) (code n : Nat) : Device :=
  match d.ctx? id with
  | some c => if n = 0 then d else d.count c.panel { code := code, ctx := id } n
  | none => d

/-! ## The host -/

/-- The host link carries requests. -/
def Device.hostUp (d : Device) : Bool := d.host.link = .l0

/-- A dword of the configuration space as last written; the offsets of the capabilities are PRESUMED (assumption
log 9). -/
def HostLink.stored (h : HostLink) (offset : Nat) : BitVec 32 := ((h.config.find? (fun c => c.1 = offset)).map (fun c => c.2)).getD 0

/-- Bus Master Enable (R828). -/
def HostLink.busMaster (h : HostLink) : Bool := (h.stored 0x04).getLsbD 2
/-- ATS is enabled (R807). -/
def HostLink.atsOn (h : HostLink) : Bool := (h.stored 0x204).getLsbD 31
/-- CXL.cache is enabled; never in PCIe mode (R799). -/
def HostLink.cacheEnabled (h : HostLink) : Bool := h.cxl && (h.stored 0x30C).getLsbD 0
/-- CXL.mem is enabled; never in PCIe mode (R799). -/
def HostLink.memEnabled (h : HostLink) : Bool := h.cxl && (h.stored 0x30C).getLsbD 2

/-- The device keeps the translations of a host range while ATS is enabled, at most 1,024 (R807, R808). -/
def HostLink.translate (h : HostLink) (a n : Nat) : HostLink :=
  if !h.atsOn then h
  else
    let pages := (List.range (ceilDiv (a % 4096 + n) 4096)).map (fun i => a / 4096 + i)
    { h with translations := (pages ++ h.translations.filter (fun t => !pages.contains t)).take 1024 }

/-- Device Control of the PCI Express capability; before it is written it holds the published default (assumption log 9). -/
def HostLink.devControl (h : HostLink) : BitVec 32 := ((h.config.find? (fun c => c.1 = 0x78)).map (fun c => c.2)).getD 0x2810

/-- A request for host memory goes out: by translated address while ATS is enabled, in units of the max payload or max read
request size, and with Relaxed Ordering only where it may have it (R807, R810, R811). -/
def HostLink.request (h : HostLink) (write relaxed : Bool) (a n : Nat) : HostLink :=
  let c := h.devControl.setWidth 64
  let h := h.translate a n
  { h with lastReq := some {
    write := write, addr := a, size := n, unit := 128 * 2 ^ (if write then fieldOf c 7 5 else fieldOf c 14 12)
    relaxed := relaxed && bitOf c 4, translated := h.atsOn } }

/-- Read host memory. -/
def Device.hostRead (d : Device) (a n : Nat) : List Byte := memRead d.hostMem a n

/-- Write host memory, `relaxed` where the write may pass earlier ones: at once in L0, held in Recovery until L0 returns (R823),
lost when the link is down. -/
def Device.hostPut (d : Device) (relaxed : Bool) (a : Nat) (bs : List Byte) : Device :=
  match d.host.link with
  | .l0 =>
    let d := d.countHub { code := 0x101 } (ceilDiv (a % 64 + bs.length) 64)
    { d with hostMem := memWrite d.hostMem a bs, host := d.host.request true relaxed a bs.length }
  | .recovery => { d with host := { d.host with heldWrites := d.host.heldWrites ++ [(a, bs, relaxed)] } }
  | _ => d

/-- Write records, messages' data and control to host memory. -/
def Device.hostWrite (d : Device) (a : Nat) (bs : List Byte) : Device := d.hostPut false a bs

/-- Write a descriptor's data, or the body of a crash sample, to host memory (R811). -/
def Device.hostData (d : Device) (a : Nat) (bs : List Byte) : Device := d.hostPut true a bs

/-- Read host memory for the device itself, counted (R840). -/
def Device.hostFetch (d : Device) (a n : Nat) : Device × List Byte :=
  let bs := d.hostRead a n
  let d := d.countHub { code := 0x102 } (ceilDiv (a % 64 + n) 64)
  ({ d with host := d.host.request false false a n }, bs)

/-- Send the MSI-X message of a vector (R822); Recovery holds it back behind the writes that it announces (R823). -/
def Device.sendMsg (d : Device) (v : Fin 11) : Device :=
  match d.host.link with
  | .l0 => { d with host := { d.host with messages := d.host.messages.set v.val (d.host.messages[v.val] + 1) v.isLt } }
  | .recovery => { d with host := { d.host with heldMessages := d.host.heldMessages ++ [v] } }
  | _ => d

/-! ## Error records -/

/-- Whether a record's fields are hidden for a confidential context (R639), and the record with them hidden.
MECH ARRAY, SEAM, REDUCE, NEARMEM and CONFIG hide DETAIL; DESCRIPTOR and the R809 records hide ADDR. -/
def redact (r : ErrRec) : ErrRec :=
  if [0x01, 0x03, 0x04, 0x05, 0x0A].contains r.mech then { r with detail := 0, attr := r.attr ||| 4 }
  else if r.mech = 0x11 || (r.mech = 0x10 && r.reason = 0x0152) then { r with addr := 0, attr := r.attr ||| 4 }
  else r

/-- The record names a descriptor that ran ahead of an older one of its ring (R464, R637). -/
def Device.ranAhead (d : Device) (r : ErrRec) : Bool :=
  128 ≤ r.ring && ((d.ring? r.ctx (Fin.ofNat 4 r.ring)).bind Ring.head?).any (fun x => x.seq % 2 ^ 32 < r.descSeq)

/-- A record as raised: stamped with the position, the context's retired tacks, FILLER, AHEAD and its redaction. -/
def Device.stampRec (d : Device) (r : ErrRec) : ErrRec :=
  let r := { r with position := d.stampedPosition, attr := r.attr ||| (if d.ranAhead r then 16 else 0) }
  match d.ctx? r.ctx with
  | none => r
  | some c =>
    let r := { r with tacks := c.tacks % 2 ^ 32, attr := r.attr ||| (if c.rights.getLsbD 2 then 8 else 0) }
    if c.confidential then redact r else r

/-- The records in the general places of the internal queue (R635). -/
def ErrRing.general (e : ErrRing) : Nat := (e.queue.filter (fun q => !q.reserve)).length

/-- Put a stamped record into the internal queue (R635, R636): a record that finds the 64 general places full is kept
in the reserve when it is needed, and otherwise dropped and counted. -/
def Device.enqueueRec (d : Device) (r : ErrRec) (needed : Bool) : Device :=
  let e := d.err
  let ticket := if needed then some e.nextTicket else none
  let next := if needed then e.nextTicket + 1 else e.nextTicket
  if e.general < 64 then
    { d with err := { e with queue := e.queue ++ [⟨r, false, ticket⟩], nextTicket := next } }
  else if needed then
    { d with err := { e with queue := e.queue ++ [⟨r, true, ticket⟩], nextTicket := next } }
  else { d with err := { e with lost := satTo 16 (e.lost + 1), lostUnreported := e.lostUnreported + 1 } }

/-- Raise a record that no completion points to. -/
def Device.raise (d : Device) (r : ErrRec) : Device := d.enqueueRec (d.stampRec r) false

/-- Raise a needed record; the number is the ticket by which a completion names it. -/
def Device.raiseNeeded (d : Device) (r : ErrRec) : Device × Nat := (d.enqueueRec (d.stampRec r) true, d.err.nextTicket)

/-- Whether two events are coalesced into one record (R640). -/
def sameCoalesced (a b : ErrRec) : Bool :=
  a.reason = b.reason && a.mech = b.mech && a.panel = b.panel && a.unit = b.unit

/-- Count a corrected event into its record of the stitch, or hold a new record (R640). -/
def coalesceIn (r : ErrRec) : List ErrRec → List ErrRec
  | [] => [r]
  | x :: xs => if sameCoalesced x r then { x with count := satTo 16 (x.count + r.count) } :: xs else x :: coalesceIn r xs

/-- Raise a corrected event of 0x0120, 0x0128, 0x012F or 0x0706 (R640). -/
def Device.raiseCoalesced (d : Device) (r : ErrRec) : Device :=
  let e := d.err
  { d with err := { e with coalesced := coalesceIn (d.stampRec r) e.coalesced,
                           coalesceSince := if e.coalesced.isEmpty then d.now else e.coalesceSince } }

/-- Place the held coalesced records for writing (R640). -/
def Device.flushCoalesced (d : Device) : Device :=
  d.err.coalesced.foldl (fun d r => d.enqueueRec r false) { d with err := { d.err with coalesced := [] } }

/-! ## The guarantee (R619, R620) -/

/-- GUARD_STATUS bits [7:0] as the conditions of R619 stand. -/
def Device.guardNow (d : Device) : BitVec 8 :=
  let needleMet := match d.needle.state with
    | .free | .locked | .treadle | .holdover | .reacquiring => true
    | _ => false
  let scrubMet := d.panels.toList.all (fun p => !p.memOn || bitOf p.memCtl 1)
  let bits := (if needleMet then 0 else 128) + (if scrubMet then 0 else 64)
    + (if d.guarantee then 0 else 32) + (if d.err.ratingsExceeded then 16 else 0)
  BitVec.ofNat 8 (if bits = 0 then 1 else bits)

/-- Bring GUARD_STATUS up to date; a change of HELD writes a record (R620). -/
def Device.updateGuard (d : Device) : Device :=
  let old := d.err.guardBits
  let new := d.guardNow
  let d' := { d with err := { d.err with guardBits := new } }
  if old.getLsbD 0 = new.getLsbD 0 then d'
  else
    let d' := { d' with err := { d'.err with guardReason := 0x0131 } }
    d'.raise { reason := 0x0131, mech := 0x12, outcome := 2, detail := BitVec.ofNat 128 (old.toNat + 256 * new.toNat) }

/-! ## Answers -/

/-- The outcome of a command that goes on in a given state. -/
abbrev Out := Host.Outcome State Fault Refusal

/-- Change the device of a state. -/
def State.onDev (s : State) (f : Device → Device) : State := { s with dev := f s.dev }

/-- A command acts on the device while the package rails are on; without them nothing of the package answers
(assumption log 5). -/
def State.run (s : State) (f : Device → Device) : Out :=
  .next (if s.pins.railsOn then s.onDev f else s)

/-- The escalation refusal of R887, if one stands. -/
def Device.escalationCode (d : Device) : Option Code :=
  match d.reset.escalation with
  | .inService => none
  | .outOfService => some 0x0140
  | .serviceRequired => some 0x0142

/-- The first check that fails: its reason code and BAD_REG. -/
def firstFailure : List (Bool × Code × Nat) → Option (Code × Nat)
  | [] => none
  | (ok, c, b) :: rest => if ok then firstFailure rest else some (c, b)

/-- A setup register after a write of `value` under `mask`: the bits outside keep their values. -/
def mergeBits (old value mask : BitVec 64) : BitVec 64 := (old &&& ~~~mask) ||| (value &&& mask)

end Sys2Proof.Machine
end

