-- ==== Sys2Proof/Machine/Memory.lean ====
section
/-! DEFINITION. The memory system (07_memory_system.md): addresses, the Spool, poison, retirement, the translation of
context addresses (R414 to R418), the frame table, and the encryption of confidential host frames (R771 to R777). -/

namespace Sys2Proof.Machine

/-! ## Addresses and interleave -/

/-- The bytes of one panel's memory (R345). -/
def panelBytes : Nat := 0x5000000000

/-- The end of the module physical address space (R345). -/
def mpaEnd : Nat := 0x28000000000

/-- The panel that owns a module physical address. -/
def panelOf (mpa : Nat) : PanelId := Fin.ofNat 8 (mpa / panelBytes)

/-- The panel physical address (R345). -/
def ppaOf (mpa : Nat) : Nat := mpa % panelBytes

/-- Stack, channel, bank group, bank, row and byte in page of a PPA (R346). -/
structure DramPlace where
  stack : Nat
  channel : Nat
  group : Nat
  bank : Nat
  row : Nat
  byte : Nat
  deriving DecidableEq, Repr

/-- The interleave (R346). -/
def interleave (ppa : Nat) : DramPlace :=
  let u := ppa / 256
  let l := u / 512
  let ch := (u % 512) ^^^ (l % 512)
  { stack := ch / 128, channel := ch % 128, group := l / 4 % 4, bank := l / 16 % 4, row := l / 64,
    byte := 256 * (l % 4) + ppa % 256 }

/-- The channel of the panel, 0 to 511, of a PPA. -/
def channelOf (ppa : Nat) : Nat := (ppa / 256 % 512) ^^^ (ppa / 256 / 512 % 512)

/-- The 64 KiB page number of a PPA (R347, R386). -/
def pageOf (ppa : Nat) : Nat := ppa / 65536

/-- The panel's memory retires the page (R386). -/
def Panel.retires (p : Panel) (ppa : Nat) : Bool := p.mem.retired.contains (pageOf ppa)

/-! ## The Spool -/

/-- The Spool's hints (R138, R352). -/
inductive Hint where
  | stream | keep | discard
  deriving DecidableEq, Repr

/-- The hint of a 2-bit code; 0b11 is refused by the operation checks before it is used. -/
def hintOf (code : Nat) : Hint := if code = 0 then .stream else if code = 1 then .keep else .discard

/-- The colour class of a 2-bit code (R139). -/
def classOf (code : Nat) : ColourClass :=
  match code with
  | 0 => .vermilion
  | 1 => .indigo
  | 2 => .slate
  | _ => .ivory

/-- Two units fall into one set of a Spool (R348). -/
def sameSet (u v : Nat) : Bool := u % 16384 = v % 16384

/-- The last line, that is the least recently used one, that a condition picks (R355). -/
def lruLine (ls : List SpoolLine) (f : SpoolLine → Bool) : Option Nat := ((ls.filter f).getLast?).map (fun l => l.unit)

/-- Make room for a line (R355): a keep line beyond KEEP_WAYS replaces the least recently used keep line of its set; a
full set loses its least recently used line. -/
def evictFor (ls : List SpoolLine) (unit keepWays : Nat) : List SpoolLine :=
  let set := ls.filter (fun l => sameSet l.unit unit)
  let victim :=
    if keepWays ≤ (set.filter (fun l => l.keep)).length then lruLine ls (fun l => sameSet l.unit unit && l.keep)
    else if 16 ≤ set.length then lruLine ls (fun l => sameSet l.unit unit)
    else none
  match victim with
  | some v => ls.filter (fun l => l.unit != v)
  | none => ls

/-- Put a line first, the most recently used place. -/
def touchLine (ls : List SpoolLine) (l : SpoolLine) : List SpoolLine := l :: ls.filter (fun x => x.unit != l.unit)

/-- The unit holds part of the home of an open Gusset entry, so the Spool never allocates it (R350). -/
def Panel.inHome (p : Panel) (unit : Nat) : Bool := p.homeSegs.any (fun s => rangesOverlap s.1 s.2 (unit * 256) 256)

/-- The Spool's lines, changed. -/
def Panel.updSpool (p : Panel) (f : List SpoolLine → List SpoolLine) : Panel :=
  { p with mem := { p.mem with spool := f p.mem.spool } }

/-- The line of a unit. -/
def Panel.line? (p : Panel) (unit : Nat) : Option SpoolLine := p.mem.spool.find? (fun l => l.unit = unit)

/-- A new or updated line comes first in its set; a new one makes room for itself (R355). -/
def Panel.putLine (p : Panel) (l : SpoolLine) : Panel :=
  p.updSpool (fun ls => if (p.line? l.unit).isSome then touchLine ls l else l :: evictFor ls l.unit (fieldOf p.spoolCfg 4 0))

/-- A read miss allocates a line (R350, R352). -/
def Panel.allocates (p : Panel) (unit : Nat) (h : Hint) (last : Bool) : Bool :=
  !(h = .stream || (h = .discard && last) || p.inHome unit)

/-- A read hit moves its line as the hint says (R352). A LAST read leaves the line until the tack commits, which drops it
(assumption log 150). -/
def Panel.hitLine (p : Panel) (l : SpoolLine) (h : Hint) (last : Bool) : Panel :=
  if h = .stream || (h = .discard && last) then p else p.putLine l

/-- A write goes through to memory without allocation (R350, R352). -/
def Panel.writesThrough (p : Panel) (unit : Nat) (h : Hint) : Bool := h = .stream || p.inHome unit

/-- Drop the lines of a range of bytes (R350). The bytes lie in `Device.mem` already. -/
def Device.spoolDrop (d : Device) (mpa n : Nat) : Device :=
  d.updPanel (panelOf mpa) (fun p => p.updSpool (fun ls => ls.filter (fun l => !rangesOverlap mpa n (l.unit * 256) 256)))

/-! ## Poison and uncorrectable accesses -/

/-- The 64-byte accesses that a range touches. -/
def accessesOf (mpa n : Nat) : List Nat :=
  if n = 0 then [] else (List.range ((mpa + n - 1) / 64 - mpa / 64 + 1)).map (fun i => mpa / 64 + i)

/-- Whom a record of a memory fault names (R641): context, ring byte, descriptor. -/
structure Blame where
  ctx : Code := 0
  ring : Nat := 0
  seq : Nat := 0
  deriving DecidableEq, Repr

/-- A record names the blamed context and descriptor. -/
def ErrRec.blaming (r : ErrRec) (b : Blame) : ErrRec := { r with ctx := b.ctx, ring := b.ring, descSeq := b.seq % 2 ^ 32 }

/-- The blame of a descriptor's own access. -/
def blameDesc (ctx : Code) (ring : RingId) (seq : Nat) : Blame := ⟨ctx, 0x80 + ring.val, seq⟩

/-- The record of a memory fault, naming stack, channel and page (R638). -/
def memRecord (mpa : Nat) (reason : Code) (outcome symbol : Nat) (b : Blame) : ErrRec :=
  let place := interleave (ppaOf mpa)
  { reason := reason, mech := 0x0B, outcome := outcome, panel := (panelOf mpa).val, unit := 4 * (panelOf mpa).val + place.stack,
    sub := place.channel, addr := pageOf (ppaOf mpa), detail := BitVec.ofNat 128 symbol, ctx := b.ctx,
    ring := b.ring, descSeq := b.seq % 2 ^ 32 }

/-- Latch an uncorrectable page and count it (R380, R383). -/
def Device.latchUe (d : Device) (mpa : Nat) : Device :=
  d.updPMem (panelOf mpa) (fun m => { m with uncorr := satTo 16 (m.uncorr + 1), uePage := some (pageOf (ppaOf mpa)),
                                              ueLast := pageOf (ppaOf mpa) })

/-- The needed record of an uncorrectable read of a descriptor that waits to be written: the completion of the
descriptor that fails with it points to this record (R642). -/
def Device.ueTicket (d : Device) (b : Blame) : Option Nat :=
  d.err.queue.findSome? (fun q =>
    if q.content.reason = 0x0311 && q.content.ctx = b.ctx && q.content.ring = b.ring && q.content.descSeq = b.seq % 2 ^ 32
    then q.ticket else none)

/-- An uncorrectable read of one access: the record, the count and the latched page (R380). The first record of a
descriptor's own read is needed. -/
def Device.ueRead (d : Device) (access : Nat) (b : Blame) : Device :=
  let d := d.latchUe (access * 64)
  let r := memRecord (access * 64) 0x0311 1 0xFF b
  if 128 ≤ b.ring && (d.ueTicket b).isNone then (d.raiseNeeded r).1 else d.raise r

/-- The stack, 0 to 31, of a 64-byte access. -/
def stackOf (access : Nat) : Nat := 4 * (panelOf (access * 64)).val + (interleave (ppaOf (access * 64))).stack

/-- An access holds the poison code (R382), on its own or with its whole stack (R666). -/
def Device.isPoison (d : Device) (access : Nat) : Bool :=
  d.poison.contains access || (!d.lostStacks.isEmpty && d.lostStacks.any (fun l =>
    l.1 = stackOf access && !l.2.any (fun r => r.1 ≤ access && access < r.1 + r.2)))

/-- The accesses of a range have been written whole. -/
def Device.rewrote (d : Device) (first n : Nat) : Device :=
  if d.lostStacks.isEmpty || n = 0 then d
  else { d with lostStacks := d.lostStacks.map (fun l => (l.1, (first, n) :: l.2)) }

/-- A stored access is not sound: it holds the poison code, or ECC cannot correct it. -/
def Device.unsound (d : Device) (access : Nat) : Bool := d.faulty.contains access || d.isPoison access

/-- The Spool line that serves a 64-byte access. -/
def Device.lineOf (d : Device) (access : Nat) : Option SpoolLine := (d.panel (panelOf (access * 64))).line? (access / 4)

/-- A read of an access returns poison: that of the Spool line that serves it, else that of the stored access (R352,
R380, R382). -/
def Device.badAt (d : Device) (access : Nat) : Bool :=
  match d.lineOf access with
  | some l => l.bad.contains (access % 4)
  | none => d.unsound access

/-- A read of a range meets poison. -/
def Device.badIn (d : Device) (mpa n : Nat) : Bool := (accessesOf mpa n).any d.badAt

/-- The poison mask of a range: one Bool per 64-byte piece. -/
def Device.poisonBits (d : Device) (mpa n : Nat) : List Bool :=
  (List.range (ceilDiv n 64)).map (fun i => d.badIn (mpa + 64 * i) (min 64 (n - 64 * i)))

/-- Write the poison code over accesses (R382). -/
def Device.poisonAccesses (d : Device) (acc : List Nat) : Device :=
  { d with poison := d.poison ++ acc.filter (fun a => !d.poison.contains a),
           faulty := d.faulty.filter (fun a => !acc.contains a) }

/-- Poison for accesses whose data are known to be bad: a line that holds one holds poison, and so does memory. -/
def Device.poisonStored (d : Device) (acc : List Nat) : Device :=
  let mark (l : SpoolLine) : SpoolLine :=
    { l with bad := l.bad ++ ((acc.filter (fun a => a / 4 = l.unit)).map (· % 4)).filter (fun k => !l.bad.contains k) }
  (acc.map (fun a => panelOf (a * 64))).eraseDups.foldl (fun d p => d.updPanel p (fun q => q.updSpool (List.map mark)))
    (d.poisonAccesses acc)

/-- Whole accesses are written to the stacks: those of sound data replace what was there, the others take the poison code
(R356, R382). -/
def Device.stackWritten (d : Device) (sound bad : List Nat) : Device :=
  let d := sound.foldl (fun (d : Device) a => d.rewrote a 1) d
  ({ d with poison := d.poison.filter (fun a => !sound.contains a),
            faulty := d.faulty.filter (fun a => !sound.contains a) }).poisonAccesses bad

/-- Make bytes undefined: each takes a free value (R354, assumption log 3). -/
def Device.undefine (d : Device) (mpa n : Nat) : Device :=
  { d with mem := memWrite d.mem mpa (freeBytes d.fresh n), fresh := d.fresh + n }

/-- The 256-byte units that a range touches (R346). -/
def unitsOf (mpa n : Nat) : List Nat :=
  if n = 0 then [] else (List.range ((mpa + n - 1) / 256 - mpa / 256 + 1)).map (fun i => mpa / 256 + i)

/-! ## Requests in the channels' queues (R359, R360) -/

/-- Whom a requester's requests count for (R641, R835). -/
def requesterCtx : Requester → Code
  | .descriptor c _ => c
  | .window c => c
  | _ => 0

/-- The queue of a channel. -/
def PanelMem.queueOf (m : PanelMem) (ch : Nat) : List MemRequest := ((m.queues.find? (fun q => q.1 = ch)).map (fun q => q.2)).getD []

/-- Set the queue of a channel; an empty queue is not listed. -/
def PanelMem.setQueue (m : PanelMem) (ch : Nat) (q : List MemRequest) : PanelMem :=
  let rest := m.queues.filter (fun x => x.1 != ch)
  { m with queues := if q.isEmpty then rest else (ch, q) :: rest }

/-- The channel of a request. -/
def MemRequest.channel (r : MemRequest) : Nat := channelOf (ppaOf r.mpa)

/-- A queue has a free place for a request (R359): a read of Vermilion rank has 16 places beside the 8 reserved for
promoted ones, one of the lower classes 32, and a write 64. A free place is the buffer space of a read and the credit of a
write (R360). -/
def roomFor (q : List MemRequest) (r : MemRequest) : Bool :=
  let rank (x : MemRequest) : Bool := x.cls = .vermilion
  if r.write then decide ((q.filter (fun x => x.write)).length < 64)
  else decide ((q.filter (fun x => !x.write && !x.promoted && rank x = rank r)).length < if rank r then 16 else 32)

/-- A request enters its channel's queue, or waits at its requester for a free place, behind those that wait there
already (R359, R360). -/
def PanelMem.enqueue (m : PanelMem) (r : MemRequest) : PanelMem :=
  let q := m.queueOf r.channel
  if roomFor q r && !m.stalled.any (fun x => x.channel = r.channel && x.write = r.write) then m.setQueue r.channel (q ++ [r])
  else { m with stalled := m.stalled ++ [r] }

/-- A request for a 64-byte access is made. -/
def Device.enqueueMem (d : Device) (mpa : Nat) (cls : ColourClass) (write : Bool) (by_ : Requester) : Device :=
  d.updPMem (panelOf mpa) (fun m => m.enqueue { mpa := mpa, cls := cls, write := write, since := d.now, promoted := false,
                                                requester := by_ })

/-- The reads of a requester have all been answered. -/
def Device.answered (d : Device) (by_ : Requester) : Device :=
  let waits (r : MemRequest) : Bool := r.write || r.requester != by_
  d.mapPanels (fun _ q =>
    if q.mem.queues.isEmpty && q.mem.stalled.isEmpty then q
    else { q with mem := { q.mem with
      queues := (q.mem.queues.map (fun x => (x.1, x.2.filter waits))).filter (fun x => !x.2.isEmpty)
      stalled := q.mem.stalled.filter waits } })

/-- A context has requests that wait for buffer space or a write credit (R360). -/
def Device.stalledFor (d : Device) (id : Code) : Bool :=
  id != 0 && d.panels.toList.any (fun q => q.mem.stalled.any (fun r => requesterCtx r.requester = id))

/-- 64-byte accesses of one unit are requested of its channel (R346, R359), and counted (R839). -/
def Device.stackAccess (d : Device) (write : Bool) (unit : Nat) (acc : List Nat) (cls : ColourClass) (by_ : Requester) : Device :=
  acc.foldl (fun (d : Device) a => d.enqueueMem (a * 64) cls write by_)
    (d.count (panelOf (unit * 256)) { code := if write then 0x045 else 0x044, ctx := requesterCtx by_, cls := some cls,
                                      unit := some (interleave (ppaOf (unit * 256))).stack } acc.length)

/-! ## Reads and writes through the Spool (R349 to R356) -/

/-- The four 64-byte accesses of a unit. -/
def unitAccesses (unit : Nat) : List Nat := [4 * unit, 4 * unit + 1, 4 * unit + 2, 4 * unit + 3]

/-- The 64-byte accesses of a range that lie in a unit. -/
def touchedIn (mpa n unit : Nat) : List Nat := (accessesOf mpa n).filter (fun a => a / 4 = unit)

/-- Dirty lines leave a panel's Spool to their stacks: each counts as written back, with its four 64-byte writes (R351, R839).
Its bad accesses take the poison code, its sound ones replace it (R382). -/
def Device.writeBack (d : Device) (gone : List SpoolLine) : Device :=
  (gone.filter (fun l => l.dirty)).foldl (fun d l =>
    let acc := unitAccesses l.unit
    let d := (d.count (panelOf (l.unit * 256)) { code := 0x042, cls := some l.cls } 1).stackAccess true l.unit acc l.cls .nobody
    d.stackWritten (acc.filter (fun a => !l.bad.contains (a % 4))) (acc.filter (fun a => l.bad.contains (a % 4)))) d

/-- The lines that made room for a unit's line. -/
def evictedLines (old new : List SpoolLine) (unit : Nat) : List SpoolLine :=
  if old.length < new.length then [] else old.filter (fun l => l.unit != unit && !new.any (fun x => x.unit = l.unit))

/-- A line enters its panel's Spool, and what it displaces is written back. -/
def Device.allocLine (d : Device) (l : SpoolLine) : Device :=
  let p := panelOf (l.unit * 256)
  let e := d.updPanel p (fun q => q.putLine l)
  e.writeBack (evictedLines (d.panel p).mem.spool (e.panel p).mem.spool l.unit)

/-- The accesses of a unit that its stack does not hold soundly. -/
def Device.unsoundIn (d : Device) (unit : Nat) : List Nat := ((unitAccesses unit).filter d.unsound).map (· % 4)

/-- One unit of a read (R352): a hit is served; a miss reads its line, or what is asked for without one, and every access
that ECC cannot correct writes its record (R380). -/
def Device.readUnit (d : Device) (mpa n unit : Nat) (h : Hint) (last : Bool) (cls : ColourClass) (by_ : Requester) (b : Blame) : Device :=
  let p := panelOf (unit * 256)
  let ev (code : Nat) : PmcEvent := { code := code, ctx := requesterCtx by_, cls := some cls }
  match (d.panel p).line? unit with
  | some l => (d.count p (ev 0x040) 1).updPanel p (fun q => q.hitLine l h last)
  | none =>
    let fill := (d.panel p).allocates unit h last
    let acc := if fill then unitAccesses unit else touchedIn mpa n unit
    let d := (d.count p (ev 0x041) 1).stackAccess false unit acc cls by_
    let d := (acc.filter (fun a => d.faulty.contains a)).foldl (fun d a => d.ueRead a b) d
    if fill then d.allocLine { unit := unit, keep := true, dirty := false, cls := cls, bad := d.unsoundIn unit } else d

/-- The panel whose units make a requester's requests; `none` for the hub. -/
def Device.panelFor (d : Device) (by_ : Requester) : Option PanelId :=
  match by_ with
  | .descriptor c _ => (d.ctx? c).map (fun c => c.panel)
  | _ => none

/-- Data crosses the Yoke between the panel that owns it and the unit that asked for it: one flit for each 64-byte access, which
the sender and the receiver count where they are panels (R839, assumption log 160). -/
def Device.yokeFlits (d : Device) (owner : PanelId) (n : Nat) (toOwner : Bool) (cls : ColourClass) (by_ : Requester) : Device :=
  let other := d.panelFor by_
  if other = some owner then d
  else
    let ev (out : Bool) : PmcEvent := { code := if out then 0x04C else 0x04D, ctx := requesterCtx by_, cls := some cls }
    let d := d.count owner (ev (!toOwner)) n
    match other with
    | some p => d.count p (ev toOwner) n
    | none => d

/-- A read of module memory: its bytes, and whether they are poisoned. `last` picks the units that it reads for the last
time (R353). -/
def Device.loadMpa (d : Device) (mpa n : Nat) (h : Hint) (last : Nat → Bool) (cls : ColourClass) (by_ : Requester) (b : Blame) :
    Device × List Byte × Bool :=
  let bad := d.badIn mpa n
  let e := d.yokeFlits (panelOf mpa) (accessesOf mpa n).length false cls by_
  ((unitsOf mpa n).foldl (fun d u => d.readUnit mpa n u h (last u) cls by_ b) e, memRead d.mem mpa n, bad)

/-- A read below the Spool, by a channel's accumulation unit (R349, R376). -/
def Device.loadBelow (d : Device) (mpa n : Nat) (cls : ColourClass) (by_ : Requester) (b : Blame) : Device × List Byte × Bool :=
  let bad := (accessesOf mpa n).any d.unsound
  let e := (unitsOf mpa n).foldl (fun d u => d.stackAccess false u (touchedIn mpa n u) cls by_) d
  (((accessesOf mpa n).filter (fun a => d.faulty.contains a)).foldl (fun d a => d.ueRead a b) e, memRead d.mem mpa n, bad)

/-- The accesses of a write that stay poisoned: it covers them in part, and what is stored of them is bad (R356). The
stored access that ECC cannot correct writes its record. -/
def Device.mergeReads (d : Device) (mpa n : Nat) (b : Blame) : Device × List Nat :=
  let part := (accessesOf mpa n).filter (fun a => !(mpa ≤ a * 64 && a * 64 + 64 ≤ mpa + n))
  let bad := part.filter d.badAt
  ((bad.filter (fun a => (d.lineOf a).isNone && d.faulty.contains a)).foldl (fun (d : Device) a =>
    (d.latchUe (a * 64)).raise (memRecord (a * 64) 0x0311 1 0xFF b)) d, bad)

/-- One unit of a write (R352): through to memory, a present line staying as it is updated, or into a dirty line. -/
def Device.writeUnit (d : Device) (mpa n unit : Nat) (bad : List Nat) (h : Hint) (cls : ColourClass) (by_ : Requester) : Device :=
  let p := panelOf (unit * 256)
  let acc := touchedIn mpa n unit
  let sound := acc.filter (fun a => !bad.contains a)
  let line := (d.panel p).line? unit
  let left (old : List Nat) : List Nat := old.filter (fun k => !sound.contains (4 * unit + k))
  if (d.panel p).writesThrough unit h then
    let d := d.updPanel p (fun q => q.updSpool (List.map (fun l => if l.unit = unit then { l with bad := left l.bad } else l)))
    (d.stackAccess true unit acc cls by_).stackWritten sound (acc.filter (fun a => bad.contains a))
  else d.allocLine { unit := unit, keep := true, dirty := true, cls := cls,
                     bad := left ((line.map (fun l => l.bad)).getD (d.unsoundIn unit)) }

/-- Cut a byte range at every multiple of `m`. -/
def cutAt (m a n : Nat) : List (Nat × Nat) :=
  if n = 0 then [] else
  (List.range ((a + n - 1) / m - a / m + 1)).map (fun i =>
    let lo := max a ((a / m + i) * m)
    let hi := min (a + n) ((a / m + i + 1) * m)
    (lo, hi - lo))

/-- A write of module memory. A whole access replaces poison, a partial one is merged (R356); a write to a retired page is
dropped (R390). -/
def Device.storeMpa (d : Device) (mpa : Nat) (bs : List Byte) (h : Hint) (cls : ColourClass) (by_ : Requester) (b : Blame) : Device :=
  (cutAt 65536 mpa bs.length).foldl (fun (d : Device) s =>
    if (d.panel (panelOf s.1)).retires (ppaOf s.1) then d
    else
      let (d, bad) := (d.yokeFlits (panelOf s.1) (accessesOf s.1 s.2).length true cls by_).mergeReads s.1 s.2 b
      let d := { d with mem := memWrite d.mem s.1 ((bs.drop (s.1 - mpa)).take s.2) }
      (unitsOf s.1 s.2).foldl (fun d u => d.writeUnit s.1 s.2 u bad h cls by_) d) d

/-- A write below the Spool, by a channel's accumulation unit (R349, R376). -/
def Device.storeBelow (d : Device) (mpa : Nat) (bs : List Byte) (cls : ColourClass) (by_ : Requester) : Device :=
  (unitsOf mpa bs.length).foldl (fun d u => d.stackAccess true u (touchedIn mpa bs.length u) cls by_)
    { d with mem := memWrite d.mem mpa bs }

/-- A LAST read drops its line without write-back, and the contents of a dirty one are undefined (R353, R354). -/
def Device.lastRead (d : Device) (unit : Nat) (who : Code) : Device :=
  let p := panelOf (unit * 256)
  match (d.panel p).line? unit with
  | none => d
  | some l =>
    let d := (d.count p { code := 0x043, ctx := who } 1).updPanel p (fun q => q.updSpool (fun ls => ls.filter (fun x => x.unit != unit)))
    if l.dirty then d.undefine (unit * 256) 256 else d

/-! ## The frame table (R779 to R782) -/

/-- The first frame of the reserved crash region of a panel, and the only one (R669). -/
def isCrashFrame (f : Nat) : Bool := (f + 1) % 163840 = 0

/-- The frame table's entry of a frame. -/
def FrameTable.get (t : FrameTable) (f : Nat) : Frame :=
  (t.entries.find? (fun e => e.index = f)).getD ⟨f, [], false, false, t.freshDefault⟩

/-- Set the entry of a frame. -/
def FrameTable.put (t : FrameTable) (e : Frame) : FrameTable :=
  { t with entries := t.entries.filter (fun x => x.index < e.index) ++ e :: t.entries.filter (fun x => e.index < x.index) }

/-- The context owns the frame. -/
def Device.ownsFrame (d : Device) (id : Code) (f : Nat) : Bool := (d.frames.get f).owners.contains id

/-- Zero a frame: its bytes, its poison marks, its lines of the Spool (R780 to R782). Writes to a retired page are dropped
(R390). -/
def Device.zeroFrame (d : Device) (f : Nat) : Device :=
  (List.range 32).foldl (fun (d : Device) i =>
    let base := f * 2 ^ 21 + 65536 * i
    if (d.panel (panelOf base)).retires (ppaOf base) then d
    else
      let d := (d.spoolDrop base 65536).rewrote (base / 64) 1024
      { d with mem := memZero d.mem base 65536,
               poison := d.poison.filter (fun a => a / 1024 != base / 65536), faulty := d.faulty.filter (fun a => a / 1024 != base / 65536) }) d

/-! ## Translation (R414 to R418) -/

/-- Where a context address lies. -/
inductive Place where
  | dev (mpa : Nat)
  | host (addr : Nat)
  deriving DecidableEq, Repr

/-- An access's own terms: who makes it, which banks it samples, under which key epoch, hint and class, and the 256-byte
units of context addresses that its descriptor reads with it for the last time (R353). `below`: a channel's accumulation
unit makes it, below the Spool (R376). -/
structure Access where
  ctx : Code
  ring : RingId := 0
  seq : Nat := 0
  views : List (Nat × Bool) := []
  epoch : Nat := 0
  hint : Hint := .stream
  cls : ColourClass := .indigo
  last : List Nat := []
  below : Bool := false
  deriving DecidableEq, Repr

/-- Who makes the access's requests. -/
def Access.by_ (a : Access) : Requester := .descriptor a.ctx a.ring

/-- Whom the access's faults name. -/
def Access.blame (a : Access) : Blame := blameDesc a.ctx a.ring a.seq

/-- The map entry in use for an index: the cached one until a REMAP (R418), else the one in the map array. -/
def Device.mapEntry (d : Device) (c : Context) (k : Nat) : BitVec 64 :=
  match c.tlb.find? (fun e => e.1 = k) with
  | some e => e.2
  | none => BitVec.ofNat 64 (memNat d.mem (c.mapAddr + 8 * k) 8)

/-- The MPA of a map entry. -/
def Context.mapMpa (c : Context) (k : Nat) : Nat := c.mapAddr + 8 * k

/-- An entry of the map array has to be read, and is poisoned (R780). -/
def Device.mapEntryBad (d : Device) (c : Context) (k : Nat) : Bool :=
  !(c.tlb.any (fun e => e.1 = k)) && d.badIn (c.mapMpa k) 8

/-- An entry of the map array has to be read, and lies in a retired page (R390). -/
def Device.mapEntryRetired (d : Device) (c : Context) (k : Nat) : Bool :=
  !(c.tlb.any (fun e => e.1 = k)) && (d.panel (panelOf (c.mapMpa k))).retires (ppaOf (c.mapMpa k))

/-- Read an entry of the map array, through the Spool like any request (R349), at Vermilion class (assumption log 151). -/
def Device.readMap (d : Device) (c : Context) (k : Nat) (by_ : Requester) (b : Blame) : Device :=
  (d.loadMpa (c.mapMpa k) 8 .stream (fun _ => false) .vermilion by_ b).1

/-- The map array is read for an address that does not translate: an entry that ECC cannot correct writes its record
(R380). -/
def Device.mapFault (d : Device) (c : Context) (ca : Nat) (by_ : Requester) (b : Blame) : Device :=
  let k := ca / 2 ^ 21
  if k < c.mapEntries && !(c.tlb.any (fun e => e.1 = k)) && !d.mapEntryRetired c k then d.readMap c k by_ b else d

/-- Translate one context address (R416, R417, R923, R390): the place, or the status that fails the access. -/
def Device.translate (d : Device) (c : Context) (ca : Nat) (write : Bool) : Except Code Place :=
  let k := ca / 2 ^ 21
  if c.mapEntries ≤ k || 2 ^ 48 ≤ ca then .error 0x0511
  else if d.mapEntryRetired c k then .error 0x0313
  else if d.mapEntryBad c k then .error 0x0312
  else
    let e := d.mapEntry c k
    let host := bitOf e 61
    let frame := fieldOf e 51 21
    let addr := frame * 2 ^ 21 + ca % 2 ^ 21
    if !bitOf e 63 || (write && !bitOf e 62) || fieldOf e 60 52 != 0 || fieldOf e 20 0 != 0
        || (!host && mpaEnd ≤ frame * 2 ^ 21) then .error 0x0511
    else if host then .ok (.host addr)
    else if !d.ownsFrame c.id frame then .error 0x0512
    else if (d.panel (panelOf addr)).fenced then .error 0x0221
    else if (d.panel (panelOf addr)).retires (ppaOf addr) then .error 0x0313
    else .ok (.dev addr)

/-- A translation that is used comes from the map array into the device's own store (R418). -/
def Device.cacheEntry (d : Device) (c : Context) (k : Nat) (by_ : Requester) (b : Blame) : Device :=
  if c.tlb.any (fun e => e.1 = k) then d
  else (d.readMap c k by_ b).updCtx c.id (fun c => { c with tlb := (k, BitVec.ofNat 64 (memNat d.mem (c.mapMpa k) 8)) :: c.tlb })

/-! ## Commit-set views (R578 to R581) -/

/-- The active bank of a set, by the steps committed since its DEFINE (R579): `true` is bank 1. -/
def CommitSet.active (s : CommitSet) : Bool := s.commits % 2 = 1

/-- The base of a bank. -/
def CommitSet.bank (s : CommitSet) (b : Bool) : Nat := if b then s.bank1 else s.bank0

/-- A read at a view address reads the bank that the access sampled, else the active one (R580). -/
def viewTarget (sets : List CommitSet) (views : List (Nat × Bool)) (ca : Nat) : Nat :=
  match sets.find? (fun s => s.view ≤ ca && ca < s.view + s.bytes) with
  | some s =>
    let b := ((views.find? (fun v => v.1 = s.index)).map (fun v => v.2)).getD s.active
    s.bank b + (ca - s.view)
  | none => ca

/-- A write at an address falls on a view or on an active bank (R581). -/
def bankWriteDenied (sets : List CommitSet) (ca : Nat) : Bool :=
  sets.any (fun s => (s.view ≤ ca && ca < s.view + s.bytes)
    || (s.bank s.active ≤ ca && ca < s.bank s.active + s.bytes))

/-! ## Confidential host frames (R771 to R777) -/

/-- The bytes of a 512-bit digest. -/
def digestBytes (v : BitVec 512) : List Byte := leBytes 64 v.toNat

/-- The digest of an event's content (R756): 64 zero bytes stand for themselves. -/
def contentDigest (content : List Byte) : List Byte :=
  if content = List.replicate 64 0 then content else digestBytes (Config.sha3 content)

/-- Extend a measurement register by an event of a type and index with its content (R755, R756). -/
def extendMeasure (m : BitVec 512) (type index : Nat) (content : List Byte) : BitVec 512 :=
  Config.sha3 (digestBytes m ++ leBytes 1 type ++ leBytes 2 index ++ contentDigest content)

/-- The granule key of an epoch: bytes 0 to 31 of SHA3-512(DK, "MWH8-GRANULE", EPOCH). -/
def granuleKey (k : TenantKey) : List Byte :=
  (digestBytes (Config.sha3 (k.key ++ ascii "MWH8-GRANULE" ++ leBytes 4 k.epoch))).take 32

/-- The additional authenticated data of a granule (R773). -/
def granuleAad (c : Context) (epoch ca : Nat) : List Byte :=
  leBytes 32 c.authority.toNat ++ leBytes 8 c.jobTag.toNat ++ leBytes 4 epoch ++ leBytes 8 ca

/-- The host address of the tag record of the granule at a context address (R771). -/
def tagRecordAddr (k : TenantKey) (ca : Nat) : Nat :=
  k.tagBase + 16384 * (ca / 2 ^ 21) + 32 * (ca % 2 ^ 21 / 4096)

/-- Read and verify one granule: its plaintext, or the status (R776). -/
def Device.openGranule (d : Device) (c : Context) (ca addr : Nat) : Except Code (List Byte) :=
  match c.keys with
  | [] => .error 0x0812
  | cur :: _ =>
    let rec_ := d.hostRead (tagRecordAddr cur ca) 32
    let epoch := bytesField rec_ 12 4
    match (c.keys.take 2).find? (fun k => k.epoch = epoch) with
    | none => .error 0x0811
    | some k =>
      match Config.gcmOpen (granuleKey k) (rec_.take 12) (granuleAad c epoch ca) (d.hostRead addr 4096) (rec_.drop 16) with
      | some bs => .ok bs
      | none => .error 0x0811

/-- Encrypt and write one whole granule under the key of an epoch, taking the next COUNTER (R774, R777). -/
def Device.sealGranule (d : Device) (c : Context) (epoch ca addr : Nat) (plain : List Byte) : Device × Except Code Unit :=
  match (c.keys.find? (fun k => k.epoch = epoch)).or c.keys.head? with
  | none => (d, .error 0x0812)
  | some k =>
    if 2 ^ 32 ≤ k.counter then (d, .error 0x0813)
    else
      let iv := leBytes 8 k.installId ++ leBytes 4 k.counter
      let (ct, tag) := Config.gcmSeal (granuleKey k) iv (granuleAad c k.epoch ca) plain
      let d := (d.hostData addr ct).hostWrite (tagRecordAddr k ca) (iv ++ leBytes 4 k.epoch ++ tag.take 16)
      (d.updCtx c.id (fun c => { c with keys := c.keys.map (fun x =>
        if x.epoch = k.epoch then { x with counter := x.counter + 1 } else x) }), .ok ())

/-! ## Reads and writes of context addresses -/

/-- Read one piece that lies within one page of 64 KiB. -/
def Device.readPiece (d : Device) (a : Access) (ca n : Nat) : Device × Except Code (List Byte) :=
  match d.ctx? a.ctx with
  | none => (d, .error 0x0511)
  | some c =>
    let t := viewTarget c.sets a.views ca
    match d.translate c t false with
    | .error e => (d.mapFault c t a.by_ a.blame, .error e)
    | .ok p =>
      let d := d.cacheEntry c (t / 2 ^ 21) a.by_ a.blame
      match p with
      | .dev mpa =>
        let last (u : Nat) : Bool := panelOf (u * 256) = c.panel && a.last.contains (ca / 256 + u - mpa / 256)
        let (d, bs, bad) := if a.below then d.loadBelow mpa n a.cls a.by_ a.blame
          else d.loadMpa mpa n a.hint last a.cls a.by_ a.blame
        (d, if bad then .error 0x0312 else .ok bs)
      | .host addr =>
        if !c.confidential then (d, .ok (d.hostRead addr n))
        else (d, (cutAt 4096 t n).foldl (fun acc g =>
          match acc with
          | .error e => .error e
          | .ok bs =>
            match d.openGranule c (g.1 / 4096 * 4096) (addr - t % 4096 + (g.1 / 4096 - t / 4096) * 4096) with
            | .error e => .error e
            | .ok plain => .ok (bs ++ (plain.drop (g.1 % 4096)).take g.2)) (.ok []))

/-- Read bytes of a context address range: the bytes, or the status that fails the tack. -/
def Device.readCa (d : Device) (a : Access) (ca n : Nat) : Device × Except Code (List Byte) :=
  (cutAt 65536 ca n).foldl (fun (r : Device × Except Code (List Byte)) seg =>
    match r.2 with
    | .error e => (r.1, .error e)
    | .ok bs =>
      let (d, x) := r.1.readPiece a seg.1 seg.2
      (d, x.map (fun y => bs ++ y))) (d, .ok [])

/-- Whether a write to a range would be accepted, without making it: the first status that fails it. -/
def Device.writeCheck (d : Device) (a : Access) (ca n : Nat) : Option Code :=
  match d.ctx? a.ctx with
  | none => some 0x0511
  | some c => (cutAt 65536 ca n).findSome? (fun seg =>
      if bankWriteDenied c.sets seg.1 then some 0x0A0B
      else match d.translate c seg.1 true with
        | .error e => some e
        | .ok (.dev _) => none
        | .ok (.host _) => if c.confidential && c.keys.isEmpty then some 0x0812 else none)

/-- A refused write check has read the map array. -/
def Device.writeFault (d : Device) (a : Access) (ca n : Nat) : Device :=
  match d.ctx? a.ctx with
  | none => d
  | some c => (cutAt (2 ^ 21) ca n).foldl (fun (d : Device) seg => d.mapFault c seg.1 a.by_ a.blame) d

/-- Write one piece that lies within one page of 64 KiB. -/
def Device.writePiece (d : Device) (a : Access) (ca : Nat) (bs : List Byte) : Device × Except Code Unit :=
  match d.ctx? a.ctx with
  | none => (d, .error 0x0511)
  | some c =>
    if bankWriteDenied c.sets ca then (d, .error 0x0A0B)
    else match d.translate c ca true with
    | .error e => (d.mapFault c ca a.by_ a.blame, .error e)
    | .ok p =>
      let d := d.cacheEntry c (ca / 2 ^ 21) a.by_ a.blame
      match p with
      | .dev mpa => (if a.below then d.storeBelow mpa bs a.cls a.by_ else d.storeMpa mpa bs a.hint a.cls a.by_ a.blame, .ok ())
      | .host addr =>
        if !c.confidential then (d.hostData addr bs, .ok ())
        else (cutAt 4096 ca bs.length).foldl (fun (r : Device × Except Code Unit) g =>
          match r.2 with
          | .error e => (r.1, .error e)
          | .ok _ =>
            let d := r.1
            let c := (d.ctx? a.ctx).getD c
            let gca := g.1 / 4096 * 4096
            let gaddr := addr - ca % 4096 + (g.1 / 4096 - ca / 4096) * 4096
            let new := (bs.drop (g.1 - ca)).take g.2
            if g.2 = 4096 then d.sealGranule c a.epoch gca gaddr new
            else match d.openGranule c gca gaddr with
              | .error e => (d, .error e)
              | .ok plain => d.sealGranule c a.epoch gca gaddr
                  (plain.take (g.1 % 4096) ++ new ++ plain.drop (g.1 % 4096 + g.2))) (d, .ok ())

/-- Write bytes to a context address range. -/
def Device.writeCa (d : Device) (a : Access) (ca : Nat) (bs : List Byte) : Device × Except Code Unit :=
  (cutAt 65536 ca bs.length).foldl (fun (r : Device × Except Code Unit) seg =>
    match r.2 with
    | .error e => (r.1, .error e)
    | .ok _ => r.1.writePiece a seg.1 ((bs.drop (seg.1 - ca)).take seg.2)) (d, .ok ())

/-- The units that a committed tack has read for the last time under discard-after-last-use leave the Spool of its own
panel (R138, R353, assumption log 150). -/
def Device.dropLast (d : Device) (a : Access) (units : List Nat) : Device :=
  units.foldl (fun d u =>
    match d.ctx? a.ctx with
    | none => d
    | some c => match d.translate c (viewTarget c.sets a.views (256 * u)) false with
      | .ok (.dev mpa) => if panelOf mpa = c.panel then d.lastRead (mpa / 256) a.ctx else d
      | _ => d) d

/-- The little-endian number of `n` bytes at a context address. -/
def Device.readCaNat (d : Device) (a : Access) (ca n : Nat) : Device × Except Code Nat :=
  let (d, x) := d.readCa a ca n
  (d, x.map leNat)

end Sys2Proof.Machine
end

