-- ==== Sys2Proof/Machine/Ledger.lean ====
section
/-! DEFINITION. The Measure ledger (R188 to R209): entries in context memory, their checks, touch, recording, the scale
of a result, and how an operand is read. -/

namespace Sys2Proof.Machine

/-- What an access leaves: the device, and its answer or the status that fails the tack. -/
abbrev Res (α : Type) := Device × Except Code α

/-- Go on with an answer; a status stops. -/
def bindD {α β : Type} (r : Res α) (f : Device → α → Res β) : Res β :=
  match r.2 with
  | .error e => (r.1, .error e)
  | .ok a => f r.1 a

/-- Go through a list, stopping at the first status. -/
def foldD {α β : Type} (l : List α) (d : Device) (b : β) (f : Device → β → α → Res β) : Res β :=
  l.foldl (fun (r : Res β) a => bindD r (fun d b => f d b a)) (d, .ok b)

/-- A ledger entry (R191). `reserved` gathers its reserved bits. -/
structure LedgerEntry where
  depth : Nat
  margin : Nat
  count : Nat
  active : Bool
  written : Bool
  writeCold : Bool
  lastStep : Nat
  writeStep : Nat
  pending : Nat
  head : Nat
  writeSigma : Int
  maxima : List Nat
  satCount : Nat
  coldCount : Nat
  reserved : Nat
  deriving DecidableEq, Repr

/-- The entry that 64 bytes hold. -/
def ledgerOf (bs : List Byte) : LedgerEntry :=
  { depth := bytesField bs 0 1, margin := bytesField bs 1 1, count := bytesField bs 2 1,
    active := (bytesField bs 3 1).testBit 0, written := (bytesField bs 3 1).testBit 1,
    writeCold := (bytesField bs 3 1).testBit 2, lastStep := bytesField bs 4 4, writeStep := bytesField bs 8 4,
    pending := bytesField bs 12 2, head := bytesField bs 14 1, writeSigma := signedOf 8 (bytesField bs 15 1),
    maxima := (List.range 16).map (fun i => bytesField bs (16 + 2 * i) 2),
    satCount := bytesField bs 48 4, coldCount := bytesField bs 52 4,
    reserved := bytesField bs 3 1 / 8 + bytesField bs 56 8 }

/-- The 64 bytes of an entry with no reserved bit set. -/
def LedgerEntry.bytes (e : LedgerEntry) : List Byte :=
  let flags := (if e.active then 1 else 0) + (if e.written then 2 else 0) + (if e.writeCold then 4 else 0)
  leBytes 1 e.depth ++ leBytes 1 e.margin ++ leBytes 1 e.count ++ leBytes 1 flags
    ++ leBytes 4 e.lastStep ++ leBytes 4 e.writeStep ++ leBytes 2 e.pending ++ leBytes 1 e.head
    ++ leBytes 1 (patternOf 8 e.writeSigma) ++ e.maxima.flatMap (leBytes 2)
    ++ leBytes 4 e.satCount ++ leBytes 4 e.coldCount ++ leBytes 8 0

/-- The depth in use (R191). -/
def LedgerEntry.d (e : LedgerEntry) : Nat := if e.depth = 0 then 4 else e.depth

/-- A malformed entry (R192). -/
def LedgerEntry.malformed (e : LedgerEntry) : Bool :=
  decide (16 < e.depth) || decide (3 < e.margin) || decide (e.d < e.count) || decide (e.d ≤ e.head) || e.reserved != 0

/-- The touch's step test fails (R194). -/
def LedgerEntry.stepBad (e : LedgerEntry) (t : Nat) : Bool := e.active && decide (t < e.lastStep)

/-- A recorded pattern read as a magnitude (R200). -/
def ledgerMag (p : Nat) : Nat := let m := p % 2 ^ 15; if 0x7F80 < m then 0 else if m = 0x7F80 then 0x7F7F else m

/-- The touch (R194); the pattern that it takes from PENDING is read as a magnitude (R200). -/
def LedgerEntry.touch (e : LedgerEntry) (t : Nat) : LedgerEntry :=
  if e.active && decide (e.lastStep < t) then
    { e with maxima := e.maxima.set e.head (ledgerMag e.pending), head := (e.head + 1) % e.d, count := min (e.count + 1) e.d,
             active := false }
  else e

/-- Recording (R198). -/
def LedgerEntry.record (e : LedgerEntry) (t m : Nat) : LedgerEntry :=
  if e.active && e.lastStep = t then
    { e with pending := max (ledgerMag e.pending) m }
  else { e with pending := m, lastStep := t, active := true }

/-- The tensor is cold (R199). -/
def LedgerEntry.isCold (e : LedgerEntry) : Bool := decide (e.count < e.d)

/-- T_F (R200). -/
def binadeTop (fmt : Nat) : Int := if fmt = 3 then 8 else if fmt = 4 then 15 else if fmt = 5 then 7 else 2

/-- The scale exponent of a tensor that is not cold (R200). -/
def LedgerEntry.scale (e : LedgerEntry) (fmt : Nat) : Int :=
  let amax := ((e.maxima.take e.d).map ledgerMag).foldl max 0
  let ex : Int := match (ffBF16.decode amax).exponent with
    | some x => x
    | none => -127
  min 127 (max (-127) (ex + 1 + (e.margin : Int) - binadeTop fmt))

/-- A write is the first cold one of its tensor in a step (R203). -/
def LedgerEntry.firstCold (e : LedgerEntry) (t : Nat) (o : OperandFmt) : Bool := o.cold && !(e.written && e.writeCold && e.writeStep = t)

/-- A write of the tensor at a step: WRITTEN and WRITE_STEP always, σ or cold of a tensor named narrow (R201 to R203). -/
def LedgerEntry.wrote (e : LedgerEntry) (t : Nat) (narrow : Bool) (o : OperandFmt) : LedgerEntry :=
  let first := e.firstCold t o
  let e := { e with written := true, writeStep := t,
                    coldCount := if first then satTo 32 (e.coldCount + 1) else e.coldCount }
  if narrow then { e with writeCold := o.cold, writeSigma := if o.cold then 0 else o.sigma } else e

/-- Count saturations (R172). -/
def LedgerEntry.saturated (e : LedgerEntry) (n : Nat) : LedgerEntry := { e with satCount := satTo 32 (e.satCount + n) }

/-- How an operand named in a format is read: cold as BF16, warm under WRITE_SIGMA (R205, R207). -/
def LedgerEntry.readAs (e : LedgerEntry) (fmt : Nat) : OperandFmt :=
  if e.writeCold || !e.written then { fmt := fmtBF16, sigma := 0, cold := true }
  else { fmt := fmt, sigma := e.writeSigma, cold := false }

/-- How a result named in a format is written (R200, R201). -/
def LedgerEntry.writeAs (e : LedgerEntry) (fmt : Nat) : OperandFmt :=
  if e.isCold then { fmt := fmtBF16, sigma := 0, cold := true } else { fmt := fmt, sigma := e.scale fmt, cold := false }

/-- The context address of an entry (R188). -/
def Context.ledgerCa (c : Context) (tid : Nat) : Nat := c.ledgerAddr + 64 * tid

/-- Read an entry. -/
def Device.readLedger (d : Device) (a : Access) (tid : Nat) : Res LedgerEntry :=
  match d.ctx? a.ctx with
  | none => (d, .error 0x0511)
  | some c => bindD (d.readCa a (c.ledgerCa tid) 64) (fun d bs => (d, .ok (ledgerOf bs)))

/-- Change an entry in place. -/
def Device.updLedger (d : Device) (a : Access) (tid : Nat) (f : LedgerEntry → LedgerEntry) : Res Unit :=
  match d.ctx? a.ctx with
  | none => (d, .error 0x0511)
  | some c => bindD (d.readLedger a tid) (fun d e => d.writeCa a (c.ledgerCa tid) (f e).bytes)

/-- The identifiers that a descriptor must check and touch: a narrow tensor's always, another's when it is not 0
(R189, R190). -/
def namesEntry (fmtTid : Nat × Nat) : Bool := isNarrow fmtTid.1 || fmtTid.2 != 0

/-- The range and form checks, entry by entry in naming order (R189, R190, R192, R196 step 1), then the step test
(step 2). -/
def Device.ledgerChecks (d : Device) (a : Access) (c : Context) (tids : List (Nat × Nat)) (step : Nat) : Res Unit :=
  let named := tids.filter namesEntry
  bindD (foldD named d () (fun d _ t =>
    if (isNarrow t.1 && t.2 = 0) || c.ledgerEntries ≤ t.2 then (d, .error 0x0909)
    else bindD (d.readLedger a t.2) (fun d e => if e.malformed then (d, .error 0x090B) else (d, .ok ()))))
  (fun d _ => foldD named d () (fun d _ t =>
    bindD (d.readLedger a t.2) (fun d e => if e.stepBad step then (d, .error 0x090A) else (d, .ok ()))))

/-- The touch of every named entry, all together (R194, R196 step 4): none is changed when one of them fails its step test
or cannot be written. -/
def Device.touchAll (d : Device) (a : Access) (tids : List (Nat × Nat)) (step : Nat) : Res Unit :=
  let named := tids.filter namesEntry
  bindD (foldD named d () (fun d _ t =>
    bindD (d.readLedger a t.2) (fun d e => if e.stepBad step then (d, .error 0x090A) else (d, .ok ())))) (fun d _ =>
  match named.findSome? (fun t => ((d.ctx? a.ctx).map (fun c => d.writeCheck a (c.ledgerCa t.2) 64)).getD none) with
  | some e => (d, .error e)
  | none => foldD named d () (fun d _ t => d.updLedger a t.2 (fun e => e.touch step)))

/-- How an operand is read (R205 to R207). -/
def Device.operandAs (d : Device) (a : Access) (fmt tid : Nat) : Res OperandFmt :=
  if isNarrow fmt then bindD (d.readLedger a tid) (fun d e => (d, .ok (e.readAs fmt)))
  else (d, .ok { fmt := fmt, sigma := 0, cold := false })

/-- How a result is written (R200 to R202). -/
def Device.resultAs (d : Device) (a : Access) (fmt tid : Nat) : Res OperandFmt :=
  if isNarrow fmt then bindD (d.readLedger a tid) (fun d e => (d, .ok (e.writeAs fmt)))
  else (d, .ok { fmt := fmt, sigma := 0, cold := false })

/-- The records of a tack's commit for one tensor: its maximum, whether the tack wrote it, its saturations (R172,
R198, R202), with the panel's counts of them (R839). `fmt` is the format that the descriptor names. -/
def Device.recordTack (d : Device) (a : Access) (fmt tid step : Nat) (o : OperandFmt) (mag : Option Nat) (wrote : Bool)
    (sats : Nat) : Res Unit :=
  if !namesEntry (fmt, tid) then (d, .ok ())
  else match d.ctx? a.ctx with
    | none => (d, .error 0x0511)
    | some c => bindD (d.readLedger a tid) (fun d e =>
      let r := match mag with
        | some m => e.record step m
        | none => e
      let w := if wrote then r.wrote step (isNarrow fmt) o else r
      bindD (d.writeCa a (c.ledgerCa tid) (w.saturated sats).bytes) (fun d _ =>
        let d := d.countCtx a.ctx 0x036 (if wrote && e.firstCold step o then 1 else 0)
        (d.countCtx a.ctx 0x037 sats, .ok ())))

end Sys2Proof.Machine
end

