-- ==== Sys2Proof/Machine/Operands.lean ====
section
/-! DEFINITION. The operands of descriptors: the header (R438), the operation codes (R439), and the fields of each
operation's bytes 32 to 127, by offset and size as their tables give them. -/

namespace Sys2Proof.Machine

/-- The operations, the sub-operations of a code apart (R439, R608, R610). -/
inductive Op where
  | matmul | seam | chainReg | tableLoad | storeConfig | recomp | release
  | gussetOpen | gussetAcc | gussetFlush | copy | fill | windowOpen | windowClose | sync
  | commJoin | commLeave | reduce | allreduce | broadcast | returnSlice | send | recv
  | relay | fitting | setDefine | stepCommit | stepAbort
  deriving DecidableEq, Repr

/-- A field of a descriptor: `size` bytes at byte `off` (R6). -/
def Desc.f (x : Desc) (off size : Nat) : Nat := rawField x.raw off size

/-- Bits `[hi:lo]` of the field of `size` bytes at byte `off`. -/
def Desc.bits (x : Desc) (off size hi lo : Nat) : Nat := (x.f off size) / 2 ^ lo % 2 ^ (hi + 1 - lo)

/-- Bit `i` of the field of `size` bytes at byte `off`. -/
def Desc.bit (x : Desc) (off size i : Nat) : Bool := (x.f off size).testBit i

/-- OPCODE and, where its table has one, the sub-operation byte (R439). `none`: reserved. -/
def Desc.op? (x : Desc) : Option Op :=
  match x.f 0 1, x.f 32 1 with
  | 0x01, _ => some .matmul
  | 0x02, _ => some .seam
  | 0x03, 0 => some .chainReg
  | 0x03, 1 => some .tableLoad
  | 0x04, 0 => some .storeConfig
  | 0x04, 1 => some .recomp
  | 0x04, 2 => some .release
  | 0x05, _ => some .gussetOpen
  | 0x06, _ => some .gussetAcc
  | 0x07, _ => some .gussetFlush
  | 0x08, _ => some .copy
  | 0x09, _ => some .fill
  | 0x0A, 0 => some .windowOpen
  | 0x0A, 1 => some .windowClose
  | 0x0B, _ => some .sync
  | 0x10, 0 => some .commJoin
  | 0x10, 1 => some .commLeave
  | 0x10, 2 => some .reduce
  | 0x10, 3 => some .allreduce
  | 0x10, 4 => some .broadcast
  | 0x10, 5 => some .returnSlice
  | 0x10, 6 => some .send
  | 0x10, 7 => some .recv
  | 0x11, _ => some .relay
  | 0x12, _ => some .fitting
  | 0x13, 0 => some .setDefine
  | 0x13, 1 => some .stepCommit
  | 0x13, 2 => some .stepAbort
  | _, _ => none

/-- The codes that R439 lists; a listed code with a reserved sub-operation fails its operation's own check. -/
def opcodeListed (c : Nat) : Bool := (1 ≤ c && c ≤ 0x0B) || (0x10 ≤ c && c ≤ 0x13)

/-- SERIAL (R438). -/
def Desc.serial (x : Desc) : Bool := x.bit 1 1 0
/-- WAIT_EN (R438). -/
def Desc.waitEn (x : Desc) : Bool := x.bit 1 1 1
/-- SIGNAL_EN (R438). -/
def Desc.signalEn (x : Desc) : Bool := x.bit 1 1 2
/-- USER_TAG (R438). -/
def Desc.userTag (x : Desc) : Nat := x.f 2 2
/-- WAIT_EC (R438). -/
def Desc.waitEc (x : Desc) : Nat := x.f 4 1
/-- SIGNAL_EC (R438). -/
def Desc.signalEc (x : Desc) : Nat := x.f 5 1
/-- SIGNAL_INC (R438). -/
def Desc.signalInc (x : Desc) : Nat := x.f 6 2
/-- WAIT_VALUE (R438). -/
def Desc.waitValue (x : Desc) : Nat := x.f 24 8
/-- START_EN, bit 63 of the position word (R32). -/
def Desc.startEn (x : Desc) : Bool := x.bit 16 8 63
/-- SKIP_IF_LATE, bit 62 (R32). -/
def Desc.skipIfLate (x : Desc) : Bool := x.bit 16 8 62
/-- The start position, stitch and angle as one number (R32). -/
def Desc.startAt (x : Desc) : Nat := x.bits 16 8 59 0

/-- The header check after SEQ (R441): reserved bits and OPCODE, then the event-counter fields. -/
def Desc.headerCheck (x : Desc) : Option Code :=
  if x.bits 1 1 7 3 != 0 || x.f 12 4 != 0 || x.bits 16 8 61 60 != 0 || !opcodeListed (x.f 0 1) then some 0x0906
  else if (x.waitEn && 63 < x.waitEc) || (x.signalEn && (31 < x.signalEc || x.signalInc = 0)) then some 0x0514
  else none

/-- The COLLECTIVE, RELAY and FITTING operations, which never skip (R65). -/
def Op.neverSkips : Op → Bool
  | .commJoin | .commLeave | .reduce | .allreduce | .broadcast | .returnSlice | .send | .recv | .relay | .fitting => true
  | _ => false

/-- The bounding range of an operand of `rows` rows: from its base to its last row's end (R465). -/
def boundBytes (rows rowBytes pitch : Nat) : Nat := if rows = 0 then 0 else (rows - 1) * pitch + rowBytes

end Sys2Proof.Machine
end

