-- ==== Sys2Proof/Machine/Flags.lean ====
section
/-! DEFINITION. The flags of completions (R450), what a status says (R447, R474, R642), and the PHASE of rings. -/

namespace Sys2Proof.Machine

/-- FLAGS bit 0 (R63). -/
def flagLate : BitVec 8 := 0x01
/-- FLAGS bit 1 (R201, R205). -/
def flagColdScale : BitVec 8 := 0x02
/-- FLAGS bit 2 (R307). -/
def flagPermRange : BitVec 8 := 0x04
/-- FLAGS bit 3 (R172). -/
def flagScaleSat : BitVec 8 := 0x08
/-- FLAGS bit 4 (R234). -/
def flagStashDropped : BitVec 8 := 0x10
/-- FLAGS bit 5 (R243). -/
def flagRecomputed : BitVec 8 := 0x20
/-- FLAGS bit 6: the descriptor did not succeed and left memory effects. -/
def flagEffect : BitVec 8 := 0x40
/-- FLAGS bit 7: an error record belongs to the completion. -/
def flagErrRec : BitVec 8 := 0x80

/-- A status that makes its descriptor's signal (R446, R447, R64). -/
def signals (status : Code) : Bool := status = 0 || status = 0x0610

/-- A status that fails its descriptor and halts its ring (R474). FLUSHED and STEP_ABORTED end by a flush (R481, R592). -/
def fails (status : Code) : Bool := !(status = 0 || status = 0x0610 || status = 0x0518 || status = 0x0A0C)

/-- A failure after the start that belongs to an error record (R642), and a failed host access (R809). -/
def needsRecord (status : Code) : Bool :=
  status.toNat / 256 = 3 || status.toNat / 256 = 4 || status = 0x0A01 || status = 0x0A0E || status = 0x0A0F

/-- The PHASE bit of record `s` in a ring of 2^`sizeLog2` (R451, R633). -/
def phaseBit (s sizeLog2 : Nat) : Nat := (s / 2 ^ sizeLog2 + 1) % 2

/-- A completion record of 32 bytes (R449). -/
def completionBytes (status : Code) (userTag flags seq tacks startPos errIndex phase : Nat) : List Byte :=
  leBytes 2 status.toNat ++ leBytes 2 userTag ++ leBytes 4 flags ++ leBytes 4 seq ++ leBytes 4 (satTo 32 tacks)
    ++ leBytes 8 startPos ++ leBytes 4 errIndex ++ leBytes 1 phase ++ leBytes 3 0

end Sys2Proof.Machine
end

