-- ==== Sys2Proof/Machine/Rings.lean ====
section
/-! DEFINITION. Rings (08_work_submission.md): how descriptors finish, signal, complete, halt and are flushed. -/

namespace Sys2Proof.Machine

/-- A descriptor stops with a status. A failure that R642 names has a record: that of the fault that caused it (the
ticket passed, or the record of its own uncorrectable read), else one of MECH DESCRIPTOR. -/
def Device.finish (d : Device) (id : Code) (n : RingId) (x : Desc) (status : Code) (addr : Nat) (ticket : Option Nat) : Device :=
  let panel := ((d.ctx? id).map (fun c => c.panel.val)).getD 0
  let (d, ticket) :=
    match ticket with
    | some t => (d, some t)
    | none =>
      if x.begun && needsRecord status then
        match if status = 0x0312 then d.ueTicket (blameDesc id n x.seq) else none with
        | some t => (d, some t)
        | none =>
          let r := d.raiseNeeded (ErrRec.blaming
            { reason := status, mech := 0x11, outcome := 1, panel := panel, addr := addr } (blameDesc id n x.seq))
          (r.1, some r.2)
      else (d, none)
  d.updDesc id n x.seq (fun y => { y with phase := .finished status, ticket := ticket })

/-- A descriptor fails with no record of its own but R642's. -/
def Device.failDesc (d : Device) (id : Code) (n : RingId) (x : Desc) (status : Code) : Device := d.finish id n x status 0 none

/-- No SUCCESS message has gone out on the panel's vector within the last MOD_ANGLES angles (R822). -/
def Device.messageDue (d : Device) (p : PanelId) : Bool :=
  match d.host.lastMessage[p.val] with
  | none => true
  | some t => decide (d.anglesNs (fieldOf d.regs.hostIrq 11 0) ≤ d.now - t)

/-- The send of the message for a completion on a panel (R822). -/
def Device.completionMsg (d : Device) (p : PanelId) (status : Code) : Device :=
  let v : Fin 11 := ⟨3 + p.val, by omega⟩
  if status != 0 then d.sendMsg v
  else if d.messageDue p then
    let d := d.sendMsg v
    { d with host := { d.host with lastMessage := d.host.lastMessage.set p.val (some d.now) p.isLt } }
  else { d with host := { d.host with moderated := d.host.moderated.set p.val true p.isLt } }

/-- Increase a device counter (R446). -/
def Device.addEc (d : Device) (id : Code) (ec inc : Nat) : Device :=
  d.updCtx id (fun c => if h : ec < 64 then { c with events := c.events.set ec (c.events[ec] + BitVec.ofNat 64 inc) h } else c)

/-- The host write of a counter's page line (R443). -/
def Device.ecLine (d : Device) (id : Code) (ec : Nat) : Nat × List Byte :=
  match d.ctx? id with
  | none => (0, [])
  | some c => (c.ecAddr + 64 * ec, leBytes 8 ((c.events.toList[ec]?).getD 0).toNat)

/-- Increase a device counter and write its page line (R443, R446). -/
def Device.signalEc (d : Device) (id : Code) (ec inc : Nat) : Device :=
  let d := d.addEc id ec inc
  d.hostWrite (d.ecLine id ec).1 (d.ecLine id ec).2

/-- The error record a completion waits for has been written: its ERR_INDEX (R472, R635). -/
def Device.ticketIndex (d : Device) : Option Nat → Option (Option Nat)
  | none => some none
  | some t => (d.err.written.find? (fun w => w.1 = t)).map (fun w => some w.2)

/-- The bytes of a descriptor's completion (R449, R450). -/
def Desc.completion (x : Desc) (status : Code) (errIndex : Option Nat) (sizeLog2 : Nat) : List Byte :=
  let flags := x.flags ||| (if status != 0 && x.effect then flagEffect else 0)
    ||| (if errIndex.isSome then flagErrRec else 0)
  completionBytes status x.userTag flags.toNat (x.seq % 2 ^ 32) x.tacks (x.startPos.toNat % 2 ^ 60)
    (errIndex.getD 0 % 2 ^ 32) (phaseBit x.seq sizeLog2)

/-- Later descriptors that had begun stop and go back to their start (R475, R477). -/
def Desc.rewound (x : Desc) : Desc :=
  match x.phase with
  | .finished _ => x
  | _ => if x.begun then { x with phase := .checked, begun := false, tacks := 0, flags := 0, startPos := 0, views := [] } else x

/-- Which of a completion's two host writes fail (R809). -/
inductive CompletionFault where
  | none | record | eventLine
  deriving DecidableEq, Repr

/-- What a ring notes of a completion for its next COMMIT (R586, assumption log 175): the end of a step starts afresh. -/
def Ring.noteStatus (r : Ring) (x : Desc) (status : Code) : Ring :=
  if x.op? = some .stepCommit && (status = 0 || status = 0x0A0E) then { r with unclean := [] }
  else if status = 0 || status = 0x0610 then { r with unclean := r.unclean.filter (fun q => q != x.seq) }
  else { r with unclean := x.seq :: r.unclean }

/-- The ring after its oldest descriptor completed with a status (R474, R475). -/
def Ring.afterCompletion (r : Ring) (x : Desc) (status : Code) : Ring :=
  let r := r.noteStatus x status
  let rest := r.queue.filter (fun y => y.seq != x.seq)
  if fails status then
    { r with queue := rest.map Desc.rewound, complNext := x.seq + 1, halted := true,
             failed := some ⟨x.seq, x.effect, x.raw⟩ }
  else { r with queue := rest, complNext := x.seq + 1 }

/-- A context's own counters of its counter page (R847): completions written, completions marked LATE. -/
def Device.tally (d : Device) (id : Code) (written late : Nat) : Device :=
  d.updCtx id (fun c => { c with pageCounts := (c.pageCounts.set 4 (c.pageCounts[4] + written)).set 5 (c.pageCounts[5] + late) })

/-- The completion of a tagged descriptor's last tack is written: the tag's last stage (R851). -/
def Device.tagComplete (d : Device) (p : PanelId) (ref : DescRef) : Device :=
  d.updPanel p (fun q => { q with tag := q.tag.map (fun g =>
    if g.ref = ref && g.done && g.flags.testBit 3 && g.stamps.length = 8 then { g with stamps := g.stamps ++ [some d.now] } else g) })

/-- Complete the oldest descriptor of a ring, in ring order (R446, R467, R474): signal, page line, record, message. Its
needed error record must have been written (R472); a halted ring completes nothing (R475). -/
def Device.completeHead (d : Device) (id : Code) (n : RingId) (withSignal : Bool) (fault : CompletionFault) : Device :=
  match d.ctx? id, d.ring? id n with
  | some c, some r =>
    match r.queue.head? with
    | some x =>
      match x.phase with
      | .finished status =>
        match d.ticketIndex x.ticket with
        | none => d
        | some err =>
          if r.halted then d
          else
            let signal := x.signalEn && (signals status || withSignal)
            let at_ := r.cqAddr + 32 * (x.seq % 2 ^ r.sizeLog2)
            let bytes := x.completion status err r.sizeLog2
            let d := if signal then d.addEc id x.signalEc x.signalInc else d
            let line := if signal then [d.ecLine id x.signalEc] else []
            let d := if fault = .eventLine then d else line.foldl (fun (d : Device) w => d.hostWrite w.1 w.2) d
            let d := d.updRing id n (fun r => r.afterCompletion x status)
            let ev (code : Nat) : PmcEvent := { code := code, ctx := id }
            let d := if fault = .none then d.count c.panel (ev 0x030) 1 else d
            let d := if fails status then d.count c.panel (ev 0x031) 1 else d
            let d := if status = 0x0610 then d.count c.panel (ev 0x033) 1 else d
            let d := if x.flags.getLsbD 0 then d.count c.panel (ev 0x032) 1 else d
            let d := if (x.flags &&& flagPermRange) != 0 then
                d.updPanel c.panel (fun q => { q with permRange := satTo 16 (q.permRange + 1) }) else d
            let d := d.tally c.id (if fault = .none then 1 else 0) (if x.flags.getLsbD 0 then 1 else 0)
            if fault = .none then ((d.hostWrite at_ bytes).tagComplete c.panel ⟨id, n, x.seq⟩).completionMsg c.panel status
            else
              let left := (if fault = .eventLine then line else []) ++ [(at_, bytes)]
              d.updRing id n (fun r => { r with halted := true, undelivered := r.undelivered ++ left })
      | _ => d
    | none => d
  | _, _ => d

/-- A descriptor of the ring that has not been fetched yet is taken as its slot holds it, to be completed. -/
def Device.slotDesc (d : Device) (r : Ring) (seq : Nat) : Desc :=
  { seq := seq, raw := BitVec.ofNat 1024 (leNat (d.hostRead (r.sqAddr + 128 * (seq % 2 ^ r.sizeLog2)) 128)) }

/-- How far a 32-bit TAIL lies ahead of a sequence number (R431, R433). -/
def tailAhead (tail seq : Nat) : Nat := (tail + 2 ^ 32 - seq % 2 ^ 32) % 2 ^ 32

/-- A new value of a doorbell line (R431): an overrun halts the ring with 0x0515 for its oldest descriptor (R433). -/
def Device.newTail (d : Device) (id : Code) (n : RingId) (tail : Nat) : Device :=
  match d.ring? id n with
  | none => d
  | some r =>
    let d := d.updRing id n (fun r => { r with tail := tail, doorbellFault := false })
    if 2 ^ r.sizeLog2 < tailAhead tail r.complNext then
      let x := (r.queue.head?).getD (d.slotDesc r r.complNext)
      let x := { x with phase := .finished 0x0515, ticket := none }
      d.updRing id n (fun r => { r with queue := x :: r.queue.filter (fun y => y.seq != x.seq),
                                        next := max r.next (x.seq + 1) })
    else d

/-- The event wait of a descriptor is satisfied (R445). -/
def Context.waitMet (c : Context) (x : Desc) : Bool :=
  !x.waitEn || (match c.events.toList[x.waitEc]? with
    | some v => x.waitValue ≤ v.toNat
    | none => false)

/-- Write again what a failed completion write left undelivered (R809). -/
def Device.redeliver (d : Device) (id : Code) (n : RingId) : Device :=
  match d.ring? id n with
  | none => d
  | some r =>
    let d := r.undelivered.foldl (fun d u => d.hostWrite u.1 u.2) d
    d.updRing id n (fun r => { r with undelivered := [] })

/-- IRQ_MODERATION_EXPIRY (R822): the end of a MOD_ANGLES interval. -/
def execIrqModerationExpiry (p : PanelId) (s : State) : Out :=
  s.run (fun d =>
    if d.host.moderated[p.val] && d.messageDue p then
      let d := d.sendMsg ⟨3 + p.val, by omega⟩
      { d with host := { d.host with lastMessage := d.host.lastMessage.set p.val (some d.now) p.isLt,
                                     moderated := d.host.moderated.set p.val false p.isLt } }
    else d)

end Sys2Proof.Machine
end

