-- ==== Sys2Proof/Machine/Store.lean ====
section
/-! DEFINITION. The Bobbin and the Gusset (05_backward_and_stash.md): stash entries, their placement, spilling and
reading; Gusset entries, their front and their home. -/

namespace Sys2Proof.Machine

/-! ## Stash entries -/

/-- The bytes of one element of a stash entry (R220). -/
def StashEntry.es (e : StashEntry) : Nat := elemBytes e.fmt

/-- The blocks of an entry (R221). -/
def stashBlocks (rows cols : Nat) : Nat := ceilDiv rows 32 * ceilDiv cols 32

/-- The pages of an entry (R221). -/
def stashPages (rows cols fmt : Nat) : Nat := ceilDiv (stashBlocks rows cols * (1024 * elemBytes fmt)) 65536

/-- The pages of an entry (R221). -/
def StashEntry.pages (e : StashEntry) : Nat := stashPages e.rows e.cols e.fmt

/-- The byte offset of element (r, c) in the block layout (R221). -/
def blockOffset (cols es r c : Nat) : Nat :=
  ((r / 32 * ceilDiv cols 32 + c / 32) * 1024 + (r % 32 * 32 + c % 32)) * es

/-- The formats that may be stashed (R220). -/
def stashable (fmt : Nat) : Bool := 1 ≤ fmt && fmt ≤ 5

/-- The entry of a tag. -/
def Context.stash? (c : Context) (tag : Nat) : Option StashEntry := c.stash.find? (fun e => e.tag = tag)

/-- Change the entry of a tag. -/
def Device.updStash (d : Device) (id : Code) (tag : Nat) (f : StashEntry → StashEntry) : Device :=
  d.updCtx id (fun c => { c with stash := c.stash.map (fun e => if e.tag = tag then f e else e) })

/-- The Bobbin pages that a context holds. -/
def Context.bobbinHeld (c : Context) : Nat := ((c.stash.filter (fun e => e.bobbin)).map StashEntry.pages).sum

/-- share_free (R231). -/
def Context.shareFree (c : Context) : Nat := c.bobbinPages - c.bobbinHeld

/-- The free pages of the spill area, in ascending order (R232). -/
def Context.spillFree (c : Context) : List Nat :=
  (List.range (c.spillBytes / 65536)).filter (fun p => !(c.stash.any (fun e => e.spill.contains p)))

/-- The resident contexts of a panel. -/
def Device.residents (d : Device) (p : PanelId) : List Context := d.contexts.filter (fun c => c.panel = p && c.resident)

/-- The directory slots of a panel in use (R225). -/
def Device.directoryUsed (d : Device) (p : PanelId) : Nat := ((d.residents p).map (fun c => c.stash.length)).sum

/-- Release an entry: its pages and its slot go free (R229, R247). -/
def Device.releaseStash (d : Device) (id : Code) (tag : Nat) : Device :=
  d.updCtx id (fun c => if c.stash.any (fun e => e.tag = tag) then
    { c with stash := c.stash.filter (fun e => e.tag != tag), releasedSince := true } else c)

/-- A stash entry that a descriptor was filling goes with it (R228). -/
def Device.dropFill (d : Device) (ctx : Code) (x : Desc) : Device :=
  match x.work.stash with
  | none => d
  | some n => match (d.ctx? ctx).bind (fun c => c.stash.find? (fun e => e.seq = n && !e.readable)) with
    | some e => d.releaseStash ctx e.tag
    | none => d

/-- A descriptor under way uses the entry of a tag: it reads it, through its chain too, or fills it (R231, R241). -/
def Desc.usesTag (x : Desc) (tag : Nat) : Bool :=
  x.begun && (match x.phase with | .finished _ => false | _ => true) &&
    ((x.f 0 1 = 1 && ((x.bits 100 4 31 16 = tag && (x.bit 100 4 6 || x.bit 100 4 7)) || x.work.in2Tag = some tag))
      || (x.f 0 1 = 2 && ((x.bit 88 1 0 && x.f 92 2 = tag) || (x.bit 88 1 1 && x.f 94 2 = tag))))

/-- The evictable entry with the lowest stash sequence number (R231). -/
def Context.victim (c : Context) : Option StashEntry :=
  let evictable := c.stash.filter (fun e => e.bobbin && e.readable
    && !(c.rings.any (fun r => r.queue.any (fun x => x.usesTag e.tag))))
  evictable.foldl (fun v e => match v with
    | none => some e
    | some w => if e.seq < w.seq then some e else some w) none

/-- Write the poison code over the access that holds a context address (R232, R382). -/
def Device.poisonCa (d : Device) (id : Code) (ca : Nat) : Device :=
  match d.ctx? id with
  | none => d
  | some c => match d.translate c ca true with
    | .ok (.dev mpa) => d.poisonStored [mpa / 64]
    | _ => d

/-- An eviction write (R231, R232): the Bobbin copy goes to the lowest free spill pages; bad words become poison. -/
def Device.spillOut (d : Device) (a : Access) (e : StashEntry) : Res Unit :=
  match d.ctx? a.ctx with
  | none => (d, .error 0x0511)
  | some c =>
    let pages := c.spillFree.take e.pages
    let sl := { a with cls := .slate, hint := .stream }
    bindD (foldD (pages.zipIdx) d () (fun d _ pi =>
        d.writeCa sl (c.spillAddr + 65536 * pi.1) (memRead e.data (65536 * pi.2) 65536)))
      (fun d _ =>
        let d := e.bad.foldl (fun d off => match pages[off / 65536]? with
          | some p => d.poisonCa a.ctx (c.spillAddr + 65536 * p + off % 65536)
          | none => d) d
        let d := d.updStash a.ctx e.tag (fun e => { e with spill := pages, bobbin := false, data := [], bad := [] })
        let d := (d.updCtx a.ctx (fun c => { c with releasedSince := false })).countCtx a.ctx 0x049 pages.length
        (d.updPanel c.panel (fun p => { p with spills := satTo 16 (p.spills + 1) }), .ok ()))

/-- The evictions of R231 that make room for `n` pages; the number bounds them. -/
def Device.evictFor : Nat → Device → Access → Nat → Res Unit
  | 0, d, _, _ => (d, .ok ())
  | k + 1, d, a, n =>
    match d.ctx? a.ctx with
    | none => (d, .error 0x0511)
    | some c =>
      if n ≤ c.shareFree then (d, .ok ())
      else match c.victim with
        | none => (d, .ok ())
        | some v =>
          if !v.spill.isEmpty then
            Device.evictFor k ((d.updStash a.ctx v.tag (fun e => { e with bobbin := false, data := [], bad := [] })).updCtx a.ctx
              (fun c => { c with releasedSince := false })) a n
          else if v.pages ≤ c.spillFree.length then bindD (d.spillOut a v) (fun d _ => Device.evictFor k d a n)
          else (d, .ok ())

/-- Place a new entry (R229 to R231): its stash sequence number. In the format that it is read in, it may be larger than
an entry can be (R222). -/
def Device.placeStash (d : Device) (a : Access) (tag rows cols fmt : Nat) (o : OperandFmt) : Res Nat :=
  if 512 < stashPages rows cols o.fmt then (d, .error 0x0913)
  else
  let d := d.releaseStash a.ctx tag
  match d.ctx? a.ctx with
  | none => (d, .error 0x0511)
  | some c =>
    let n := stashPages rows cols o.fmt
    bindD (d.evictFor (c.stash.length + 1) a n) (fun d _ =>
      match d.ctx? a.ctx with
      | none => (d, .error 0x0511)
      | some c =>
        let e : StashEntry := { tag := tag, seq := c.stashSeq, rows := rows, cols := cols, named := fmt, fmt := o.fmt,
                                sigma := o.sigma, cold := o.cold }
        let put (e : StashEntry) : Device := d.updCtx a.ctx (fun c => { c with stash := c.stash ++ [e], stashSeq := (c.stashSeq + 1) % 2 ^ 32 })
        if n ≤ c.shareFree then (put { e with bobbin := true }, .ok e.seq)
        else if n ≤ c.spillFree.length then (put { e with spill := c.spillFree.take n }, .ok e.seq)
        else if c.recomps.any (fun r => r.tag = tag) then
          ((put { e with dropped := true }).updPanel c.panel (fun p => { p with drops := satTo 16 (p.drops + 1) }), .ok e.seq)
        else (d.updPanel c.panel (fun p => { p with exhausted := satTo 16 (p.exhausted + 1) }), .error 0x0911))

/-- Captured bytes enter the entry's place at a tack's commit (R227, R235). -/
def Device.capture (d : Device) (a : Access) (tag off : Nat) (bs : List Byte) : Res Unit :=
  match (d.ctx? a.ctx).bind (fun c => (c.stash? tag).map (fun e => (c, e))) with
  | none => (d, .ok ())
  | some (c, e) =>
    if e.bobbin then (d.updStash a.ctx tag (fun e => { e with data := memWrite e.data off bs }), .ok ())
    else foldD (cutAt 65536 off bs.length) d () (fun d _ seg =>
      match e.spill[seg.1 / 65536]? with
      | some p => (d.countCtx a.ctx 0x049 (if seg.1 % 65536 = 0 then 1 else 0)).writeCa { a with cls := .slate, hint := .stream }
          (c.spillAddr + 65536 * p + seg.1 % 65536) ((bs.drop (seg.1 - off)).take seg.2)
      | none => (d, .ok ()))

/-- The places of an entry's blocks that lie outside its matrix: byte offset and bytes (R221). -/
def blockPadding (rows cols es : Nat) : List (Nat × Nat) :=
  (List.range (ceilDiv rows 32)).flatMap (fun i => (List.range (ceilDiv cols 32)).flatMap (fun j =>
    let b := (i * ceilDiv cols 32 + j) * 1024 * es
    let r := min 32 (rows - 32 * i)
    let c := min 32 (cols - 32 * j)
    (if c = 32 then [] else (List.range r).map (fun k => (b + (32 * k + c) * es, (32 - c) * es)))
      ++ (if r = 32 then [] else [(b + 32 * r * es, (32 - r) * 32 * es)])))

/-- A filled entry becomes readable; what its blocks hold outside the matrix is zero (R221, R228). -/
def Device.stashFilled (d : Device) (a : Access) (seq : Nat) : Res Unit :=
  match (d.ctx? a.ctx).bind (fun c => c.stash.find? (fun e => e.seq = seq)) with
  | none => (d, .ok ())
  | some e => bindD (foldD (blockPadding e.rows e.cols e.es) d () (fun d _ p => d.capture a e.tag p.1 (List.replicate p.2 0)))
      (fun d _ => (d.updStash a.ctx e.tag (fun e => { e with readable := true }), .ok ()))

/-- The bytes of an entry: from its Bobbin copy, its spill copy, or its recompute buffer (R238, R243, R626). -/
def Device.stashRead (d : Device) (a : Access) (tag off n : Nat) : Res (List Byte) :=
  match (d.ctx? a.ctx).bind (fun c => (c.stash? tag).map (fun e => (c, e))) with
  | none => (d, .error 0x0910)
  | some (c, e) =>
    let hurt := e.bad.any (fun b => rangesOverlap b 8 off n)
    if e.bobbin && !hurt then (d, .ok (memRead e.data off n))
    else if e.bobbin && e.spill.isEmpty then (d, .error 0x0312)
    else if e.dropped then
      match c.recomps.find? (fun r => r.tag = tag) with
      | some r => d.readCa a (r.bufAddr + off) n
      | none => (d, .error 0x0915)
    else foldD (cutAt 65536 off n) d [] (fun d bs seg =>
      match e.spill[seg.1 / 65536]? with
      | some p => bindD (d.readCa a (c.spillAddr + 65536 * p + seg.1 % 65536) seg.2) (fun d x => (d, .ok (bs ++ x)))
      | none => (d, .error 0x0910))

/-- The codes of elements of an entry, each at its row and column. -/
def Device.stashElems (d : Device) (a : Access) (e : StashEntry) (at_ : List (Nat × Nat)) : Res (List Nat) :=
  foldD at_ d [] (fun d out rc =>
    bindD (d.stashRead a e.tag (blockOffset e.cols e.es rc.1 rc.2) e.es) (fun d bs => (d, .ok (out ++ [leNat bs]))))

/-- BOBBIN_PREFETCH (R240): the spilled entry without a Bobbin copy that has the highest stash sequence number comes
back, when the share holds it and an entry has been released since the last eviction. -/
def Device.prefetch (d : Device) (id : Code) : Device :=
  match d.ctx? id with
  | none => d
  | some c =>
    let spilled := c.stash.filter (fun e => !e.bobbin && !e.spill.isEmpty && e.readable)
    let pick := spilled.foldl (fun (v : Option StashEntry) e => match v with
      | none => some e
      | some w => if w.seq < e.seq then some e else some w) none
    match pick with
    | none => d
    | some e =>
      if c.resident && c.releasedSince && e.pages ≤ c.shareFree then
        let a : Access := { ctx := id, cls := .slate }
        match foldD (List.range e.pages) d ([] : List Byte) (fun d bs i =>
            bindD (d.stashRead a e.tag (65536 * i) 65536) (fun d x => (d, .ok (bs ++ x)))) with
        | (d, .ok bs) => (d.updStash id e.tag (fun e => { e with bobbin := true, data := memWrite [] 0 bs })).countCtx id 0x04A e.pages
        | (d, .error _) => d
      else d

/-! ## Gusset entries -/

/-- The lines of one row of an entry (R254). -/
def linesPerRow (cols : Nat) : Nat := ceilDiv cols 1024

/-- The lines of an entry (R254). -/
def GussetEntry.lines (e : GussetEntry) : Nat := e.rows * linesPerRow e.cols

/-- The values that a line holds. -/
def GussetEntry.lineWidth (e : GussetEntry) (line : Nat) : Nat := min 1024 (e.cols - 1024 * (line % linesPerRow e.cols))

/-- The open entry of a parameter. -/
def Context.gusset? (c : Context) (param : BitVec 32) : Option GussetEntry := c.gusset.find? (fun e => e.param = param)

/-- Change an open entry. -/
def Device.updGusset (d : Device) (id : Code) (param : BitVec 32) (f : GussetEntry → GussetEntry) : Device :=
  d.updCtx id (fun c => { c with gusset := c.gusset.map (fun e => if e.param = param then f e else e) })

/-- The lines of a context's share that its entries use. -/
def Context.linesUsed (c : Context) : Nat := (c.gusset.map (fun e => e.frontLines)).sum

/-- The context addresses of a line's values and Linings at the home. -/
def GussetEntry.homeOf (e : GussetEntry) (line : Nat) : Nat × Nat :=
  let at_ := line / linesPerRow e.cols * e.ld + 1024 * (line % linesPerRow e.cols)
  (e.home + 2 * at_, e.lin + at_)

/-- The value and Lining pairs of `n` elements at a home. -/
def Device.homeRead (d : Device) (a : Access) (at_ : Nat × Nat) (n : Nat) : Res (List (Nat × Int)) :=
  bindD (d.readCa a at_.1 (2 * n)) (fun d vs => bindD (d.readCa a at_.2 n) (fun d ls =>
    (d, .ok ((List.range n).map (fun i => (bytesField vs (2 * i) 2, signedOf 8 (bytesField ls i 1)))))))

/-- Store value and Lining pairs at a home. -/
def Device.homeWrite (d : Device) (a : Access) (at_ : Nat × Nat) (ps : List (Nat × Int)) : Res Unit :=
  bindD (d.writeCa a at_.1 (ps.flatMap (fun p => leBytes 2 p.1))) (fun d _ =>
    d.writeCa a at_.2 (ps.flatMap (fun p => leBytes 1 (patternOf 8 p.2))))

/-- The pairs of a line, from the front or from the home (R254, R255); a poisoned front line fails (R626). -/
def Device.lineRead (d : Device) (a : Access) (e : GussetEntry) (line : Nat) : Res (List (Nat × Int)) :=
  if line < e.frontLines then
    if e.bad.contains line then (d, .error 0x0312)
    else (d, .ok (((e.front.find? (fun l => l.1 = line)).map (fun l => l.2)).getD
      (List.replicate (e.lineWidth line) ((0, 0) : Nat × Int))))
  else d.homeRead a (e.homeOf line) (e.lineWidth line)

/-- A front with one line changed. A line of zeros is not listed. -/
def frontPut (front : List (Nat × List (Nat × Int))) (line : Nat) (ps : List (Nat × Int)) : List (Nat × List (Nat × Int)) :=
  let rest := front.filter (fun l => l.1 != line)
  if ps.all (fun p => p = (0, 0)) then rest else (line, ps) :: rest

/-- Store the pairs of a line. -/
def Device.lineWrite (d : Device) (a : Access) (e : GussetEntry) (line : Nat) (ps : List (Nat × Int)) : Res Unit :=
  if line < e.frontLines then (d.updGusset a.ctx e.param (fun e => { e with front := frontPut e.front line ps }), .ok ())
  else d.homeWrite a (e.homeOf line) ps

/-- The segments of module memory behind a context address range, where it lies in device frames. -/
def Device.segmentsOf (d : Device) (id : Code) (ca n : Nat) : List (Nat × Nat) :=
  match d.ctx? id with
  | none => []
  | some c => (cutAt (2 ^ 21) ca n).filterMap (fun seg =>
      match d.translate c seg.1 false with
      | .ok (.dev mpa) => some (mpa, seg.2)
      | _ => none)

/-- The home's places of elements of a line from column `col` of the line. -/
def GussetEntry.homeFrom (e : GussetEntry) (line col : Nat) : Nat × Nat := ((e.homeOf line).1 + 2 * col, (e.homeOf line).2 + col)

/-- An addition into part of a line would be accepted: its line is sound, and its home can be read and written. The first
status that fails it (R264). -/
def Device.addCheck (d : Device) (a : Access) (e : GussetEntry) (line col n : Nat) : Option Code :=
  if line < e.frontLines then (if e.bad.contains line then some 0x0312 else none)
  else
    let at_ := e.homeFrom line col
    let bad (ca n : Nat) : Option Code := (d.writeCheck a ca n).or
      (if (d.segmentsOf a.ctx ca n).any (fun s => (accessesOf s.1 s.2).any d.unsound) then some 0x0312
       else none)
    (bad at_.1 (2 * n)).or (bad at_.2 n)

/-- The pairs of part of a line: from the front, or near memory, 2 bytes of value and 1 of Lining for each element, the
Linings at Indigo class (R255, R376). -/
def Device.partRead (d : Device) (a : Access) (e : GussetEntry) (line col n : Nat) : Res (List (Nat × Int)) :=
  if line < e.frontLines then bindD (d.lineRead a e line) (fun d ps => (d, .ok ((ps.drop col).take n)))
  else
    let at_ := e.homeFrom line col
    bindD (d.readCa { a with below := true } at_.1 (2 * n)) (fun d vs =>
      bindD (d.readCa { a with below := true, cls := .indigo } at_.2 n) (fun d ls =>
        (d, .ok ((List.range n).map (fun i => (bytesField vs (2 * i) 2, signedOf 8 (bytesField ls i 1)))))))

/-- Store the pairs of part of a line. -/
def Device.partWrite (d : Device) (a : Access) (e : GussetEntry) (line col : Nat) (ps : List (Nat × Int)) : Res Unit :=
  if line < e.frontLines then
    bindD (d.lineRead a e line) (fun d old => d.lineWrite a e line (old.take col ++ ps ++ old.drop (col + ps.length)))
  else
    let at_ := e.homeFrom line col
    bindD (d.writeCa { a with below := true } at_.1 (ps.flatMap (fun p => leBytes 2 p.1))) (fun d _ =>
      d.writeCa { a with below := true, cls := .indigo } at_.2 (ps.flatMap (fun p => leBytes 1 (patternOf 8 p.2))))

/-- Count near-memory additions of a line's elements on the stacks of its home's values (R255, R839). -/
def Device.countNearmem (d : Device) (a : Access) (e : GussetEntry) (line col n : Nat) : Device :=
  if line < e.frontLines then d
  else (cutAt 256 ((e.homeOf line).1 + 2 * col) (2 * n)).foldl (fun (d : Device) seg =>
    match (d.ctx? a.ctx).map (fun c => d.translate c seg.1 true) with
    | some (.ok (.dev mpa)) => d.count (panelOf mpa) { code := 0x048, ctx := a.ctx, unit := some (interleave (ppaOf mpa)).stack } (seg.2 / 2)
    | _ => d) d

/-- Add contributions to consecutive columns of one row, from column 0 upward (R259, R260). -/
def Device.gussetAddRow (d : Device) (a : Access) (seed : BitVec 64) (param : BitVec 32) (rmode step contrib row col0 : Nat)
    (cs : List Num) : Res Unit :=
  match (d.ctx? a.ctx).bind (fun c => c.gusset? param) with
  | none => (d, .error 0x0916)
  | some e =>
    foldD (cutAt 1024 col0 cs.length) d () (fun d _ seg =>
      let line := row * linesPerRow e.cols + seg.1 / 1024
      match (d.ctx? a.ctx).bind (fun c => c.gusset? param) with
      | none => (d, .error 0x0916)
      | some e => bindD (d.partRead a e line (seg.1 % 1024) seg.2) (fun d ps =>
        (d.countNearmem a e line (seg.1 % 1024) seg.2).partWrite a e line (seg.1 % 1024) (ps.zipIdx.map (fun pi =>
          let col := seg.1 + pi.2
          pairAdd e.fmt rmode ⟨seed, 1, param.toNat, step, contrib % 2 ^ 30 * 2 ^ 32 + row * e.cols + col⟩ pi.1.1 pi.1.2
            ((cs[col - col0]?).getD (.fin false 0 0))))))

/-- The contributions of a committed tack, each a row, a first column, its counter and its values: none is added when one
of them would be refused (R264). -/
def Device.gussetAddAll (d : Device) (a : Access) (seed : BitVec 64) (rmode step : Nat)
    (adds : List (BitVec 32 × Nat × Nat × Nat × List Num)) : Res Unit :=
  let parts (q : BitVec 32 × Nat × Nat × Nat × List Num) : List (GussetEntry × Nat × Nat × Nat) :=
    match (d.ctx? a.ctx).bind (fun c => c.gusset? q.1) with
    | none => []
    | some e => (cutAt 1024 q.2.2.1 q.2.2.2.2.length).map (fun s => (e, q.2.1 * linesPerRow e.cols + s.1 / 1024, s.1 % 1024, s.2))
  match (adds.flatMap parts).find? (fun p => (d.addCheck a p.1 p.2.1 p.2.2.1 p.2.2.2).isSome) with
  | some p => ((d.partRead a p.1 p.2.1 p.2.2.1 p.2.2.2).1, .error ((d.addCheck a p.1 p.2.1 p.2.2.1 p.2.2.2).getD 0x0312))
  | none => foldD adds d () (fun d _ q => d.gussetAddRow a seed q.1 rmode step q.2.2.2.1 q.2.1 q.2.2.1 q.2.2.2.2)

/-- Set every element of an entry to +0 with Lining 0 and CONTRIB to 0 (R266). -/
def Device.gussetClear (d : Device) (a : Access) (param : BitVec 32) : Res Unit :=
  match (d.ctx? a.ctx).bind (fun c => c.gusset? param) with
  | none => (d, .error 0x0916)
  | some e =>
    let d := d.updGusset a.ctx param (fun e => { e with front := [], contrib := 0, bad := [] })
    foldD ((List.range (e.lines - e.frontLines)).map (fun i => e.frontLines + i)) d () (fun d _ line =>
      d.homeWrite a (e.homeOf line) (List.replicate (e.lineWidth line) ((0, 0) : Nat × Int)))

/-- The segments of an entry's home. -/
def Device.homeSegments (d : Device) (id : Code) (e : GussetEntry) : List (Nat × Nat) :=
  d.segmentsOf id e.home (2 * boundBytes e.rows e.cols e.ld) ++ d.segmentsOf id e.lin (boundBytes e.rows e.cols e.ld)

/-- Close an entry: its lines and its tag go free, the home that its open found becomes undefined and ordinary memory again
(R266, R350). -/
def Device.gussetClose (d : Device) (id : Code) (param : BitVec 32) : Device :=
  match d.ctx? id with
  | none => d
  | some c => match c.gusset? param with
    | none => d
    | some e =>
      let d := e.segs.foldl (fun d s => d.undefine s.1 s.2) d
      let d := d.updCtx id (fun c => { c with gusset := c.gusset.filter (fun g => g.param != param) })
      d.updPanel c.panel (fun p => { p with homeSegs := e.segs.foldl List.erase p.homeSegs })

/-- Write a swapped-out context's front lines to their homes, without rounding (R269). -/
def Device.gussetHome (d : Device) (id : Code) : Device :=
  match d.ctx? id with
  | none => d
  | some c =>
    let a : Access := { ctx := id, cls := .slate }
    let d := c.gusset.foldl (fun d e =>
      (List.range e.frontLines).foldl (fun d line =>
        match d.lineRead a e line with
        | (d, .ok ps) => (d.homeWrite a (e.homeOf line) ps).1
        | (d, .error _) => d.poisonCa id (e.homeOf line).1) d) d
    d.updCtx id (fun c => { c with gusset := c.gusset.map (fun e => { e with frontLines := 0, front := [], bad := [] }) })

/-- Bring lines back to the front within the share at swap-in (R269). -/
def Device.gussetFront (d : Device) (id : Code) : Device :=
  match d.ctx? id with
  | none => d
  | some c =>
    c.gusset.foldl (fun d e =>
      match d.ctx? id with
      | none => d
      | some c =>
        let f := if e.homeOnly then 0 else min e.lines (c.gussetLines - c.linesUsed)
        let a : Access := { ctx := id, cls := .slate }
        match foldD (List.range f) d ([] : List (Nat × List (Nat × Int))) (fun d fr line =>
            bindD (d.homeRead a (e.homeOf line) (e.lineWidth line)) (fun d ps => (d, .ok (frontPut fr line ps)))) with
        | (d, .ok fr) => d.updGusset id e.param (fun e => { e with frontLines := f, front := fr })
        | (d, .error _) => d) d

/-! ## STORE_CTL (R273 to R275) -/

/-- The checks of a STORE_CTL. -/
def Device.storeCtlCheck (d : Device) (c : Context) (x : Desc) : Option Code :=
  let tail (o : Nat) : Bool := (List.range (128 - o)).all (fun i => x.f (o + i) 1 = 0)
  match x.op? with
  | some .storeConfig =>
    let pages := x.f 36 4
    let lines := x.f 40 4
    if x.f 33 3 != 0 || x.f 44 4 != 0 || !tail 64 then some 0x0906
    else if !c.stash.isEmpty || !c.gusset.isEmpty || 1536 < pages || 16384 < lines || c.bobbinMax < pages
        || x.f 48 8 % 65536 != 0 || x.f 56 8 % 65536 != 0
        || 1536 < pages + (((d.residents c.panel).filter (fun o => o.id != c.id)).map (fun o => o.bobbinPages)).sum
        || 16384 < lines + (((d.residents c.panel).filter (fun o => o.id != c.id)).map (fun o => o.gussetLines)).sum
        || c.comms.any (fun k => k.layout = 1 && k.stagePages != pages)
      then some 0x0914
    else none
  | some .recomp =>
    if x.f 33 3 != 0 || x.f 38 2 != 0 || x.f 40 4 != 0 || x.f 44 4 != 0 || !tail 72 then some 0x0906
    else if x.f 36 2 = 0 || x.f 48 8 % 128 != 0 || x.f 56 8 % 64 != 0 then some 0x0915
    else if x.f 48 8 != 0 && 256 ≤ (c.recomps.filter (fun r => r.tag != x.f 36 2)).length then some 0x0915
    else none
  | some .release =>
    if x.f 33 3 != 0 || x.f 40 4 != 0 || x.f 44 4 != 0 || !tail 48 then some 0x0906
    else if x.f 38 2 < x.f 36 2 then some 0x0906
    else none
  | _ => some 0x0906

/-- STORE_CTL CONFIG takes effect (R274). -/
def Device.storeConfig (d : Device) (id : Code) (x : Desc) : Device :=
  d.updCtx id (fun c => { c with bobbinPages := x.f 36 4, gussetLines := x.f 40 4, spillAddr := x.f 48 8, spillBytes := x.f 56 8 })

/-- STORE_CTL RECOMP takes effect, and is measured (R242, R756). -/
def Device.storeRecomp (d : Device) (a : Access) (x : Desc) : Res Unit :=
  let tag := x.f 36 2
  let put (content : List Byte) (c : Context) : Context :=
    let rest := c.recomps.filter (fun r => r.tag != tag)
    { c with recomps := if x.f 48 8 = 0 then rest else rest ++ [⟨tag, x.f 48 8, x.f 56 8, x.f 64 8⟩],
             measure := extendMeasure c.measure 0x13 tag content }
  if x.f 48 8 = 0 then (d.updCtx a.ctx (put (List.replicate 64 0)), .ok ())
  else bindD (d.readCa a (x.f 48 8) 128) (fun d bs => (d.updCtx a.ctx (put bs), .ok ()))

/-- STORE_CTL RELEASE takes effect (R247). -/
def Device.storeRelease (d : Device) (id : Code) (x : Desc) : Device :=
  d.updCtx id (fun c =>
    let keep := c.stash.filter (fun e => !(x.f 36 2 ≤ e.tag && e.tag ≤ x.f 38 2))
    { c with stash := keep, releasedSince := c.releasedSince || keep.length != c.stash.length })

/-! ## GUSSET_OPEN (R276, R277) -/

/-- Every page of a range lies in device frames of a panel that the context may write: the first status, or the open's
own (R252, R277). -/
def Device.homeCheck (d : Device) (c : Context) (ca n : Nat) : Option Code :=
  (cutAt (2 ^ 21) ca n).findSome? (fun seg =>
    match d.translate c seg.1 true with
    | .error e => some e
    | .ok (.host _) => some 0x0918
    | .ok (.dev mpa) => if panelOf mpa = c.panel then none else some 0x0918)

/-- The checks of a GUSSET_OPEN. -/
def Device.gussetOpenCheck (d : Device) (c : Context) (x : Desc) : Option Code :=
  let rows := x.f 36 4
  let cols := x.f 40 4
  let ld := x.f 44 4
  if x.bits 65 1 7 2 != 0 || !((List.range 62).all (fun i => x.f (66 + i) 1 = 0)) then some 0x0906
  else if x.f 32 4 = 0 || (c.gusset? (BitVec.ofNat 32 (x.f 32 4))).isSome
      || 4096 ≤ ((d.residents c.panel).map (fun o => o.gusset.length)).sum
      || rows = 0 || cols = 0 || 2 ^ 30 < rows || 2 ^ 30 < cols || 2 ^ 30 < rows * cols
      || ld % 32 != 0 || ld < cols || x.f 48 8 % 64 != 0 || x.f 56 8 % 64 != 0 || !is16 (x.f 64 1) then some 0x0918
  else (d.homeCheck c (x.f 48 8) (2 * boundBytes rows cols ld)).or (d.homeCheck c (x.f 56 8) (boundBytes rows cols ld))

/-- GUSSET_OPEN takes effect (R254, R276). -/
def Device.gussetOpen (d : Device) (a : Access) (x : Desc) : Res Unit :=
  match d.ctx? a.ctx with
  | none => (d, .error 0x0511)
  | some c =>
    let e0 : GussetEntry := { param := BitVec.ofNat 32 (x.f 32 4), rows := x.f 36 4, cols := x.f 40 4, ld := x.f 44 4,
                              home := x.f 48 8, lin := x.f 56 8, fmt := x.f 64 1, frontLines := 0, homeOnly := x.bit 65 1 1 }
    let segs := d.homeSegments a.ctx e0
    let e := { e0 with frontLines := if e0.homeOnly then 0 else min e0.lines (c.gussetLines - c.linesUsed), segs := segs }
    let d := segs.foldl (fun d s =>
      (d.writeBack ((d.panel (panelOf s.1)).mem.spool.filter (fun l => rangesOverlap s.1 s.2 (l.unit * 256) 256))).spoolDrop s.1 s.2) d
    let d := d.updPanel c.panel (fun p => { p with homeSegs := p.homeSegs ++ segs })
    let d := d.updCtx a.ctx (fun c => { c with gusset := c.gusset ++ [e] })
    if x.bit 65 1 0 then
      foldD (List.range e.frontLines) d () (fun d _ line =>
        bindD (d.homeRead a (e.homeOf line) (e.lineWidth line)) (fun d ps => d.lineWrite a e line ps))
    else d.gussetClear a e.param

/-! ## GUSSET_ACC (R258, R278) -/

/-- The entry rows that source rows from `j0` go to (R258). -/
def Device.accRows (d : Device) (a : Access) (x : Desc) (j0 n : Nat) : Res (List Nat) :=
  let js := (List.range n).map (fun i => j0 + i)
  if x.f 56 8 = 0 then (d, .ok (js.map (fun j => x.f 64 4 + j)))
  else foldD js d [] (fun d out j =>
    bindD (d.readCaNat a (x.f 56 8 + 4 * j) 4) (fun d r => (d, .ok (out ++ [r]))))

/-- The checks of a GUSSET_ACC before its first tack. Its section names no status for a shape out of range and for a
misaligned source; they take the codes of a MATMUL's checks, in that order before the entry's (assumption log 148). -/
def Device.gussetAccCheck (d : Device) (a : Access) (c : Context) (x : Desc) : Res Unit :=
  let trans := x.bit 70 1 0
  if x.bits 70 1 7 1 != 0 || x.bits 71 1 7 2 != 0 || x.bits 69 1 7 2 != 0 || 1 < x.bits 69 1 1 0
      || !((List.range 52).all (fun i => x.f (72 + i) 1 = 0)) then (d, .error 0x0906)
  else if x.f 36 4 = 0 || 2 ^ 30 < x.f 36 4 || x.f 40 4 = 0 then (d, .error 0x0902)
  else if x.f 48 8 % 64 != 0 || x.f 44 4 * 2 % 64 != 0 then (d, .error 0x0903)
  else match c.gusset? (BitVec.ofNat 32 (x.f 32 4)) with
    | none => (d, .error 0x0916)
    | some e =>
      if x.f 68 1 != e.fmt || (x.f 40 4 != if trans then e.rows else e.cols)
          || (trans && (x.f 56 8 != 0 || e.cols < x.f 36 4)) then (d, .error 0x0917)
      else if trans then (d, .ok ())
      else bindD (d.accRows a x 0 (x.f 36 4)) (fun d rs => if rs.all (fun r => r < e.rows) then (d, .ok ()) else (d, .error 0x0917))

/-- The source rows of a GUSSET_ACC tack, which wait in the commit region (R258, R264): number, entry row, values. -/
def Device.accSources (d : Device) (a : Access) (x : Desc) (j0 n : Nat) : Res (List (Nat × Nat × List Num)) :=
  match (d.ctx? a.ctx).bind (fun c => c.gusset? (BitVec.ofNat 32 (x.f 32 4))) with
  | none => (d, .error 0x0916)
  | some e => bindD (if x.bit 70 1 0 then (d, .ok ((List.range n).map (fun i => j0 + i))) else d.accRows a x j0 n) (fun d rows =>
      if !x.bit 70 1 0 && rows.any (fun r => decide (e.rows ≤ r)) then (d, .error 0x0917)
      else foldD rows.zipIdx d [] (fun d out p =>
        bindD (d.readCa a (x.f 48 8 + 2 * ((j0 + p.2) * x.f 44 4)) (2 * x.f 40 4)) (fun d bs =>
          (d, .ok (out ++ [(j0 + p.2, p.1, (List.range (x.f 40 4)).map (fun i => (floatFmt e.fmt).decode (bytesField bs (2 * i) 2)))])))))

/-- The source rows of a committed GUSSET_ACC tack are added into the entry, in ascending order (R258 to R262). -/
def Device.gussetAccRows (d : Device) (a : Access) (x : Desc) (sources : List (Nat × Nat × List Num)) : Res Unit :=
  let param := BitVec.ofNat 32 (x.f 32 4)
  match (d.ctx? a.ctx).bind (fun c => (c.gusset? param).map (fun e => (c, e))) with
  | none => (d, .error 0x0916)
  | some (c, e) => d.gussetAddAll a c.seed (x.bits 69 1 1 0) (x.f 124 4) (sources.flatMap (fun q =>
      if x.bit 70 1 0 then q.2.2.zipIdx.map (fun v => (param, v.2, q.1, e.contrib + 1 + q.1, [v.1]))
      else [(param, q.2.1, 0, e.contrib + 1 + q.1, q.2.2)]))

/-- CONTRIB after a GUSSET_ACC (R261). -/
def Device.gussetAccEnd (d : Device) (id : Code) (x : Desc) : Device :=
  d.updGusset id (BitVec.ofNat 32 (x.f 32 4)) (fun e => { e with contrib := e.contrib + x.f 36 4 })

/-! ## GUSSET_FLUSH (R265 to R267, R279) -/

/-- The checks of a GUSSET_FLUSH before it takes effect. -/
def gussetFlushCheck (c : Context) (x : Desc) : Option Code :=
  let mode := x.f 36 1
  if mode = 3 || 3 < mode || x.bits 37 1 7 2 != 0 || x.f 38 2 != 0 || x.f 44 4 != 0 || x.bits 76 1 7 2 != 0
      || !((List.range 47).all (fun i => x.f (77 + i) 1 = 0)) then some 0x0906
  else match c.gusset? (BitVec.ofNat 32 (x.f 32 4)) with
    | none => some 0x0916
    | some e =>
      if mode != 1 then none
      else if x.f 56 8 % 64 != 0 || x.f 72 4 < e.cols then some 0x0903
      else
        let dst := (x.f 56 8, 2 * boundBytes e.rows e.cols (x.f 72 4))
        let lin := (x.f 64 8, if x.f 64 8 = 0 then 0 else boundBytes e.rows e.cols (x.f 72 4))
        let home := (e.home, 2 * boundBytes e.rows e.cols e.ld)
        let hlin := (e.lin, boundBytes e.rows e.cols e.ld)
        let hit (p q : Nat × Nat) : Bool := rangesOverlap p.1 p.2 q.1 q.2
        if hit dst home || hit dst hlin || hit lin home || hit lin hlin then some 0x0917 else none

/-- The MODE 1 part of a flush: values and Linings go to memory unchanged. -/
def Device.gussetToMemory (d : Device) (a : Access) (e : GussetEntry) (x : Desc) : Res Unit :=
  foldD (List.range e.lines) d () (fun d _ line =>
    bindD (d.lineRead a e line) (fun d ps =>
      let at_ := line / linesPerRow e.cols * x.f 72 4 + 1024 * (line % linesPerRow e.cols)
      bindD (d.writeCa a (x.f 56 8 + 2 * at_) (ps.flatMap (fun p => leBytes 2 p.1))) (fun d _ =>
        if x.f 64 8 = 0 then (d, .ok ())
        else d.writeCa a (x.f 64 8 + line / linesPerRow e.cols * e.cols + 1024 * (line % linesPerRow e.cols)) (ps.flatMap (fun p => leBytes 1 (patternOf 8 p.2))))))

/-- The exact values of an entry in row-major order (R265 MODE 0). -/
def Device.gussetValues (d : Device) (a : Access) (e : GussetEntry) : Res (List Num) :=
  foldD (List.range e.lines) d [] (fun d out line =>
    bindD (d.lineRead a e line) (fun d ps => (d, .ok (out ++ ps.map (fun p => liningValue e.fmt p.1 p.2)))))

/-- BOBBIN_PREFETCH (R240). -/
def execBobbinPrefetch (ctx : Code) (s : State) : Out := s.run (fun d => d.prefetch ctx)

end Sys2Proof.Machine
end

