-- ==== Sys2Proof/Machine/Seam.lean ====
section
/-! DEFINITION. The Seam vector pipeline (06_seam_engine.md): chain records, the stages, the reading of operand runs,
the checks of chains, SEAM_CTL. -/

namespace Sys2Proof.Machine

/-! ## Reading runs of stored elements -/

/-- An element as it is stored: its code, and its block scale's code (127, a scale of 1, without one). -/
abbrev Stored := Nat × Nat

/-- The value of a stored element with its scale applied (R147 to R154). -/
def OperandFmt.value (o : OperandFmt) (q : Stored) : Num :=
  if o.fmt = fmtFP4 then (if q.2 = 255 then .nan else (ffE2M1.decode q.1).scale ((q.2 : Int) - 127))
  else (decodeElem o.fmt q.1).scale o.sigma

/-- Read `n` consecutive elements of an operand as they are stored. `elem0` is the first element's index from the base;
element `i`'s block scale lies at `sBase + sIdx i`. With `window`, a block scale outside the window of R158 gives
0x0908. -/
def Device.readStored (d : Device) (a : Access) (o : OperandFmt) (base elem0 n sBase : Nat) (sIdx : Nat → Nat) (window : Bool) :
    Res (List Stored) :=
  if n = 0 then (d, .ok [])
  else if o.fmt = fmtFP4 then
    bindD (d.readCa a (base + elem0 / 2) ((elem0 + n + 1) / 2 - elem0 / 2)) (fun d bs =>
      bindD (d.readCa a sBase (sIdx (n - 1) + 1)) (fun d ss =>
        let codes := (List.range n).map (fun i => bytesField ss (sIdx i) 1)
        if window && codes.any (fun c => c != 255 && ((c : Int) < max 0 (o.sigma + 96) || o.sigma + 127 < (c : Int)))
          then (d, .error 0x0908)
        else (d, .ok ((List.range n).map (fun i =>
          let b := bytesField bs ((elem0 + i) / 2 - elem0 / 2) 1
          (if (elem0 + i) % 2 = 0 then b % 16 else b / 16, bytesField ss (sIdx i) 1))))))
  else
    let es := elemBytes o.fmt
    bindD (d.readCa a (base + elem0 * es) (n * es)) (fun d bs =>
      (d, .ok ((List.range n).map (fun i => (bytesField bs (es * i) es, 127)))))

/-- Read `n` consecutive elements of an operand as values (R147 to R154). -/
def Device.readRun (d : Device) (a : Access) (o : OperandFmt) (base elem0 n sBase : Nat) (sIdx : Nat → Nat) (window : Bool) :
    Res (List Num) :=
  bindD (d.readStored a o base elem0 n sBase sIdx window) (fun d qs => (d, .ok (qs.map o.value)))

/-- Read elements of a stash entry at their places as they are stored (R224, R238). -/
def Device.readStashStored (d : Device) (a : Access) (tag : Nat) (at_ : List (Nat × Nat)) : Res (List Stored) :=
  match (d.ctx? a.ctx).bind (fun c => c.stash? tag) with
  | none => (d, .error 0x0910)
  | some e => bindD (d.stashElems a e at_) (fun d cs => (d, .ok (cs.map (fun c => (c, 127)))))

/-- Read elements of a stash entry at their places (R224, R238). -/
def Device.readStashNums (d : Device) (a : Access) (tag : Nat) (at_ : List (Nat × Nat)) : Res (List Num) :=
  match (d.ctx? a.ctx).bind (fun c => c.stash? tag) with
  | none => (d, .error 0x0910)
  | some e => bindD (d.readStashStored a tag at_) (fun d qs => (d, .ok (qs.map (OperandFmt.value { fmt := e.fmt, sigma := e.sigma }))))

/-! ## Chain records (R333, R334) -/

/-- Where a second input stream comes from, its hint, and the units that the vector at hand reads of it for the last time
(R334, R336, R353). -/
structure SeamIn2 where
  fmt : Nat := 0
  o : OperandFmt := {}
  addr : Nat := 0
  ld : Nat := 0
  scaleAddr : Nat := 0
  tag : Option Nat := none
  hint : Hint := .stream
  last : List Nat := []
  deriving DecidableEq, Repr

/-- A chain at work under a descriptor. `transposed`: position c of vector row r is element (c, r) of the output, as in
an input-stationary product. `redirect`: the recompute buffer that takes the output in place of OUT_ADDR (R243). -/
structure SeamJob where
  chain : BitVec 1024
  aux : BitVec 1024
  a : Access
  redirect : Option Nat := none
  seed : BitVec 64
  step : Nat
  vrows : Nat
  cols : Nat
  vlen : Nat
  transposed : Bool
  nCols : Nat
  outAddr : Nat
  outLd : Nat
  outFmt : Nat
  out : OperandFmt
  outTid : Nat
  in2 : SeamIn2
  table : List Byte
  deriving DecidableEq, Repr

/-- Byte field of the chain record. -/
def SeamJob.cf (j : SeamJob) (off size : Nat) : Nat := rawField j.chain off size
/-- Byte field of the auxiliary block. -/
def SeamJob.af (j : SeamJob) (off size : Nat) : Nat := rawField j.aux off size
/-- A stage is enabled (STAGE_EN). -/
def SeamJob.on (j : SeamJob) (i : Nat) : Bool := (j.cf 0 2).testBit i
/-- RMODE of the chain. -/
def SeamJob.rmode (j : SeamJob) : Nat := j.cf 3 1 % 4
/-- The output coordinates of position c of vector row r. -/
def SeamJob.coord (j : SeamJob) (r c : Nat) : Nat × Nat := if j.transposed then (c, r) else (r, c)

/-! ## Stages -/

/-- The operand of a source code (R301). -/
def laneSource (code : Nat) (v b i2 imm0 imm1 : Lane) : Lane :=
  match code with
  | 0 => v
  | 1 => b
  | 2 => i2
  | 3 => imm0
  | _ => imm1

/-- One arithmetic stage at byte `off` of the chain record (R300, R333). -/
def SeamJob.arith (j : SeamJob) (off : Nat) (v b i2 : Lane) : Lane :=
  let imm0 := BitVec.ofNat 32 (j.cf (off + 8) 4)
  let imm1 := BitVec.ofNat 32 (j.cf (off + 12) 4)
  let src (k : Nat) : Lane := laneSource (j.cf (off + k) 1) v b i2 imm0 imm1
  laneOp (j.cf off 1) (src 1) (src 2) (src 3)

/-- The lanes of the broadcast operand for a vector (R299). -/
def SeamJob.bcast (j : SeamJob) (d : Device) (r c0 n : Nat) : Res (List Lane) :=
  if !j.on 0 then (d, .ok (List.replicate n 0))
  else
    let f := floatFmt (j.af 100 1)
    let byColumn := j.cf 4 1 % 2 = 0
    if byColumn != j.transposed then
      bindD (d.readCa j.a (j.af 0 8 + 2 * c0) (2 * n)) (fun d bs =>
        (d, .ok ((List.range n).map (fun i => laneOf (f.decode (bytesField bs (2 * i) 2))))))
    else bindD (d.readCa j.a (j.af 0 8 + 2 * r) 2) (fun d bs => (d, .ok (List.replicate n (laneOf (f.decode (leNat bs))))))

/-- The lanes of the second input stream for a vector (R335, R337). -/
def SeamJob.in2Lanes (j : SeamJob) (d : Device) (r c0 n : Nat) : Res (List Lane) :=
  if j.in2.fmt = 0 then (d, .ok (List.replicate n 0))
  else
    let places := (List.range n).map (fun i => j.coord r (c0 + i))
    let a := { j.a with hint := j.in2.hint, last := j.in2.last }
    let nums := match j.in2.tag with
      | some t => d.readStashNums a t places
      | none =>
        if j.transposed then
          foldD places d [] (fun d out p =>
            let el := p.1 * j.in2.ld + p.2
            bindD (d.readRun a j.in2.o j.in2.addr el 1 (j.in2.scaleAddr + el / 32) (fun _ => 0) false)
              (fun d x => (d, .ok (out ++ x))))
        else
          let el := r * j.in2.ld + c0
          d.readRun a j.in2.o j.in2.addr el n (j.in2.scaleAddr + el / 32) (fun i => (el % 32 + i) / 32) false
    bindD nums (fun d xs => (d, .ok (xs.map laneOf)))

/-- A number of the table image, as a lane word. -/
def tableLane (t : List Byte) (off : Nat) : Lane := BitVec.ofNat 32 (bytesField t off 4)

/-- The out-of-range rule of a side (R304). -/
def tableRule (t : List Byte) (off : Nat) (z : Lane) : Lane :=
  let a := tableLane t off
  let b := tableLane t (off + 4)
  if (laneNum b).isZero then a else laneFma b z a

/-- eval of the function table (`deriv = false`) or the derivative table (R303, R304). -/
def tableEval (t : List Byte) (deriv : Bool) (x : Lane) : Lane :=
  let xn := laneNum x
  if xn = .nan then laneOf .nan
  else
    let sign := bytesField t (if deriv then 2 else 1) 1
    let rules := if deriv then 32 else 16
    let segs := if deriv then 3200 else 128
    let z := if sign = 0 then x else x &&& 0x7FFFFFFF
    let zn := laneNum z
    let shift := signedOf 16 (bytesField t 4 2)
    let finish (idx : Nat) (tt : Dy) : Lane :=
      let tl := laneOf (Num.ofDy tt)
      let c (k : Nat) : Lane := tableLane t (segs + 12 * idx + 4 * k)
      let y := laneFma (laneFma (c 2) tl (c 1)) tl (c 0)
      if sign = 2 && xn.neg && !xn.isZero then y ^^^ 0x80000000 else y
    if bytesField t 0 1 = 0 then
      let lo := laneNum (tableLane t 8)
      let top := lo.add (.fin false 256 shift)
      if zn.lt lo then tableRule t rules z
      else if !zn.lt top then tableRule t (rules + 8) z
      else
        let diff := zn.dy.add ⟨-lo.dy.m, lo.dy.e⟩
        let idx := diff.floorAt shift
        finish idx.toNat ((diff.add ⟨-idx, shift⟩).mul ⟨1, -shift⟩)
    else
      if !(Num.fin false 0 0).lt zn || zn.lt (.fin false 1 shift) then tableRule t rules z
      else if !zn.lt (.fin false 1 (shift + 16)) then tableRule t (rules + 8) z
      else
        let e := zn.exponent.getD 0
        let k := zn.dy.floorAt (e - 4)
        finish (16 * (e - shift) + (k - 16)).toNat ((zn.dy.add ⟨-k, e - 4⟩).mul ⟨1, 4 - e⟩)

/-- The scan operation (R309). -/
def scanOp (op : Nat) (a b : Lane) : Lane := if op = 0 then laneOp 1 a b 0 else if op = 1 then laneMax a b else laneMin a b

/-- The identity element (R309). -/
def scanIdentity (op : Nat) : Lane := if op = 0 then 0 else if op = 1 then 0xFF800000 else 0x7F800000

/-- One level of the scan: all lanes together from the previous level (R311). -/
def scanLevel (op s : Nat) (yh : List (Lane × Bool)) : List (Lane × Bool) :=
  yh.zipIdx.map (fun p =>
    if p.2 < s then p.1
    else match yh[p.2 - s]? with
      | some q => (if p.1.2 then p.1.1 else scanOp op q.1 p.1.1, p.1.2 || q.2)
      | none => p.1)

/-- The inclusive and exclusive values of scan_vector (R311). -/
def scanVector (op : Nat) (xs : List Lane) (fs : List Bool) (carry : Lane) : List Lane × List Lane :=
  let yh := (List.range 10).foldl (fun yh k => scanLevel op (2 ^ k) yh) (xs.zip fs)
  let incl := yh.map (fun p => if p.2 then p.1 else scanOp op carry p.1)
  let excl := fs.zipIdx.map (fun p =>
    if p.1 then scanIdentity op else if p.2 = 0 then carry else (incl[p.2 - 1]?).getD carry)
  (incl, excl)

/-- A keyed lane, or a default. -/
def laneAt (l : List (Nat × Lane)) (k : Nat) (dflt : Lane) : Lane := ((l.find? (fun p => p.1 = k)).map (fun p => p.2)).getD dflt

/-- Set a keyed lane. -/
def laneSet (l : List (Nat × Lane)) (k : Nat) (v : Lane) : List (Nat × Lane) := (k, v) :: l.filter (fun p => p.1 != k)

/-- The segment flags of a vector (R310). -/
def SeamJob.segFlags (j : SeamJob) (d : Device) (r c0 n : Nat) : Res (List Bool) :=
  if !(j.cf 7 1).testBit 4 then (d, .ok (List.replicate n false))
  else bindD (d.readCa j.a (j.af 16 8 + r * (ceilDiv j.cols 512 * 64) + c0 / 8) ((c0 + n + 7) / 8 - c0 / 8)) (fun d bs =>
    (d, .ok ((List.range n).map (fun i => (bytesField bs ((c0 + i) / 8 - c0 / 8) 1).testBit ((c0 + i) % 8)))))

/-- A reduction's write (R315, R316). -/
def SeamJob.reduction (j : SeamJob) (index : Nat) (v : Lane) : Nat × List Byte :=
  let fmt := if is16 j.outFmt then j.outFmt else fmtBF16
  (j.af 32 8 + 2 * index,
   leBytes 2 (roundTo fmt j.rmode ⟨j.seed, 3, j.outTid, j.step, 2 ^ 61 + index⟩ (laneNum v)).1)

/-- The scan stage on one vector (R309 to R316). -/
def SeamJob.scan (j : SeamJob) (st : SeamScan) (r c0 : Nat) (xs : List Lane) (fs : List Bool) :
    SeamScan × List Lane × List (Nat × List Byte) :=
  let ctl := j.cf 7 1
  let op := ctl % 4
  let idn := scanIdentity op
  let n := xs.length
  let wantRed := j.af 32 8 != 0
  if !ctl.testBit 3 then
    let (incl, excl) := scanVector op xs fs (laneAt st.carries r idn)
    let (red, _) := scanVector op xs (List.replicate n false) (laneAt st.reds r idn)
    let redV := (red.getLast?).getD idn
    let st := { st with carries := laneSet st.carries r ((incl.getLast?).getD idn), reds := laneSet st.reds r redV }
    (st, if ctl.testBit 5 then xs else if ctl.testBit 2 then excl else incl,
     if wantRed && j.cols ≤ c0 + n then [j.reduction r redV] else [])
  else
    let carries := xs.zipIdx.map (fun p => laneAt st.carries (c0 + p.2) idn)
    let fl := fun (k : Nat) => (fs[k]?).getD false
    let incl := (xs.zip carries).zipIdx.map (fun p => if fl p.2 then p.1.1 else scanOp op p.1.2 p.1.1)
    let excl := carries.zipIdx.map (fun p => if fl p.2 then idn else p.1)
    let reds := xs.zipIdx.map (fun p => (c0 + p.2, scanOp op (laneAt st.reds (c0 + p.2) idn) p.1))
    let st := { st with carries := incl.zipIdx.foldl (fun l p => laneSet l (c0 + p.2) p.1) st.carries,
                        reds := reds.foldl (fun l p => laneSet l p.1 p.2) st.reds }
    (st, if ctl.testBit 5 then xs else if ctl.testBit 2 then excl else incl,
     if wantRed && j.vrows ≤ r + 1 then reds.map (fun p => j.reduction p.1 p.2) else [])

/-- The statistics stage (R317, R318): the scan state after it, and the largest magnitude to record. -/
def SeamJob.stats (j : SeamJob) (st : SeamScan) (xs : List Lane) : SeamScan × Option Nat :=
  xs.foldl (fun (r : SeamScan × Option Nat) v =>
    let st := r.1
    match laneNum v with
    | .nan => ({ st with nans := satTo 32 (st.nans + 1) }, r.2)
    | .inf _ => ({ st with infs := satTo 32 (st.infs + 1) }, some 0x7F7F)
    | x =>
      let m := bf16Trunc x
      let st := { st with amax := max st.amax m }
      let sq := x.mul x
      let acc := accAdd false 0 ⟨.finite, st.sumM, st.sumE⟩ ⟨.finite, sq.dy.m, sq.dy.e⟩
      (if j.on 6 && sq.dy.m != 0 then { st with sumM := acc.m, sumE := acc.e } else st, some (max m (r.2.getD 0)))) (st, none)

/-- The statistics record (R318). -/
def statsBytes (st : SeamScan) : List Byte :=
  leBytes 8 (patternOf 64 st.sumM) ++ leBytes 2 (patternOf 16 st.sumE) ++ leBytes 2 st.amax ++ leBytes 4 st.nans
    ++ leBytes 4 st.infs ++ leBytes 12 0

/-- Pack the nibbles of consecutive FP4MX elements into bytes, the first in bits [3:0] (R148). -/
def packNibbles : List Nat → List Byte
  | [] => []
  | [a] => [BitVec.ofNat 8 (a % 16)]
  | a :: b :: rest => BitVec.ofNat 8 (a % 16 + 16 * (b % 16)) :: packNibbles rest

/-- The writes of the stored bytes of a run of a row of an output of `nCols` columns, `es` bytes to an element: to its base
with a leading dimension, or to a recompute buffer in the block layout of R221 (R243). -/
def placeRun (redirect : Option Nat) (base ld nCols es row col : Nat) (bs : List Byte) : List (Nat × List Byte) :=
  match redirect with
  | none => [(base + es * (row * ld + col), bs)]
  | some buf => (cutAt 32 col (bs.length / es)).map (fun s =>
      (buf + blockOffset nCols es row s.1, (bs.drop (es * (s.1 - col))).take (es * s.2)))

/-- Convert one run of a row of the output, starting at (row, col): its writes and its saturations (R294 to R297). The
Lining of element i of the output is byte i (R182). -/
def SeamJob.packRun (j : SeamJob) (row col : Nat) (xs : List Num) : List (Nat × List Byte) × Nat :=
  let key (dom i : Nat) : Key := ⟨j.seed, dom, j.outTid, j.step, row * j.nCols + col + i⟩
  if (j.cf 3 1).testBit 2 then
    let rs := xs.zipIdx.map (fun p => splitLining j.out.fmt j.rmode (key 1 p.2) p.1)
    ([(j.outAddr + 2 * (row * j.outLd + col), rs.flatMap (fun r => leBytes 2 r.1)),
      (j.af 48 8 + (row * j.nCols + col), rs.flatMap (fun r => leBytes 1 (patternOf 8 r.2)))], 0)
  else if j.out.fmt = fmtFP4 then
    let blocks := (List.range (ceilDiv xs.length 32)).map (fun b =>
      toFp4Block j.out.sigma j.rmode (((xs.drop (32 * b)).take 32).zipIdx.map (fun p => (p.1, key 3 (32 * b + p.2)))))
    ([(j.outAddr + (row * j.outLd + col) / 2, packNibbles (blocks.flatMap (fun b => b.2.1))),
      (j.af 56 8 + row * (j.outLd / 32) + col / 32, blocks.flatMap (fun b => leBytes 1 b.1))],
     (blocks.map (fun b => b.2.2)).sum)
  else
    let es := elemBytes j.out.fmt
    let rs := xs.zipIdx.map (fun p => roundTo j.out.fmt j.rmode (key 3 p.2) (p.1.scale (-j.out.sigma)))
    (placeRun j.redirect j.outAddr j.outLd j.nCols es row col (rs.flatMap (fun r => leBytes es r.1)), (rs.filter (fun r => r.2)).length)

/-- Pass one vector through the stages up to round and pack (R288): the scan state, the lanes, the reductions' writes,
the magnitude to record and the lanes whose permutation index was out of range. -/
def SeamJob.vector (j : SeamJob) (d : Device) (st : SeamScan) (r w : Nat) (xs : List Lane) :
    Res (SeamScan × List Lane × List (Nat × List Byte) × Option Nat × Nat) :=
  let n := xs.length
  let c0 := w * j.vlen
  bindD (j.in2Lanes d r c0 n) (fun d i2 =>
  bindD (j.bcast d r c0 n) (fun d bc =>
  let at2 (l : List Lane) (i : Nat) : Lane := (l[i]?).getD 0
  let xs := if j.on 1 then xs.zipIdx.map (fun p => j.arith 16 p.1 (at2 bc p.2) (at2 i2 p.2)) else xs
  let xs := if j.on 2 then xs.zipIdx.map (fun p =>
      if (j.cf 5 1).testBit 3 then laneOp 3 p.1 (tableEval j.table true (at2 i2 p.2)) 0 else tableEval j.table false p.1) else xs
  let xs := if j.on 3 then xs.zipIdx.map (fun p => j.arith 32 p.1 (at2 bc p.2) (at2 i2 p.2)) else xs
  bindD (if j.on 4 then d.readCa j.a (j.af 8 8) (2 * j.vlen) else (d, .ok [])) (fun d ix =>
  let idx := (List.range n).map (fun i => bytesField ix (2 * i) 2)
  let bad := if j.on 4 then (idx.filter (fun i => n ≤ i)).length else 0
  let xs := if j.on 4 then idx.map (fun i => (xs[i]?).getD 0) else xs
  bindD (if j.on 5 then j.segFlags d r c0 n else (d, .ok [])) (fun d fs =>
  let (st, xs, reds) := if j.on 5 then j.scan st r c0 xs fs else (st, xs, [])
  let (st, mag) := j.stats st xs
  (d, .ok (st, xs, reds, mag, bad))))))

/-! ## Checks of chains (R325, R331, R338, R339) -/

/-- The chain or descriptor names of a check: output format in use, second stream's format, whether the chain hangs on
a product and that product's width across J and columns. -/
structure ChainUse where
  attached : Bool
  yFmt : Nat := 0
  j : Nat := 0
  n : Nat := 0
  vlen : Nat := 1024
  cols : Nat := 0
  in2Fmt : Nat := 0
  deriving DecidableEq, Repr

/-- OUT_FMT in use (R324). -/
def chainOutFmt (chain : BitVec 1024) (u : ChainUse) : Nat :=
  if rawField chain 2 1 = 0 && u.attached then u.yFmt else rawField chain 2 1

/-- An arithmetic block is well formed (R300, R301, R333). -/
def arithOk (chain : BitVec 1024) (off : Nat) : Bool :=
  rawField chain off 1 ≤ 9 && rawField chain (off + 1) 1 ≤ 4 && rawField chain (off + 2) 1 ≤ 4
    && rawField chain (off + 3) 1 ≤ 4 && rawField chain (off + 4) 4 = 0

/-- An enabled arithmetic block uses a source code. -/
def arithUses (chain : BitVec 1024) (stage off code : Nat) : Bool :=
  (rawField chain 0 2).testBit stage && (rawField chain (off + 1) 1 = code || rawField chain (off + 2) 1 = code
    || rawField chain (off + 3) 1 = code)

/-- The chain and its user agree (order 3 of R338, with R325 for an attached chain). -/
def chainAgrees (chain aux : BitVec 1024) (u : ChainUse) : Bool :=
  let c (off size : Nat) : Nat := rawField chain off size
  let a (off size : Nat) : Nat := rawField aux off size
  let en (i : Nat) : Bool := (c 0 2).testBit i
  let out := chainOutFmt chain u
  let reserved := c 0 2 / 2 ^ 7 != 0 || c 3 1 / 16 != 0 || c 4 1 / 2 != 0 || c 5 1 / 16 != 0 || c 6 1 / 2 != 0
    || c 12 4 != 0 || !((List.range 72).all (fun i => c (56 + i) 1 = 0)) || !arithOk chain 16 || !arithOk chain 32
    || 1 < c 3 1 % 4 || c 7 1 % 4 = 3
  let items := (!en 0 || (a 0 8 != 0 && is16 (a 100 1))) && (!en 4 || a 8 8 != 0)
    && (!(en 5 && (c 7 1).testBit 4) || a 16 8 != 0)
    && (!(en 5 && ((c 7 1).testBit 6 || (c 7 1).testBit 7)) || a 24 8 != 0)
    && (!u.attached || u.in2Fmt = 0 || a 93 1 = 1
        || (a 80 8 != 0 && (u.in2Fmt != fmtFP4 || a 72 8 != 0)))
    && (!en 6 || a 40 8 != 0) && (!(c 3 1).testBit 2 || a 48 8 != 0) && (out != fmtFP4 || a 56 8 != 0)
  let uses (code : Nat) : Bool := arithUses chain 1 16 code || arithUses chain 3 32 code
  let streams := (!uses 1 || en 0) && (!(uses 2 || (en 2 && (c 5 1).testBit 3)) || u.in2Fmt != 0)
  let forms := 1 ≤ out && out ≤ 6 && u.in2Fmt ≤ 6 && (!(c 3 1).testBit 2 || (is16 out && !u.attached))
    && (out != fmtFP4 || (u.vlen % 32 = 0 && u.cols % 32 = 0))
  let attachedOk := !u.attached || (is16 u.yFmt && (!en 5 || (c 7 1).testBit 3 || u.j ≤ 1024) && (out != fmtFP4 || u.n % 32 = 0))
  !reserved && items && streams && forms && attachedOk

/-- The auxiliary block has no reserved bit set and aligned addresses (R334). -/
def auxForm (aux : BitVec 1024) : Bool :=
  let a (off size : Nat) : Nat := rawField aux off size
  a 101 3 = 0 && a 112 8 = 0 && a 120 8 = 0

/-- The addresses of the auxiliary block are aligned (R334). -/
def auxAligned (aux : BitVec 1024) : Bool :=
  let a (off size : Nat) : Nat := rawField aux off size
  [0, 8, 16, 24, 32, 48, 80, 104].all (fun o => a o 8 % 64 = 0) && a 40 8 % 32 = 0

/-- The chain of an index: 0x0921 when none is registered, 0x0312 when its store word is bad (R626). -/
def Context.chainOf (c : Context) (index : Nat) : Except Code (BitVec 1024) :=
  if c.badChains.contains index then .error 0x0312
  else match c.chains.find? (fun k => k.1 = index) with
    | some k => .ok k.2
    | none => .error 0x0921

/-- The table image that a chain's table stage uses (R331). -/
def Context.tableOf (c : Context) (chain : BitVec 1024) : Except Code (List Byte) :=
  if !(rawField chain 0 2).testBit 2 then .ok []
  else
    let slot := rawField chain 5 1 % 8
    if c.badTables.contains slot then .error 0x0312
    else match c.tables.find? (fun k => k.1 = slot) with
      | some k => .ok k.2
      | none => .error 0x0923

/-- Read the auxiliary block of an address; 0 gives an empty one (R333, R334). -/
def Device.auxOf (d : Device) (a : Access) (addr : Nat) : Res (BitVec 1024) :=
  if addr = 0 then (d, .ok 0)
  else bindD (d.readCa a addr 128) (fun d bs => (d, .ok (BitVec.ofNat 1024 (leNat bs))))

/-- Strict permutation (R308): no active lane of any vector has an index at or beyond its present length. -/
def Device.strictPerm (d : Device) (a : Access) (chain aux : BitVec 1024) (vlen cols : Nat) : Res Unit :=
  if !((rawField chain 0 2).testBit 4 && rawField chain 6 1 % 2 = 1) then (d, .ok ())
  else
    let last := cols - vlen * (ceilDiv cols vlen - 1)
    let lens := if vlen < cols then [vlen, last] else [last]
    bindD (d.readCa a (rawField aux 8 8) (2 * vlen)) (fun d bs =>
      if lens.all (fun n => (List.range n).all (fun i => bytesField bs (2 * i) 2 < n)) then (d, .ok ())
      else (d, .error 0x0920))

/-! ## SEAM_CTL (R302, R303, R326 to R330) -/

/-- A table image's header meets R303. -/
def tableImageOk (t : List Byte) : Bool :=
  let mode := bytesField t 0 1
  let shift := signedOf 16 (bytesField t 4 2)
  let xlo := laneNum (tableLane t 8)
  let zeros (off n : Nat) : Bool := (List.range n).all (fun i => bytesField t (off + i) 1 = 0)
  mode ≤ 1 && bytesField t 1 1 ≤ 2 && bytesField t 2 1 ≤ 2 && zeros 3 1 && zeros 6 2 && zeros 12 4 && zeros 48 80
    && (if mode = 0 then bytesField t 1 1 = 0 && bytesField t 2 1 = 0 && -126 ≤ shift && shift ≤ 100
          && (match xlo with
              | .fin _ m e => m = 0 || shift ≤ e || m % 2 ^ (shift - e).toNat = 0
              | _ => false)
        else -126 ≤ shift && shift ≤ 112 && zeros 8 4)

/-- The checks of a SEAM_CTL (R330). -/
def Device.seamCtlCheck (d : Device) (a : Access) (x : Desc) : Res Unit :=
  let index := x.f 33 1
  let src := x.f 40 8
  if x.f 34 6 != 0 || !((List.range 80).all (fun i => x.f (48 + i) 1 = 0)) then (d, .error 0x0906)
  else match x.op? with
    | some .chainReg => if index = 0 || 64 < index || src % 128 != 0 then (d, .error 0x0922) else (d, .ok ())
    | some .tableLoad =>
      if 7 < index || src % 64 != 0 then (d, .error 0x0922)
      else if src = 0 then (d, .ok ())
      else bindD (d.readCa { a with cls := .slate } src 6272) (fun d t => if tableImageOk t then (d, .ok ()) else (d, .error 0x0924))
    | _ => (d, .error 0x0906)

/-- CHAIN_REG takes effect (R326 to R328). -/
def Device.chainReg (d : Device) (a : Access) (x : Desc) : Res Unit :=
  let index := x.f 33 1
  let drop (c : Context) : Context := { c with chains := c.chains.filter (fun k => k.1 != index),
                                               badChains := c.badChains.filter (fun k => k != index) }
  if x.f 40 8 = 0 then (d.updCtx a.ctx (fun c => let c := drop c
      { c with measure := extendMeasure c.measure 0x11 index (List.replicate 64 0) }), .ok ())
  else bindD (d.readCa { a with cls := .slate } (x.f 40 8) 128) (fun d bs =>
    (d.updCtx a.ctx (fun c => let c := drop c
      { c with chains := c.chains ++ [(index, BitVec.ofNat 1024 (leNat bs))],
               measure := extendMeasure c.measure 0x11 index bs }), .ok ()))

/-- TABLE_LOAD takes effect (R302, R328). -/
def Device.tableLoad (d : Device) (a : Access) (x : Desc) : Res Unit :=
  let slot := x.f 33 1
  let drop (c : Context) : Context := { c with tables := c.tables.filter (fun k => k.1 != slot),
                                               badTables := c.badTables.filter (fun k => k != slot) }
  if x.f 40 8 = 0 then (d.updCtx a.ctx (fun c => let c := drop c
      { c with measure := extendMeasure c.measure 0x12 slot (List.replicate 64 0) }), .ok ())
  else bindD (d.readCa { a with cls := .slate } (x.f 40 8) 6272) (fun d bs =>
    (d.updCtx a.ctx (fun c => let c := drop c
      { c with tables := c.tables ++ [(slot, bs)], measure := extendMeasure c.measure 0x12 slot bs }), .ok ()))

end Sys2Proof.Machine
end

