-- ==== Sys2Proof/Machine/Array.lean ====
section
/-! DEFINITION. The matrix product (03_matrix_arrays.md): shapes, the loop order, tiles and streamed vectors, the
accumulator bank, the output stage and the checks of a MATMUL descriptor. -/

namespace Sys2Proof.Machine

/-! ## Fields and shape (R136, R137) -/

/-- DATAFLOW: input-stationary. -/
def Desc.isIs (x : Desc) : Bool := x.bit 100 4 0
/-- X_T. -/
def Desc.xT (x : Desc) : Bool := x.bit 100 4 1
/-- W_T. -/
def Desc.wT (x : Desc) : Bool := x.bit 100 4 2
/-- CPLX_FORM: the three-pass form. -/
def Desc.threePass (x : Desc) : Bool := x.bit 100 4 3
/-- Y_DEST. -/
def Desc.yDest (x : Desc) : Nat := x.bits 100 4 5 4
/-- X_SRC. -/
def Desc.xSrc (x : Desc) : Bool := x.bit 100 4 6
/-- X_STASH. -/
def Desc.xStash (x : Desc) : Bool := x.bit 100 4 7
/-- STASH_TAG. -/
def Desc.stashTag (x : Desc) : Nat := x.bits 100 4 31 16
/-- M. -/
def Desc.mM (x : Desc) : Nat := x.f 72 4
/-- N. -/
def Desc.mN (x : Desc) : Nat := x.f 76 4
/-- K. -/
def Desc.mK (x : Desc) : Nat := x.f 80 4
/-- RMODE of a MATMUL. -/
def Desc.mRmode (x : Desc) : Nat := x.bits 99 1 1 0

/-- The loop bounds of a product (R78, R88, R89): J across the stationary width, V streamed vectors. -/
structure MmShape where
  j : Nat
  v : Nat
  ktile : Nat
  blockRows : Nat
  nk : Nat
  nv : Nat
  nj : Nat
  comps : Nat
  fp16 : Bool
  deriving DecidableEq, Repr

/-- The shape of a product with its operands as read (R75, R88, R206). -/
def Desc.shape (x : Desc) : MmShape :=
  let cplx := x.f 96 1 = fmtCBF16
  let ktile := if x.work.x.fmt = fmtFP4 && x.work.w.fmt = fmtFP4 then 2048 else 1024
  let j := if x.isIs then x.mM else x.mN
  let v := if x.isIs then x.mN else x.mM
  let br := if x.f 104 2 = 0 then (if cplx then 512 else 1024) else x.f 104 2
  { j := j, v := v, ktile := ktile, blockRows := br, nk := ceilDiv x.mK ktile, nv := ceilDiv v br, nj := ceilDiv j 1024,
    comps := if cplx then (if x.threePass then 3 else 4) else if x.work.x.fmt = fmtFP16 then 2 else 1,
    fp16 := x.work.x.fmt = fmtFP16 }

/-- The J-tile of a pass. -/
def MmShape.jt (s : MmShape) (pass : Nat) : Nat := pass / s.nv
/-- The row block of a pass. -/
def MmShape.vb (s : MmShape) (pass : Nat) : Nat := pass % s.nv
/-- The passes of a product (R89). -/
def MmShape.passes (s : MmShape) : Nat := s.nj * s.nv
/-- The rows of a pass. -/
def MmShape.rows (s : MmShape) (pass : Nat) : Nat := min s.blockRows (s.v - s.vb pass * s.blockRows)
/-- The width of a pass's J-tile. -/
def MmShape.width (s : MmShape) (pass : Nat) : Nat := min 1024 (s.j - 1024 * s.jt pass)
/-- The entry cycles of a pass (R89). -/
def MmShape.entries (s : MmShape) (pass : Nat) : Nat := s.nk * s.comps * s.rows pass

/-- K-tile, component and vector of an entry of a pass (R89). -/
def MmShape.entryAt (s : MmShape) (pass e : Nat) : Nat × Nat × Nat :=
  let r := s.rows pass
  if s.fp16 then (e / (2 * r), e % 2, e % (2 * r) / 2) else (e / (s.comps * r), e / r % s.comps, e % r)

/-- The vectors whose last entry lies before entry `e` of a pass. -/
def MmShape.complete (s : MmShape) (pass e : Nat) : Nat :=
  let r := s.rows pass
  if s.fp16 then (e - (s.nk - 1) * 2 * r) / 2 else e - (s.nk * s.comps - 1) * r

/-! ## Operand runs -/

/-- The access of a descriptor for a hint and class code. -/
def Desc.access (x : Desc) (ctx : Code) (ring : RingId) (hint cls : Nat) : Access :=
  { ctx := ctx, ring := ring, seq := x.seq, views := x.views, epoch := x.keyEpoch, hint := hintOf hint,
    cls := classOf cls }

/-- Where a product runs: its context's panel and ring, its descriptor, the tag of the recompute descriptor that it is,
and the buffer that takes Y then (R243). -/
structure MmSite where
  panel : PanelId
  ref : DescRef
  seed : BitVec 64
  inner : Option Nat := none
  redirect : Option Nat := none
  deriving DecidableEq, Repr

/-- The context of a site. -/
def MmSite.ctx (s : MmSite) : Code := s.ref.ctx
/-- The ring of a site. -/
def MmSite.ring (s : MmSite) : RingId := s.ref.ring

/-- The site of a descriptor's own product. -/
def Context.site (c : Context) (ring : RingId) (x : Desc) : MmSite := { panel := c.panel, ref := ⟨c.id, ring, x.seq⟩, seed := c.seed }

/-- The planes of component `c` of a CBF16 product: X plane, W plane (R104). -/
def cplxPlanes (three : Bool) (c : Nat) : Nat × Nat :=
  if three then (if c = 0 then (2, 0) else if c = 1 then (0, 1) else (1, 2))
  else (if c = 0 then (0, 0) else if c = 1 then (1, 1) else if c = 2 then (0, 1) else (1, 0))

/-- How component `c` of a CBF16 product enters Re and Im: 0 not at all, 1 added, −1 subtracted (R104). -/
def cplxSigns (three : Bool) (c : Nat) : Int × Int :=
  if three then (if c = 0 then (1, 1) else if c = 1 then (0, 1) else (-1, 0))
  else (if c = 0 then (1, 0) else if c = 1 then (-1, 0) else (0, 1))

/-- The product is complex. -/
def Desc.cplx (x : Desc) : Bool := x.f 96 1 = fmtCBF16

/-- The base of X's plane for a component, and its block scales. -/
def Desc.xBase (x : Desc) (comp : Nat) : Nat := x.f 32 8 + (if x.cplx then (cplxPlanes x.threePass comp).1 * x.f 56 8 else 0)
/-- The base of W's plane for a component. -/
def Desc.wBase (x : Desc) (comp : Nat) : Nat := x.f 40 8 + (if x.cplx then (cplxPlanes x.threePass comp).2 * x.f 64 8 else 0)

/-- A run of X along k (`byK`) for row `i`, or along rows for a fixed k: elements (i + t, k0) or (i, k0 + t), as stored.
`last` lists the units whose last read this may be (R353). -/
def Device.xRun (d : Device) (x : Desc) (s : MmSite) (comp i k0 n : Nat) (byK : Bool) (last : List Nat) : Res (List Stored) :=
  let a := { x.access s.ctx s.ring (x.bits 106 1 1 0) (x.bits 107 1 1 0) with last := last }
  if x.xSrc then
    d.readStashStored a x.stashTag ((List.range n).map (fun t =>
      let (r, k) := if byK then (i, k0 + t) else (i + t, k0)
      if x.xT then (k, r) else (r, k)))
  else
    let ld := x.f 84 4
    let el := if x.xT then k0 * ld + i else i * ld + k0
    let sBase := if x.xT then x.f 56 8 + k0 / 32 * x.mM + i else x.f 56 8 + i * (x.mK / 32) + k0 / 32
    d.readStored a x.work.x (x.xBase comp) el n sBase (fun t => if x.xT then t else t / 32) true

/-- A run of W along k for column `j`, or along columns for a fixed k, as stored. -/
def Device.wRun (d : Device) (x : Desc) (s : MmSite) (comp j k0 n : Nat) (last : List Nat) : Res (List Stored) :=
  let a := { x.access s.ctx s.ring (x.bits 106 1 3 2) (x.bits 107 1 1 0) with last := last }
  let ld := x.f 88 4
  let el := if x.wT then j * ld + k0 else k0 * ld + j
  let sBase := if x.wT then x.f 64 8 + j * (x.mK / 32) + k0 / 32 else x.f 64 8 + k0 / 32 * x.mN + j
  d.readStored a x.work.w (x.wBase comp) el n sBase (fun t => if x.wT then t / 32 else t) true

/-! ## Last uses (R138, R353) -/

/-- The elements of a stored matrix that lie in a 256-byte unit: rows and columns as stored. -/
def unitElems (base ld rows cols bits u : Nat) : List (Nat × Nat) :=
  let lo := (256 * u - base) * 8 / bits
  let hi := ceilDiv ((256 * u + 256 - base) * 8) bits
  (List.range (hi - lo)).filterMap (fun i =>
    let r := (lo + i) / ld
    let c := (lo + i) % ld
    if r < rows && c < cols then some (r, c) else none)

/-- The latest of the moments at which elements are read for the last time. -/
def latest (els : List (Nat × Nat)) (at_ : Nat × Nat → Nat) : Nat := els.foldl (fun m e => max m (at_ e)) 0

/-- Entry `e` of a pass, as a moment in the order of R89. -/
def moment (pass e : Nat) : Nat := 2 ^ 48 * pass + e

/-- The components of a product that read plane `p` of an operand; the last of them. -/
def Desc.lastComp (x : Desc) (sh : MmShape) (p : Nat) (ofX : Bool) : Nat :=
  if !x.cplx then 0
  else ((List.range sh.comps).filter (fun c => (if ofX then (cplxPlanes x.threePass c).1 else (cplxPlanes x.threePass c).2) = p)).foldl max 0

/-- The entry of a pass at which vector `r` of its block meets K-tile `kt` of component `comp` for the last time. -/
def MmShape.entryOf (sh : MmShape) (pass kt comp r : Nat) : Nat :=
  let n := sh.rows pass
  if sh.fp16 then 2 * n * kt + 2 * r + 1 else sh.comps * n * kt + n * comp + r

/-- The moment at which the streamed operand's element of vector `v` at `k` is read for the last time. -/
def Desc.streamLast (x : Desc) (sh : MmShape) (p : Nat) (v k : Nat) : Nat :=
  let pass := (sh.nj - 1) * sh.nv + v / sh.blockRows
  moment pass (sh.entryOf pass (k / sh.ktile) (x.lastComp sh p (!x.isIs)) (v % sh.blockRows))

/-- A product loads one tile for each J-tile, which stays through its row blocks. -/
def MmShape.oneTile (sh : MmShape) : Bool := sh.nk * (if sh.fp16 then 1 else sh.comps) = 1

/-- The first entry of a pass that uses K-tile `kt` of component `comp`. -/
def MmShape.tileEntry (sh : MmShape) (pass kt comp : Nat) : Nat :=
  let n := sh.rows pass
  if sh.fp16 then 2 * n * kt else sh.comps * n * kt + n * comp

/-- The moment for which the tile with the stationary operand's element of position `j` at `k` is loaded last. -/
def Desc.restLast (x : Desc) (sh : MmShape) (p : Nat) (j k : Nat) : Nat :=
  let pass := j / 1024 * sh.nv + (if sh.oneTile then 0 else sh.nv - 1)
  moment pass (sh.tileEntry pass (k / sh.ktile) (x.lastComp sh p x.isIs))

/-- The moment at which a descriptor reads a unit of an operand or of its block scales for the last time: `rest` picks
the stationary operand, `comp` its plane. -/
def Desc.unitLast (x : Desc) (sh : MmShape) (rest : Bool) (comp u : Nat) : Nat :=
  let ofX := rest = x.isIs
  let fmt := if ofX then x.work.x.fmt else x.work.w.fmt
  let plane := if !x.cplx then 0 else if ofX then (cplxPlanes x.threePass comp).1 else (cplxPlanes x.threePass comp).2
  let lastAt (pk : Nat × Nat) : Nat := if rest then x.restLast sh plane pk.1 pk.2 else x.streamLast sh plane pk.1 pk.2
  -- X lies untransposed as rows by k, W as k by columns
  let along := if ofX then !x.xT else x.wT
  let n := if ofX then x.mM else x.mN
  let at_ (rc : Nat × Nat) : Nat := lastAt (if along then rc else (rc.2, rc.1))
  let els := unitElems (if ofX then x.xBase comp else x.wBase comp) (if ofX then x.f 84 4 else x.f 88 4) (if along then n else x.mK)
    (if along then x.mK else n) (if fmt = fmtFP4 then 4 else 8 * elemBytes fmt) u
  let scales := if fmt != fmtFP4 then 0
    else latest (unitElems (if ofX then x.f 56 8 else x.f 64 8) (if along then x.mK / 32 else n) (if along then n else x.mK / 32)
      (if along then x.mK / 32 else n) 8 u) (fun rc => lastAt (if along then (rc.1, 32 * rc.2) else (rc.2, 32 * rc.1)))
  max (latest els at_) scales

/-- The operand reads under discard-after-last-use. -/
def Desc.discards (x : Desc) (rest : Bool) : Bool :=
  if rest = x.isIs then x.bits 106 1 1 0 = 2 && !x.xSrc else x.bits 106 1 3 2 = 2

/-- The units of a range of stored elements, and of their block scales, that are read at a moment for the last time. -/
def Desc.lastUnits (x : Desc) (sh : MmShape) (rest : Bool) (comp now : Nat) (ranges : List (Nat × Nat)) : List Nat :=
  if !x.discards rest then []
  else ((ranges.flatMap (fun r => unitsOf r.1 r.2)).eraseDups).filter (fun u => x.unitLast sh rest comp u = now)

/-- The byte range of an operand run of `n` elements from element `el`. -/
def runRange (fmt base el n : Nat) : Nat × Nat :=
  if fmt = fmtFP4 then (base + el / 2, (el + n + 1) / 2 - el / 2) else (base + el * elemBytes fmt, n * elemBytes fmt)

/-- The bytes that position `i` of an operand (a row of X, a column of W) holds at `n` values of k from `k0`: one run where
it lies along k, else one element of each stored row; with the bytes of its block scales. -/
def Desc.rangesOf (x : Desc) (ofX : Bool) (comp i k0 n : Nat) : List (Nat × Nat) :=
  let fmt := if ofX then x.work.x.fmt else x.work.w.fmt
  let along := if ofX then !x.xT else x.wT
  let base := if ofX then x.xBase comp else x.wBase comp
  let ld := if ofX then x.f 84 4 else x.f 88 4
  let scale := if ofX then x.f 56 8 else x.f 64 8
  let w := if ofX then x.mM else x.mN
  (if along then [runRange fmt base (i * ld + k0) n] else (List.range n).map (fun t => runRange fmt base ((k0 + t) * ld + i) 1))
    ++ (if fmt != fmtFP4 then [] else if along then [(scale + i * (x.mK / 32) + k0 / 32, ceilDiv n 32)]
        else (List.range (ceilDiv n 32)).map (fun t => (scale + (k0 / 32 + t) * w + i, 1)))

/-! ## Tiles and planes (R73, R78, R81 to R87, R128) -/

/-- The width of a J-tile. -/
def MmShape.widthOf (s : MmShape) (jt : Nat) : Nat := min 1024 (s.j - 1024 * jt)

/-- The values of k in a K-tile. -/
def Desc.depth (x : Desc) (sh : MmShape) (kt : Nat) : Nat := min sh.ktile (x.mK - kt * sh.ktile)

/-- The tile that an entry of a pass meets. -/
def Desc.tileAt (x : Desc) (s : MmSite) (sh : MmShape) (pass e : Nat) : TileRef :=
  let (kt, comp, _) := sh.entryAt pass e
  { ref := s.ref, inner := s.inner, jt := sh.jt pass, kt := kt, comp := if sh.fp16 then 0 else comp,
    fmt := if x.isIs then x.work.x.fmt else x.work.w.fmt }

/-- The tile that a product needs next after the one that an entry meets, and the pass for which it is loaded. -/
def Desc.tileAfter (x : Desc) (s : MmSite) (sh : MmShape) (pass e : Nat) : Option (TileRef × Nat) :=
  let step := (if sh.fp16 then 2 else 1) * sh.rows pass
  let e' := (e / step + 1) * step
  if e' < sh.entries pass then some (x.tileAt s sh pass e', pass)
  else
    let p := if sh.oneTile then (sh.jt pass + 1) * sh.nv else pass + 1
    if p < sh.passes then some (x.tileAt s sh p 0, p) else none

/-- Rows of equal length turned into columns. -/
def transposed (n : Nat) (rows : List (List Stored)) : List (List Stored) :=
  (List.range n).map (fun i => rows.map (fun r => (r[i]?).getD (0, 127)))

/-- Read a stationary tile for a pass, as stored: for each column of the tile its elements along k. The column path reads
runs along k, the row path runs along j, as the layout says (R78, R81, R82). -/
def Device.tileRead (d : Device) (x : Desc) (s : MmSite) (sh : MmShape) (t : TileRef) (pass : Nat) : Res (List (List Stored)) :=
  let k0 := t.kt * sh.ktile
  let kn := x.depth sh t.kt
  let j0 := 1024 * t.jt
  let jn := sh.widthOf t.jt
  let last := x.lastUnits sh true t.comp (moment pass (sh.tileEntry pass t.kt t.comp))
    ((List.range jn).flatMap (fun i => x.rangesOf x.isIs t.comp (j0 + i) k0 kn))
  let columnPath (f : Device → Nat → Res (List Stored)) : Res (List (List Stored)) :=
    foldD (List.range jn) d [] (fun d out i => bindD (f d (j0 + i)) (fun d c => (d, .ok (out ++ [c]))))
  let rowPath (f : Device → Nat → Res (List Stored)) : Res (List (List Stored)) :=
    bindD (foldD (List.range kn) d [] (fun d out i => bindD (f d (k0 + i)) (fun d c => (d, .ok (out ++ [c])))))
      (fun d rows => (d, .ok (transposed jn rows)))
  if x.isIs then
    if !x.xT then columnPath (fun d m => d.xRun x s t.comp m k0 kn true last)
    else rowPath (fun d k => d.xRun x s t.comp j0 k jn false last)
  else if x.wT then columnPath (fun d n => d.wRun x s t.comp n k0 kn last)
  else rowPath (fun d k => d.wRun x s t.comp j0 k jn last)

/-- The registers of a column of cells (R86, R87): each holds its element's code in its low bits (assumption log 140); an
FP4MX register holds rows k and k + 1,024. -/
def cellsOf (fp4 : Bool) (col : List Stored) : List (BitVec 16) :=
  let code (k : Nat) : Nat := ((col[k]?).map (fun q => q.1)).getD 0
  if fp4 then (List.range (min 1024 col.length)).map (fun k => BitVec.ofNat 16 (code k % 16 + 16 * (code (k + 1024) % 16)))
  else col.map (fun q => BitVec.ofNat 16 q.1)

/-- The scale plane's part of a column: one scale for each 32 consecutive k (R86). -/
def scalesOf (col : List Stored) : List (BitVec 8) :=
  (List.range (ceilDiv col.length 32)).map (fun b => BitVec.ofNat 8 (((col[32 * b]?).map (fun q => q.2)).getD 0))

/-- The `n` values along k that a column of a plane holds, read in a format. -/
def Plane.column (p : Plane) (o : OperandFmt) (n j : Nat) : List Num :=
  let cells := (p.cells[j]?).getD []
  let scales := (p.scales[j]?).getD []
  (List.range n).map (fun k =>
    let c := ((cells[if o.fmt = fmtFP4 then k % 1024 else k]?).getD 0).toNat
    o.value (if o.fmt = fmtFP4 then (if k < 1024 then c % 16 else c / 16 % 16, ((scales[k / 32]?).getD 0).toNat) else (c, 127)))

/-- The weight ω[j] of a column (R128). -/
def checkWeight (j : Nat) : Dy := ⟨((1 + j % 16 : Nat) : Int), 0⟩

/-- The exact sum of finite numbers. -/
def dySum (l : List Dy) : Dy := l.foldl Dy.add ⟨0, 0⟩

/-- The magnitude. -/
def Dy.abs (x : Dy) : Dy := ⟨x.m.natAbs, x.e⟩

/-- The checksum cells of a tile from its columns' values: c[k] and a[k] for every row along k (R128). The finite part of
a special value is 0 (R165). -/
def checkSums (n : Nat) (cols : List (List Num)) : List (Dy × Dy) :=
  (List.range n).map (fun k =>
    let row := cols.zipIdx.map (fun p => (checkWeight p.2).mul ((p.1[k]?).elim ⟨0, 0⟩ Num.dy))
    (dySum row, dySum (row.map Dy.abs)))

/-- A tile enters the shadow plane (R81, R86, R128). The checksum cells hold the elements' sums before a tensor scale, which
the operand's scale then multiplies (assumption log 141). -/
def Plane.load (p : Plane) (o : OperandFmt) (cols : List (List Stored)) : Plane :=
  let q := { p with cells := cols.map (cellsOf (o.fmt = fmtFP4)), scales := if o.fmt = fmtFP4 then cols.map scalesOf else p.scales }
  { q with sums := checkSums ((cols.head?.map List.length).getD 0) (cols.map (fun c => c.map (OperandFmt.value { o with sigma := 0 }))) }

/-- The stationary operand of a product, as read. -/
def Desc.restFmt (x : Desc) : OperandFmt := if x.isIs then x.work.x else x.work.w

/-- The shadow plane takes its tile (R83). -/
def Device.fillShadow (d : Device) (p : PanelId) (o : OperandFmt) (cols : List (List Stored)) : Device :=
  d.updPanel p (fun q => { q with array := { q.array with shadow := q.array.shadow.load o cols, shadowReady := true } })

/-- A load of a tile into the shadow plane begins (R84); the registers keep what they hold until it ends. -/
def Device.startShadow (d : Device) (p : PanelId) (t : Option (TileRef × Nat)) : Device :=
  d.updPanel p (fun q => { q with array := { q.array with
    shadow := { q.array.shadow with tile := t.map (fun x => x.1), pass := (t.map (fun x => x.2)).getD 0 }, shadowReady := false } })

/-- The planes exchange roles (R83), and the load of the tile after begins (R84). -/
def Device.exchange (d : Device) (p : PanelId) (next : Option (TileRef × Nat)) : Device :=
  (d.updPanel p (fun q => { q with array := { q.array with active := q.array.shadow, shadow := q.array.active } })).startShadow p next

/-- The tile that an entry meets comes into the active plane: it rests there, or lies ready in the shadow plane, or is
loaded first while the entry waits (R83). -/
def Device.activate (d : Device) (x : Desc) (s : MmSite) (sh : MmShape) (pass e : Nat) : Res Unit :=
  let t := x.tileAt s sh pass e
  let next := x.tileAfter s sh pass e
  let a := (d.panel s.panel).array
  if a.active.tile = some t then (d, .ok ())
  else if a.shadow.tile = some t && a.shadowReady then (d.exchange s.panel next, .ok ())
  else bindD ((d.startShadow s.panel (some (t, pass))).tileRead x s sh t pass) (fun d cols =>
    ((d.fillShadow s.panel x.restFmt cols).exchange s.panel next, .ok ()))

/-- A streamed vector's segment within a K-tile, as stored (R77, R79). -/
def Device.vector (d : Device) (x : Desc) (s : MmSite) (sh : MmShape) (kt comp v : Nat) (last : List Nat) : Res (List Stored) :=
  if x.isIs then d.wRun x s comp v (kt * sh.ktile) (x.depth sh kt) last else d.xRun x s comp v (kt * sh.ktile) (x.depth sh kt) true last

/-- The streamed operand of a product, as read. -/
def Desc.streamFmt (x : Desc) : OperandFmt := if x.isIs then x.work.w else x.work.x

/-! ## The accumulator bank (R108, R109, R114) -/

/-- The pair is a fixed pair (R155). -/
def Desc.fixedPair (x : Desc) : Bool := x.work.x.isFixed && x.work.w.isFixed

/-- G_min (R156). -/
def Desc.gmin (x : Desc) : Int := x.work.x.grid + x.work.w.grid

/-- The bank row of a vector of a block, empty before its first contribution. -/
def rowOf (rows : List AccRow) (r : Nat) : AccRow := (rows.find? (fun q => q.row = r)).getD { row := r }

/-- Set a bank row. -/
def putRow (rows : List AccRow) (q : AccRow) : List AccRow := q :: rows.filter (fun p => p.row != q.row)

/-- The set that CUR names, or the other one. -/
def AccRow.words (q : AccRow) (sel : Bool) : List AccWord := if sel then q.set1 else q.set0

/-- A column result reaches the bank (R114); `f` adds it to the base words. -/
def AccRow.contribute (q : AccRow) (first : Bool) (zero : List AccWord) (f : List AccWord → List AccWord) : AccRow :=
  let base := if first then zero else if q.touched then q.words (!q.cur) else q.words q.cur
  let new := f base
  if q.cur then { q with set0 := new, touched := true } else { q with set1 := new, touched := true }

/-- The commit of a tack in the bank (R114). -/
def commitRows (rows : List AccRow) : List AccRow :=
  rows.map (fun q => if q.touched then { q with cur := !q.cur, touched := false } else q)

/-- The discard of a tack in the bank (R114). -/
def discardRows (rows : List AccRow) : List AccRow := rows.map (fun q => { q with touched := false })

/-- The committed words of a row. -/
def AccRow.committed (q : AccRow) : List AccWord := q.words q.cur

/-- The words that a row will have when the running tack commits. -/
def AccRow.coming (q : AccRow) : List AccWord := if q.touched then q.words (!q.cur) else q.words q.cur

/-- The slot of the bank that holds a pass. -/
def ArrayState.slotOf (a : ArrayState) (p : PassRef) : Option (Fin 2) :=
  if a.slots[0].pass = some p then some 0 else if a.slots[1].pass = some p then some 1 else none

/-- The rows of a pass in the bank. -/
def ArrayState.rowsOf (a : ArrayState) (p : PassRef) : List AccRow := ((a.slotOf p).map (fun k => a.slots[k].rows)).getD []

/-- Change the rows of a pass in the bank. -/
def ArrayState.updRows (a : ArrayState) (p : PassRef) (f : List AccRow → List AccRow) : ArrayState :=
  { a with slots := a.slots.map (fun b => if b.pass = some p then { b with rows := f b.rows } else b) }

/-- A pass leaves the bank. -/
def ArrayState.clearSlot (a : ArrayState) (p : PassRef) : ArrayState :=
  { a with slots := a.slots.map (fun b => if b.pass = some p then {} else b) }

/-- A pass of the product of a site. -/
def MmSite.pass (s : MmSite) (n : Nat) : PassRef := ⟨s.ref, s.inner, n⟩

/-- The column results of one entry (R77, R157, R160, R161). -/
def Desc.results (x : Desc) (comp : Nat) (tile : List (List Num)) (v : List Num) : List AccWord :=
  let fp16 := x.work.x.fmt = fmtFP16
  tile.map (fun col => columnResult x.fixedPair x.gmin
    (if fp16 then (v.zip col).flatMap (fp16Products comp) else (v.zip col).map (fun p => p.1.mul p.2)))

/-- Add the column results of one entry to the words of a row (R104, R167, R168). -/
def Desc.addEntry (x : Desc) (comp : Nat) (us words : List AccWord) : List AccWord :=
  let add (p : AccWord × AccWord) : AccWord := accAdd x.fixedPair x.gmin p.1 p.2
  if x.cplx then
    let (re, im) := cplxSigns x.threePass comp
    let put (sgn : Int) (ws : List AccWord) : List AccWord :=
      if sgn = 0 then ws else (ws.zip us).map (fun p => add (p.1, if sgn < 0 then p.2.negate else p.2))
    put re (words.take us.length) ++ put im (words.drop us.length)
  else (words.zip us).map add

/-! ## The checksum column (R128 to R133, R165) -/

/-- The finite part of a column result. -/
def AccWord.finitePart (u : AccWord) : Dy := if u.cls = .finite then ⟨u.m, u.e⟩ else ⟨0, 0⟩

/-- What the checksum column and the bank form for a streamed vector: s and g from the checksum cells, r from the column
results `us`, and for FP16 also from those of its first component, `before` (R129, R131). A column of a class other than
FINITE counts for nothing in r and s (R165). -/
def Desc.vectorCheck (x : Desc) (sums : List (Dy × Dy)) (tile : List (List Num)) (v : List Num) (us before : List AccWord) : VectorCheck :=
  let o := x.restFmt
  let sh : Int := if o.fmt = fmtFP4 then 0 else o.sigma
  let live (j : Nat) : Bool := ((us[j]?).elim true (fun u => u.cls = .finite)) && ((before[j]?).elim true (fun u => u.cls = .finite))
  let scaled (y : Dy) : Dy := ⟨y.m, y.e + sh⟩
  let whole := dySum ((v.zip sums).map (fun p => p.1.dy.mul (scaled p.2.1)))
  let out := dySum (tile.zipIdx.map (fun c => if live c.2 then ⟨0, 0⟩
    else (checkWeight c.2).mul (dySum ((v.zip c.1).map (fun p => p.1.dy.mul p.2.dy)))))
  let rOf (l : List AccWord) : Dy := dySum (l.zipIdx.map (fun p => if live p.2 then (checkWeight p.2).mul p.1.finitePart else ⟨0, 0⟩))
  { s := whole.add ⟨-out.m, out.e⟩, g := dySum ((v.zip sums).map (fun p => p.1.dy.abs.mul (scaled p.2.2))),
    r := (rOf us).add (rOf before), exact_ := x.fixedPair, least := x.gmin, grids := us.map (fun u => u.e) }

/-- A vector passes with `r − s` as its difference (R130, R131): none for a fixed pair, else no more than
2^-12 × g + 2,048 × the least accumulator increment. -/
def VectorCheck.passes (c : VectorCheck) (diff : Dy) : Bool :=
  if c.exact_ then diff.m = 0 else !((⟨c.g.m, c.g.e - 12⟩ : Dy).add ⟨2048, c.least⟩).lt diff.abs

/-- The difference r − s of the vector as it entered. -/
def VectorCheck.own (c : VectorCheck) : Dy := c.r.add ⟨-c.s.m, c.s.e⟩

/-! ## The entries of a tack (R77, R89, R110, R114) -/

/-- The elements of a run that the stash captures (R226): offset in the block layout and stored bytes. -/
def Desc.captured (x : Desc) (i k0 : Nat) (run : List Stored) : List (Nat × List Byte) :=
  let es := elemBytes x.work.x.fmt
  run.zipIdx.map (fun p => (blockOffset x.mK es i (k0 + p.2), leBytes es p.1.1))

/-- What the entries of a tack have made so far: the rows of its pass, the captures, the checks, the units read for the
last time, the values of the tile at hand, and for FP16 the vector and the results of its first component. -/
structure EntryState where
  rows : List AccRow
  captures : List (Nat × List Byte) := []
  checks : List (Option VectorCheck) := []
  last : List Nat := []
  tile : List (List Num) := []
  at_ : Option TileRef := none
  run : List Stored := []
  before : List AccWord := []

/-- One entry cycle: its tile comes into the active plane, its vector streams against it, the checksum column forms its
sums, and the column results reach the bank (R77, R89, R114, R129). -/
def Device.entry (d : Device) (x : Desc) (s : MmSite) (sh : MmShape) (pass : Nat) (st : EntryState) (e : Nat) : Res EntryState :=
  let (kt, comp, r) := sh.entryAt pass e
  let t := x.tileAt s sh pass e
  let v := sh.vb pass * sh.blockRows + r
  let n := x.depth sh kt
  let second := sh.fp16 && comp = 1 && st.at_ = some t && !st.run.isEmpty
  bindD (d.activate x s sh pass e) (fun d _ =>
  let plane := (d.panel s.panel).array.active
  let tile := if st.at_ = some t then st.tile else (List.range (sh.width pass)).map (plane.column x.restFmt n)
  let tileUnits := if r = 0 && comp = t.comp then
      x.lastUnits sh true t.comp (moment pass e) ((List.range (sh.width pass)).flatMap (fun i => x.rangesOf x.isIs t.comp (1024 * t.jt + i) (kt * sh.ktile) n))
    else []
  let units := x.lastUnits sh false comp (moment pass e) (x.rangesOf (!x.isIs) comp v (kt * sh.ktile) n)
  bindD (if second then (d, .ok st.run) else d.vector x s sh kt comp v units) (fun d run =>
    let vec := run.map x.streamFmt.value
    let us := x.results comp tile vec
    let zero := List.replicate ((if x.cplx then 2 else 1) * sh.width pass) (⟨.finite, 0, x.gmin⟩ : AccWord)
    let q := (rowOf st.rows r).contribute (kt = 0 && comp = 0) zero (x.addEntry comp us)
    let caps := if !x.xStash || comp != 0 then []
      else if !x.isIs then (if sh.jt pass = 0 then x.captured v (kt * sh.ktile) run else [])
      else if sh.vb pass = 0 && r = 0 then
        (List.range (sh.width pass)).flatMap (fun i => x.captured (1024 * t.jt + i) (kt * sh.ktile)
          (((plane.cells[i]?).getD []).map (fun c => (c.toNat, 127))))
      else []
    let check := if sh.fp16 && comp = 0 then none else some (x.vectorCheck plane.sums tile vec us (if sh.fp16 then st.before else []))
    (d, .ok { rows := putRow st.rows q, captures := st.captures ++ caps, checks := st.checks ++ [check],
              last := st.last ++ tileUnits ++ units, tile := tile, at_ := some t, run := run, before := us })))

/-! ## The output stage (R80, R116, R174) -/

/-- The row and column of Y of position `c` of vector `v` (R78). -/
def Desc.yCoord (x : Desc) (v c : Nat) : Nat × Nat := if x.isIs then (c, v) else (v, c)

/-- The key of an element of Y (R174). -/
def Desc.yKey (x : Desc) (s : MmSite) (row col : Nat) : Key := ⟨s.seed, 0, x.f 120 4, x.f 124 4, row * x.mN + col⟩

/-- A final value rounded to Y_FMT. -/
def Desc.yRound (x : Desc) (s : MmSite) (rc : Nat × Nat) (v : Num) : Nat × Bool :=
  roundTo x.work.y.fmt x.mRmode (x.yKey s rc.1 rc.2) (v.scale (-x.work.y.sigma))

/-- The outputs of a tack so far: writes, ledger maxima and saturations of Y and of the chain's output, the scan state,
PERM_RANGE, and the vectors gathered for whole segments of Y. -/
structure OutState where
  writes : List (Nat × List Byte) := []
  mag : Option Nat := none
  sats : Nat := 0
  scan : SeamScan := {}
  outMag : Option Nat := none
  outSats : Nat := 0
  permRange : Nat := 0
  gather : List (Nat × List Num) := []

/-- The larger of a recorded magnitude and a result's; NaN results are ignored (R198), and a tack all of whose results are
NaN records nothing (assumption log 142). -/
def magOf (m : Option Nat) (v : Num) : Option Nat := if v = .nan then m else some (max (m.getD 0) (bf16Trunc v))

/-- The writes of a run of a row of Y, from column `col`, without a chain. -/
def Desc.yRun (x : Desc) (s : MmSite) (base row col : Nat) (vals : List Num) (o : OutState) : OutState :=
  let es := elemBytes x.work.y.fmt
  let codes := vals.zipIdx.map (fun p => x.yRound s (row, col + p.2) p.1)
  { o with writes := o.writes ++ placeRun s.redirect base (x.f 92 4) x.mN es row col (codes.flatMap (fun c => leBytes es c.1)),
           sats := o.sats + (codes.filter (fun c => c.2)).length }

/-- The bases of Y's planes and each plane's part of a vector's values (R105). -/
def Desc.yPlanes (x : Desc) (w : Nat) (vals : List Num) : List (Nat × List Num) :=
  if x.cplx then [(x.f 48 8, vals.take w), (x.f 48 8 + x.mM * x.f 92 4 * 2, vals.drop w)] else [(x.f 48 8, vals)]

/-- The vectors that make one whole 64-byte segment along a row of Y (R80); 128 for FP4MX, whose elements take half a byte
(assumption log 143). -/
def groupSize (fmt : Nat) : Nat := if fmt = fmtFP4 then 128 else 64 / elemBytes fmt

/-- A vector of an input-stationary product joins the gathered ones. When they complete a segment along the rows of Y, or
the last vector has come, `put row col vals` writes each row's run (R80). A segment that a row block does not complete
waits for the next block's vectors (assumption log 143). -/
def gatherVector (size total rows v : Nat) (vals : List Num) (o : OutState) (put : OutState → Nat → Nat → List Num → OutState) :
    OutState :=
  let held := o.gather ++ [(v, vals)]
  if (v + 1) % size != 0 && v + 1 < total then { o with gather := held }
  else
    let v0 := (held.head?.map (fun g => g.1)).getD v
    (List.range rows).foldl (fun o i => put o i v0 (held.map (fun g => (g.2[i]?).getD (.fin false 0 0)))) { o with gather := [] }

/-- One finished vector of a product without a chain leaves the bank: rounded and written, or only recorded (R116). -/
def Desc.plainOutput (x : Desc) (s : MmSite) (sh : MmShape) (pass v : Nat) (words : List AccWord) (o : OutState) : OutState :=
  let c0 := 1024 * sh.jt pass
  let w := sh.width pass
  let vals := words.map AccWord.num
  let o := { o with mag := vals.foldl magOf o.mag }
  if x.yDest != 0 then
    -- a result that goes nowhere is rounded all the same
    { o with sats := o.sats + (vals.zipIdx.filter (fun p => (x.yRound s (x.yCoord v (c0 + p.2 % w)) p.1).2)).length }
  else if !x.isIs then (x.yPlanes w vals).foldl (fun o p => x.yRun s p.1 v c0 p.2 o) o
  else gatherVector (groupSize x.work.y.fmt) sh.v vals.length v vals o (fun o i v0 run =>
    let base := if i < w then x.f 48 8 else x.f 48 8 + x.mM * x.f 92 4 * 2
    x.yRun s base (c0 + i % w) v0 run o)

/-- One finished vector through the attached chain (R116, R285, R324): the bank rounds to Y_FMT and delivers, what it
delivers is recorded for Y_TID (R317), then the stages follow. -/
def Device.chainOutput (d : Device) (x : Desc) (s : MmSite) (sh : MmShape) (j : SeamJob) (pass v : Nat) (words : List AccWord)
    (o : OutState) : Res OutState :=
  let c0 := 1024 * sh.jt pass
  let codes := words.zipIdx.map (fun p => x.yRound s (x.yCoord v (c0 + p.2)) p.1.num)
  let vals := codes.map (fun c => decodeElem x.work.y.fmt c.1)
  bindD (j.vector d o.scan v (sh.jt pass) (vals.map laneOf)) (fun d r =>
    let (st, lanes, reds, mag, bad) := r
    let nums := lanes.map laneNum
    let o := { o with writes := o.writes ++ reds, scan := st, mag := vals.foldl magOf o.mag,
                      outMag := match mag with
                        | some m => some (max m (o.outMag.getD 0))
                        | none => o.outMag,
                      permRange := o.permRange + bad }
    let put (o : OutState) (row col : Nat) (run : List Num) : OutState :=
      let (ws, sats) := j.packRun row col run
      { o with writes := o.writes ++ ws, outSats := o.outSats + sats }
    if (j.cf 3 1).testBit 3 || x.yDest = 2 then (d, .ok o)
    else if !x.isIs then (d, .ok (put o v c0 nums))
    else (d, .ok (gatherVector (groupSize j.out.fmt) sh.v nums.length v nums o (fun o i v0 run => put o (c0 + i) v0 run))))

/-- Write all of a tack's outputs, or none when one of them would be refused (R117). -/
def Device.writeAll (d : Device) (a : Access) (ws : List (Nat × List Byte)) : Res Unit :=
  match ws.findSome? (fun w => d.writeCheck a w.1 w.2.length) with
  | some e => (if e = 0x0312 then ws.foldl (fun (d : Device) w => d.writeFault a w.1 w.2.length) d else d, .error e)
  | none => foldD ws d () (fun d _ w => d.writeCa a w.1 w.2)

/-- The Gusset entries that a product delivers into: entry and first row, in identifier order (R256). -/
def Context.gussetTargets (c : Context) (x : Desc) : Nat → Nat → Nat → List (GussetEntry × Nat)
  | 0, _, _ => []
  | fuel + 1, id, row =>
    if x.mM ≤ row then []
    else match c.gusset? (BitVec.ofNat 32 id) with
      | none => []
      | some e => (e, row) :: c.gussetTargets x fuel (id + 1) (row + e.rows)

/-- Deliver a committed pass into the Gusset, in row order (R119, R259 to R264). -/
def Device.deliverGusset (d : Device) (x : Desc) (s : MmSite) (sh : MmShape) (pass : Nat) (rows : List AccRow) : Res Unit :=
  match d.ctx? s.ctx with
  | none => (d, .error 0x0511)
  | some c =>
    let a := x.access s.ctx s.ring 0 (x.bits 107 1 3 2)
    let targets := c.gussetTargets x (x.mM + 1) (x.f 120 4) 0
    let c0 := 1024 * sh.jt pass
    let add (row col : Nat) (vals : List Num) : Option (BitVec 32 × Nat × Nat × Nat × List Num) :=
      (targets.find? (fun t => t.2 ≤ row && row < t.2 + t.1.rows)).map (fun t =>
        (t.1.param, row - t.2, col, t.1.contrib + 1, vals))
    let adds := (List.range (sh.rows pass)).flatMap (fun r =>
      let v := sh.vb pass * sh.blockRows + r
      let vals := (rowOf rows r).committed.map AccWord.num
      if x.isIs then vals.zipIdx.map (fun p => add (c0 + p.2) v [p.1]) else [add v c0 vals])
    if adds.any Option.isNone then (d, .error 0x0916)
    else d.gussetAddAll a s.seed x.mRmode (x.f 124 4) (adds.filterMap id)

/-- The chain that hangs on a product, ready to run (R324). A second stream is there when IN2_FMT names one (R334). The
HINTS of a MATMUL name no item of a chain, so what the chain reads is stream-through (assumption log 152). -/
def Device.matmulJob (d : Device) (x : Desc) (s : MmSite) (sh : MmShape) : Res (Option SeamJob) :=
  let cfg := x.f 108 4
  if cfg = 0 then (d, .ok none)
  else match d.ctx? s.ctx with
    | none => (d, .error 0x0511)
    | some c =>
      match c.chainOf cfg with
      | .error e => (d, .error e)
      | .ok chain => match c.tableOf chain with
        | .error e => (d, .error e)
        | .ok table =>
          let a := x.access s.ctx s.ring 0 (x.bits 107 1 1 0)
          bindD (d.auxOf a (rawField chain 48 8)) (fun d aux =>
            let af (o n : Nat) : Nat := rawField aux o n
            let out := chainOutFmt chain { attached := true, yFmt := x.f 98 1 }
            let tag := if af 93 1 % 2 = 1 && af 92 1 != 0 then some (af 94 2) else none
            (d, .ok (some { chain := chain, aux := aux, a := a, redirect := s.redirect, seed := s.seed, step := x.f 124 4,
                            vrows := sh.v, cols := sh.j, vlen := 1024, transposed := x.isIs, nCols := x.mN, outAddr := x.f 48 8,
                            outLd := x.f 92 4, outFmt := out, out := x.work.out, outTid := rawField chain 8 4,
                            in2 := { fmt := af 92 1, o := x.work.in2, addr := af 80 8, ld := af 88 4, scaleAddr := af 72 8, tag := tag },
                            table := table })))

/-- A tack of a product from entry `first` of a pass: its entries, the rows they leave in the bank with their uncommitted
sets, and everything else that waits for the commit: the rounded rows of Y and the chain's outputs, which go to the commit
region, and the captures (R110, R114, R116 to R118, R227). -/
def Device.matmulBegin (d : Device) (x : Desc) (s : MmSite) (pass first len : Nat) : Res (Held × List (Option VectorCheck)) :=
  let sh := x.shape
  let pr := s.pass pass
  bindD (foldD ((List.range len).map (fun i => first + i)) d { rows := (d.panel s.panel).array.rowsOf pr } (fun d st e => d.entry x s sh pass st e))
    (fun d st =>
  let d := d.updPanel s.panel (fun q => { q with array := q.array.updRows pr (fun _ => st.rows) })
  bindD (d.matmulJob x s sh) (fun d job =>
  let vs := if x.yDest = 1 then [] else (List.range (sh.complete pass (first + len) - sh.complete pass first)).map
    (fun i => sh.complete pass first + i)
  bindD (foldD vs d ({ scan := x.work.scan, gather := x.work.gather } : OutState) (fun d o r =>
      let v := sh.vb pass * sh.blockRows + r
      let words := (rowOf st.rows r).coming
      match job with
      | some j => d.chainOutput x s sh j pass v words o
      | none => (d, .ok (x.plainOutput s sh pass v words o)))) (fun d o =>
    (d, .ok ({ writes := o.writes, captures := st.captures, mag := o.mag, sats := o.sats, outMag := o.outMag, outSats := o.outSats,
               scan := o.scan, gather := o.gather, permRange := o.permRange, vectors := vs.length, last := st.last }, st.checks)))))

/-- The progress of a product after a committed tack of pass `pass` that reached entry `upTo`. A finished pass gives way
to the next one, with what chain mode has done of it (R89, R99). -/
def Work.advance (w : Work) (sh : MmShape) (pass upTo : Nat) : Work :=
  if pass != w.pass then { w with next := upTo }
  else if sh.entries pass ≤ upTo then { w with pass := pass + 1, done := w.next, next := 0 }
  else { w with done := upTo }

/-- The commit of a tack of a product (R114 to R119, R198): bank, outputs, captures, ledger records. The answer is the
work after it and the completion flags it adds. -/
def Device.matmulCommit (d : Device) (x : Desc) (s : MmSite) (t : TackRun) : Res (Work × BitVec 8) :=
  let sh := x.shape
  let pr := s.pass t.pass
  let h := t.held
  let d := d.updPanel s.panel (fun q => { q with array := q.array.updRows pr commitRows })
  let rows := (d.panel s.panel).array.rowsOf pr
  let ended := decide (sh.entries t.pass ≤ t.first + t.len)
  let wa := x.access s.ctx s.ring (x.bits 106 1 5 4) (x.bits 107 1 3 2)
  bindD (d.matmulJob x s sh) (fun d job =>
  bindD (d.writeAll wa h.writes) (fun d _ =>
  bindD (foldD h.captures d () (fun d _ c => d.capture wa x.stashTag c.1 c.2)) (fun d _ =>
  bindD (if x.yDest = 1 && ended then d.deliverGusset x s sh t.pass rows else (d, .ok ())) (fun d _ =>
  let step := x.f 124 4
  let stored := x.yDest = 0 && h.vectors != 0
  let yWritten := job.isNone && stored
  let outWritten := stored && job.any (fun j => !(j.cf 3 1).testBit 3)
  bindD (if x.yDest = 1 || h.vectors = 0 then (d, .ok ())
         else d.recordTack wa (x.f 98 1) (x.f 120 4) step x.work.y h.mag yWritten h.sats) (fun d _ =>
  bindD (match job with
      | some j => if h.vectors = 0 then (d, .ok ())
                  else d.recordTack wa j.outFmt j.outTid step j.out h.outMag outWritten h.outSats
      | none => (d, .ok ())) (fun d _ =>
  let flags : BitVec 8 :=
    (if (yWritten && x.work.y.cold) || (outWritten && x.work.out.cold) then flagColdScale else 0)
    ||| (if h.sats + h.outSats != 0 then flagScaleSat else 0) ||| (if h.permRange != 0 then flagPermRange else 0)
  let d := (d.countCtx s.ctx 0x038 h.permRange).countCtx s.ctx 0x04B (if job.isSome then h.vectors else 0)
  let d := d.dropLast (x.access s.ctx s.ring 2 (x.bits 107 1 1 0)) h.last
  let d := if ended then d.updPanel s.panel (fun q => { q with array := q.array.clearSlot pr }) else d
  (d, .ok ({ x.work.advance sh t.pass (t.first + t.len) with scan := h.scan, gather := h.gather }, flags))))))))

/-- A product's tacks have all committed. -/
def Desc.matmulDone (x : Desc) : Bool := decide (x.shape.passes ≤ x.work.pass)

/-- At the end of a product: the attached chain's carries and statistics, and CONTRIB of its Gusset entries (R261,
R314, R318). -/
def Device.matmulEnd (d : Device) (x : Desc) (s : MmSite) : Res Unit :=
  let sh := x.shape
  bindD (d.matmulJob x s sh) (fun d job =>
  let wa := x.access s.ctx s.ring (x.bits 106 1 5 4) (x.bits 107 1 3 2)
  bindD (match job with
    | none => (d, .ok ())
    | some j =>
      let carries := if j.on 5 && (j.cf 7 1).testBit 7 then
        x.work.scan.carries.map (fun p => (j.af 24 8 + 4 * p.1, leBytes 4 p.2.toNat)) else []
      let stats := if j.on 6 then [(j.af 40 8, statsBytes x.work.scan)] else []
      d.writeAll wa (carries ++ stats)) (fun d _ =>
  if x.yDest = 1 then
    match d.ctx? s.ctx with
    | none => (d, .ok ())
    | some c =>
      let ids := (c.gussetTargets x (x.mM + 1) (x.f 120 4) 0).map (fun t => t.1.param)
      (d.updCtx s.ctx (fun c => { c with gusset := c.gusset.map (fun e =>
        if ids.contains e.param then { e with contrib := e.contrib + 1 } else e) }), .ok ())
  else (d, .ok ())))

/-! ## Checks (R76, R140, R141, R280, R339) -/

/-- The format combinations of R76. -/
def formatPairOk (xf wf yf : Nat) : Bool :=
  let fp8 (f : Nat) : Bool := f = 3 || f = 4
  if (xf = 1 || fp8 xf) && (wf = 1 || fp8 wf) then yf = 1 || yf = 2 || fp8 yf
  else if xf = 5 && wf = 5 then yf = 1 || yf = 5
  else if xf = 6 && wf = 6 then yf = 1 || fp8 yf
  else if xf = 2 && wf = 2 then yf = 1 || yf = 2
  else xf = 7 && wf = 7 && yf = 7

/-- A leading dimension suits stored rows of `n` elements (R140). -/
def ldOk (fmt ld n : Nat) : Bool :=
  (if fmt = fmtFP4 then ld % 128 = 0 else ld * elemBytes fmt % 64 = 0) && n ≤ ld

/-- The format code is one of R147. -/
def fmtListed (f : Nat) : Bool := 1 ≤ f && f ≤ 7

/-- The format in which Y is stored: the chain's OUT_FMT, else Y_FMT (R324). -/
def Context.storedFmt (c : Context) (x : Desc) : Nat :=
  match c.chainOf (x.f 108 4) with
  | .ok chain => chainOutFmt chain { attached := true, yFmt := x.f 98 1 }
  | .error _ => x.f 98 1

/-- The checks of R141, in order, for a Y that is stored in a format. CPLX_FORM of a product in another format than CBF16
selects nothing (assumption log 144). -/
def Desc.matmulCheck (x : Desc) (stored : Nat) : Option Code :=
  let xf := x.f 96 1
  let wf := x.f 97 1
  let yf := x.f 98 1
  let mx := xf = fmtFP4
  let cx := xf = fmtCBF16
  let inShape (v : Nat) : Bool := 1 ≤ v && v ≤ 2 ^ 24
  let hint (hi lo : Nat) : Bool := x.bits 106 1 hi lo != 3
  let reservedOk := x.bits 99 1 7 2 = 0 && x.mRmode ≤ 1 && x.bits 100 4 15 8 = 0 && x.yDest != 3 && x.bits 106 1 7 6 = 0
    && x.bits 107 1 7 4 = 0 && fmtListed xf && fmtListed wf && fmtListed yf && hint 1 0 && hint 3 2 && hint 5 4
    && (mx || cx || wf = fmtFP4 || wf = fmtCBF16 || (x.f 56 8 = 0 && x.f 64 8 = 0))
  let xRow := if x.xT then x.mM else x.mK
  let wRow := if x.wT then x.mK else x.mN
  let streamed := if x.isIs then x.wT else (!x.xT || x.xSrc)
  let layout := streamed && x.f 40 8 % 64 = 0 && x.f 56 8 % 64 = 0 && x.f 64 8 % 64 = 0
    && (x.xSrc || (x.f 32 8 % 64 = 0 && ldOk xf (x.f 84 4) xRow)) && ldOk wf (x.f 88 4) wRow
    && (x.yDest != 0 || x.f 48 8 % 64 = 0) && ldOk (if x.f 108 4 = 0 then yf else stored) (x.f 92 4) x.mN
  let tagOk := !(x.xSrc || x.xStash) || x.stashTag != 0
  (firstFailure [
    (reservedOk, 0x0906, 0),
    (formatPairOk xf wf yf, 0x0901, 0),
    (inShape x.mM && inShape x.mN && inShape x.mK, 0x0902, 0),
    (layout, 0x0903, 0),
    (decide (x.f 104 2 ≤ if cx then 512 else 1024), 0x0904, 0),
    (!mx || (x.mK % 32 = 0 && x.f 56 8 != 0 && x.f 64 8 != 0), 0x0905, 0),
    ((x.yDest != 1 || is16 yf) && tagOk, 0x0907, 0)]).map (fun p => p.1)

/-- An entry can be read: it exists and every tack that fills it has committed (R228, R237). -/
def Context.readableStash (c : Context) (tag : Nat) : Option StashEntry :=
  (c.stash? tag).bind (fun e => if e.readable then some e else none)

/-- The target entries of a Gusset product are open and fit (R256, R257): the failing status. -/
def gussetTargetsCheck (c : Context) (x : Desc) : Option Code :=
  let ts := c.gussetTargets x (x.mM + 1) (x.f 120 4) 0
  let total := (ts.map (fun t => t.1.rows)).sum
  if total < x.mM || x.f 120 4 = 0 then some 0x0916
  else if total != x.mM || !(ts.all (fun t => t.1.cols = x.mN && t.1.fmt = x.f 98 1)) || x.f 108 4 != 0 then some 0x0917
  else none

/-- The checks of R280, in order. -/
def Device.matmulStoreCheck (d : Device) (c : Context) (x : Desc) : Option Code :=
  let xf := x.f 96 1
  let usageOk := !(x.xSrc && x.xStash) && (!(x.xSrc || x.xStash) || stashable xf)
    && (!x.xStash || (stashPages x.mM x.mK xf ≤ 512
          && ((c.stash? x.stashTag).isSome || d.directoryUsed c.panel < 4096)))
  if !usageOk then some 0x0913
  else
    let src : Option Code :=
      if !x.xSrc then none
      else match c.readableStash x.stashTag with
        | none => some 0x0910
        | some e => if (e.rows, e.cols) = (if x.xT then (x.mK, x.mM) else (x.mM, x.mK)) && e.named = xf then none else some 0x0912
    src.or (if x.yDest = 1 then gussetTargetsCheck c x else none)

/-- The named ledger identifiers of a product, in naming order (R190, R196); a chain adds OUT_TID and IN2_TID. -/
def Desc.matmulTids (x : Desc) (job : Option SeamJob) : List (Nat × Nat) :=
  [(x.f 96 1, x.f 112 4), (x.f 97 1, x.f 116 4)] ++ (if x.yDest = 1 then [] else [(x.f 98 1, x.f 120 4)])
    ++ (match job with
        | some j => [(j.outFmt, j.outTid)] ++ (if j.in2.fmt = 0 then [] else [(j.in2.fmt, j.af 96 4)])
        | none => [])

/-- The checks of a product's chain (R339): orders 2, 3, 4 and 9 of R338. -/
def Device.matmulChainCheck (d : Device) (a : Access) (c : Context) (x : Desc) : Res Unit :=
  let cfg := x.f 108 4
  if cfg = 0 then (d, .ok ())
  else match c.chainOf cfg with
    | .error e => (d, .error e)
    | .ok chain =>
      if rawField chain 48 8 % 128 != 0 then (d, .error 0x0922)
      else bindD (d.auxOf a (rawField chain 48 8)) (fun d aux =>
        let af (o n : Nat) : Nat := rawField aux o n
        let u : ChainUse := { attached := true, yFmt := x.f 98 1, j := if x.isIs then x.mM else x.mN, n := x.mN,
                              vlen := 1024, cols := 0, in2Fmt := af 92 1 }
        if !chainAgrees chain aux u || !auxForm aux || !auxAligned aux || 1 < af 93 1 then (d, .error 0x0922)
        else match c.tableOf chain with
          | .error e => (d, .error e)
          | .ok _ =>
            let in2 : Option Code :=
              if af 92 1 = 0 || af 93 1 = 0 then none
              else match c.readableStash (af 94 2) with
                | none => some 0x0910
                | some e => if e.rows = x.mM && e.cols = x.mN && e.named = af 92 1 then none else some 0x0912
            match in2 with
            | some e => (d, .error e)
            | none => d.strictPerm a chain aux 1024 (if x.isIs then x.mM else x.mN))

/-- Every operation check of a MATMUL, with steps 1 and 2 of R196 (R925). -/
def Device.matmulChecks (d : Device) (c : Context) (ring : RingId) (x : Desc) : Res Unit :=
  let a := x.access c.id ring 0 (x.bits 107 1 1 0)
  match (x.matmulCheck (c.storedFmt x)).or (d.matmulStoreCheck c x) with
  | some e => (d, .error e)
  | none => bindD (d.matmulChainCheck a c x) (fun d _ =>
      bindD (d.matmulJob { x with work := {} } (c.site ring x) x.shape) (fun d job =>
        d.ledgerChecks a c (x.matmulTids job) (x.f 124 4)))

/-- How X is read: as its stash entry holds it, or as its ledger entry says (R205, R224). -/
def Device.xAs (d : Device) (a : Access) (c : Context) (x : Desc) : Res OperandFmt :=
  match (if x.xSrc then c.stash? x.stashTag else none) with
  | some e => (d, .ok { fmt := e.fmt, sigma := e.sigma, cold := e.cold })
  | none => d.operandAs a (x.f 96 1) (x.f 112 4)

/-- A product with the formats in which its operands will be read, before its preparation (R85, R463). -/
def Device.withFormats (d : Device) (c : Context) (ring : RingId) (x : Desc) : Res Desc :=
  if x.work.prepared then (d, .ok x)
  else
    let a := x.access c.id ring 0 (x.bits 107 1 1 0)
    bindD (d.xAs a c x) (fun d xo => bindD (d.operandAs a (x.f 97 1) (x.f 116 4)) (fun d wo =>
      (d, .ok { x with work := { x.work with x := xo, w := wo } })))

/-- Steps 3 and 4 of R196, and how every operand will be read and written: the prepared work and its flags. -/
def Device.matmulPrepare (d : Device) (c : Context) (ring : RingId) (x : Desc) : Res (Work × BitVec 8) :=
  let a := x.access c.id ring 0 (x.bits 107 1 1 0)
  bindD (d.matmulJob { x with work := {} } (c.site ring x) x.shape) (fun d job =>
  bindD (d.xAs a c x) (fun d xo =>
  bindD (if x.xStash then bindD (d.placeStash a x.stashTag x.mM x.mK (x.f 96 1) xo) (fun d q => (d, .ok (some q)))
         else (d, .ok none)) (fun d stash =>
  bindD (d.touchAll a (x.matmulTids job) (x.f 124 4)) (fun d _ =>
  bindD (d.operandAs a (x.f 97 1) (x.f 116 4)) (fun d wo =>
  bindD (if x.yDest = 1 then (d, .ok { fmt := x.f 98 1 }) else d.resultAs a (x.f 98 1) (x.f 120 4)) (fun d yo =>
  bindD (match job with
      | some j => d.resultAs a j.outFmt j.outTid
      | none => (d, .ok {})) (fun d oo =>
  bindD (match job with
      | some j => if j.in2.fmt = 0 || j.in2.tag.isSome then (d, .ok { fmt := j.in2.fmt }) else d.operandAs a j.in2.fmt (j.af 96 4)
      | none => (d, .ok {})) (fun d io =>
  bindD (match job with
      | some j =>
        if j.on 5 && (j.cf 7 1).testBit 6 then
          let count := if (j.cf 7 1).testBit 3 then j.cols else j.vrows
          bindD (d.readCa a (j.af 24 8) (4 * count)) (fun d bs =>
            let cs := (List.range count).map (fun i => (i, (BitVec.ofNat 32 (bytesField bs (4 * i) 4) : Lane)))
            (d, .ok { carries := cs, reds := cs }))
        else (d, .ok {})
      | none => (d, .ok {})) (fun d scan =>
  let dropped := x.xStash && ((d.ctx? c.id).bind (fun c => c.stash? x.stashTag)).any (fun e => e.dropped)
  let in2Cold := job.any (fun j => match j.in2.tag with
    | some t => (c.stash? t).any (fun e => e.cold)
    | none => io.cold)
  let flags : BitVec 8 := (if xo.cold || wo.cold || in2Cold then flagColdScale else 0) ||| (if dropped then flagStashDropped else 0)
  (d, .ok ({ prepared := true, x := xo, w := wo, y := yo, out := oo, in2 := io, in2Tag := job.bind (fun j => j.in2.tag), scan := scan, stash := stash },
    flags)))))))))))

end Sys2Proof.Machine
end

