-- ==== Sys2Proof/Machine/Tacks.lean ====
section
/-! DEFINITION. The tacks of SEAM, COPY, FILL and GUSSET_ACC descriptors: checks, preparation, begin, commit, end
(R252 to R264, R319 to R323, R336 to R338, R452 to R456). -/

namespace Sys2Proof.Machine

/-! ## SEAM (R336 to R338) -/

/-- ROWS of a SEAM. -/
def Desc.sRows (x : Desc) : Nat := x.f 64 4
/-- COLS of a SEAM. -/
def Desc.sCols (x : Desc) : Nat := x.f 68 4
/-- VLEN of a SEAM; 0 selects 1,024. -/
def Desc.vlen (x : Desc) : Nat := if x.f 84 2 = 0 then 1024 else x.f 84 2
/-- Vectors of one row. -/
def Desc.rowVectors (x : Desc) : Nat := ceilDiv x.sCols x.vlen
/-- IN_SRC, as the Bobbin tag. -/
def Desc.inTag (x : Desc) : Option Nat := if x.bit 88 1 0 then some (x.f 92 2) else none
/-- IN2_SRC, as the Bobbin tag. -/
def Desc.in2Tag (x : Desc) : Option Nat := if x.bit 88 1 1 && x.f 87 1 != 0 then some (x.f 94 2) else none

/-- The read access of a SEAM under a hint code. -/
def Desc.seamRead (x : Desc) (ctx : Code) (ring : RingId) (hint : Nat) : Access :=
  x.access ctx ring hint (x.bits 90 1 1 0)

/-- The write access of a SEAM. -/
def Desc.seamWrite (x : Desc) (ctx : Code) (ring : RingId) : Access :=
  x.access ctx ring (x.bits 89 1 5 4) (x.bits 90 1 3 2)

/-- The chain of a SEAM, ready to run. -/
def Device.seamJob (d : Device) (c : Context) (ring : RingId) (x : Desc) : Res SeamJob :=
  match c.chainOf (x.f 96 4) with
  | .error e => (d, .error e)
  | .ok chain => match c.tableOf chain with
    | .error e => (d, .error e)
    | .ok table =>
      bindD (d.auxOf (x.seamRead c.id ring 0) (x.f 56 8)) (fun d aux =>
        (d, .ok { chain := chain, aux := aux, a := x.seamRead c.id ring 0, seed := c.seed, step := x.f 124 4,
                  vrows := x.sRows, cols := x.sCols, vlen := x.vlen, transposed := false, nCols := x.sCols,
                  outAddr := x.f 48 8, outLd := x.f 80 4, outFmt := rawField chain 2 1, out := x.work.out,
                  outTid := x.f 108 4,
                  in2 := { fmt := x.f 87 1, o := x.work.w, addr := x.f 40 8, ld := x.f 76 4, scaleAddr := rawField aux 72 8,
                           tag := x.in2Tag, hint := hintOf (x.bits 89 1 3 2) }, table := table }))

/-- The ledger identifiers of a SEAM in naming order (R196). -/
def Desc.seamTids (x : Desc) (outFmt : Nat) : List (Nat × Nat) :=
  [(x.f 86 1, x.f 100 4)] ++ (if x.f 87 1 = 0 then [] else [(x.f 87 1, x.f 104 4)]) ++ [(outFmt, x.f 108 4)]

/-- The checks of R338, then steps 1 and 2 of R196. -/
def Device.seamChecks (d : Device) (c : Context) (ring : RingId) (x : Desc) : Res Unit :=
  let inF := x.f 86 1
  let in2F := x.f 87 1
  let hint (hi lo : Nat) : Bool := x.bits 89 1 hi lo != 3
  let reservedOk := x.bits 88 1 7 2 = 0 && x.bits 89 1 7 6 = 0 && x.bits 90 1 7 4 = 0 && x.f 91 1 = 0 && x.f 112 8 = 0
    && x.f 120 4 = 0 && hint 1 0 && hint 3 2 && hint 5 4 && fmtListed inF && (in2F = 0 || fmtListed in2F)
  if !reservedOk then (d, .error 0x0906)
  else match c.chainOf (x.f 96 4) with
  | .error e => (d, .error e)
  | .ok chain =>
    let a := x.seamRead c.id ring 0
    bindD (d.auxOf a (x.f 56 8 / 128 * 128)) (fun d aux =>
      let af (o n : Nat) : Nat := rawField aux o n
      let out := rawField chain 2 1
      let u : ChainUse := { attached := false, vlen := x.vlen, cols := x.sCols, in2Fmt := in2F }
      let formsOk := inF != fmtCBF16 && in2F != fmtCBF16
      let scales := (inF != fmtFP4 || x.inTag.isSome || af 64 8 != 0) && (in2F != fmtFP4 || x.in2Tag.isSome || af 72 8 != 0)
        && (af 104 8 = 0 || (is16 inF && x.inTag.isNone))
      if !auxForm aux then (d, .error 0x0906)
      else if !formsOk || !chainAgrees chain aux u || !scales then (d, .error 0x0922)
      else match c.tableOf chain with
      | .error e => (d, .error e)
      | .ok _ =>
        let inShape (v : Nat) : Bool := 1 ≤ v && v ≤ 2 ^ 24
        if !(inShape x.sRows && inShape x.sCols && x.vlen ≤ 1024 && x.sRows * x.sCols < 2 ^ 61) then (d, .error 0x0902)
        else
          let layout := x.f 56 8 % 128 = 0 && auxAligned aux
            && (x.inTag.isSome || (x.f 32 8 % 64 = 0 && ldOk inF (x.f 72 4) x.sCols))
            && (in2F = 0 || x.in2Tag.isSome || (x.f 40 8 % 64 = 0 && ldOk in2F (x.f 76 4) x.sCols))
            && x.f 48 8 % 64 = 0 && ldOk out (x.f 80 4) x.sCols
          if !layout then (d, .error 0x0903)
          else
            let tags := (match x.inTag with | some t => [(t, inF)] | none => []) ++ (match x.in2Tag with | some t => [(t, in2F)] | none => [])
            if tags.any (fun t => (c.readableStash t.1).isNone) then (d, .error 0x0910)
            else if tags.any (fun t => match c.readableStash t.1 with
                | some e => !(e.rows = x.sRows && e.cols = x.sCols && e.named = t.2)
                | none => true) then (d, .error 0x0912)
            else bindD (d.strictPerm a chain aux x.vlen x.sCols) (fun d _ =>
              d.ledgerChecks a c (x.seamTids out) (x.f 124 4)))

/-- Step 4 of R196 and the reading and writing of every operand of a SEAM; the carries of CARRY_IN (R314). -/
def Device.seamPrepare (d : Device) (c : Context) (ring : RingId) (x : Desc) : Res (Work × BitVec 8) :=
  let a := x.seamRead c.id ring 0
  bindD (d.seamJob c ring x) (fun d j =>
  bindD (d.touchAll a (x.seamTids j.outFmt) (x.f 124 4)) (fun d _ =>
  bindD (match x.inTag.bind (fun t => c.stash? t) with
      | some e => (d, .ok { fmt := e.fmt, sigma := e.sigma, cold := e.cold })
      | none => d.operandAs a (x.f 86 1) (x.f 100 4)) (fun d xo =>
  bindD (match x.in2Tag.bind (fun t => c.stash? t) with
      | some e => (d, .ok { fmt := e.fmt, sigma := e.sigma, cold := e.cold })
      | none => d.operandAs a (x.f 87 1) (x.f 104 4)) (fun d wo =>
  bindD (d.resultAs a j.outFmt (x.f 108 4)) (fun d oo =>
  bindD (if j.on 5 && (j.cf 7 1).testBit 6 then
      let count := if (j.cf 7 1).testBit 3 then j.cols else j.vrows
      bindD (d.readCa a (j.af 24 8) (4 * count)) (fun d bs =>
        let cs := (List.range count).map (fun i => (i, (BitVec.ofNat 32 (bytesField bs (4 * i) 4) : Lane)))
        (d, .ok { carries := cs, reds := cs }))
    else (d, .ok ({} : SeamScan))) (fun d scan =>
  (d, .ok ({ prepared := true, x := xo, w := wo, out := oo, scan := scan },
    (if xo.cold || (x.f 87 1 != 0 && wo.cold) then flagColdScale else 0)))))))))

/-- The row and vector position of the t-th vector in processing order (R286). -/
def SeamJob.place (j : SeamJob) (t : Nat) : Nat × Nat :=
  let nw := ceilDiv j.cols j.vlen
  if j.on 5 && (j.cf 7 1).testBit 3 then (t % j.vrows, t / j.vrows) else (t / nw, t % nw)

/-- The place in processing order of the vector that holds an element. -/
def SeamJob.ordinal (j : SeamJob) (r c : Nat) : Nat :=
  if j.on 5 && (j.cf 7 1).testBit 3 then c / j.vlen * j.vrows + r else r * ceilDiv j.cols j.vlen + c / j.vlen

/-- The last vector that reads a unit of an input of `fmt` with a leading dimension, or of its block scales. -/
def SeamJob.unitLast (j : SeamJob) (fmt base ld scale u : Nat) : Nat :=
  let at_ (rc : Nat × Nat) : Nat := j.ordinal rc.1 rc.2
  max (latest (unitElems base ld j.vrows j.cols (if fmt = fmtFP4 then 4 else 8 * elemBytes fmt) u) at_)
    (if fmt != fmtFP4 then 0
     else latest (unitElems scale (ld / 32) j.vrows (ceilDiv j.cols 32) 8 u) (fun rc => at_ (rc.1, min (j.cols - 1) (32 * rc.2 + 31))))

/-- The units that vector `t` reads of an input for the last time, under discard-after-last-use (R353). -/
def SeamJob.lastUnits (j : SeamJob) (fmt base ld scale hint r c0 n t : Nat) : List Nat :=
  if hint != 2 then []
  else
    let el := r * ld + c0
    let ranges := runRange fmt base el n :: (if fmt = fmtFP4 then [(scale + el / 32, ceilDiv (el % 32 + n) 32)] else [])
    ((ranges.flatMap (fun p => unitsOf p.1 p.2)).eraseDups).filter (fun u => j.unitLast fmt base ld scale u = t)

/-- The input lanes of a vector (R290 to R292). The Linings of IN lie dense, element by element (R182). -/
def Device.seamInput (d : Device) (ctx : Code) (ring : RingId) (x : Desc) (j : SeamJob) (r w : Nat) (last : List Nat) : Res (List Lane) :=
  let c0 := w * x.vlen
  let n := min x.vlen (x.sCols - c0)
  let a := { x.seamRead ctx ring (x.bits 89 1 1 0) with last := last }
  match x.inTag with
  | some t => bindD (d.readStashNums a t ((List.range n).map (fun i => (r, c0 + i)))) (fun d xs => (d, .ok (xs.map laneOf)))
  | none =>
    let el := r * x.f 72 4 + c0
    if j.af 104 8 != 0 then
      bindD (d.readCa a (x.f 32 8 + 2 * el) (2 * n)) (fun d vs => bindD (d.readCa j.a (j.af 104 8 + (r * x.sCols + c0)) n) (fun d ls =>
        (d, .ok ((List.range n).map (fun i =>
          laneOf (liningValue x.work.x.fmt (bytesField vs (2 * i) 2) (signedOf 8 (bytesField ls i 1))))))))
    else bindD (d.readRun a x.work.x (x.f 32 8) el n (j.af 64 8 + el / 32) (fun i => (el % 32 + i) / 32) false)
      (fun d xs => (d, .ok (xs.map laneOf)))

/-- The vectors of a SEAM tack: what they hold until the commit (R319, R320). -/
def Device.seamBegin (d : Device) (c : Context) (ring : RingId) (x : Desc) (len : Nat) : Res Held :=
  bindD (d.seamJob c ring x) (fun d j =>
  bindD (foldD ((List.range len).map (fun i => x.work.done + i)) d (({ scan := x.work.scan } : OutState), ([] : List Nat)) (fun d ol t =>
    let (o, gone) := ol
    let (r, w) := j.place t
    let c0 := w * x.vlen
    let n := min x.vlen (x.sCols - c0)
    let in1 := if x.inTag.isSome then [] else j.lastUnits x.work.x.fmt (x.f 32 8) (x.f 72 4) (j.af 64 8) (x.bits 89 1 1 0) r c0 n t
    let in2 := if x.in2Tag.isSome || x.f 87 1 = 0 then []
      else j.lastUnits x.work.w.fmt (x.f 40 8) (x.f 76 4) (j.af 72 8) (x.bits 89 1 3 2) r c0 n t
    bindD (d.seamInput c.id ring x j r w in1) (fun d xs =>
    bindD ({ j with in2 := { j.in2 with last := in2 } }.vector d o.scan r w xs) (fun d res =>
      let (st, lanes, reds, mag, bad) := res
      let (ws, sats) := if (j.cf 3 1).testBit 3 then ([], 0) else j.packRun r (w * x.vlen) (lanes.map laneNum)
      (d, .ok ({ o with writes := o.writes ++ reds ++ ws, scan := st, outSats := o.outSats + sats,
                        outMag := match mag with
                          | some m => some (max m (o.outMag.getD 0))
                          | none => o.outMag,
                        permRange := o.permRange + bad }, gone ++ in1 ++ in2)))))) (fun d ol =>
  let o := ol.1
  (d, .ok { writes := o.writes, outMag := o.outMag, outSats := o.outSats, scan := o.scan, permRange := o.permRange,
            vectors := len, last := ol.2 })))

/-- The commit of a SEAM tack (R320). -/
def Device.seamCommit (d : Device) (c : Context) (ring : RingId) (x : Desc) (len : Nat) (h : Held) : Res (Work × BitVec 8) :=
  let wa := x.seamWrite c.id ring
  bindD (d.seamJob c ring x) (fun d j =>
  bindD (d.writeAll wa h.writes) (fun d _ =>
  let wrote := !(j.cf 3 1).testBit 3
  bindD (d.recordTack wa j.outFmt (x.f 108 4) (x.f 124 4) x.work.out h.outMag wrote h.outSats) (fun d _ =>
  let d := (d.countCtx c.id 0x038 h.permRange).dropLast (x.seamRead c.id ring 2) h.last
  (d, .ok ({ x.work with done := x.work.done + len, scan := h.scan },
    (if wrote && x.work.out.cold then flagColdScale else 0) ||| (if h.outSats != 0 then flagScaleSat else 0)
      ||| (if h.permRange != 0 then flagPermRange else 0))))))

/-- The vectors of a SEAM. -/
def Desc.seamTotal (x : Desc) : Nat := x.sRows * x.rowVectors

/-- CARRY_OUT and the statistics record at a SEAM's end (R314, R318). -/
def Device.seamEnd (d : Device) (c : Context) (ring : RingId) (x : Desc) : Res Unit :=
  bindD (d.seamJob c ring x) (fun d j =>
    let carries := if j.on 5 && (j.cf 7 1).testBit 7 then
      x.work.scan.carries.map (fun p => (j.af 24 8 + 4 * p.1, leBytes 4 p.2.toNat)) else []
    let stats := if j.on 6 then [(j.af 40 8, statsBytes x.work.scan)] else []
    d.writeAll (x.seamWrite c.id ring) (carries ++ stats))

/-- The most vectors of a SEAM tack for the held outputs (R319). -/
def Desc.seamBytesLimit (x : Desc) (chain : BitVec 1024) : Nat :=
  let o := x.work.out.fmt
  let lining := (rawField chain 3 1).testBit 2
  if (rawField chain 3 1).testBit 3 then x.seamTotal
  else if o = fmtFP4 then max 1 (2 ^ 21 * 32 / (x.vlen * 17))
  else max 1 (2 ^ 21 / (x.vlen * (elemBytes o + (if lining then 1 else 0))))

/-! ## COPY and FILL (R452 to R456) -/

/-- The checks of a COPY (R454). -/
def Desc.copyCheck (x : Desc) : Option Code :=
  let rows := x.f 48 4
  let rb := x.f 52 4
  let reservedOk := x.bits 72 1 7 4 = 0 && x.bits 73 1 7 4 = 0 && x.bits 72 1 1 0 != 3 && x.bits 72 1 3 2 != 3
    && (List.range 54).all (fun i => x.f (74 + i) 1 = 0)
  let pitchOk := decide (rows ≤ 1) || (decide (rb ≤ x.f 56 8) && decide (rb ≤ x.f 64 8))
  let apart := !rangesOverlap (x.f 32 8) (boundBytes rows rb (x.f 56 8)) (x.f 40 8) (boundBytes rows rb (x.f 64 8))
  (firstFailure [(reservedOk, 0x0906, 0),
    (decide (1 ≤ rows) && decide (rows ≤ 2 ^ 24) && decide (1 ≤ rb) && decide (rb ≤ 2 ^ 30), 0x0902, 0),
    (pitchOk && apart, 0x0903, 0)]).map (fun p => p.1)

/-- The checks of a FILL (R454). -/
def Desc.fillCheck (x : Desc) : Option Code :=
  let rows := x.f 40 4
  let rb := x.f 44 4
  let reservedOk := x.bits 64 1 7 2 = 0 && x.bits 65 1 7 2 = 0 && x.bits 64 1 1 0 != 3
    && (List.range 62).all (fun i => x.f (66 + i) 1 = 0)
  (firstFailure [(reservedOk, 0x0906, 0),
    (decide (1 ≤ rows) && decide (rows ≤ 2 ^ 24) && decide (1 ≤ rb) && decide (rb ≤ 2 ^ 30), 0x0902, 0),
    (decide (rows ≤ 1) || decide (rb ≤ x.f 48 8), 0x0903, 0)]).map (fun p => p.1)

/-- Destination rows and bytes per row of a COPY or FILL. -/
def Desc.dmaShape (x : Desc) : Nat × Nat := if x.f 0 1 = 8 then (x.f 48 4, x.f 52 4) else (x.f 40 4, x.f 44 4)

/-- All destination bytes of a COPY or FILL. -/
def Desc.dmaTotal (x : Desc) : Nat := x.dmaShape.1 * x.dmaShape.2

/-- The row segments of a tack: row, first byte in the row, bytes (R455). -/
def dmaSegments (rowBytes from_ len : Nat) : List (Nat × Nat × Nat) :=
  (cutAt rowBytes from_ len).map (fun s => (s.1 / rowBytes, s.1 % rowBytes, s.2))

/-- Bytes `[b, b + n)` of a fill row (R453). -/
def fillBytes (pattern b n : Nat) : List Byte :=
  (List.range n).map (fun i => BitVec.ofNat 8 (pattern / 2 ^ (8 * ((b + i) % 8))))

/-- The units of a COPY's source that bytes `[from, from + len)` read for the last time (R353). -/
def Desc.copyLast (x : Desc) (from_ len : Nat) : List Nat :=
  if x.bits 72 1 1 0 != 2 then []
  else
    let rb := x.dmaShape.2
    let units := ((dmaSegments rb from_ len).flatMap (fun s => unitsOf (x.f 32 8 + s.1 * x.f 56 8 + s.2.1) s.2.2)).eraseDups
    units.filter (fun u => decide (latest (unitElems (x.f 32 8) (if x.dmaShape.1 ≤ 1 then rb else x.f 56 8) x.dmaShape.1 rb 8 u) (fun rc => rc.1 * rb + rc.2) < from_ + len))

/-- The reads of a COPY or FILL tack into its transfer buffer (R455). -/
def Device.dmaBegin (d : Device) (ctx : Code) (ring : RingId) (x : Desc) (len : Nat) : Res Held :=
  let segs := dmaSegments x.dmaShape.2 x.work.done len
  if x.f 0 1 = 8 then
    let last := x.copyLast x.work.done len
    let a := { x.access ctx ring (x.bits 72 1 1 0) (x.bits 73 1 1 0) with last := last }
    bindD (foldD segs d [] (fun d ws s =>
      bindD (d.readCa a (x.f 32 8 + s.1 * x.f 56 8 + s.2.1) s.2.2) (fun d bs =>
        (d, .ok (ws ++ [(x.f 40 8 + s.1 * x.f 64 8 + s.2.1, bs)]))))) (fun d ws => (d, .ok { writes := ws, last := last }))
  else (d, .ok { writes := segs.map (fun s => (x.f 32 8 + s.1 * x.f 48 8 + s.2.1, fillBytes (x.f 56 8) s.2.1 s.2.2)) })

/-- The commit of a DMA tack: its writes (R455). -/
def Device.dmaCommit (d : Device) (ctx : Code) (ring : RingId) (x : Desc) (len : Nat) (h : Held) : Res (Work × BitVec 8) :=
  let wa := if x.f 0 1 = 8 then x.access ctx ring (x.bits 72 1 3 2) (x.bits 73 1 3 2)
            else x.access ctx ring (x.bits 64 1 1 0) (x.bits 65 1 1 0)
  bindD (d.writeAll wa h.writes) (fun d _ =>
    (d.dropLast (x.access ctx ring 2 (x.bits 73 1 1 0)) h.last, .ok ({ x.work with done := x.work.done + len }, 0)))

/-! ## GUSSET_ACC tacks (R264) -/

/-- The source rows of one GUSSET_ACC tack: what one half of the commit region holds (R118, R264). -/
def Desc.accTackRows (x : Desc) : Nat := max 1 (2 ^ 21 / (2 * x.f 40 4))

end Sys2Proof.Machine
end

