-- ==== Sys2Proof/Machine/MemRows.lean ====
section
/-! DEFINITION. The events of the memory system and the host window (07_memory_system.md). -/

namespace Sys2Proof.Machine

/-! ## The memory enable -/

/-- Set REASON and BAD_REG of MEM_STATUS. -/
def Device.memReason (d : Device) (p : PanelId) (c : Code) (bad : Nat) : Device :=
  d.updPMem p (fun m => { m with reason := c, badReg := bad })

/-- The checks of R887 and R402, in order. While a table is being loaded none is loaded (R926, assumption log 154). -/
def Device.memChecks (d : Device) (p : PanelId) : Option (Code × Nat) :=
  let q := d.panel p
  let per := fieldOf q.memScrub 7 0
  let thr := fieldOf q.memCtl 11 8
  let keep := fieldOf q.spoolCfg 4 0
  match d.escalationCode with
  | some c => some (c, 0xFF)
  | none => firstFailure [
      (q.mem.present, 0x0301, 0xFF),
      (q.mem.trained = 0xF, 0x0302, 0x01),
      (q.mem.loaded && !q.mem.loadBusy, 0x0307, 0x04),
      (1 ≤ per && per ≤ 168, 0x0303, 0x02),
      (!d.guarantee || bitOf q.memCtl 1, 0x0303, 0x00),
      (1 ≤ thr && thr ≤ 8, 0x0304, 0x00),
      (4 ≤ keep && keep ≤ 16, 0x0304, 0x0A)]

/-- A write to PANELp.MEM_CTL under a mask (R399, R400, R402, R879 to R882). A passed enable invalidates the Spool
(R357) and begins a rate window (R379). -/
def Device.memCtlWrite (d : Device) (p : PanelId) (v mask : BitVec 64) : Device :=
  let q := d.panel p
  let ask := bitOf (mergeBits q.memCtl v mask) 0
  if q.memOn then
    if ask || q.enabled then d
    else
      let mem := { q.mem with rateCount := 0, rateRecorded := false }
      (d.updPanel p (fun q => { q with memCtl := setBit q.memCtl 0 false, mem := mem })).updateGuard
  else
    let d := d.updPanel p (fun q => { q with memCtl := mergeBits q.memCtl v (mask &&& 0xF02) })
    if !ask then d
    else match d.memChecks p with
      | some (c, b) => d.memReason p c b
      | none =>
        let mem := { q.mem with spool := [], windowSince := d.now, rateCount := 0, rateRecorded := false, scrubbed := [] }
        ((d.updPanel p (fun q => { q with memCtl := setBit q.memCtl 0 true, mem := mem })).memReason p 0 0).updateGuard

/-! ## The retire table -/

/-- A write to PANELp.MEM_RETIRE_CTL (R388, R926). A load keeps the address and the count with which it began. -/
def Device.retireCtlWrite (d : Device) (p : PanelId) (v mask : BitVec 64) : Device :=
  let load := bitOf (v &&& mask) 31
  if (d.panel p).memOn then if load then d.updPMem p (fun m => { m with reason := 0x0308 }) else d
  else
    let d := d.updPanel p (fun q => { q with memRetireCtl := mergeBits q.memRetireCtl v (mask &&& 0x1FFF) })
    let q := d.panel p
    if load && !q.mem.loadBusy then
      d.updPMem p (fun m => { m with loadBusy := true, loading := (q.memRetireBase.toNat / 64 * 64, fieldOf q.memRetireCtl 12 0) })
    else d

/-- A list of page numbers rises strictly. -/
def risesStrictly : List Nat → Bool
  | a :: b :: l => a < b && risesStrictly (b :: l)
  | _ => true

/-- The retire table that host memory holds, unless it is malformed or cannot be read (R388). -/
def Device.retireImage (d : Device) (p : PanelId) : Option (List Nat) :=
  let (base, count) := (d.panel p).mem.loading
  let entries := (List.range count).map (fun i => leNat (d.hostRead (base + 4 * i) 4))
  if d.hostUp && count ≤ 4096 && entries.all (fun e => e ≤ 5242879) && risesStrictly entries then some entries else none

/-- A load that fails leaves no table (R926). -/
def PanelMem.loadFailed (m : PanelMem) : PanelMem :=
  { m with loadBusy := false, loaded := false, retired := [], reason := 0x0308 }

/-- The end of a load in progress; a link in Recovery holds its reads (R823). -/
def Device.retireLoadDone (d : Device) (p : PanelId) : Device :=
  if !(d.panel p).mem.loadBusy || d.host.link = .recovery then d
  else match d.retireImage p with
    | some t => d.updPMem p (fun m => { m with loadBusy := false, loaded := true, retired := t })
    | none => d.updPMem p PanelMem.loadFailed

/-- A page into the table, in ascending order. -/
def insertPage (page : Nat) (t : List Nat) : List Nat :=
  t.filter (fun x => x < page) ++ page :: t.filter (fun x => page < x)

/-- A write to PANELp.MEM_RETIRE_ADD (R389). -/
def Device.retireAdd (d : Device) (p : PanelId) (page : Nat) : Device :=
  let q := d.panel p
  if !q.memOn || 5242879 < page then d.updPMem p (fun m => { m with reason := 0x0308 })
  else if q.mem.retired.contains page then d
  else if 4096 ≤ q.mem.retired.length then d.updPMem p (fun m => { m with reason := 0x0315 })
  else d.updPMem p (fun m => { m with retired := insertPage page m.retired })

/-! ## Promotion and order (R361 to R366, R372) -/

/-- The request that waits for an access leaves its queue. -/
def Device.dequeueMem (d : Device) (mpa : Nat) (by_ : Requester) : Device :=
  let p := panelOf mpa
  let ch := channelOf (ppaOf mpa)
  d.updPMem p (fun m => m.setQueue ch ((m.queueOf ch).eraseP (fun r =>
    !r.write && r.mpa / 64 = mpa / 64 && r.requester = by_)))

/-- The age limit of a class in ns (R362); Vermilion has none. -/
def ageLimit (c : ColourClass) : Option Nat :=
  match c with
  | .vermilion => none
  | .indigo => some 2000
  | .slate => some 8000
  | .ivory => some 32000

/-- A stack of a channel is throttled (R365). -/
def PanelMem.throttledChannel (m : PanelMem) (ch : Nat) : Bool :=
  (m.stackStates.toList[ch / 128]?).any (fun s => s.throttled)

/-- A request has outlived its class's limit and waits for promotion (R362, R366). -/
def Device.mayPromote (d : Device) (m : PanelMem) (ch : Nat) (r : MemRequest) : Bool :=
  !r.promoted && !(m.throttledChannel ch && (r.cls = .slate || r.cls = .ivory)) &&
    (match ageLimit r.cls with
     | some t => decide (t < d.now - r.since)
     | none => false)

/-- The first request of a list that a test picks becomes promoted. -/
def promoteFirst (f : MemRequest → Bool) : List MemRequest → List MemRequest
  | [] => []
  | r :: rs => if f r then { r with promoted := true } :: rs else r :: promoteFirst f rs

/-- REQUEST_PROMOTION (R362): the oldest over-age request moves to the Vermilion-rank queue when one of its 8 reserved
places is free; a write waits for the next batch. -/
def Device.promote (d : Device) (p : PanelId) (ch : Fin 512) : Device :=
  let m := (d.panel p).mem
  let q := m.queueOf ch.val
  let room := decide ((q.filter (fun r => r.promoted && !r.write)).length < 8)
  let takes (r : MemRequest) : Bool := d.mayPromote m ch.val r && (r.write || room)
  let e := match q.find? takes with
    | some r => d.count p { code := 0x046, ctx := requesterCtx r.requester, cls := some r.cls, unit := some (ch.val / 128) } 1
    | none => d
  e.updPMem p (fun m => m.setQueue ch.val (promoteFirst takes q))

/-- The request is of a class that a throttled stack holds back (R365). -/
def MemRequest.throttles (r : MemRequest) : Bool := !r.promoted && (r.cls = .slate || r.cls = .ivory)

/-- The writes left of a channel's batch (R372). -/
def PanelMem.batchOf (m : PanelMem) (ch : Nat) : Nat := ((m.batches.find? (fun b => b.1 = ch)).map (fun b => b.2)).getD 0

/-- Set the writes left of a channel's batch. -/
def PanelMem.setBatch (m : PanelMem) (ch n : Nat) : PanelMem :=
  let rest := m.batches.filter (fun b => b.1 != ch)
  { m with batches := if n = 0 then rest else (ch, n) :: rest }

/-- The request of a queue that a channel issues next, and the writes left of its batch after it (R361, R372): requests of
Vermilion rank, Indigo reads, Slate and Ivory reads, then writes. Writes that are drained in a batch of 32, begun when 32
wait or one is promoted, come before the reads of lower rank; a request of Vermilion rank leaves at most 8 of a batch.
`held`: the stack is throttled and the slot is none of Slate's and Ivory's (R365). -/
def nextIssue (q : List MemRequest) (held : Bool) (left : Nat) : Option (MemRequest × Nat) :=
  let free := q.filter (fun r => !(held && r.throttles))
  let read (f : MemRequest → Bool) : Option MemRequest := free.find? (fun r => !r.write && f r)
  let write := (free.find? (fun r => r.write && r.promoted)).or (free.find? (fun r => r.write))
  let top := read (fun r => r.promoted || r.cls = .vermilion)
  let left := if top.isSome then min left 8 else left
  let batch := decide (32 ≤ (q.filter (fun r => r.write)).length) || q.any (fun r => r.write && r.promoted)
  match (if left = 0 then none else write), top with
  | some w, _ => some (w, left - 1)
  | none, some r => some (r, 0)
  | none, none =>
    match (if batch then write else none) with
    | some w => some (w, 31)
    | none => (((read (fun r => r.cls = .indigo)).or (read (fun _ => true))).or write).map (fun r => (r, 0))

/-! ## Runs that stop -/

/-- A panel's array without the running tacks, planes, slots and waiting rows of the descriptors that a test picks. A running
tack that stays keeps its rows. -/
def ArrayState.without (a : ArrayState) (f : DescRef → Bool) : ArrayState :=
  let keepRun (r : Option TackRun) : Option TackRun := r.filter (fun t => !f t.ref)
  let keepTile (t : Option TileRef) : Option TileRef := t.filter (fun t => !f t.ref)
  let keepHalf (k : Fin 2) (h : CommitHalf) : CommitHalf :=
    if ([a.run, a.drain].filterMap id).any (fun t => f t.ref && t.half = k) then {} else h
  { a with run := keepRun a.run, drain := keepRun a.drain, failedTack := keepRun a.failedTack, dma := keepRun a.dma,
           failedDma := keepRun a.failedDma, active := { a.active with tile := keepTile a.active.tile },
           shadow := { a.shadow with tile := keepTile a.shadow.tile }, shadowReady := a.shadowReady && (keepTile a.shadow.tile).isSome,
           slots := a.slots.map (fun s => if s.pass.any (fun p => f p.ref) then {} else s),
           region := #v[keepHalf 0 a.region[0], keepHalf 1 a.region[1]] }

/-- The records that tacks keep whose replay the descriptors of a test wait for. -/
def ArrayState.faultsOf (a : ArrayState) (f : DescRef → Bool) : List ErrRec :=
  [a.failedTack, a.failedDma].filterMap (fun t => t.bind (fun t => if f t.ref then t.fault else none))

/-- Write the record of a replayed tack once the outcome of its replay is known (R626, R643). -/
def Device.raiseReplayed (d : Device) (outcome : Nat) (r : ErrRec) : Device :=
  d.enqueueRec { r with outcome := outcome, attr := r.attr ||| 1 } false

/-- Discard the running tacks of the descriptors that a test picks; a replay that never comes masks nothing. -/
def Device.discardRuns (d : Device) (f : DescRef → Bool) : Device :=
  let faults := d.panels.toList.flatMap (fun q => q.array.faultsOf f)
  let d := { d with contexts := d.contexts.map (fun (c : Context) =>
    if c.saved.isEmpty then c else { c with saved := c.saved.filter (fun s => !f s.pass.ref) }) }
  faults.foldl (Device.raiseReplayed · 1) (d.mapPanels (fun _ q => { q with array := q.array.without f }))

/-- The oldest descriptor of a ring that has begun and not finished. -/
def Ring.running? (r : Ring) : Option Desc :=
  r.queue.find? (fun x => x.begun && match x.phase with | .finished _ => false | _ => true)

/-- The running tack of a ring is discarded and its descriptor fails (R381). -/
def Device.failRunning (d : Device) (ctx : Code) (ring : RingId) (status : Code) : Device :=
  match (d.ring? ctx ring).bind Ring.running? with
  | none => d
  | some x => ((d.dropFill ctx x).discardRuns (fun r => r.ctx = ctx && r.ring = ring && r.seq = x.seq)).failDesc ctx ring x status

/-! ## ECC (R377 to R383) -/

/-- Whom a requester's records name (R641). -/
def Device.blameOf (d : Device) (r : Requester) : Blame :=
  match r with
  | .descriptor c n => blameDesc c n (((d.ring? c n).bind Ring.running?).map (fun x => x.seq) |>.getD 0)
  | .window c => { ctx := c }
  | _ => {}

/-- A read that the decoder has worked on (R378): the data it returns, the symbol it has corrected, or that the error is
uncorrectable. -/
structure EccRead where
  data : List Byte
  symbol : Option Nat := none
  uncorrectable : Bool := false
  deriving DecidableEq, Repr

/-- The bits of an access's 64 bytes that errors of its data symbols turn over. Data symbol `i` is the data pin `i`, and
beat `t` of the burst carries bit 16t + i (R343, R377, assumption log 153). -/
def flipMask (l : List (Fin 18 × BitVec 32)) : Nat :=
  l.foldl (fun m p => if 16 ≤ p.1.val then m
    else m ^^^ ((List.range 32).map (fun t => if p.2.getLsbD t then 2 ^ (16 * t + p.1.val) else 0)).sum) 0

/-- Bytes with bits turned over. -/
def turned (bs : List Byte) (mask : Nat) : List Byte := leBytes bs.length (leNat bs ^^^ mask)

/-- The errors of an access by symbol: the bits in error, and for data of a wrong address what its check symbols differ by
(R377, R378). -/
def symbolErrors (e : ReadError) (wrong : BitVec 64) : List (Fin 18 × BitVec 32) :=
  (List.finRange 18).filterMap (fun s =>
    let own := (e.flips.filter (fun p => p.1 = s)).foldl (fun v p => v ^^^ p.2) 0
    let v := own ^^^ (if s.val = 16 then wrong.setWidth 32 else if s.val = 17 then (wrong >>> 32).setWidth 32 else 0)
    if v = 0 then none else some (s, v))

/-- The decoder's answer to a read (R378): an error confined to one symbol is corrected, any other is uncorrectable unless
it looks like one of a single symbol, and then the wrong bits are turned over. -/
def Device.decodeRead (d : Device) (mpa : Nat) (e : ReadError) : EccRead :=
  let own := ppaOf mpa / 64 * 64
  let src := e.from_.getD own / 64 * 64
  let data := memRead d.mem ((panelOf mpa).val * panelBytes + src) 64
  match symbolErrors e (Config.checkSymbols data src ^^^ Config.checkSymbols data own) with
  | [] => { data := data }
  | [p] => { data := data, symbol := some p.1.val }
  | l => match Config.eccAlias l with
    | none => { data := data, uncorrectable := true }
    | some f => { data := turned data (flipMask l ^^^ flipMask [f]), symbol := some f.1.val }

/-- A corrected access (R379): what the decoder returned is written back at Ivory class. -/
def Device.correctedAccess (d : Device) (mpa : Nat) (r : EccRead) (symbol : Nat) (b : Blame) : Device :=
  let p := panelOf mpa
  let a := mpa / 64
  let d := if (d.lineOf a).isSome then d else { d with mem := memWrite d.mem (64 * a) r.data }
  let d := d.updPMem p (fun m => { m with corr := satTo 48 (m.corr + 1), rateCount := m.rateCount + 1 })
  let d := d.stackAccess true (mpa / 256) [a] .ivory .nobody
  let m := (d.panel p).mem
  if fieldOf (d.panel p).memEccThresh 31 0 < m.rateCount && !m.rateRecorded then
    (d.updPMem p (fun m => { m with rateRecorded := true })).raise (memRecord mpa 0x0318 0 symbol b)
  else d

/-- The window's outstanding read returns what the decoder made of it. -/
def Device.returned (d : Device) (by_ : Requester) (r : EccRead) : Device :=
  match by_ with
  | .window _ => { d with host := { d.host with winAnswer := d.host.winAnswer.map (fun a => (r.data, a.2)) } }
  | _ => d

/-- The answer to an outstanding window read becomes poison (R381, R821). -/
def Device.poisonAnswer (d : Device) : Device :=
  { d with host := { d.host with winAnswer := d.host.winAnswer.map (fun a => (a.1, true)) } }

/-- What a requester does with poisoned data (R381). -/
def Device.consumePoison (d : Device) (r : Requester) : Device :=
  match r with
  | .descriptor c n => d.failRunning c n 0x0312
  | .window _ => d.poisonAnswer
  | _ => d

/-- Mark a stored access as one that ECC cannot correct (R380). A line that was filled from it, and not written since, holds
poison. -/
def Device.markFaulty (d : Device) (access : Nat) : Device :=
  let k := access % 4
  let mark (l : SpoolLine) : SpoolLine :=
    if l.unit = access / 4 && !l.dirty && !l.bad.contains k then { l with bad := k :: l.bad } else l
  { d.updPanel (panelOf (access * 64)) (fun q => q.updSpool (List.map mark)) with
    faulty := if d.faulty.contains access then d.faulty else access :: d.faulty }

/-- MEMORY_READ_RETURN (R377 to R382). Data already taken by a descriptor stay as it took them (assumption log 155). -/
def Device.readReturn (d : Device) (mpa : Nat) (e : ReadError) (by_ : Requester) : Device :=
  if mpaEnd ≤ mpa || !(d.panel (panelOf mpa)).memOn then d
  else
    let a := mpa / 64
    let r := d.decodeRead mpa e
    let d := d.dequeueMem mpa by_
    if d.isPoison a then d.consumePoison by_
    else if d.faulty.contains a || r.uncorrectable then ((d.markFaulty a).ueRead a (d.blameOf by_)).consumePoison by_
    else match r.symbol with
      | some s => (d.correctedAccess mpa r s (d.blameOf by_)).returned by_ r
      | none => if r.data = memRead d.mem (64 * a) 64 then d else d.returned by_ r

/-- The length of a rate window in ns (R379). -/
def Panel.windowNs (p : Panel) : Nat := fieldOf p.memScrub 7 0 * 3600000000000

/-- RATE_WINDOW_END (R379): the next window and its scrub pass begin. -/
def Device.rateWindowEnd (d : Device) (p : PanelId) : Device :=
  let q := d.panel p
  if q.memOn && q.windowNs ≤ d.now - q.mem.windowSince then
    d.updPMem p (fun m => { m with windowSince := m.windowSince + q.windowNs, rateCount := 0, rateRecorded := false,
                                   scrubbed := [] })
  else d

/-- SCRUB_READ (R383, R384) of one access of a panel, once in a scrub period. A retired page is skipped. -/
def Device.scrubRead (d : Device) (p : PanelId) (access : Nat) (e : ReadError) : Device :=
  let q := d.panel p
  let ppa := access * 64
  let mpa := p.val * panelBytes + ppa
  let a := mpa / 64
  if !q.memOn || !bitOf q.memCtl 1 || panelBytes ≤ ppa || q.retires ppa || q.mem.scrubbed.contains access then d
  else
    let r := d.decodeRead mpa e
    let d := (d.updPMem p (fun m => { m with scrubbed := access :: m.scrubbed })).count p
      { code := 0x044, cls := some .ivory, unit := some (interleave ppa).stack } 1
    if d.isPoison a then d
    else if d.faulty.contains a || r.uncorrectable then
      ((d.latchUe mpa).raise (memRecord mpa 0x0314 1 0xFF {})).poisonAccesses [a]
    else match r.symbol with
      | some s => d.correctedAccess mpa r s {}
      | none => d

/-! ## Refresh, maintenance and sensors (R365 to R369) -/

/-- The refresh interval in ns of a code (R367). -/
def refreshNs (code : Nat) : Nat := if code = 0 then 5160 else if code = 1 then 2580 else 1290

/-- A time kept for a channel. -/
def timeOf (l : List (Nat × Nat)) (ch : Nat) : Option Nat := (l.find? (fun x => x.1 = ch)).map (fun x => x.2)

/-- Set a channel's time. -/
def timeSet (l : List (Nat × Nat)) (ch t : Nat) : List (Nat × Nat) := (ch, t) :: l.filter (fun x => x.1 != ch)

/-- An interval has passed since a channel's time, if there is one. -/
def dueSince (l : List (Nat × Nat)) (ch now n : Nat) : Bool :=
  match timeOf l ch with
  | some t => decide (n ≤ now - t)
  | none => true

/-- Change one stack of a panel. -/
def PanelMem.updStack (m : PanelMem) (s : Fin 4) (f : StackState → StackState) : PanelMem :=
  { m with stackStates := m.stackStates.set s.val (f m.stackStates[s.val]) s.isLt }

/-- A record that names a stack (R638). -/
def stackRecord (p : PanelId) (s : Fin 4) (reason : Code) : ErrRec :=
  { reason := reason, mech := 0x0B, outcome := 2, panel := p.val, unit := 4 * p.val + s.val }

/-- REFRESH (R367, R368): a refresh that is due on a trained stack; a sampled change of the interval takes effect. -/
def Device.refresh (d : Device) (p : PanelId) (s : Fin 4) (ch : Fin 128) : Device :=
  let m := (d.panel p).mem
  let k := 128 * s.val + ch.val
  let st := m.stackStates[s.val]
  if !m.trained.getLsbD s.val || !dueSince m.refreshed k d.now (refreshNs st.refresh) then d
  else
    let d := d.updPMem p (fun m => { m.updStack s (fun x => { x with refresh := x.refreshNext }) with refreshed := timeSet m.refreshed k d.now })
    if st.refresh = st.refreshNext then d else d.raise (stackRecord p s 0x0316)

/-- INTERFACE_MAINTENANCE (R369): every 2.0 µs, and never within 400 ns of a refresh. -/
def Device.maintain (d : Device) (p : PanelId) (s : Fin 4) (ch : Fin 128) : Device :=
  let m := (d.panel p).mem
  let k := 128 * s.val + ch.val
  let apart := match timeOf m.refreshed k with
    | some t => decide (t + 400 ≤ d.now) && decide (d.now + 400 ≤ t + refreshNs m.stackStates[s.val].refresh)
    | none => true
  if m.trained.getLsbD s.val && dueSince m.maintained k d.now 2000 && apart then
    d.updPMem p (fun m => { m with maintained := timeSet m.maintained k d.now })
  else d

/-- The channel is busy with a refresh, 160 ns, or with maintenance, 98 ns (R367, R369). -/
def Device.channelBusy (d : Device) (m : PanelMem) (k : Nat) : Bool :=
  (timeOf m.refreshed k).any (fun t => decide (d.now < t + 160)) || (timeOf m.maintained k).any (fun t => decide (d.now < t + 98))

/-- One access slot of a channel in whose queue requests wait (R343, R361): a refresh or maintenance that is due takes
precedence, else the next request is issued. -/
def Device.channelSlot (d : Device) (p : PanelId) (k : Nat) : Device :=
  let s : Fin 4 := Fin.ofNat 4 (k / 128)
  let ch : Fin 128 := Fin.ofNat 128 (k % 128)
  let m := (d.panel p).mem
  if d.channelBusy m k then d
  else if m.trained.getLsbD s.val && dueSince m.refreshed k d.now (refreshNs m.stackStates[s.val].refresh) then d.refresh p s ch
  else
    let e := d.maintain p s ch
    if (e.panel p).mem.maintained != m.maintained then e
    else
      let q := m.queueOf k
      let held := m.throttledChannel k && decide (fieldOf (d.panel p).memCtl 11 8 ≤ d.now / 5 % 16)
      let d := if held && q.any MemRequest.throttles then d.count p { code := 0x047, unit := some (k / 128) } 1 else d
      match nextIssue q held (m.batchOf k) with
      | some (r, left) => d.updPMem p (fun m => (m.setQueue k (q.erase r)).setBatch k (if (q.erase r).any (fun x => x.write) then left else 0))
      | none => d

/-- Requests that waited for a place enter their queues in their order (R360). -/
def PanelMem.admitWaiting (m : PanelMem) : PanelMem :=
  if m.stalled.isEmpty then m else m.stalled.foldl PanelMem.enqueue { m with stalled := [] }

/-- Every channel issues one access in each 5 ns slot (R343, R361). -/
def Device.issueRequests (d : Device) : Device :=
  if d.now % 5 != 0 then d
  else (List.finRange 8).foldl (fun (d : Device) p =>
    let qs := (d.panel p).mem.queues
    if qs.isEmpty && (d.panel p).mem.stalled.isEmpty then d
    else (qs.foldl (fun (d : Device) q => d.channelSlot p q.1) d).updPMem p PanelMem.admitWaiting) d

/-- The refresh code that a sample selects, with the hysteresis of R368. -/
def refreshAfter (cur t : Nat) : Nat :=
  if 95 < t || (cur = 2 && 92 < t) then 2 else if 85 < t || (1 ≤ cur && 82 < t) then 1 else 0

/-- STACK_SENSOR_SAMPLE (R365, R366, R368). -/
def Device.stackSample (d : Device) (p : PanelId) (s : Fin 4) (t : Nat) : Device :=
  let st := (d.panel p).mem.stackStates[s.val]
  let thr := decide (92 < t) || (st.throttled && decide (89 < t))
  let d := d.updPMem p (fun m => m.updStack s (fun x => { x with temp := t, throttled := thr,
                                                                 refreshNext := refreshAfter x.refreshNext t }))
  if thr = st.throttled then d else d.raise (stackRecord p s 0x0317)

/-! ## The host window (R392 to R398, R818 to R821) -/

/-- CXL.mem requests reach the device: the link is up in CXL mode, CXL.mem is enabled and decoder 0 is committed
(R799, R819). -/
def Device.windowOn (d : Device) : Bool := d.hostUp && d.host.memEnabled && d.host.hdm.committed

/-- How a window access resolves (R395, R398). -/
inductive WindowPlace where
  | unmapped
  | bad
  | at_ (ctx : Code) (mpa : Nat)
  deriving DecidableEq, Repr

/-- The entry and the place of a window offset. A retired page, a failed translation and a host frame answer as poison. -/
def Device.windowPlace (d : Device) (offset : Nat) (write : Bool) : WindowPlace :=
  match d.openRegions.find? (fun r => r.offset ≤ offset && offset < r.offset + r.bytes) with
  | none => .unmapped
  | some r =>
    if !(if write then r.write else r.read) || d.host.hdm.size ≤ offset then .unmapped
    else match d.ctx? r.ctx with
      | none => .unmapped
      | some c =>
        let ca := r.base + (offset - r.offset)
        match d.translate c (if write then ca else viewTarget c.sets [] ca) write with
        | .ok (.dev mpa) => if write && bankWriteDenied c.sets ca then .bad else .at_ c.id mpa
        | .error 0x0221 => .unmapped
        | _ => .bad

/-- Count an unmapped access (R395). -/
def Device.countUnmapped (d : Device) : Device := { d with unmapped := satTo 32 (d.unmapped + 1) }

/-- The answer to a window access: its bytes and the poison indication (R821). -/
def Device.answerWindow (d : Device) (bs : List Byte) (poison : Bool) : Device :=
  { d with host := { d.host with winAnswer := some (bs, poison) } }

/-- The map array is read for a window access: the entry that translates is kept (R418), one that ECC cannot correct writes
its record (R380). -/
def Device.windowMap (d : Device) (offset : Nat) (write : Bool) : Device :=
  match d.openRegions.find? (fun r => r.offset ≤ offset && offset < r.offset + r.bytes) with
  | none => d
  | some r => match d.ctx? r.ctx with
    | none => d
    | some c =>
      let ca := r.base + (offset - r.offset)
      let ca := if write then ca else viewTarget c.sets [] ca
      match d.translate c ca write with
      | .ok _ => d.cacheEntry c (ca / 2 ^ 21) (.window c.id) { ctx := c.id }
      | .error _ => d.mapFault c ca (.window c.id) { ctx := c.id }

/-- A window read of 64 bytes (R395). -/
def Device.windowRead (d : Device) (offset : Nat) : Device :=
  let o := offset / 64 * 64
  if !d.windowOn then d
  else
    let place := d.windowPlace o false
    let d := d.countHub { code := 0x103 } 1
    match place with
    | .unmapped => d.countUnmapped.answerWindow (freeBytes d.fresh 64) true |> fun d => { d with fresh := d.fresh + 64 }
    | .bad => ((d.windowMap o false).answerWindow (freeBytes d.fresh 64) true) |> fun d => { d with fresh := d.fresh + 64 }
    | .at_ ctx mpa =>
      let (d, bs, bad) := (d.windowMap o false).loadMpa mpa 64 .stream (fun _ => false) .indigo (.window ctx) { ctx := ctx }
      d.answerWindow bs bad

/-- The bytes of a line that a mask enables, the others as they are. -/
def maskedLine (old new : List Byte) (mask : BitVec 64) : List Byte :=
  (old.zip new).zipIdx.map (fun p => if mask.getLsbD p.2 then p.1.2 else p.1.1)

/-- A write of the bytes of one access that a mask enables (R356). -/
def Device.storeMasked (d : Device) (mpa : Nat) (line : List Byte) (mask : BitVec 64) (by_ : Requester) (b : Blame) : Device :=
  if mask = BitVec.allOnes 64 then d.storeMpa mpa line .stream .indigo by_ b
  else
    let (d, bad) := d.mergeReads mpa 1 b
    { d with mem := memWrite d.mem mpa (maskedLine (memRead d.mem mpa 64) line mask) }.writeUnit mpa 64 (mpa / 256) bad .stream .indigo by_

/-- A window write of the bytes of a line that `mask` enables (R356, R395, R396), marked poisoned by the host or not. -/
def Device.windowWrite (d : Device) (offset : Nat) (data : List Byte) (mask : BitVec 64) (poison : Bool) : Device :=
  let o := offset / 64 * 64
  if !d.windowOn then d
  else
    let place := d.windowPlace o true
    let d := d.countHub { code := 0x103 } 1
    match place with
    | .unmapped => d.countUnmapped.answerWindow [] false
    | .bad => (d.windowMap o true).answerWindow [] false
    | .at_ ctx mpa =>
      let d := (d.windowMap o true).storeMasked mpa ((data ++ List.replicate 64 0).take 64) mask (.window ctx) { ctx := ctx }
      (if poison then d.poisonStored [mpa / 64] else d).answerWindow [] false

/-! ## MEM_WINDOW descriptors (R392, R393, R397) -/

/-- The checks of a MEM_WINDOW OPEN. -/
def Device.windowOpenCheck (d : Device) (c : Context) (x : Desc) : Option Code :=
  let n := x.f 48 8
  let o := x.f 56 8
  if x.bits 33 1 7 2 != 0 || x.f 34 2 != 0 || x.f 36 4 != 0 || !((List.range 64).all (fun i => x.f (64 + i) 1 = 0)) then some 0x0906
  else if !c.rights.getLsbD 3 then some 0x0320
  else if x.f 40 8 % 2 ^ 21 != 0 || n = 0 || n % 2 ^ 21 != 0 || o % 2 ^ 21 != 0
      || (if d.host.hdm.committed then d.host.hdm.size else 0) < o + n || 64 ≤ d.openRegions.length
      || d.openRegions.any (fun r => rangesOverlap r.offset r.bytes o n) then some 0x0321
  else none

/-- An OPEN takes effect. -/
def Device.windowOpen (d : Device) (id : Code) (x : Desc) : Device :=
  { d with openRegions := d.openRegions ++ [{ ctx := id, base := x.f 40 8, bytes := x.f 48 8, offset := x.f 56 8,
                                              read := x.bit 33 1 0, write := x.bit 33 1 1 }] }

/-- The checks of a MEM_WINDOW CLOSE. -/
def Device.windowCloseCheck (d : Device) (c : Context) (x : Desc) : Option Code :=
  if x.f 34 2 != 0 || x.f 36 4 != 0 || !((List.range 64).all (fun i => x.f (64 + i) 1 = 0)) then some 0x0906
  else if !c.rights.getLsbD 3 then some 0x0320
  else if !d.openRegions.any (fun r => r.ctx = c.id && r.offset = x.f 56 8) then some 0x0322
  else none

/-- Window accesses accepted for an entry have not all completed (R397). -/
def Device.windowBusy (d : Device) (id : Code) : Bool :=
  d.panels.toList.any (fun p => p.mem.stalled.any (fun r => r.requester = .window id)
    || p.mem.queues.any (fun q => q.2.any (fun r => r.requester = .window id)))

/-- A CLOSE removes its entry. -/
def Device.windowClose (d : Device) (id : Code) (offset : Nat) : Device :=
  { d with openRegions := d.openRegions.filter (fun r => !(r.ctx = id && r.offset = offset)) }

/-- Every entry of a context that leaves goes (R397). -/
def Device.windowDrop (d : Device) (id : Code) : Device := { d with openRegions := d.openRegions.filter (fun r => r.ctx != id) }

/-! ## The commands -/

/-- MEM_ENABLE (R402). -/
def execMemEnable (panel : PanelId) (value : BitVec 32) (s : State) : Out :=
  s.run (fun d => d.memCtlWrite panel (value.setWidth 64) 0xFFFFFFFF)
/-- MEM_DISABLE (R400). -/
def execMemDisable (panel : PanelId) (value : BitVec 32) (s : State) : Out :=
  s.run (fun d => d.memCtlWrite panel (value.setWidth 64) 0xFFFFFFFF)
/-- RETIRE_LOAD (R388, R926). -/
def execRetireLoad (panel : PanelId) (value : BitVec 32) (s : State) : Out :=
  s.run (fun d => d.retireCtlWrite panel (value.setWidth 64) 0xFFFFFFFF)
/-- RETIRE_LOAD_DONE (R388, R926). -/
def execRetireLoadDone (panel : PanelId) (s : State) : Out := s.run (fun d => d.retireLoadDone panel)
/-- MEM_RETIRE_ADD (R389). -/
def execMemRetireAdd (panel : PanelId) (value : BitVec 32) (s : State) : Out :=
  s.run (fun d => d.retireAdd panel (value.toNat % 2 ^ 23))
/-- MEMORY_READ_RETURN (R378). -/
def execMemoryReadReturn (mpa : Nat) (error : ReadError) (by_ : Requester) (s : State) : Out :=
  s.run (fun d => d.readReturn mpa error by_)
/-- RATE_WINDOW_END (R379). -/
def execRateWindowEnd (panel : PanelId) (s : State) : Out := s.run (fun d => d.rateWindowEnd panel)
/-- SCRUB_READ (R383). -/
def execScrubRead (panel : PanelId) (access : Nat) (error : ReadError) (s : State) : Out :=
  s.run (fun d => d.scrubRead panel access error)
/-- REFRESH (R367). -/
def execRefresh (panel : PanelId) (stack : Fin 4) (channel : Fin 128) (s : State) : Out :=
  s.run (fun d => d.refresh panel stack channel)
/-- INTERFACE_MAINTENANCE (R369). -/
def execInterfaceMaintenance (panel : PanelId) (stack : Fin 4) (channel : Fin 128) (s : State) : Out :=
  s.run (fun d => d.maintain panel stack channel)
/-- STACK_SENSOR_SAMPLE (R368). -/
def execStackSensorSample (panel : PanelId) (stack : Fin 4) (hottest : BitVec 8) (s : State) : Out :=
  s.run (fun d => d.stackSample panel stack hottest.toNat)
/-- REQUEST_PROMOTION (R362). -/
def execRequestPromotion (panel : PanelId) (channel : Fin 512) (s : State) : Out := s.run (fun d => d.promote panel channel)
/-- MEMRD (R395). -/
def execMemrd (offset : Nat) (s : State) : Out := s.run (fun d => d.windowRead offset)
/-- MEMRDDATA (R395). -/
def execMemrddata (offset : Nat) (s : State) : Out := s.run (fun d => d.windowRead offset)
/-- MEMWR (R395, R396). -/
def execMemwr (offset : Nat) (data : List Byte) (poison : Bool) (s : State) : Out :=
  s.run (fun d => d.windowWrite offset data (BitVec.allOnes 64) poison)
/-- MEMWRPTL (R395, R396). -/
def execMemwrptl (offset : Nat) (data : List Byte) (mask : BitVec 64) (poison : Bool) (s : State) : Out :=
  s.run (fun d => d.windowWrite offset data mask poison)
/-- MEMINV (R798): answered Cmp as a no-op. -/
def execMeminv (_ : Nat) (s : State) : Out := s.run (fun d => if d.hostUp && d.host.memEnabled then d.answerWindow [] false else d)

end Sys2Proof.Machine
end

