-- ==== Sys2Proof/Machine/Needle.lean ====
section
/-! DEFINITION. Needle time (02_needle_time.md): the counter, its states, markers, election, holdover. -/

namespace Sys2Proof.Machine

/-- `n` marker intervals have passed since a time; the interval is STITCH_NS / 2^MARKERS_LOG2 ns (R47). -/
def Device.intervalsPassed (d : Device) (since n : Nat) : Bool :=
  n * d.stitchNs ≤ (d.now - since) * 2 ^ fieldOf d.regs.needleCfg 23 20

/-- TREADLE_RANK (R34). -/
def Device.rank (d : Device) : Nat := fieldOf d.regs.needleCtl 15 8

/-- The module's own 64-bit source identity: the low 8 bytes of DEVICE_ID (assumption log 7). -/
def ownIdentity : BitVec 64 := deviceId.setWidth 64

/-- Source (rank, identity) `a` is better than `b` (R35). -/
def betterSource (a b : Nat × BitVec 64) : Bool := a.1 < b.1 || (a.1 = b.1 && a.2.toNat < b.2.toNat)

/-- Change the Needle part of the device. -/
def Device.updNeedle (d : Device) (f : Needle → Needle) : Device := { d with needle := f d.needle }

/-- A descriptor held for its start position: checked with START_EN, or begun before a start that is not reached (R60). -/
def Desc.heldForStart (x : Desc) (position : Nat) : Bool :=
  let word := BitVec.ofNat 64 (rawField x.raw 16 8)
  bitOf word 63 && match x.phase with
    | .checked => true
    | .running => decide (position < fieldOf word 59 0)
    | _ => false

/-- Every descriptor held for its start position fails with a status (R49, R56). -/
def Device.failHeld (d : Device) (status : Code) : Device :=
  { d with contexts := d.contexts.map (fun c => { c with rings := c.rings.map (fun r =>
      match r.head? with
      | none => r
      | some h => if h.heldForStart d.position then
          { r with queue := r.queue.map (fun x => if x.seq = h.seq then { x with phase := .finished status } else x) }
        else r) }) }

/-- Enter a state: its record names the old state, the new state and the reason (R53). A counter that stops keeps its
position (R49). The count of markers in lock begins after the entry (assumption log 137). -/
def Device.needleTo (d : Device) (new : NeedleState) (reason : Code) (outcome : Nat) : Device :=
  let old := d.needle.state
  let position := d.position
  let d := if new = .lost then d.failHeld 0x0608 else d
  let d := d.updNeedle (fun n => { n with
    state := new, held := position, entered := d.now, inLock := 0,
    holdUs := if old = .holdover then (d.now - n.lastValid) / 1000 else n.holdUs,
    reason := if reason = 0 then n.reason else reason,
    stitchOut := if new = .disabled then none else n.stitchOut })
  (d.raise { reason := reason, mech := 0x0E, outcome := outcome,
             detail := BitVec.ofNat 128 (old.code + 256 * new.code) }).updateGuard

/-- The first tick of a stitch at which the position equals or passes an angle (R29, R31). -/
def tickOfAngle (stitchNs angle : Nat) : Nat := ceilDiv (angle * stitchNs) 4096

/-- The stitch and tick at which a loaded position is reached: an angle that no tick of its stitch reaches is reached at
the next edge (R29, R31, assumption log 30). -/
def landing (stitchNs stitch angle : Nat) : Nat × Nat :=
  let t := tickOfAngle stitchNs angle
  if t < stitchNs then (stitch, t) else ((stitch + 1) % 2 ^ 48, 0)

/-- Load the counter from HUB.NEEDLE_LOAD (R51). -/
def Device.loadNeedle (d : Device) : Device :=
  let at_ := landing d.stitchNs (fieldOf d.regs.needleLoad 59 12) (fieldOf d.regs.needleLoad 11 0)
  d.updNeedle (fun n => { n with stitch := at_.1, tick := at_.2, arrived := true })

/-- The checks of R887 and R70, in order. -/
def Device.needleChecks (d : Device) : Option (Code × Nat) :=
  let r := d.regs
  let ns := d.stitchNs
  let ml := fieldOf r.needleCfg 23 20
  let job := bitOf r.needleCtl 1
  let ports (v : BitVec 64) : Bool := (List.finRange 24).all (fun n => !bitOf v n.val || (d.port n).enabled)
  match d.escalationCode with
  | some c => some (c, 0xFF)
  | none => firstFailure [
      (1000 ≤ ns && ns ≤ 1000000, 0x0601, 0x01),
      (ml ≤ 8 && 1000 * 2 ^ ml ≤ ns && ns ≤ 20000 * 2 ^ ml, 0x0602, 0x01),
      (!job || r.needleJob != 0, 0x0603, 0x02),
      (!job || fieldOf r.needleSrc 23 0 != 0 || d.rank < 255, 0x0604, 0x03),
      (ports r.needleSrc, 0x0605, 0x03),
      (ports r.needleOut, 0x0605, 0x04),
      (fieldOf r.needleLoad 59 12 < 0xFFFF00000000, 0x0606, 0x05),
      (d.rank != 0, 0x060E, 0x00)]

/-- A write to HUB.NEEDLE_CTL that leaves EN clear, or finds it set and leaves it set: the fields alone (R879). -/
def Device.needleCtlFields (d : Device) (value : BitVec 32) : Device :=
  if d.needleOn then d
  else { d with regs := { d.regs with needleCtl := mergeBits d.regs.needleCtl (value.setWidth 64) 0xFF02 } }

/-- Setting HUB.NEEDLE_CTL.EN (R70, R880 to R882): a passed enable starts the counter in FREE or LISTEN (R50). It writes 0
to REASON as R882 has it, where R53 would leave REASON unchanged (assumption log 135). -/
def Device.needleEnable (d : Device) (value : BitVec 32) : Device :=
  if d.needleOn then d
  else
    let d := d.needleCtlFields value
    if !value.getLsbD 0 then d
    else match d.needleChecks with
      | some (c, b) => d.updNeedle (fun n => { n with reason := c, badReg := b })
      | none =>
        let d := { d with regs := { d.regs with needleCtl := setBit d.regs.needleCtl 0 true } }
        let d := d.updNeedle (fun n => { n with reason := 0, badReg := 0, source := none, hop := 0, takenOver := none })
        if bitOf d.regs.needleCtl 1 then d.needleTo .listen 0 2
        else d.loadNeedle.needleTo .free 0 2

/-- Clearing HUB.NEEDLE_CTL.EN (R50, R51, R56): the counter stops where it stands. -/
def Device.needleDisable (d : Device) (value : BitVec 32) : Device :=
  if !d.needleOn then d.needleCtlFields value
  else if value.getLsbD 0 then d
  else
    let d := { d with regs := { d.regs with needleCtl := setBit d.regs.needleCtl 0 false } }
    (d.failHeld 0x0607).needleTo .disabled 0 2

/-- A marker's settings equal the receiver's (R42). -/
def Device.markerMatches (d : Device) (m : Marker) : Bool :=
  m.jobId.setWidth 64 = d.regs.needleJob && m.stitchNs.toNat = d.stitchNs
    && m.markersLog2.toNat = fieldOf d.regs.needleCfg 23 20

/-- Load the counter with a marker's arrival position: POSITION, DEPART_PS and the one-way delay (R43, R57), rounded down
to a whole tick (assumption log 30). -/
def Device.loadArrival (d : Device) (port : PortId) (m : Marker) : Device :=
  let ns := d.stitchNs
  let ps : Int := (m.angle.toNat * ns * 1000 / 4096 : Nat) + signedOf 16 m.departPs.toNat
    + ((d.port port).rtt.toNat * 50 : Nat)
  let t := ps / 1000
  let stitch : Int := m.stitch.toNat + t / ns
  d.updNeedle (fun n => { n with stitch := (stitch % (2 ^ 48 : Nat)).toNat, tick := (t % ns).toNat, arrived := true })

/-- The steering of the loop within its range of ±100 ppm; while it slews onto a source, at most 50 ppm from the last one
(R46). In units of 10 ppb, from a free number. -/
def steering (old : BitVec 16) (slews : Bool) (free : Nat) : BitVec 16 :=
  if slews then BitVec.ofInt 16 (max (-10000) (min 10000 (old.toInt + (free % 10001 : Nat) - 5000)))
  else BitVec.ofInt 16 ((free % 20001 : Nat) - 10000)

/-- Follow the source of a valid marker: phase, steering and lock count (R46). The loop's steering has no formula in
the manual and is a free value within its range (assumption log 3). -/
def Device.follow (d : Device) (port : PortId) (m : Marker) (phase : BitVec 16) : Device :=
  let slews := d.needle.state = .holdover || d.needle.state = .reacquiring
  let (d, f) := drawFree d 64
  let ok := -50 ≤ phase.toInt && phase.toInt ≤ 50
  d.updNeedle (fun n => { n with
    source := some ⟨m.rank.toNat, m.sourceId, m.ext, port, m.hop.toNat⟩, hop := m.hop.toNat,
    phase := phase, freq := steering n.freq slews f, lastValid := d.now, lastSource := d.now,
    inLock := if ok then n.inLock + 1 else 0 })

/-- Meeting the lock criterion: 64 consecutive valid markers within 5 ns (R46, R50). -/
def Device.lockIfMet (d : Device) : Device := if 64 ≤ d.needle.inLock then d.needleTo .locked 0 2 else d

/-- A valid marker is heard: it keeps the module from holdover whatever its source (R46), and a candidate from a
takeover when its source is better than the module itself (R37). -/
def Device.heard (d : Device) (key : Nat × BitVec 64) : Device :=
  d.updNeedle (fun n => { n with
    lastValid := d.now, lastBetter := if betterSource key (d.rank, ownIdentity) then d.now else n.lastBetter })

/-- A marker of this source is followed: no better source is followed, or the followed one has been silent for 4 marker
intervals, so that it reaches the module no longer (R35, assumption log 138). -/
def Device.follows (d : Device) (key : Nat × BitVec 64) : Bool := match d.needle.source with
  | none => true
  | some s => !betterSource (s.rank, s.identity) key || d.intervalsPassed d.needle.lastSource 4

/-- A valid marker, by state (R35, R38, R50, R57). -/
def Device.validMarker (d : Device) (port : PortId) (m : Marker) (phase : BitVec 16) : Device :=
  let key := (m.rank.toNat, m.sourceId)
  let followed := d.follows key
  let d := d.heard key
  match d.needle.state with
  | .listen => (((d.loadArrival port m).follow port m phase).needleTo .acquiring 0 2)
  | .acquiring | .reacquiring => if followed then (d.follow port m phase).lockIfMet else d
  | .locked => if followed then d.follow port m phase else d
  | .holdover => ((d.follow port m phase).needleTo .reacquiring 0 2)
  | .treadle =>
    if betterSource key (d.rank, ownIdentity) then
      match d.needle.takenOver with
      | some t => if d.intervalsPassed t 8 then d.updNeedle (fun n => { n with reason := 0x060D })
                  else (d.follow port m phase).needleTo .reacquiring 0 2
      | none => d.updNeedle (fun n => { n with reason := 0x060D })
    else d
  | _ => d

/-- No valid marker has reached the module for 4 marker intervals, or none since the enable. -/
def Device.hearsNone (d : Device) : Bool := d.needle.source.isNone || d.intervalsPassed d.needle.lastValid 4

/-- A marker arrives (R42): one that is not valid never disciplines the counter; 0x060A and 0x060B say why (R71). Other
settings are judged before the hop count, and 0x060B shows only while no valid marker arrives (assumption log 136). -/
def Device.markerReceive (d : Device) (port : PortId) (m : Marker) (phase : BitVec 16) : Device :=
  if !(d.needleOn && bitOf d.regs.needleCtl 1 && bitOf d.regs.needleSrc port.val
      && ((d.port port).state = .up || (d.port port).state = .draining)) then d
  else if !d.markerMatches m then d.updNeedle (fun n => { n with reason := 0x060A })
  else if 8 < m.hop.toNat then (if d.hearsNone then d.updNeedle (fun n => { n with reason := 0x060B }) else d)
  else if m.srcHoldover then d
  else (d.countHub { code := 0x122, unit := some port.val } 1).validMarker port m phase

/-- A marker flit arrives on a port that is up: a flit of channel 0 (R39, R840), then a marker. -/
def Device.markerFlit (d : Device) (port : PortId) (m : Marker) (phase : BitVec 16) : Device :=
  if (d.port port).state = .up || (d.port port).state = .draining then
    (d.countHub { code := 0x118, unit := some port.val } 1).markerReceive port m phase
  else d

/-- The tick is a marker position: a stitch edge or a multiple of 4,096 / 2^MARKERS_LOG2 angles (R40). -/
def Device.atMarkerPosition (d : Device) : Bool :=
  let n := 2 ^ fieldOf d.regs.needleCfg 23 20
  (List.range n).any (fun k => tickOfAngle d.stitchNs (k * (4096 / n)) = d.needle.tick)

/-- The marker a module sends (R40, R41): hop 0 at the Treadle, one more than the followed source elsewhere.
DEPART_PS is measured at departure and is a free value (assumption log 3). -/
def Device.ownMarker (d : Device) (seq : BitVec 32) : Marker :=
  let treadle := d.needle.state = .treadle
  { hop := if treadle then 0 else BitVec.ofNat 8 (d.needle.hop + 1),
    rank := BitVec.ofNat 8 (match d.needle.source with | some s => if treadle then d.rank else s.rank | none => d.rank),
    jobId := d.regs.needleJob.setWidth 32,
    stitch := BitVec.ofNat 48 d.needle.stitch,
    angle := BitVec.ofNat 12 (angleOf d.stitchNs d.needle.tick),
    srcHoldover := !(treadle || d.needle.state = .locked),
    ext := match d.needle.source with | some s => !treadle && s.ext | none => false,
    stitchNs := BitVec.ofNat 20 d.stitchNs,
    markersLog2 := BitVec.ofNat 4 (fieldOf d.regs.needleCfg 23 20),
    departPs := BitVec.ofNat 16 (Config.freeNat d.fresh),
    sourceId := match d.needle.source with | some s => if treadle then ownIdentity else s.identity | none => ownIdentity,
    seq := seq }

/-- The position word of a marker: stitch, angle, SRC_HOLDOVER in bit 63, EXTERNAL in bit 62 (R32, R41). -/
def markerPosition (m : Marker) : BitVec 64 :=
  BitVec.ofNat 64 (posNat m.stitch.toNat m.angle.toNat + (if m.srcHoldover then 2 ^ 63 else 0) + (if m.ext then 2 ^ 62 else 0))

/-- The 256 bytes of a marker flit (R41). -/
def markerBytes (m : Marker) : List Byte :=
  leBytes 2 0x0001 ++ leBytes 1 m.hop.toNat ++ leBytes 1 m.rank.toNat ++ leBytes 4 m.jobId.toNat
    ++ leBytes 8 (markerPosition m).toNat ++ leBytes 4 (m.stitchNs.toNat + m.markersLog2.toNat * 2 ^ 20)
    ++ leBytes 2 m.departPs.toNat ++ leBytes 2 0 ++ leBytes 8 m.sourceId.toNat ++ leBytes 4 m.seq.toNat
    ++ List.replicate 220 0

/-- The marker that a flit's bytes carry (R41): none for another TYPE. -/
def markerOfFlit (bs : List Byte) : Option Marker :=
  let f := bytesField bs
  if f 0 2 != 0x0001 then none
  else some { hop := BitVec.ofNat 8 (f 2 1), rank := BitVec.ofNat 8 (f 3 1), jobId := BitVec.ofNat 32 (f 4 4),
              stitch := BitVec.ofNat 48 (f 8 8 / 4096), angle := BitVec.ofNat 12 (f 8 8), srcHoldover := (f 8 8).testBit 63,
              ext := (f 8 8).testBit 62, stitchNs := BitVec.ofNat 20 (f 16 4), markersLog2 := BitVec.ofNat 4 (f 16 4 / 2 ^ 20),
              departPs := BitVec.ofNat 16 (f 20 2), sourceId := BitVec.ofNat 64 (f 24 8), seq := BitVec.ofNat 32 (f 32 4) }

/-- A port that is UP and enabled in HUB.NEEDLE_OUT sends markers (R40). -/
def Device.sendsMarker (d : Device) (p : PortId) : Bool := bitOf d.regs.needleOut p.val && (d.port p).state = .up

/-- At a marker position, the Treadle sends and every other module of the job re-emits a marker on each port of
HUB.NEEDLE_OUT (R40). It takes the port's next flit slot (R39, R523). -/
def Device.markerEmit (d : Device) : Device :=
  let here := (d.needle.stitch, d.needle.tick)
  if !(bitOf d.regs.needleCtl 1 && d.needle.state.runs && d.atMarkerPosition && d.needle.emitted != some here) then d
  else
    let seqs := d.needle.outSeq
    { d with
      ports := Vector.ofFn (fun p =>
        if d.sendsMarker p then { d.port p with markerOut := some (d.ownMarker seqs[p.val]) } else d.port p),
      needle := { d.needle with
        emitted := some here,
        outSeq := Vector.ofFn (fun p : Fin 24 => if d.sendsMarker p then seqs[p.val] + 1 else seqs[p.val]) },
      fresh := d.fresh + 1 }

/-- Election (R36): a candidate 8 marker intervals in LISTEN loads its counter and becomes the Treadle. -/
def Device.election (d : Device) : Device :=
  if d.needle.state = .listen && 1 ≤ d.rank && d.rank ≤ 254 && d.intervalsPassed d.needle.entered 8 then
    d.loadNeedle.needleTo .treadle 0 2
  else d

/-- Takeover (R37): a candidate in HOLDOVER whose source has been silent for 8 + (rank − 1) marker intervals, with no valid
marker from a better source than itself in that time, becomes the Treadle with its own count. -/
def Device.takeover (d : Device) : Device :=
  if d.needle.state = .holdover && 1 ≤ d.rank && d.rank ≤ 254 && d.intervalsPassed d.needle.lastSource (7 + d.rank)
      && d.intervalsPassed d.needle.lastBetter (7 + d.rank) then
    (d.needleTo .treadle 0 2).updNeedle (fun n => { n with takenOver := some d.now, source := none, hop := 0 })
  else d

/-- 4 marker intervals without a valid marker (R46, R50). -/
def Device.holdoverEntry (d : Device) : Device :=
  if d.intervalsPassed d.needle.lastValid 4 then
    match d.needle.state with
    | .locked => d.needleTo .holdover 0 2
    | .reacquiring => d.needleTo .lost 0 2
    | _ => d
  else d

/-- 2 s in HOLDOVER, counted from the last valid marker (R42, R46, R50). -/
def Device.holdoverLimit (d : Device) : Device :=
  if d.needle.state = .holdover && 2000000000 ≤ d.now - d.needle.lastValid then d.needleTo .lost 0 2 else d

/-- 50 ms in ACQUIRING without lock (R50). -/
def Device.lockTimeout (d : Device) : Device :=
  if d.needle.state = .acquiring && 50000000 ≤ d.now - d.needle.entered then d.needleTo .lost 0x060C 2 else d

/-- 2 s in REACQUIRING without lock (R50). -/
def Device.reacquireTimeout (d : Device) : Device :=
  if d.needle.state = .reacquiring && 2000000000 ≤ d.now - d.needle.entered then d.needleTo .lost 0 2 else d

/-- The duplicated counters disagree (R50, R53, R624): LOST, but in DISABLED and LOST only the record and the reason. -/
def Device.counterFault (d : Device) : Device :=
  match d.needle.state with
  | .disabled | .lost =>
    let d := d.updNeedle (fun n => { n with reason := 0x012C })
    d.raise { reason := 0x012C, mech := 0x0E, outcome := 1,
              detail := BitVec.ofNat 128 (d.needle.state.code + 256 * d.needle.state.code) }
  | _ => d.needleTo .lost 0x012C 1

/-- NEEDLE_ENABLE (R70). -/
def execNeedleEnable (value : BitVec 32) (s : State) : Out := s.run (fun d => d.needleEnable value)
/-- NEEDLE_DISABLE (R50). -/
def execNeedleDisable (value : BitVec 32) (s : State) : Out := s.run (fun d => d.needleDisable value)
/-- MARKER_RECEIVE (R42). -/
def execMarkerReceive (port : PortId) (m : Marker) (phase : BitVec 16) (s : State) : Out :=
  s.run (fun d => d.markerFlit port m phase)
/-- MARKER_EMIT (R40). -/
def execMarkerEmit (s : State) : Out := s.run Device.markerEmit
/-- ELECTION (R36). -/
def execElection (s : State) : Out := s.run Device.election
/-- TAKEOVER (R37). -/
def execTakeover (s : State) : Out := s.run Device.takeover
/-- HOLDOVER_ENTRY (R46). -/
def execHoldoverEntry (s : State) : Out := s.run Device.holdoverEntry
/-- HOLDOVER_LIMIT (R50). -/
def execHoldoverLimit (s : State) : Out := s.run Device.holdoverLimit
/-- LOCK_TIMEOUT (R50). -/
def execLockTimeout (s : State) : Out := s.run Device.lockTimeout
/-- REACQUIRE_TIMEOUT (R50). -/
def execReacquireTimeout (s : State) : Out := s.run Device.reacquireTimeout
/-- NEEDLE_COUNTER_FAULT (R50). -/
def execNeedleCounterFault (s : State) : Out := s.run Device.counterFault
/-- STITCH_OUT_END (R905): 500 ns after the pulse began, STITCH_OUT returns low. -/
def execStitchOutEnd (s : State) : Out :=
  s.run (fun d => match d.needle.stitchOut with
    | some t => if 500 ≤ d.now - t then d.updNeedle (fun n => { n with stitchOut := none }) else d
    | none => d)

end Sys2Proof.Machine
end

