-- ==== Sys2Proof/Machine/Fabric.lean ====
section
/-! DEFINITION. The fabric's shared operations (09_optical_fabric.md): packets, routes, the loss of packets, port states,
replay, and the choice of the next codeword. -/

/-! ## Packets -/

namespace Sys2Proof

/-- The virtual channel of a packet's type (R513, R557). -/
def PktBody.vc : PktBody → Fin 5
  | .readRequest _ | .writeRequest _ => 1
  | .readData _ | .writeAck | .refusal _ | .lossNotice | .relayAck _ => 2
  | .tally _ | .returnData _ => 3
  | .relayBlock _ | .collData _ => 4
  | .relayGrant _ | .joinNotice _ | .exponentPair _ | .exponentResult _ | .noise _ | .collGrant _ | .ready _ | .decide _
  | .abort _ => 0

/-- The payload bytes of a packet. -/
def PktBody.bytes : PktBody → Nat
  | .writeRequest b | .readData b => b.length
  | .relayBlock b => b.data.length
  | .tally w => w.words.length
  | .returnData r => r.data.length
  | .collData c => c.data.length
  | _ => 0

/-- The flits of a packet: a header, and data flits for more than 128 bytes (R512, R514). -/
def Packet.flits (p : Packet) : Nat := 1 + (if p.body.bytes ≤ 128 then 0 else ceilDiv p.body.bytes 256)

/-- A request (R513). -/
def PktBody.isRequest : PktBody → Bool
  | .readRequest _ | .writeRequest _ => true
  | _ => false

/-- The answer to a packet: its ends exchanged, its transaction tag returned (R514). -/
def Packet.reply (p : Packet) (body : PktBody) : Packet :=
  { head := { p.head with dstMod := p.head.srcMod, dstPanel := p.head.srcPanel, srcMod := p.head.dstMod,
                          srcPanel := p.head.dstPanel, dstCtx := p.head.srcCtx, srcCtx := p.head.dstCtx, age := 0,
                          layer := false, poisonMask := 0 },
    body := body }

end Sys2Proof

namespace Sys2Proof.Machine

/-- This module's number (R526). -/
def Device.modNum (d : Device) : BitVec 15 := BitVec.ofNat 15 (fieldOf d.regs.fabCfg 14 0)

/-- MAX_AGE_US in ns. -/
def Device.maxAgeNs (d : Device) : Nat := fieldOf d.regs.fabCfg 27 16 * 1000

/-- RESP_TIMEOUT_US in ns. -/
def Device.respTimeoutNs (d : Device) : Nat := fieldOf d.regs.fabCfg 45 32 * 1000

/-- The tenant domain of a context: none for a non-confidential one (R783). -/
def Context.tenant (c : Context) : Option (BitVec 320) :=
  if c.confidential then some (BitVec.ofNat 320 (c.authority.toNat + c.jobTag.toNat * 2 ^ 256)) else none

/-! ## What a lost packet fails (R533, R537, R558) -/

/-- A descriptor that has not finished fails; a finished or unknown one stays. -/
def Device.failSeq (d : Device) (ctx : Code) (ring : RingId) (seq : Nat) (status : Code) : Device :=
  match d.desc? ctx ring seq with
  | none => d
  | some x => match x.phase with
    | .finished _ => d
    | _ => ((d.dropFill ctx x).discardRuns (fun r => r.ctx = ctx && r.ring = ring && r.seq = seq)).failDesc ctx ring x status

/-- A member learns that a module of its communicator is lost (R558). -/
def Device.learnLost (d : Device) (ctx : Code) (commId : BitVec 32) (m : BitVec 15) : Device :=
  d.updCtx ctx (fun c => { c with comms := c.comms.map (fun k =>
    if k.commId = commId && !k.lostMods.contains m.toNat then { k with lostMods := m.toNat :: k.lostMods } else k) })

/-- The communicator that a packet belongs to. -/
def commOf? (b : PktBody) : Option (BitVec 32) :=
  match b with
  | .joinNotice n => some n.commId
  | .exponentPair p | .exponentResult p => some p.commId
  | .tally w => some w.commId
  | .noise n => some n.commId
  | .returnData r => some r.commId
  | .collGrant g => some g.commId
  | .collData c => some c.commId
  | _ => none

/-- An exchange of this module failed with a code: its outstanding entry goes, and the descriptor fails, or the
communicator learns of the loss. A refusal fails a collective with its own code. -/
def Device.exchangeFailed (d : Device) (o : Outstanding) (code : Code) : Device :=
  let d := { d with fabric := { d.fabric with outstanding := d.fabric.outstanding.filter (fun x => x.xtag != o.xtag) } }
  match o.comm with
  | some k =>
    if code = 0x0420 || code = 0x0421 || code = 0x0422 then d.learnLost o.ctx k o.dstMod else d.failSeq o.ctx o.ring o.seq code
  | none => d.failSeq o.ctx o.ring o.seq code

/-- A packet that this module sent is lost. -/
def Device.ownPacketLost (d : Device) (p : Packet) (code : Code) : Device :=
  match d.fabric.outstanding.find? (fun o => o.xtag = p.head.xtag) with
  | some o => d.exchangeFailed o code
  | none => match commOf? p.body with
    | some k => d.learnLost p.head.srcCtx k p.head.dstMod
    | none => d

/-! ## Routes (R527 to R532) -/

/-- The ROUTE word of a destination in the active table (R527). -/
def Device.routeWord (d : Device) (dst : BitVec 15) : Option (BitVec 32) :=
  d.fabric.active.bind (fun t => (t.route[dst.toNat]?).filter (fun w => w.getLsbD 31))

/-- A port can carry a packet of a virtual channel: it is UP, and its peer is no timing unit (R506). -/
def Device.portUsable (d : Device) (n : PortId) (vc : Fin 5) : Bool :=
  let q := d.port n
  q.state = .up && (vc = 0 || !(q.peer.any (fun p => p.ext)))

/-- Port number of a 5-bit field; a loaded image holds none above 23. -/
def portOf (n : Nat) : PortId := Fin.ofNat 24 n

/-- The hop that a packet takes: egress and its UP bit (R528, R689). -/
def Device.hop (d : Device) (dst : BitVec 15) (vc : Fin 5) : Option (PortId × Bool) :=
  if d.fabric.deadMods.contains dst then none
  else match d.routeWord dst with
  | none => none
  | some w =>
    let pri := portOf (w.toNat % 32)
    let alt := portOf (w.toNat / 2 ^ 10 % 32)
    if d.portUsable pri vc then some (pri, w.getLsbD 29)
    else if w.getLsbD 28 && d.portUsable alt vc then some (alt, w.getLsbD 27)
    else none

/-- TURN[ingress][layer] permits an egress (R529). -/
def Device.turnAllows (d : Device) (ingress : Fin 25) (layer : Bool) (e : PortId) : Bool :=
  d.fabric.active.any (fun t => (t.turn[2 * ingress.val + (if layer then 1 else 0)]?).any (fun m => m.getLsbD e.val))

/-- Put a packet into an egress queue. -/
def Device.queueAt (d : Device) (e : PortId) (input : Fin 25) (p : Packet) : Device :=
  d.updPort e (fun q =>
    let v : Fin 5 := p.body.vc
    { q with queues := q.queues.set v.val (q.queues[v.val] ++ [{ input := input, pkt := p, sent := 0, since := d.now }]) v.isLt })

/-- Set the route use of a destination. -/
def Device.setUse (d : Device) (u : RouteUse) : Device :=
  { d with fabric := { d.fabric with uses := u :: d.fabric.uses.filter (fun x => x.dst != u.dst) } }

/-- Queue a packet on its egress, or hold it while the destination's egress changes (R528). -/
def Device.queueVia (d : Device) (e : PortId) (input : Fin 25) (p : Packet) : Device :=
  let dst := p.head.dstMod
  match d.fabric.uses.find? (fun u => u.dst = dst) with
  | none => (d.setUse { dst := dst, egress := e, lastQueued := d.now }).queueAt e input p
  | some u =>
    match u.holdUntil with
    | some _ => d.setUse { u with held := u.held ++ [(input, p, d.now)] }
    | none =>
      if u.egress = e then (d.setUse { u with lastQueued := d.now }).queueAt e input p
      else if u.lastQueued + d.maxAgeNs ≤ d.now then
        (d.setUse { u with egress := e, lastQueued := d.now }).queueAt e input p
      else d.setUse { u with holdUntil := some (u.lastQueued + d.maxAgeNs), held := [(input, p, d.now)] }

/-- Flits of a channel leave the receive buffer of the port that they came in by, and their credits go back (R519). -/
def Device.freed (d : Device) (ingress : Fin 25) (v : Fin 5) (k : Nat) : Device :=
  if h : ingress.val < 24 then
    d.updPort ⟨ingress.val, h⟩ (fun q =>
      let n := min k q.occupied[v.val]
      { q with occupied := q.occupied.set v.val (q.occupied[v.val] - n) v.isLt, toReturn := q.toReturn ++ List.replicate n v })
  else d

/-- Count a packet whose turn is not permitted (R529). -/
def Device.countTurnDrop (d : Device) (n : PortId) : Device :=
  d.updPort n (fun q => { q with turnDrops := satTo 16 (q.turnDrops + 1) })

/-- Route a packet from an ingress: queued, held, delivered to this module, or the code for which it is lost. -/
def Device.route (d : Device) (ingress : Fin 25) (p : Packet) : Device × Option Code :=
  if p.head.dstMod = d.modNum && (d.routeWord p.head.dstMod).any (fun w => w.getLsbD 30)
      || (ingress.val = 24 && p.head.dstMod = d.modNum) then
    ({ d with fabric := { d.fabric with inbox := d.fabric.inbox ++ [(ingress, p)] } }.freed ingress p.body.vc p.flits, none)
  else match d.hop p.head.dstMod p.body.vc with
    | none => (d, some 0x0421)
    | some (e, up) =>
      if !d.turnAllows ingress p.head.layer e then
        (d.countTurnDrop (if h : ingress.val < 24 then ⟨ingress.val, h⟩ else e), some 0x0420)
      else (d.queueVia e ingress { p with head := { p.head with layer := p.head.layer || up } }, none)

/-- Answer for a packet that this module discards (R529, R537, R538): its own operation fails; another's source gets a
loss notice for its request or transfer, when a route to it exists. -/
def Device.discarded (d : Device) (p : Packet) (code : Code) : Device :=
  if p.head.srcMod = d.modNum then d.ownPacketLost p code
  else match p.body with
    | .lossNotice | .refusal _ | .abort _ | .decide _ => d
    | _ => if p.body.vc = 2 then d else (d.route 24 { (p.reply .lossNotice) with
        head := { (p.reply .lossNotice).head with srcMod := d.modNum } }).1

/-- Forward a packet from an ingress, or answer for its loss; of packets of other modules whose turn is not permitted only
requests are answered (R529). -/
def Device.forward (d : Device) (ingress : Fin 25) (p : Packet) : Device :=
  match d.route ingress p with
  | (d, none) => d
  | (d, some code) =>
    let d := d.freed ingress p.body.vc p.flits
    if code = 0x0420 && p.head.srcMod != d.modNum && !p.body.isRequest then d else d.discarded p code

/-- A packet sent by this module. -/
def Device.emit (d : Device) (p : Packet) : Device := d.forward 24 p

/-- A request or transfer to a module is under way under the next transaction tag; tag 0 is that of packets that nothing
waits for (R516, R533). -/
def Device.track (d : Device) (dst : BitVec 15) (o : Outstanding) : Device :=
  let x := d.fabric.nextXtag
  let o := { o with xtag := x, dstMod := dst, deadline := d.now + d.respTimeoutNs }
  { d with fabric := { d.fabric with nextXtag := if x + 1 = 0 then 1 else x + 1, outstanding := d.fabric.outstanding ++ [o] } }

/-- A packet sent by a descriptor or exchange that waits for its response (R516, R533). -/
def Device.emitTracked (d : Device) (p : Packet) (o : Outstanding) : Device :=
  (d.track p.head.dstMod o).emit { p with head := { p.head with xtag := d.fabric.nextXtag } }

/-- The response to an outstanding entry arrived. -/
def Device.acknowledged (d : Device) (xtag : BitVec 32) : Device × Option Outstanding :=
  match d.fabric.outstanding.find? (fun o => o.xtag = xtag) with
  | none => (d, none)
  | some o => ({ d with fabric := { d.fabric with outstanding := d.fabric.outstanding.filter (fun x => x.xtag != xtag) } }, some o)

/-- Some request or transfer of a descriptor is still unanswered. -/
def Device.awaits (d : Device) (ctx : Code) (ring : RingId) (seq : Nat) : Bool :=
  d.fabric.outstanding.any (fun o => o.ctx = ctx && o.ring = ring && o.seq = seq && o.exch.isNone)

/-- Some tally word or slice of an exchange is still unanswered. -/
def Device.awaitsExch (d : Device) (ctx : Code) (k : BitVec 32) (e : Exchange) : Bool :=
  d.fabric.outstanding.any (fun o => o.ctx = ctx && o.comm = some k && o.exch = some e)

/-- The time added to a packet's AGE, in units of 128 ns (R531). -/
def addAge (age : BitVec 16) (ns : Nat) : BitVec 16 := BitVec.ofNat 16 (satTo 16 (age.toNat + ns / 128))

/-- A flooded packet, which every module takes (R589). -/
def isFlood : PktBody → Bool
  | .decide _ | .abort _ => true
  | _ => false

/-- A packet of this age is discarded (R531). -/
def Device.tooOld (d : Device) (age : BitVec 16) : Bool := decide (d.maxAgeNs < age.toNat * 128)

/-- A packet is discarded for its age at a port: counted, and recorded once per port per stitch (R531). -/
def Device.ageDiscard (d : Device) (n : PortId) : Device :=
  let d := { d with fabric := { d.fabric with ageDiscards := satTo 24 (d.fabric.ageDiscards + 1) } }
  if (d.port n).ageRecorded = some d.needle.stitch then d
  else (d.updPort n (fun q => { q with ageRecorded := some d.needle.stitch })).raise
    { reason := 0x0419, mech := 0x07, outcome := 1, unit := n.val }

/-- The AGE of a queued packet with its residence time (R531). -/
def QueuedPacket.age (e : QueuedPacket) (now : Nat) : BitVec 16 := addAge e.pkt.head.age (now - e.since)

/-- Packets that have grown too old in an egress queue are discarded before they begin to leave (R531). -/
def Device.ageOut (d : Device) (n : PortId) : Device :=
  let old (e : QueuedPacket) : Bool := e.sent = 0 && d.tooOld (e.age d.now)
  let gone := (d.port n).queues.toList.flatMap (fun l => l.filter old)
  let d := d.updPort n (fun q => { q with queues := q.queues.map (fun l => l.filter (fun e => !old e)) })
  gone.foldl (fun (d : Device) e => (d.freed e.input e.pkt.body.vc e.pkt.flits).ageDiscard n) d

/-- An arriving packet that is not for this module goes on, is delivered, or is discarded for its age (R529, R531). The
ingress link's one-way delay is half the round trip (R43). -/
def Device.arrive (d : Device) (ingress : Fin 25) (p : Packet) : Device :=
  let delay := if h : ingress.val < 24 then (d.port ⟨ingress.val, h⟩).rtt.toNat / 20 else 0
  let p := { p with head := { p.head with age := addAge p.head.age delay } }
  if isFlood p.body then
    { d with fabric := { d.fabric with inbox := d.fabric.inbox ++ [(ingress, p)] } }.freed ingress p.body.vc p.flits
  else if d.tooOld p.head.age then
    let d := d.freed ingress p.body.vc p.flits
    if h : ingress.val < 24 then d.ageDiscard ⟨ingress.val, h⟩
    else { d with fabric := { d.fabric with ageDiscards := satTo 24 (d.fabric.ageDiscards + 1) } }
  else d.forward ingress p

/-! ## Ports (R507 to R511, R535 to R537) -/

/-- The cartridge that feeds a port (R14). -/
def cartOf (n : PortId) : CartId := Fin.ofNat 8 n.val

/-- Cartridge `k`. -/
def Device.cart (d : Device) (k : CartId) : Cartridge := d.fabric.carts[k.val]

/-- Change cartridge `k`. -/
def Device.updCart (d : Device) (k : CartId) (f : Cartridge → Cartridge) : Device :=
  { d with fabric := { d.fabric with carts := d.fabric.carts.set k.val (f (d.cart k)) k.isLt } }

/-- A removal request stands for a cartridge (R491). -/
def Device.removeAsked (d : Device) (k : CartId) : Bool := bitOf d.regs.lcCtl k.val

/-- The code of a port state (R507). -/
def PortState.code : PortState → Nat
  | .disabled => 0 | .waitLaser => 1 | .training => 2 | .securing => 3 | .up => 4 | .draining => 5 | .down => 6 | .safe => 7

/-- The error record of a port (R638). -/
def Device.portRecord (d : Device) (n : PortId) (reason : Code) (lane outcome : Nat) : ErrRec :=
  { reason := reason, mech := 0x07, outcome := outcome, unit := n.val, sub := lane,
    detail := BitVec.ofNat 128 (((d.port n).peer.map (fun p => p.modNum.toNat)).getD 0 + (d.port n).state.code * 65536) }

/-- The packets that a port holds: queued, or sent and not yet acknowledged. -/
def Port.packets (q : Port) : List Packet :=
  (q.replayBuf.map (fun f => f.pkt) ++ q.queues.toList.flatMap (fun l => l.map (fun e => e.pkt))).eraseDups

/-- A port without its link layer's contents. -/
def Port.emptied (q : Port) : Port :=
  { q with replayBuf := [], replayCursor := none, recv := [], occupied := Vector.replicate 5 0, queues := Vector.replicate 5 [], markerOut := none,
           linkCtlOut := [], toReturn := [], nakOut := false, locked := false, identified := false, keyed := false,
           uncorrRun := 0, txKey := [], rxKey := [], txSalt := [], rxSalt := [], lastCipher := none }

/-- Every destination whose egress was the port enters the hold (R528, R537). -/
def Device.holdRoutes (d : Device) (n : PortId) : Device :=
  { d with fabric := { d.fabric with uses := d.fabric.uses.map (fun u =>
    if u.egress = n && u.holdUntil.isNone then { u with holdUntil := some (u.lastQueued + d.maxAgeNs) } else u) } }

/-- A port stops carrying traffic: a DOWN codeword leaves, its packets are answered for, its routes enter the hold. -/
def Device.portStop (d : Device) (n : PortId) (new : PortState) (cause : Bool) : Device :=
  let q := d.port n
  let lost := q.packets
  let wasUp := decide (q.state = .up) || decide (q.state = .draining)
  let sent := if wasUp then some (.linkCtl (.down cause), ⟨0, q.lastAck, false, none⟩) else q.lastSent
  let d := d.updPort n (fun q => { q.emptied with state := new, since := d.now, lastSent := sent })
  let d := d.holdRoutes n
  let d := (q.queues.toList.flatMap id).foldl (fun (d : Device) e => d.freed e.input e.pkt.body.vc (e.pkt.flits - e.sent)) d
  lost.foldl (fun d p => d.discarded p 0x0420) d

/-- A port goes DOWN (R535, R537). -/
def Device.portDown (d : Device) (n : PortId) (reason : Code) (lane : Nat) : Device :=
  if (d.port n).state = .disabled || (d.port n).state = .down then d
  else
    let rec_ := d.portRecord n reason lane 1
    let d := d.portStop n .down false
    (d.updPort n (fun q => { q with reason := reason, downCount := satTo 8 (q.downCount + 1) })).raise rec_

/-- A link-up that fails: DOWN with a reason and no error record (R505, R508, R509, R550). -/
def Device.portRefused (d : Device) (n : PortId) (reason : Code) : Device :=
  (d.portStop n .down false).updPort n (fun q => { q with reason := reason, downCount := satTo 8 (q.downCount + 1) })

/-- A port enters TRAINING, when its cartridge reports READY (R507, R508). -/
def Device.portTrain (d : Device) (n : PortId) : Device :=
  if (d.port n).state = .waitLaser && (d.cart (cartOf n)).ready then
    d.updPort n (fun q => { q.emptied with state := .training, since := d.now, peer := none, lastGood := d.now })
  else d

/-- A port is drained: every queued packet has left and been acknowledged (R510). -/
def Port.drained (q : Port) : Bool := q.replayBuf.isEmpty && q.queues.toList.all (fun l => l.isEmpty)

/-- The lasers of a cartridge with a removal request go off once its three ports are SAFE or carry no light (R491). -/
def Device.lasersOff (d : Device) (k : CartId) : Device :=
  let dark (n : PortId) : Bool := match (d.port n).state with
    | .disabled | .waitLaser | .down | .safe => true
    | _ => false
  if d.removeAsked k && (List.finRange 24).all (fun n => cartOf n != k || dark n) then
    d.updCart k (fun c => { c with lasers := false, ready := false })
  else d

/-- A port begins to drain (R510): no new packets; its routes change under the hold. -/
def Device.portDrainStart (d : Device) (n : PortId) : Device :=
  if (d.port n).state = .up then (d.updPort n (fun q => { q with state := .draining })).holdRoutes n else d

/-- The end of a drain (R510, R491). -/
def Device.drainDone (d : Device) (n : PortId) : Device :=
  let q := d.port n
  if q.state = .draining && q.drained && d.removeAsked (cartOf n) then
    (d.portStop n .safe false).lasersOff (cartOf n)
  else d

/-- A drain that ends with neither DRAIN nor a removal request returns the port to UP (R510). -/
def Device.portUndrain (d : Device) (n : PortId) : Device :=
  let q := d.port n
  if q.state = .draining && !bitOf q.ctl 1 && !d.removeAsked (cartOf n) then d.updPort n (fun q => { q with state := .up }) else d

/-- The checks of R887 and R548, in order. -/
def Device.portChecks (d : Device) (n : PortId) : Option (Code × Nat) :=
  let q := d.port n
  let res (v : Nat) : Nat := fieldOf q.creditRes (11 * v + 10) (11 * v)
  let w (v : Nat) : Nat := fieldOf q.arb (4 * v + 3) (4 * v)
  let age := fieldOf d.regs.fabCfg 27 16
  let c := d.cart (cartOf n)
  match d.escalationCode with
  | some c => some (c, 0xFF)
  | none => firstFailure [
      (d.enabled, 0x0405, 0xFF),
      (decide (res 0 + res 1 + res 2 + res 3 + res 4 + fieldOf q.creditShr 10 0 ≤ 1024), 0x0401, 0x01),
      (4 ≤ res 0 && 17 ≤ res 1 && 17 ≤ res 2 && 17 ≤ res 3 && 17 ≤ res 4, 0x0402, 0x01),
      (1 ≤ w 0 && 1 ≤ w 1 && 1 ≤ w 2, 0x0406, 0x03),
      (d.fabric.active.isSome, 0x0403, 0xFF),
      (50 ≤ age && age ≤ 4000 && 2 * age + 10 ≤ fieldOf d.regs.fabCfg 45 32, 0x0407, 0xFF),
      (c.present && !c.fault && !d.removeAsked (cartOf n), 0x0404, 0xFF)]

/-- A write to PORTn.CTL under a mask (R510, R511, R547, R548). -/
def Device.portCtlWrite (d : Device) (n : PortId) (v mask : BitVec 64) : Device :=
  let q := d.port n
  let merged := mergeBits q.ctl v mask
  if q.enabled then
    if !bitOf merged 0 then
      (d.updPort n (fun q => { q with ctl := setBit (setBit q.ctl 1 (bitOf merged 1)) 0 false })).portStop n .disabled false
    else
      let d := d.updPort n (fun q => { q with ctl := setBit q.ctl 1 (bitOf merged 1) })
      if bitOf merged 1 then d.portDrainStart n else d.portUndrain n
  else
    let d := d.updPort n (fun q => { q with ctl := mergeBits q.ctl v (mask &&& 6) })
    if !bitOf merged 0 then d
    else match d.portChecks n with
      | some (c, b) => d.updPort n (fun q => { q with reason := c, badReg := b })
      | none => (d.updPort n (fun q => { q with ctl := setBit q.ctl 0 true, reason := 0, badReg := 0, state := .waitLaser,
                                                 since := d.now, peer := none })).portTrain n

/-! ## Replay (R498 to R501) -/

/-- Begin to resend every unacknowledged flit; a flit already resent 8 times takes the port down (R500). -/
def Device.startReplay (d : Device) (n : PortId) : Device :=
  let q := d.port n
  if q.replayBuf.isEmpty then d
  else if q.replayBuf.any (fun f => 8 ≤ f.resends) then d.portDown n 0x0415 0
  else d.updPort n (fun q => { q with replayCursor := some 0, replays := satTo 24 (q.replays + 1), ackSince := d.now })

/-- The flits up to an acknowledged number leave the replay buffer (R499). -/
def Port.ackUpTo (q : Port) (now : Nat) (ack : BitVec 16) : Port :=
  match q.replayBuf.findIdx? (fun f => f.seq = ack) with
  | none => q
  | some k => { q with replayBuf := q.replayBuf.drop (k + 1), ackSince := now,
                       replayCursor := q.replayCursor.map (fun i => i - (k + 1)) }

/-! ## The next codeword (R523) -/

/-- A channel holds a credit: reserved or shared (R519). -/
def Port.hasCredit (q : Port) (v : Fin 5) : Bool := 0 < q.credits[v.val] || 0 < q.creditsShared

/-- Take a credit of a channel, a reserved one first. -/
def Port.takeCredit (q : Port) (v : Fin 5) : Port :=
  if 0 < q.credits[v.val] then { q with credits := q.credits.set v.val (q.credits[v.val] - 1) v.isLt }
  else { q with creditsShared := q.creditsShared - 1, sharedOut := q.sharedOut.set v.val (q.sharedOut[v.val] + 1) v.isLt }

/-- A returned credit fills a shared loan first (R519). -/
def Port.giveCredit (q : Port) (v : Fin 5) (n : Nat) : Port :=
  let back := min n q.sharedOut[v.val]
  { q with creditsShared := q.creditsShared + back, sharedOut := q.sharedOut.set v.val (q.sharedOut[v.val] - back) v.isLt,
           credits := q.credits.set v.val (q.credits[v.val] + (n - back)) v.isLt }

/-- The input of an egress port that a packet comes by (R524): an ingress port, or a panel's injection. -/
def QueuedPacket.inputNo (e : QueuedPacket) : Nat := if e.input.val < 24 then e.input.val else 24 + e.pkt.head.srcPanel.val

/-- The packet whose flit a channel sends next: the one under way, else the first of the next input in round robin (R512,
R524). -/
def Port.nextOf (q : Port) (v : Fin 5) : Option QueuedPacket :=
  let l := q.queues[v.val]
  let turn (e : QueuedPacket) : Nat := (e.inputNo + 31 - q.lastInput[v.val] % 32) % 32
  (l.find? (fun e => 0 < e.sent)).orElse (fun _ =>
    l.foldl (fun (b : Option QueuedPacket) e => match b with
      | none => some e
      | some x => if turn e < turn x then some e else b) none)

/-- A channel is ready: a flit waits, a credit is there, and the replay buffer has room (R499, R523). -/
def Port.channelReady (q : Port) (v : Fin 5) : Bool :=
  (q.nextOf v).isSome && q.hasCredit v && decide (q.replayBuf.length < 1536)

/-- Weighted round robin over channels 1, 3 and 4 (R523): what is left of each one's weight, refilled when no ready
channel has any left. -/
def Port.pickWeighted (q : Port) : Option (Fin 5) × Vector Nat 3 :=
  let full : Vector Nat 3 := #v[fieldOf q.arb 3 0, fieldOf q.arb 7 4, fieldOf q.arb 11 8]
  let cands : List (Fin 5 × Fin 3) := [(1, 0), (3, 1), (4, 2)]
  let ready := cands.filter (fun c => q.channelReady c.1)
  let take (w : Vector Nat 3) : Option (Fin 5 × Fin 3) := ready.find? (fun c => 0 < w[c.2.val])
  match take q.wrrLeft with
  | some c => (some c.1, q.wrrLeft.set c.2.val (q.wrrLeft[c.2.val] - 1) c.2.isLt)
  | none => match take full with
    | some c => (some c.1, full.set c.2.val (full[c.2.val] - 1) c.2.isLt)
    | none => (none, q.wrrLeft)

/-- The channel of the next new flit (R523, steps 4 to 6), and the weights left. -/
def Port.pickChannel (q : Port) : Option (Fin 5) × Vector Nat 3 :=
  if q.channelReady 0 then (some 0, q.wrrLeft)
  else
    let others := q.channelReady 1 || q.channelReady 3 || q.channelReady 4
    if q.channelReady 2 && !(q.respLast && others) then (some 2, q.wrrLeft) else q.pickWeighted

/-- The channel's next flit leaves: it takes a credit and a sequence number and enters the replay buffer. -/
def Port.sendFlit (q : Port) (now : Nat) (v : Fin 5) (e : QueuedPacket) : Port × SentCodeword :=
  let pkt := { e.pkt with head := { e.pkt.head with age := e.age now } }
  let seq := q.txSeq
  let l := q.queues[v.val]
  let l := if e.sent + 1 = pkt.flits then l.erase e else l.map (fun x => if x = e then { e with pkt := pkt, sent := e.sent + 1, since := now } else x)
  let q := q.takeCredit v
  ({ q with txSeq := seq + 1, queues := q.queues.set v.val l v.isLt,
            lastInput := q.lastInput.set v.val e.inputNo v.isLt, respLast := v = 2,
            ackSince := if q.replayBuf.isEmpty then now else q.ackSince,
            replayBuf := q.replayBuf ++ [{ seq := seq, pkt := pkt, index := e.sent, resends := 0 }] },
   .flit seq pkt e.sent)

/-- What the port sends in this slot (R523). -/
def Port.choose (q : Port) (now : Nat) : Port × SentCodeword :=
  match q.markerOut with
  | some m => ({ q with markerOut := none }, .marker m)
  | none => match q.linkCtlOut with
    | c :: cs => ({ q with linkCtlOut := cs }, .linkCtl c)
    | [] => match q.replayCursor.bind (fun i => (q.replayBuf[i]?).map (fun f => (i, f))) with
      | some (i, f) =>
        ({ q with replayBuf := q.replayBuf.set i { f with resends := f.resends + 1 },
                  replayCursor := if i + 1 < q.replayBuf.length then some (i + 1) else none }, .flit f.seq f.pkt f.index)
      | none =>
        let (v, w) := q.pickChannel
        match v.bind (fun v => (q.nextOf v).map (fun e => (v, e))) with
        | some (v, e) => { q with wrrLeft := w, replayCursor := none }.sendFlit now v e
        | none => ({ q with replayCursor := none }, .idle)

/-- What a port sent in a slot is counted (R840): a flit on its channel, a marker on channel 0 (R39), a flit sent again, or
a slot that stayed idle because every waiting flit lacked its credit. -/
def Device.countSent (d : Device) (n : PortId) (q : Port) (w : SentCodeword) : Device :=
  let ev (code : Nat) : Device := d.countHub { code := code, unit := some n.val } 1
  match w with
  | .flit _ pkt _ => if (q.replayCursor.bind (fun i => q.replayBuf[i]?)).isSome then ev 0x120 else ev (0x110 + pkt.body.vc.val)
  | .marker _ => ev 0x110
  | .linkCtl _ => d
  | .idle => if (List.finRange 5).any (fun v => (q.nextOf v).isSome && !q.hasCredit v) then ev 0x121 else d

/-- The digest of key epoch `e` of direction `dir` (R503): the secret, "MWH8-LINK", the transcript digest, d and e. -/
def linkDigest (x dir e : Nat) : List Byte :=
  digestBytes (Config.sha3 (Config.linkSecret x ++ ascii "MWH8-LINK" ++ Config.linkTranscript x ++ leBytes 1 dir ++ leBytes 8 e))

/-- The direction byte of what this module sends (R503): 0 from the lower module identity, 1 from the other. -/
def Port.direction (q : Port) : Nat := if ((q.peer.map (fun p => decide (ownIdentity.toNat < p.identity.toNat))).getD true) then 0 else 1

/-- The key of the epoch that a codeword index lies in (R504). -/
def Port.keyAt (q : Port) (dir index : Nat) : List Byte := (linkDigest q.exchange dir (index / 2 ^ 32)).take 32

/-- After a key exchange (R503): both directions have the key of epoch 0 and the salt of the same digest. -/
def Port.withKeys (q : Port) (x : Nat) : Port :=
  let out := linkDigest x q.direction 0
  let inn := linkDigest x (1 - q.direction) 0
  { q with exchange := x, txIndex := 0, rxIndex := 0, lastCipher := none,
           txKey := out.take 32, rxKey := inn.take 32, txSalt := (out.drop 32).take 4, rxSalt := (inn.drop 32).take 4 }

/-- A codeword has left: the index advances, and the key changes where the next index begins an epoch (R502, R504). -/
def Port.sentOne (q : Port) : Port :=
  let i := q.txIndex + 1
  { q with txIndex := i, txKey := if i % 2 ^ 32 = 0 then q.keyAt q.direction i else q.txKey,
           lastCipher := if q.state = .up || q.state = .draining then some (q.txKey, q.txSalt ++ leBytes 8 q.txIndex) else q.lastCipher }

/-- A codeword has arrived: the receiver's index and key advance as the sender's do (R504). -/
def Port.gotOne (q : Port) : Port :=
  let i := q.rxIndex + 1
  { q with rxIndex := i, rxKey := if i % 2 ^ 32 = 0 then q.keyAt (1 - q.direction) i else q.rxKey }

/-! ## Codewords as bytes (R494, R495, R502, R514) -/

/-- The kind of a packet and the values of its body but for its payload. -/
def bodyValues (b : PktBody) : Nat × List Nat :=
  let exch : Exchange → List Nat
    | .bucket i => [0, i]
    | .allreduce i => [1, i]
  let kind : TransferKind → List Nat
    | .broadcast => [0]
    | .send => [1]
    | .slice e => 2 :: exch e
  let bit (c : Bool) : Nat := if c then 1 else 0
  let pair (p : ExponentPair) : List Nat :=
    [p.commId.toNat, p.rank] ++ exch p.exch ++ [p.step.toNat, p.elements, p.fmt.toNat, patternOf 32 p.eLoc, bit p.nonFinite]
  match b with
  | .readRequest n => (2, [n])
  | .writeRequest _ => (3, [])
  | .readData _ => (4, [])
  | .writeAck => (5, [])
  | .refusal c => (6, [c.toNat])
  | .lossNotice => (7, [])
  | .relayGrant g => (8, [g.relayId.toNat, g.step, g.steps, g.slotBytes])
  | .relayBlock r => (9, [r.relayId.toNat, r.step, r.offset])
  | .relayAck a => (10, [a.relayId.toNat, a.step])
  | .joinNotice n => (11, [n.commId.toNat, n.rank, n.size, bit n.w24, n.layout, n.stagePages, n.digest.toNat])
  | .exponentPair p => (12, pair p)
  | .exponentResult p => (13, pair p)
  | .tally w => (14, [w.commId.toNat, w.rank] ++ exch w.exch ++ [w.step.toNat, w.first])
  | .noise n => (15, [n.commId.toNat, n.rank, n.bucket, n.step.toNat, bit n.down, n.a.toNat, n.q.toNat])
  | .returnData r => (16, [r.commId.toNat, r.rank] ++ exch r.exch ++ [r.step.toNat, r.first])
  | .collGrant g => (17, [g.commId.toNat, g.rank] ++ kind g.kind ++ [g.nth, g.bytes, g.step.toNat])
  | .collData c => (18, [c.commId.toNat, c.rank] ++ kind c.kind ++ [c.nth, c.offset])
  | .ready r => (19, [r.modNum.toNat, r.step.toNat, r.update.toNat])
  | .decide p => (20, [p.jobId.toNat, p.step.toNat])
  | .abort a => (21, [a.jobId.toNat, a.step.toNat, a.stitch.toNat, a.reason.toNat, a.lost.toNat])

/-- The payload of a packet (R514). -/
def payloadOf (b : PktBody) : List Byte :=
  match b with
  | .writeRequest l | .readData l => l
  | .relayBlock r => r.data
  | .tally w => w.words
  | .returnData r => r.data
  | .collData c => c.data
  | _ => []

/-- The TYPE of a packet (R514, R691). -/
def typeOf (b : PktBody) : BitVec 16 :=
  match b with
  | .abort _ => 0x0041
  | _ => Config.packetType (bodyValues b).1

/-- The TYPE_DATA of a step abort (R691). -/
def abortData (a : AbortPacket) (origin : BitVec 15) : List Byte :=
  leBytes 4 a.jobId.toNat ++ leBytes 4 a.step.toNat ++ leBytes 8 a.stitch.toNat ++ leBytes 2 a.reason.toNat
    ++ leBytes 2 a.lost.toNat ++ leBytes 2 origin.toNat ++ leBytes 2 0

/-- The 64 bytes at the start of a header flit (R514). -/
def headerBytes (p : Packet) : List Byte :=
  let h := p.head
  let (kind, values) := bodyValues p.body
  let data := match p.body with
    | .abort a => abortData a h.srcMod
    | _ => Config.typeData kind values
  leBytes 2 (typeOf p.body).toNat
    ++ leBytes 1 (classCode h.cls + (if h.layer then 4 else 0) + (if h.poisonMask = 0 then 0 else 8)) ++ leBytes 1 (p.flits - 1)
    ++ leBytes 2 h.dstMod.toNat ++ leBytes 1 h.dstPanel.val ++ leBytes 1 h.srcPanel.val ++ leBytes 2 h.srcMod.toNat
    ++ leBytes 2 h.age.toNat ++ leBytes 2 h.dstCtx.toNat ++ leBytes 2 h.srcCtx.toNat ++ leBytes 8 h.addr.toNat
    ++ leBytes 4 (payloadOf p.body).length ++ leBytes 4 h.xtag.toNat ++ leBytes 8 h.poisonMask.toNat
    ++ padTo 24 data

/-- The 256 bytes of a flit of a packet (R512, R514): the header flit carries a short payload inline. -/
def flitBytes (p : Packet) (index : Nat) : List Byte :=
  let data := payloadOf p.body
  if index = 0 then padTo 256 (headerBytes p ++ (if data.length ≤ 128 then data else []))
  else padTo 256 (data.drop (256 * (index - 1)))

/-- The values of a LINK_CTL codeword. -/
def linkCtlBytes (c : LinkCtl) : List Byte :=
  padTo 256 (match c with
    | .down cause => Config.typeData 32 [if cause then 1 else 0]
    | .identity p => Config.typeData 33 [p.modNum.toNat, p.port.toNat, p.identity.toNat]
    | .credits p => Config.typeData 34 (p.reserved.toList ++ [p.shared]))

/-- KIND and channel of a codeword (R495). -/
def kindOf (w : SentCodeword) : Nat × Nat :=
  match w with
  | .idle => (0, 0)
  | .flit _ p _ => (1, p.body.vc.val)
  | .marker _ => (2, 0)
  | .linkCtl _ => (3, 0)

/-- Bytes 0 to 7 of a trailer (R495). -/
def trailerHead (w : SentCodeword) (t : SentTrailer) : List Byte :=
  let (kind, vc) := kindOf w
  leBytes 2 t.txSeq.toNat ++ leBytes 2 t.ackSeq.toNat
    ++ leBytes 2 ((t.credit.map (fun v => v.val * 2 ^ 13 + 1)).getD 0)
    ++ leBytes 1 (kind + 4 + (if t.nak then 8 else 0) + (if t.credit.isSome then 16 else 0) + vc * 32) ++ leBytes 1 0

/-- One bit of CRC-32C. -/
def crcStep (c : BitVec 32) : BitVec 32 := if c.getLsbD 0 then (c >>> 1) ^^^ 0x82F63B78 else c >>> 1

/-- CRC-32C of bytes. -/
def crc32c (bs : List Byte) : BitVec 32 :=
  ~~~(bs.foldl (fun (c : BitVec 32) b => crcStep (crcStep (crcStep (crcStep (crcStep (crcStep (crcStep (crcStep
    (c ^^^ b.setWidth 32))))))))) (BitVec.allOnes 32))

/-- The 300 bytes of a codeword (R494, R495, R502): the body, encrypted under key and IV where they are given, the trailer,
and the parity. An IDLE codeword has an empty plaintext and a body of zeros. -/
def codewordBytes (cipher : Option (List Byte × List Byte)) (w : SentCodeword) (t : SentTrailer) : List Byte :=
  let plain := match w with
    | .idle => []
    | .flit _ p i => flitBytes p i
    | .marker m => markerBytes m
    | .linkCtl c => linkCtlBytes c
  let aad := trailerHead w t
  let (text, tag) := match cipher with
    | some (key, iv) => Config.gcmSeal key iv aad plain
    | none => (plain, [])
  let body := padTo 256 text
  let tag := padTo 12 tag
  let data := body ++ aad ++ leBytes 4 (crc32c (body ++ aad ++ tag)).toNat ++ tag
  data ++ padTo 20 (Config.rsParity data)

/-- The input whose buffer a new flit has left. -/
def inputOf (n : Nat) : Fin 25 := if h : n < 24 then ⟨n, by omega⟩ else 24

/-- NEXT_CODEWORD (R490, R523, R499, R502): the codeword, its trailer, and the index that its encryption uses. -/
def Device.nextCodeword (d : Device) (n : PortId) : Device :=
  let d := d.ageOut n
  let q := d.port n
  let active := match q.state with
    | .up | .draining => true
    | .training | .securing => true
    | _ => false
  if !active || !(d.cart (cartOf n)).ready then d
  else
    let r : Port × SentCodeword := if q.state = .up || q.state = .draining then q.choose d.now
      else match q.linkCtlOut with
        | c :: cs => ({ q with linkCtlOut := cs }, .linkCtl c)
        | [] => (q, .idle)
    let seq := match r.2 with
      | .flit s _ _ => s
      | _ => 0
    let sent := r.1.sentOne
    let trailer : SentTrailer := ⟨seq, q.lastAck, q.nakOut, q.toReturn.head?⟩
    let cipher := if q.state = .up || q.state = .draining then sent.lastCipher else none
    let d := (d.updPort n (fun _ => { sent with nakOut := false, toReturn := q.toReturn.drop 1, lastSent := some (r.2, trailer),
                                                wire := codewordBytes cipher r.2 trailer })).countSent n q r.2
    match r.2 with
    | .flit _ p _ =>
      if (q.replayCursor.bind (fun i => q.replayBuf[i]?)).isSome then d
      else d.freed (inputOf sent.lastInput[p.body.vc.val]) p.body.vc 1
    | _ => d

end Sys2Proof.Machine
end

