-- ==== Sys2Proof/Machine/FabricRows.lean ====
section
/-! DEFINITION. The events of ports, cartridges, routes and remote accesses (09_optical_fabric.md). -/

namespace Sys2Proof.Machine

/-! ## Cartridges (R490 to R493) -/

/-- The ports that a cartridge feeds (R14). -/
def portsOf (k : CartId) : List PortId := (List.finRange 24).filter (fun n => cartOf n = k)

/-- A removal request begins: the cartridge's ports drain (R491, step 1). -/
def Device.removeStart (d : Device) (k : CartId) : Device :=
  ((portsOf k).foldl (fun d n => match (d.port n).state with
    | .up => d.portDrainStart n
    | .training | .securing => d.portStop n .safe false
    | _ => d) d).lasersOff k

/-- A removal request ends: the identity is read and the lasers come up; the ports train again (R491, step 4). -/
def Device.removeEnd (d : Device) (k : CartId) (genuine : Bool) : Device :=
  let c := d.cart k
  let d := d.updCart k (fun c => { c with genuine := genuine, lasers := c.present && genuine, fault := c.present && !genuine,
                                          ready := c.ready && c.present && genuine, since := d.now })
  (portsOf k).foldl (fun d n => match (d.port n).state with
    | .safe => (d.updPort n (fun q => { q with state := .waitLaser, since := d.now })).portTrain n
    | .draining => if c.present then d.portUndrain n else d
    | _ => d) d

/-- A write to HUB.LC_CTL under a mask. `genuine` says what each cartridge's identity reads as. -/
def Device.lcCtlWrite (d : Device) (v mask : BitVec 64) (genuine : BitVec 8) : Device :=
  let old := d.regs.lcCtl
  let new := mergeBits old v (mask &&& 0xFF)
  let d := { d with regs := { d.regs with lcCtl := new } }
  (List.finRange 8).foldl (fun d k =>
    if bitOf new k.val && !bitOf old k.val then d.removeStart k
    else if !bitOf new k.val && bitOf old k.val then d.removeEnd k (genuine.getLsbD k.val)
    else d) d

/-- The lasers of a cartridge are locked (R490, R491); they come on at the end of the boot. -/
def Device.lasersLocked (d : Device) (k : CartId) : Device :=
  let c := d.cart k
  if c.present && c.genuine && c.lasers && !c.fault && !c.ready && !d.removeAsked k then
    (portsOf k).foldl (fun d n => d.portTrain n) (d.updCart k (fun c => { c with ready := true }))
  else d

/-- 2 s without a lock (R493). -/
def Device.lockTimeout2s (d : Device) (k : CartId) : Device :=
  let c := d.cart k
  if c.present && c.lasers && !c.ready && 2000000000 ≤ d.now - c.since then d.updCart k (fun c => { c with fault := true })
  else d

/-- A bay latch opens (R492). -/
def Device.latchOpen (d : Device) (k : CartId) : Device :=
  if !(d.cart k).present then d
  else
    let d := d.updCart k (fun c => { c with present := false, lasers := false, ready := false, fault := false })
    (portsOf k).foldl (fun d n => match (d.port n).state with
      | .up | .draining | .training | .securing => d.portDown n 0x0418 0
      | .waitLaser => if d.removeAsked k then d else d.portDown n 0x0418 0
      | _ => d) d

/-- A bay latch closes after an insertion: the cartridge is present. Without a removal request its lasers come up. -/
def Device.latchClose (d : Device) (k : CartId) : Device :=
  if (d.cart k).present then d
  else d.updCart k (fun c => { c with present := true, since := d.now, lasers := d.thimble.booted && c.genuine && !d.removeAsked k })

/-! ## Link-up (R503 to R509) -/

/-- This module's identity as it presents it (R503). -/
def Device.ownPeer (d : Device) (n : PortId) : PeerIdentity :=
  { trusted := true, debugOpen := d.thimble.debugOpen, ext := false, modNum := d.modNum, port := BitVec.ofNat 5 n.val,
    identity := ownIdentity, rtt100ps := 0 }

/-- The credits that this module advertises (R508, R519). -/
def Port.ownCredits (q : Port) : PeerCredits :=
  { reserved := Vector.ofFn (fun v : Fin 5 => fieldOf q.creditRes (11 * v.val + 10) (11 * v.val)), shared := fieldOf q.creditShr 10 0 }

/-- CODEWORD_LOCK (R508, step 3). -/
def Device.codewordLock (d : Device) (n : PortId) : Device :=
  let q := d.port n
  if q.state = .training && !q.locked then
    d.updPort n (fun q => { q with locked := true, lastGood := d.now, linkCtlOut := q.linkCtlOut ++ [.identity (d.ownPeer n)] })
  else d

/-- The peer's refusal, if any (R505, R509, R789): a debug-open module refuses a production module. -/
def Device.peerRefusal (d : Device) (n : PortId) (p : PeerIdentity) : Option Code :=
  let e := (d.port n).peerExpect
  if !p.trusted || (p.debugOpen && !d.thimble.debugOpen) || (d.thimble.debugOpen && !p.debugOpen && !p.ext) then some 0x0412
  else if (bitOf e 31 && fieldOf e 14 0 != p.modNum.toNat) || p.identity = ownIdentity then some 0x0411
  else none

/-- LINK_CTL_IDENTITY (R508, steps 4 and 5). -/
def Device.linkIdentity (d : Device) (n : PortId) (p : PeerIdentity) : Device :=
  let q := d.port n
  if !(q.state = .training && q.locked && !q.identified) then d
  else match d.peerRefusal n p with
    | some c => (d.updPort n (fun q => { q with peer := some p })).portRefused n c
    | none => d.updPort n (fun q => { q with peer := some p, rtt := p.rtt100ps, identified := true })

/-- KEY_EXCHANGE_DONE (R503, R508 step 6). -/
def Device.keyExchange (d : Device) (n : PortId) (ok : Bool) : Device :=
  let q := d.port n
  if !(q.state = .training && q.identified) then d
  else if !ok then d.portRefused n 0x0413
  else
    let d' := { d with fresh := d.fresh + 1 }
    d'.updPort n (fun q =>
      let k := q.withKeys d.fresh
      { k with state := .securing, keyed := true, linkCtlOut := q.linkCtlOut ++ [.credits q.ownCredits] })

/-- LINK_TRAINING_COMPLETE (R508, step 7): the port is UP, or DRAINING while DRAIN or a removal request stands. -/
def Device.trainingComplete (d : Device) (n : PortId) (c : PeerCredits) : Device :=
  let q := d.port n
  if !(q.state = .securing && q.keyed) then d
  else
    let d := d.updPort n (fun q => { q with state := .up, credits := c.reserved, creditsShared := c.shared,
                                            sharedOut := Vector.replicate 5 0, txSeq := 0, rxSeq := 0,
                                            lastAck := 0xFFFF, lastGood := d.now, ackSince := d.now })
    let peer := q.peer.map (fun p => p.modNum)
    let d := { d with fabric := { d.fabric with deadMods := d.fabric.deadMods.filter (fun m => some m != peer) } }
    if bitOf q.ctl 1 || d.removeAsked (cartOf n) then d.portDrainStart n else d

/-- PORT_TRAIN_TIMEOUT (R508). -/
def Device.trainTimeout (d : Device) (n : PortId) : Device :=
  let q := d.port n
  if (q.state = .training || q.state = .securing) && decide (100000000 ≤ d.now - q.since) then d.portRefused n 0x0410 else d

/-! ## Codewords received (R496 to R500) -/

/-- The port carries traffic. -/
def Port.live (q : Port) : Bool := q.state = .up || q.state = .draining

/-- LINK_CTL DOWN from the peer (R535, R688, R689). -/
def Device.peerDown (d : Device) (n : PortId) (moduleCause : Bool) : Device :=
  let q := d.port n
  if !(q.live || q.state = .training || q.state = .securing) then d
  else
    let d := d.portDown n 0x0417 0
    match q.peer with
    | some p =>
      if moduleCause then
        let d := { d with fabric := { d.fabric with deadMods := p.modNum :: d.fabric.deadMods.filter (fun m => m != p.modNum) } }
        { d with contexts := d.contexts.map (fun c => { c with comms := c.comms.map (fun k =>
          if k.lostMods.contains p.modNum.toNat then k else { k with lostMods := p.modNum.toNat :: k.lostMods }) }) }
      else d
    | none => d

/-- Count a refused packet (R518). -/
def Device.countRefused (d : Device) : Device :=
  { d with fabric := { d.fabric with refused := satTo 8 (d.fabric.refused + 1) } }

/-- A flit accepted in sequence enters the receive buffer; a whole packet goes on (R498, R519). -/
def Device.acceptFlit (d : Device) (n : PortId) (pkt : Packet) (index : Nat) : Device :=
  let got := if index = 0 then 1 else
    (((d.port n).recv.find? (fun r => r.1 = pkt)).map (fun r => r.2 + 1)).getD 1
  let v : Fin 5 := pkt.body.vc
  let d := d.updPort n (fun q => { q with rxSeq := q.rxSeq + 1, lastAck := q.rxSeq,
                                          occupied := q.occupied.set v.val (q.occupied[v.val] + 1) v.isLt,
                                          recv := q.recv.filter (fun r => r.1 != pkt) ++ [(pkt, got)] })
  if got < pkt.flits then d
  else
    let d := d.updPort n (fun q => { q with recv := q.recv.filter (fun r => r.1 != pkt) })
    d.arrive ⟨n.val, by omega⟩ pkt

/-- The trailer of a good codeword: acknowledgement, NAK and credits (R495, R499, R500). -/
def Device.takeTrailer (d : Device) (n : PortId) (cw : Codeword) : Device :=
  let d := d.updPort n (fun q =>
    let q := match cw.ackSeq with
      | some a => q.ackUpTo d.now a
      | none => q
    match cw.credit with
    | some (v, k) => q.giveCredit v k
    | none => q)
  if cw.nak then d.startReplay n else d

/-- CODEWORD_RECEIVE (R496): decoding, CRC, tag, then the sequence of a SEQUENCED flit. The eighth uncorrectable codeword in a
row takes the port down (R535); a packet of another channel than 0 from a timing unit is not carried (R506). -/
def Device.codewordReceive (d : Device) (n : PortId) (cw : Codeword) : Device :=
  if !(d.port n).live then d
  else
    let d := d.updPort n Port.gotOne
    if 8 < cw.symbols then
      let d := d.updPort n (fun q => { q with uncorrCw := satTo 32 (q.uncorrCw + 1), uncorrRun := q.uncorrRun + 1 })
      if 8 ≤ (d.port n).uncorrRun then d.portDown n 0x0414 0 else d
    else
      let d := d.updPort n (fun q => { q with corrSymbols := satTo 40 (q.corrSymbols + cw.symbols), uncorrRun := 0 })
      if !cw.crcOk then d
      else if !cw.tagOk then (d.updPort n (fun q => { q with authFails := satTo 8 (q.authFails + 1) })).portDown n 0x0416 0
      else
        let d := d.updPort n (fun q => { q with lastGood := d.now })
        let d := d.takeTrailer n cw
        match cw.body with
        | .idle => d
        | .marker m phase => d.markerFlit n m phase
        | .linkCtl (.down cause) => d.peerDown n cause
        | .linkCtl _ => d
        | .flit pkt index =>
          if cw.txSeq = (d.port n).rxSeq && (d.port n).live then
            if pkt.body.vc != 0 && (d.port n).peer.any (fun p => p.ext) then
              (d.updPort n (fun q => { q with rxSeq := q.rxSeq + 1, lastAck := q.rxSeq })).countRefused
            else (d.countHub { code := 0x118 + pkt.body.vc.val, unit := some n.val } 1).acceptFlit n pkt index
          else d.updPort n (fun q => { q with nakOut := true })

/-- REPLAY_TIMEOUT (R500). -/
def Device.replayTimeout (d : Device) (n : PortId) : Device :=
  let q := d.port n
  if q.live && !q.replayBuf.isEmpty && decide (2000 ≤ d.now - q.ackSince) then d.startReplay n else d

/-- PEER_SILENCE (R535). -/
def Device.peerSilence (d : Device) (n : PortId) : Device :=
  let q := d.port n
  if q.live && decide (500 ≤ d.now - q.lastGood) then d.portDown n 0x0417 0 else d

/-- LANE_SIGNAL_LOST (R535). -/
def Device.laneLost (d : Device) (n : PortId) (lane : Nat) : Device :=
  let q := d.port n
  if q.live || q.state = .training || q.state = .securing then d.portDown n 0x0414 lane else d

/-- CODEWORD_LOCK_LOST (R535): the event of 8 consecutive uncorrectable codewords. -/
def Device.lockLost (d : Device) (n : PortId) : Device := if (d.port n).live then d.portDown n 0x0414 0 else d

/-- AUTO_RETRAIN (R511). -/
def Device.autoRetrain (d : Device) (n : PortId) : Device :=
  let q := d.port n
  if q.state = .down && q.enabled && bitOf q.ctl 2 && decide (1000000000 ≤ d.now - q.since) then
    (d.updPort n (fun q => { q with state := .waitLaser, since := d.now })).portTrain n
  else d

/-! ## Routes (R528, R534) -/

/-- ROUTE_HOLD_EXPIRY (R528): held traffic leaves on the destination's egress of now. -/
def Device.holdExpiry (d : Device) (dst : BitVec 15) : Device :=
  match d.fabric.uses.find? (fun u => u.dst = dst) with
  | none => d
  | some u => match u.holdUntil with
    | none => d
    | some t =>
      if d.now < t then d
      else
        let d := { d with fabric := { d.fabric with uses := d.fabric.uses.filter (fun x => x.dst != dst) } }
        u.held.foldl (fun (d : Device) e =>
          let p := e.2.1
          d.forward e.1 { p with head := { p.head with age := addAge p.head.age (d.now - e.2.2) } }) d

/-- A write to HUB.FAB_ROUTE_CTL under a mask (R534). -/
def Device.routeCtlWrite (d : Device) (v mask : BitVec 64) : Device :=
  let w := v &&& mask
  let d := match bitOf w 30, d.fabric.standby with
    | true, some t => { d with fabric := { d.fabric with active := some t, standby := none } }
    | _, _ => d
  if bitOf w 31 && !d.fabric.loadBusy then { d with fabric := { d.fabric with loadBusy := true, standby := none } } else d

/-- The first failing check of a route image (R534). -/
def routeImageFault (d : Device) (version modnum entries : Nat) (reserved : Bool) (t : RouteTable) : Option Code :=
  let own := d.modNum.toNat
  let words := t.route.zipIdx
  let pri (w : BitVec 32) : Nat := w.toNat % 32
  let alt (w : BitVec 32) : Nat := w.toNat / 2 ^ 10 % 32
  let mask (i : Nat) : BitVec 32 := (t.turn[i]?).getD 0
  let ok1 := version = 1 && modnum = own && 1 ≤ entries && entries ≤ 32768 && reserved
    && t.turn.all (fun m => m.toNat < 2 ^ 24) && t.route.all (fun w => w &&& 0x07FF83E0 = 0)
  let ok2 := (t.route[own]?).any (fun w => w.getLsbD 31 && w.getLsbD 30)
    && words.all (fun w => !w.1.getLsbD 30 || w.2 = own) && t.route.all (fun w => pri w ≤ 23 && alt w ≤ 23)
  let ok3 := (List.range 24).all (fun i => !(mask (2 * i)).getLsbD i && !(mask (2 * i + 1)).getLsbD i)
  let ok4 := t.route.all (fun w => !w.getLsbD 31 || w.getLsbD 30
    || ((mask 48).getLsbD (pri w) && (!w.getLsbD 28 || (mask 48).getLsbD (alt w))))
  (firstFailure [(ok1, 0x0408, 0), (ok2, 0x0408, 0), (ok3, 0x0409, 0), (ok4, 0x0409, 0)]).map (fun p => p.1)

/-- ROUTE_LOAD_DONE (R534). -/
def Device.routeLoadDone (d : Device) : Device :=
  if !d.fabric.loadBusy then d
  else
    let base := d.regs.fabRouteBase.toNat / 64 * 64
    let word (o n : Nat) : Nat := leNat (d.hostRead (base + o) n)
    let entries := word 4 4
    let t : RouteTable := { turn := (List.range 50).map (fun i => BitVec.ofNat 32 (word (16 + 4 * i) 4)),
                            route := (List.range (min entries 32768)).map (fun i => BitVec.ofNat 32 (word (256 + 4 * i) 4)) }
    let reserved := word 8 8 = 0 && (List.range 5).all (fun i => word (216 + 8 * i) 8 = 0)
    let fault := if !d.hostUp then some 0x0408 else routeImageFault d (word 0 2) (word 2 2) entries reserved t
    { d with fabric := { d.fabric with loadBusy := false, reason := fault.getD 0,
                                       standby := if fault.isNone then some t else none } }

/-! ## Remote accesses (R516 to R518, R655) -/

/-- A request that no rule accepts is answered with a refusal (R518, R655). -/
def Device.refuseRequest (d : Device) (p : Packet) (code : Code) : Device := d.countRefused.emit (p.reply (.refusal code))

/-- The destination context of a request, or the code that refuses it (R518, R655, R783): admitted, on the addressed
panel, in service, and of the sender's tenant domain. -/
def Device.remoteTarget (d : Device) (h : PktHead) : Except Code Context :=
  if (d.panel h.dstPanel).fenced then .error 0x0221
  else match d.ctx? h.dstCtx with
    | none => .error 0x0423
    | some c => if c.panel != h.dstPanel then .error 0x0423 else if c.tenant != h.tenant then .error 0x0810 else .ok c

/-- REMOTE_READ (R516, R517): the data, with the poison mask of its 64-byte pieces. -/
def Device.remoteRead (d : Device) (h : PktHead) (bytes : Nat) : Device :=
  let p : Packet := ⟨h, .readRequest bytes⟩
  match d.remoteTarget h with
  | .error e => d.refuseRequest p e
  | .ok c =>
    let ca := viewTarget c.sets [] h.addr.toNat
    match d.translate c ca false with
    | .ok (.dev mpa) =>
      let d := d.cacheEntry c (ca / 2 ^ 21) .fabric { ctx := c.id }
      let marks := d.poisonBits mpa bytes
      let (d, data, _) := d.loadMpa mpa bytes .stream (fun _ => false) h.cls .fabric { ctx := c.id }
      let mask := BitVec.ofNat 64 ((marks.zipIdx.map (fun b => if b.1 then 2 ^ b.2 else 0)).sum)
      d.emit { (p.reply (.readData data)) with head := { (p.reply (.readData data)).head with poisonMask := mask } }
    | .ok (.host addr) =>
      if c.confidential then d.refuseRequest p 0x0423 else d.emit (p.reply (.readData (d.hostRead addr bytes)))
    | .error 0x0313 =>
      d.emit { (p.reply (.readData (List.replicate bytes 0))) with
        head := { (p.reply .writeAck).head with poisonMask := BitVec.allOnes 64 } }
    | .error 0x0221 => d.refuseRequest p 0x0221
    | .error _ => (d.mapFault c ca .fabric { ctx := c.id }).refuseRequest p 0x0423

/-- REMOTE_WRITE (R356, R516, R517). -/
def Device.remoteWrite (d : Device) (h : PktHead) (data : List Byte) : Device :=
  let p : Packet := ⟨h, .writeRequest data⟩
  match d.remoteTarget h with
  | .error e => d.refuseRequest p e
  | .ok c =>
    let ca := h.addr.toNat
    match d.translate c ca true with
    | .ok (.dev mpa) =>
      if bankWriteDenied c.sets ca then d.refuseRequest p 0x0423
      else
        let d := (d.cacheEntry c (ca / 2 ^ 21) .fabric { ctx := c.id }).storeMpa mpa data .stream h.cls .fabric { ctx := c.id }
        let bad := (List.range (ceilDiv data.length 64)).filter (fun i => h.poisonMask.getLsbD i)
        let d := d.poisonStored (bad.flatMap (fun i => accessesOf (mpa + 64 * i) (min 64 (data.length - 64 * i))))
        d.emit (p.reply .writeAck)
    | .ok (.host addr) =>
      if c.confidential then d.refuseRequest p 0x0423 else (d.hostData addr data).emit (p.reply .writeAck)
    | .error 0x0313 => d.emit (p.reply .writeAck)
    | .error 0x0221 => d.refuseRequest p 0x0221
    | .error _ => (d.mapFault c ca .fabric { ctx := c.id }).refuseRequest p 0x0423

/-! ## The commands -/

/-- PORT_ENABLE (R548). -/
def execPortEnable (port : PortId) (value : BitVec 32) (s : State) : Out :=
  s.run (fun d => d.portCtlWrite port (value.setWidth 64) 0xFFFFFFFF)
/-- PORT_DISABLE (R511). -/
def execPortDisable (port : PortId) (value : BitVec 32) (s : State) : Out :=
  s.run (fun d => d.portCtlWrite port (value.setWidth 64) 0xFFFFFFFF)
/-- PORT_DRAIN (R510). -/
def execPortDrain (port : PortId) (value : BitVec 32) (s : State) : Out :=
  s.run (fun d => d.portCtlWrite port (value.setWidth 64) 0xFFFFFFFF)
/-- PORT_UNDRAIN (R510). -/
def execPortUndrain (port : PortId) (value : BitVec 32) (s : State) : Out :=
  s.run (fun d => d.portCtlWrite port (value.setWidth 64) 0xFFFFFFFF)
/-- DRAIN_COMPLETE (R510). -/
def execDrainComplete (port : PortId) (s : State) : Out := s.run (fun d => d.drainDone port)
/-- LC_REMOVE_REQUEST (R491). -/
def execLcRemoveRequest (value : BitVec 32) (s : State) : Out :=
  s.run (fun d => d.lcCtlWrite (value.setWidth 64) 0xFFFFFFFF 0xFF)
/-- LC_REMOVE_RELEASE (R491, R493). -/
def execLcRemoveRelease (value : BitVec 32) (genuine : BitVec 8) (s : State) : Out :=
  s.run (fun d => d.lcCtlWrite (value.setWidth 64) 0xFFFFFFFF genuine)
/-- LC_LASERS_LOCKED (R491). -/
def execLcLasersLocked (cart : CartId) (s : State) : Out := s.run (fun d => d.lasersLocked cart)
/-- LC_LOCK_TIMEOUT (R493). -/
def execLcLockTimeout (cart : CartId) (s : State) : Out := s.run (fun d => d.lockTimeout2s cart)
/-- LC_LATCH_OPEN (R492). -/
def execLcLatchOpen (cart : CartId) (s : State) : Out := s.run (fun d => d.latchOpen cart)
/-- LC_LATCH_CLOSE (R491). -/
def execLcLatchClose (cart : CartId) (s : State) : Out := s.run (fun d => d.latchClose cart)
/-- LINK_CTL_IDENTITY (R503, R505, R509). -/
def execLinkCtlIdentity (port : PortId) (peer : PeerIdentity) (s : State) : Out := s.run (fun d => d.linkIdentity port peer)
/-- KEY_EXCHANGE_DONE (R503). -/
def execKeyExchangeDone (port : PortId) (ok : Bool) (s : State) : Out := s.run (fun d => d.keyExchange port ok)
/-- LINK_TRAINING_COMPLETE (R508). -/
def execLinkTrainingComplete (port : PortId) (credits : PeerCredits) (s : State) : Out :=
  s.run (fun d => d.trainingComplete port credits)
/-- PORT_TRAIN_TIMEOUT (R508). -/
def execPortTrainTimeout (port : PortId) (s : State) : Out := s.run (fun d => d.trainTimeout port)
/-- CODEWORD_LOCK (R508). -/
def execCodewordLock (port : PortId) (s : State) : Out := s.run (fun d => d.codewordLock port)
/-- CODEWORD_RECEIVE (R496). -/
def execCodewordReceive (port : PortId) (cw : Codeword) (s : State) : Out := s.run (fun d => d.codewordReceive port cw)
/-- NEXT_CODEWORD (R523). -/
def execNextCodeword (port : PortId) (s : State) : Out := s.run (fun d => d.nextCodeword port)
/-- REPLAY_TIMEOUT (R500). -/
def execReplayTimeout (port : PortId) (s : State) : Out := s.run (fun d => d.replayTimeout port)
/-- LINK_CTL_DOWN (R535, R688, R689). -/
def execLinkCtlDown (port : PortId) (moduleCause : Bool) (s : State) : Out := s.run (fun d => d.peerDown port moduleCause)
/-- PEER_SILENCE (R535). -/
def execPeerSilence (port : PortId) (s : State) : Out := s.run (fun d => d.peerSilence port)
/-- LANE_SIGNAL_LOST (R535). -/
def execLaneSignalLost (port : PortId) (lane : Fin 16) (s : State) : Out := s.run (fun d => d.laneLost port lane.val)
/-- CODEWORD_LOCK_LOST (R535). -/
def execCodewordLockLost (port : PortId) (s : State) : Out := s.run (fun d => d.lockLost port)
/-- AUTO_RETRAIN (R511). -/
def execAutoRetrain (port : PortId) (s : State) : Out := s.run (fun d => d.autoRetrain port)
/-- ROUTE_HOLD_EXPIRY (R528). -/
def execRouteHoldExpiry (dst : BitVec 15) (s : State) : Out := s.run (fun d => d.holdExpiry dst)
/-- PACKET_FORWARD (R529, R531). -/
def execPacketForward (ingress : Fin 25) (pkt : Packet) (s : State) : Out := s.run (fun d => d.arrive ingress pkt)
/-- ROUTE_LOAD (R534). -/
def execRouteLoad (value : BitVec 32) (s : State) : Out := s.run (fun d => d.routeCtlWrite (value.setWidth 64) 0xFFFFFFFF)
/-- ROUTE_LOAD_DONE (R534). -/
def execRouteLoadDone (s : State) : Out := s.run Device.routeLoadDone
/-- ROUTE_SWAP (R534). -/
def execRouteSwap (value : BitVec 32) (s : State) : Out := s.run (fun d => d.routeCtlWrite (value.setWidth 64) 0xFFFFFFFF)
/-- REMOTE_READ (R517). -/
def execRemoteRead (head : PktHead) (bytes : Nat) (s : State) : Out := s.run (fun d => d.remoteRead head bytes)
/-- REMOTE_WRITE (R517). -/
def execRemoteWrite (head : PktHead) (data : List Byte) (s : State) : Out := s.run (fun d => d.remoteWrite head data)

end Sys2Proof.Machine
end

