-- ==== Sys2Proof/Machine/Collective.lean ====
section
/-! DEFINITION. Communicators and their exchanges (10_job_mapping_and_reduction.md): the tree, join notices, gradient
buckets, tally words, sums, the noise statistic, and the transfers of RETURN, ALLREDUCE, BROADCAST, SEND and RECV. -/

namespace Sys2Proof.Machine

/-! ## Members and the tree (R552 to R557) -/

/-- A member of a communicator (R553). -/
structure Member where
  mod : BitVec 15
  panel : PanelId
  ctx : Code
  deriving DecidableEq, Repr

/-- The access by which the device looks up the table of a communicator (R553). -/
def Comm.tableAccess (k : Comm) (ctx : Code) : Access := { ctx := ctx, ring := k.ring, seq := k.joinSeq }

/-- The member that 8 bytes of the table name. -/
def memberOf (bs : List Byte) : Member :=
  let v := leNat bs
  ⟨BitVec.ofNat 15 v, Fin.ofNat 8 (v / 2 ^ 16), BitVec.ofNat 16 (v / 2 ^ 32)⟩

/-- The member of a rank, as the table names it now (R553). -/
def Device.member? (d : Device) (ctx : Code) (k : Comm) (r : Nat) : Option Member :=
  if r < k.size then ((d.readCa (k.tableAccess ctx) (k.table + 8 * r) 8).2.toOption).map memberOf else none

/-- The table has been read for a rank: the read has its effects on the memory system, whatever comes of it (R349, R380). -/
def Device.tableRead (d : Device) (ctx : Code) (k : Comm) (r : Nat) : Device :=
  if r < k.size then (d.readCa (k.tableAccess ctx) (k.table + 8 * r) 8).1 else d

/-- A member of a communicator lies on a module (R558). -/
def Device.hasModule (d : Device) (ctx : Code) (k : Comm) (m : Nat) : Bool :=
  (List.range k.size).any (fun r => (d.member? ctx k r).any (fun q => q.mod.toNat = m))

/-- The parent of a rank: its lowest non-zero base-64 digit becomes 0 (R555). -/
def parentOf (r : Nat) : Nat :=
  if r % 64 != 0 then r - r % 64
  else if r / 64 % 64 != 0 then r - r / 64 % 64 * 64
  else r - r / 4096 % 64 * 4096

/-- The children of a rank among `n` (R555). -/
def childrenOf (n r : Nat) : List Nat := (List.range n).filter (fun q => q != 0 && parentOf q = r)

/-- The tree neighbours of a rank. -/
def neighbours (n r : Nat) : List Nat := (if r = 0 then [] else [parentOf r]) ++ childrenOf n r

/-- The communicator of an identifier. -/
def Context.comm? (c : Context) (id : BitVec 32) : Option Comm := c.comms.find? (fun k => k.commId = id)

/-- Change a communicator of a context. -/
def Device.updComm (d : Device) (ctx : Code) (id : BitVec 32) (f : Comm → Comm) : Device :=
  d.updCtx ctx (fun c => { c with comms := c.comms.map (fun k => if k.commId = id then f k else k) })

/-- The header of a packet from a context to a member. -/
def Device.headTo (d : Device) (c : Context) (m : Member) (cls : ColourClass) : PktHead :=
  { cls := cls, layer := false, dstMod := m.mod, dstPanel := m.panel, srcMod := d.modNum, srcPanel := c.panel, age := 0,
    dstCtx := m.ctx, srcCtx := c.id, addr := 0, xtag := 0, poisonMask := 0, tenant := c.tenant }

/-- Send a packet of a communicator to a rank. -/
def Device.sendRank (d : Device) (c : Context) (k : Comm) (r : Nat) (cls : ColourClass) (body : PktBody) : Device :=
  match d.member? c.id k r with
  | some m => (d.tableRead c.id k r).emit ⟨d.headTo c m cls, body⟩
  | none => d.tableRead c.id k r

/-- Send a packet whose acknowledgement an operation waits for. -/
def Device.sendTracked (d : Device) (c : Context) (k : Comm) (r : Nat) (cls : ColourClass) (body : PktBody) (o : Outstanding) : Device :=
  match d.member? c.id k r with
  | some m => (d.tableRead c.id k r).emitTracked ⟨d.headTo c m cls, body⟩ { o with comm := some k.commId }
  | none => d.tableRead c.id k r

/-- The rule of R557, R655 and R783: the destination context and its communicator, or the code that refuses. -/
def Device.commFor (d : Device) (h : PktHead) (id : BitVec 32) (rank : Nat) : Except Code (Context × Comm) :=
  if (d.panel h.dstPanel).fenced then .error 0x0221
  else match d.ctx? h.dstCtx with
    | none => .error 0x0423
    | some c =>
      if c.panel != h.dstPanel then .error 0x0423
      else match c.comm? id with
        | none => .error 0x0423
        | some k =>
          if d.member? c.id k rank != some ⟨h.srcMod, h.srcPanel, h.srcCtx⟩ then .error 0x0423
          else if c.tenant != h.tenant then .error 0x0810 else .ok (c, k)

/-- A packet of a communicator or a relay waits for its destination context to have a slot (R407, R411, assumption log
156). -/
def Device.forResident (d : Device) (p : Packet) (f : Device → Device) : Device :=
  if (d.ctx? p.head.dstCtx).any (fun c => c.panel = p.head.dstPanel && !c.resident) then
    { d with fabric := { d.fabric with inbox := d.fabric.inbox ++ [(24, p)] } }
  else f d

/-- A packet of a communicator comes to its member (R557): the table is read for the sender's rank. -/
def Device.commRead (d : Device) (h : PktHead) (id : BitVec 32) (rank : Nat) : Device :=
  match (d.ctx? h.dstCtx).bind (fun c => c.comm? id) with
  | some k => d.tableRead h.dstCtx k rank
  | none => d

/-- A packet of a communicator that is not accepted: counted; a fenced panel's reduction and bulk packets are answered
with a loss notice that carries 0x0221 (R518, R655). -/
def Device.refuseComm (d : Device) (p : Packet) (code : Code) : Device :=
  let d := d.countRefused
  if code = 0x0221 && (p.body.vc = 3 || p.body.vc = 4) then d.emit (p.reply (.refusal 0x0221)) else d

/-! ## Join notices (R556) -/

/-- The notice of a member. -/
def Comm.notice (k : Comm) : JoinNotice :=
  { commId := k.commId, rank := k.rank, size := k.size, w24 := k.w24, layout := k.layout, stagePages := k.stagePages,
    digest := k.digest }

/-- Two notices agree (R556). -/
def noticesAgree (a b : JoinNotice) : Bool :=
  a.size = b.size && a.w24 = b.w24 && a.layout = b.layout && a.stagePages = b.stagePages && a.digest = b.digest

/-- A member that holds the notices of all its neighbours has joined, and its COMM_JOIN completes. -/
def Device.joinCheck (d : Device) (ctx : Code) (id : BitVec 32) : Device :=
  match (d.ctx? ctx).bind (fun c => c.comm? id) with
  | none => d
  | some k =>
    if !k.joined && (neighbours k.size k.rank).all (fun r => k.notices.contains r) then
      let d := d.updComm ctx id (fun k => { k with joined := true })
      match d.desc? ctx k.ring k.joinSeq with
      | some x => d.finish ctx k.ring x 0 0 none
      | none => d
    else d

/-- A join fails and leaves nothing. -/
def Device.joinFailed (d : Device) (ctx : Code) (k : Comm) (code : Code) : Device :=
  (d.failSeq ctx k.ring k.joinSeq code).updCtx ctx (fun c => { c with comms := c.comms.filter (fun x => x.commId != k.commId) })

/-- JOIN_NOTICE (R556, R783): compared; the first from a neighbour is answered with this member's own. -/
def Device.joinNotice (d : Device) (h : PktHead) (n : JoinNotice) : Device :=
  d.forResident ⟨h, .joinNotice n⟩ fun d =>
  let d := d.commRead h n.commId n.rank
  match d.commFor h n.commId n.rank with
  | .error 0x0810 =>
    match (d.ctx? h.dstCtx).bind (fun c => c.comm? n.commId) with
    | some k => if k.joined then d.countRefused else d.countRefused.joinFailed h.dstCtx k 0x0810
    | none => d.countRefused
  | .error _ => d.countRefused
  | .ok (c, k) =>
    if !(neighbours k.size k.rank).contains n.rank then d.countRefused
    else if k.notices.contains n.rank then d
    else if !noticesAgree k.notice n then if k.joined then d.countRefused else d.joinFailed c.id k 0x0A07
    else
      let d := d.updComm c.id k.commId (fun k => { k with notices := k.notices ++ [n.rank] })
      (d.sendRank c k n.rank .indigo (.joinNotice k.notice)).joinCheck c.id k.commId

/-! ## Reductions: what they work on (R560, R561, R596) -/

/-- A reduction of a member: its exchange and its terms. -/
structure RJob where
  ctx : Code
  comm : Comm
  exch : Exchange
  ring : RingId
  seq : Nat
  step : Nat
  elements : Nat
  tid : Nat
  acc : Nat
  sum : Nat
  sumLin : Nat
  fmt : Nat
  rmode : Nat
  shift : Int
  src : Nat
  red : Reduction
  deriving DecidableEq, Repr

/-- The descriptor of a collective in progress. -/
def Device.collDesc? (d : Device) (r : CollRun) : Option Desc :=
  (d.desc? r.ctx r.ring r.seq).filter (fun x => match x.phase with
    | .finished _ => false
    | _ => true)

/-- The step of a bucket's state. -/
def BucketState.step? : BucketState → Option (BitVec 32)
  | .idle => none
  | .filling t | .agreeing t | .reducing t | .done t => some t

/-- The ALLREDUCE run of a number. -/
def Device.allreduceRun? (d : Device) (ctx : Code) (id : BitVec 32) (nth : Nat) : Option (CollRun × Desc) :=
  (d.fabric.colls.filter (fun r => r.ctx = ctx && r.commId = id && r.nth = nth)).findSome? (fun r =>
    (d.collDesc? r).bind (fun x => if x.op? = some .allreduce then some (r, x) else none))

/-- The reduction of an exchange. -/
def Device.rjob? (d : Device) (ctx : Code) (id : BitVec 32) (e : Exchange) : Option RJob :=
  match (d.ctx? ctx).bind (fun c => c.comm? id) with
  | none => none
  | some k => match e with
    | .bucket b => (k.buckets[b]?).map (fun q =>
        { ctx := ctx, comm := k, exch := e, ring := k.ring, seq := k.joinSeq,
          step := (q.state.step?.map (fun t => t.toNat)).getD 0, elements := q.elements, tid := q.tid.toNat, acc := q.acc,
          sum := q.sum, sumLin := q.sumLin, fmt := q.fmt.toNat, rmode := q.rmode, shift := q.shift, src := q.stage, red := q.red })
    | .allreduce n => (d.allreduceRun? ctx id n).map (fun rx =>
        { ctx := ctx, comm := k, exch := e, ring := rx.1.ring, seq := rx.1.seq, step := rx.2.f 124 4,
          elements := rx.2.f 40 4, tid := rx.2.f 80 4, acc := rx.2.f 64 8, sum := rx.2.f 56 8, sumLin := 0,
          fmt := rx.2.f 34 1, rmode := rx.2.f 77 1, shift := 0, src := rx.2.f 48 8, red := rx.1.red })

/-- Change the bucket of an index. -/
def Device.updBucket (d : Device) (ctx : Code) (id : BitVec 32) (b : Nat) (f : Bucket → Bucket) : Device :=
  d.updComm ctx id (fun k => { k with buckets := k.buckets.modify b f })

/-- Change the run of a collective. -/
def Device.updRun (d : Device) (ctx : Code) (ring : RingId) (seq : Nat) (f : CollRun → CollRun) : Device :=
  { d with fabric := { d.fabric with colls := d.fabric.colls.map (fun r =>
    if r.ctx = ctx && r.ring = ring && r.seq = seq then f r else r) } }

/-- Change the progress of a reduction. -/
def Device.updRed (d : Device) (j : RJob) (f : Reduction → Reduction) : Device :=
  match j.exch with
  | .bucket b => d.updBucket j.ctx j.comm.commId b (fun q => { q with red := f q.red })
  | .allreduce _ => d.updRun j.ctx j.ring j.seq (fun r => { r with red := f r.red })

/-- SLICE (R561). -/
def sliceLen (elements n : Nat) : Nat := 64 * ceilDiv elements (64 * n)

/-- The elements that a rank owns: first and count (R561). -/
def sliceOf (elements n r : Nat) : Nat × Nat :=
  let s := sliceLen elements n
  (r * s, min elements ((r + 1) * s) - r * s)

/-- The tally width W (R569). -/
def Comm.width (k : Comm) : Nat := if k.w24 then 24 else 32

/-- h = ceil(log2 N) (R569). -/
def Comm.logN (k : Comm) : Nat := if k.size ≤ 1 then 0 else Nat.log2 (k.size - 1) + 1

/-- The access of a reduction to its context's memory. -/
def RJob.access (j : RJob) : Access := { ctx := j.ctx, ring := j.ring, seq := j.seq }

/-- What a transfer of the exchange leaves outstanding. -/
def RJob.waiting (j : RJob) : Outstanding :=
  { xtag := 0, ctx := j.ctx, ring := j.ring, seq := j.seq, exch := some j.exch, dstMod := 0, deadline := 0 }

/-- The staged values of a member, in element order: a bucket's runs (R563), or the source of an ALLREDUCE (R596).
Poison fails the read (R381). -/
def Device.stagedNums (d : Device) (j : RJob) : Res (List Num) :=
  let run (d : Device) (first n fmt : Nat) (lin : Bool) : Res (List Num) :=
    bindD (d.readCa j.access (j.src + 2 * first) (2 * n)) (fun d vs =>
    bindD (if lin then d.readCa j.access (j.src + 2 * j.elements + first) n else (d, .ok [])) (fun d ls =>
      (d, .ok ((List.range n).map (fun i => if lin then liningValue fmt (bytesField vs (2 * i) 2) (signedOf 8 (bytesField ls i 1))
                                            else decodeElem fmt (bytesField vs (2 * i) 2))))))
  match j.exch with
  | .bucket b =>
    let runs := ((j.comm.buckets[b]?).map (fun q => q.staged)).getD []
    foldD (runs.mergeSort (fun a b => a.1 ≤ b.1)) d [] (fun d out r =>
      bindD (run d r.1 r.2.1 r.2.2 true) (fun d xs => (d, .ok (out ++ xs))))
  | .allreduce _ => run d 0 j.elements j.fmt false

/-! ## Exponents (R567, R568) -/

/-- e_loc and the non-finite flag of staged values (R567). -/
def localExponent (xs : List Num) : Int × Bool :=
  let e := xs.foldl (fun (m : Int) x => match x with
    | .fin _ m' e' => if m' = 0 then m else max m ((floorLog2 m' : Int) + e')
    | _ => m) (-32768)
  (e, xs.any (fun x => match x with
    | .fin .. => false
    | _ => true))

/-- The exponent message of a member. -/
def RJob.pair (j : RJob) (e : Int) (nf : Bool) (elements : Nat) : ExponentPair :=
  { commId := j.comm.commId, rank := j.comm.rank, exch := j.exch, step := BitVec.ofNat 32 j.step, elements := elements,
    fmt := BitVec.ofNat 8 j.fmt, eLoc := e, nonFinite := nf }

/-- A message agrees with the member's own terms (R599). -/
def RJob.agrees (j : RJob) (p : ExponentPair) : Bool :=
  p.elements = j.elements && p.fmt.toNat = j.fmt && p.step.toNat = j.step

/-- The children of a member in its tree. -/
def RJob.children (j : RJob) : List Nat := childrenOf j.comm.size j.comm.rank

/-- Send to each child. -/
def Device.sendChildren (d : Device) (j : RJob) (body : PktBody) : Device :=
  match d.ctx? j.ctx with
  | none => d
  | some c => j.children.foldl (fun d r => d.sendRank c j.comm r .indigo body) d

/-- Send to the parent. -/
def Device.sendParent (d : Device) (j : RJob) (body : PktBody) : Device :=
  match d.ctx? j.ctx with
  | none => d
  | some c => d.sendRank c j.comm (parentOf j.comm.rank) .indigo body

/-- A reduction ends with a status: a bucket returns to IDLE and keeps the status for its REDUCE; an ALLREDUCE fails. -/
def Device.reductionFailed (d : Device) (j : RJob) (code : Code) : Device :=
  match j.exch with
  | .bucket b =>
    let why := some (BitVec.ofNat 32 j.step, code)
    d.updBucket j.ctx j.comm.commId b (fun q => { q with state := .idle, staged := [], red := {}, failed := why })
  | .allreduce _ => d.failSeq j.ctx j.ring j.seq code

/-- A disagreement (R599): the exchange fails here, and a message of no elements tells the tree. -/
def Device.reductionMismatch (d : Device) (j : RJob) : Device :=
  let d := if j.comm.rank = 0 then d else d.sendParent j (.exponentPair (j.pair 0 false 0))
  (d.sendChildren j (.exponentResult (j.pair 0 false 0))).reductionFailed j 0x0A07

/-! ## Tally words (R569 to R572) -/

/-- The tally word of a value (R569). -/
def tallyWord (seed : BitVec 64) (tid step i : Nat) (f : Int) (x : Num) : Int :=
  match x with
  | .fin neg m e =>
    let s := e + f
    let n := if 0 ≤ s then m * 2 ^ s.toNat else m / 2 ^ (-s).toNat
    let frac := if 0 ≤ s then 0 else m % 2 ^ (-s).toNat * 2 ^ 24 / 2 ^ (-s).toNat
    let up := if Key.u24 ⟨seed, 2, tid, step, i⟩ < frac then 1 else 0
    if neg then -((n + up : Nat) : Int) else ((n + up : Nat) : Int)
  | _ => 0

/-- The tally words of every element of a member. -/
def Device.tallies (d : Device) (j : RJob) (e : Int) : Res (List Int) :=
  match d.ctx? j.ctx with
  | none => (d, .ok [])
  | some c =>
    if e = -32768 then (d, .ok (List.replicate j.elements 0))
    else bindD (d.stagedNums j) (fun d xs => (d, .ok (xs.zipIdx.map (fun xi =>
      tallyWord c.seed j.tid j.step (j.comm.rank * 2 ^ 32 + xi.2) (((j.comm.width : Int) - 3 - j.comm.logN) - e) xi.1))))

/-- Add words into an owner's accumulation words, from an element of its slice (R571). -/
def Device.addTallies (d : Device) (j : RJob) (rel : Nat) (ws : List Int) : Res Unit :=
  bindD (d.readCa j.access (j.acc + 4 * rel) (4 * ws.length)) (fun d bs =>
  bindD (d.writeCa j.access (j.acc + 4 * rel) (ws.zipIdx.flatMap (fun wi =>
      leBytes 4 (patternOf 32 (signedOf 32 (bytesField bs (4 * wi.2) 4) + wi.1))))) (fun d _ =>
    (d.countCtx j.access.ctx 0x04E ws.length, .ok ())))

/-- Count words that have arrived from a rank. -/
def countIn (l : List (Nat × Nat)) (r n : Nat) : List (Nat × Nat) :=
  let old := ((l.find? (fun x => x.1 = r)).map (fun x => x.2)).getD 0
  (r, old + n) :: l.filter (fun x => x.1 != r)

/-- Cut a list into pieces of at most `m`, with the index of the first element of each. -/
def piecesOf {α : Type} (m : Nat) (l : List α) : List (Nat × List α) :=
  if m = 0 then [] else (List.range (ceilDiv l.length m)).map (fun i => (i * m, (l.drop (i * m)).take m))

/-- Send every rank's slice of this member's tally words (R570); its own is added at once. -/
def Device.sendTallies (d : Device) (j : RJob) (e : Int) : Device :=
  match d.ctx? j.ctx with
  | none => d
  | some c =>
    match bindD (d.tallies j e) (fun d ws =>
        bindD (d.addTallies j 0 ((ws.drop (sliceOf j.elements j.comm.size j.comm.rank).1).take (sliceOf j.elements j.comm.size j.comm.rank).2))
          (fun d _ => (d, .ok ws))) with
    | (d, .error s) => d.reductionFailed j s
    | (d, .ok ws) =>
    let wb := j.comm.width / 8
    let d := (List.range j.comm.size).foldl (fun d r =>
      let (first, n) := sliceOf j.elements j.comm.size r
      let slice := (ws.drop first).take n
      if r = j.comm.rank then d.updRed j (fun q => { q with received := countIn q.received r n })
      else (piecesOf (4096 / wb) slice).foldl (fun d p =>
        let words := p.2.flatMap (fun w => leBytes wb (patternOf (8 * wb) w))
        d.sendTracked c j.comm r .indigo (.tally ⟨j.comm.commId, j.comm.rank, j.exch, BitVec.ofNat 32 j.step, first + p.1, words⟩)
          j.waiting) d) d
    d.updRed j (fun q => { q with sent := true, sentA := (ws.map (fun w => w.natAbs * w.natAbs)).sum, pairs := [] })

/-- The slices of all ranks have arrived (R572). -/
def RJob.allArrived (j : RJob) : Bool :=
  let n := (sliceOf j.elements j.comm.size j.comm.rank).2
  n = 0 || (List.range j.comm.size).all (fun r => (j.red.received.find? (fun x => x.1 = r)).any (fun x => n ≤ x.2))

/-- The sums of an owner's slice, as integers. -/
def Device.sliceSums (d : Device) (j : RJob) : Res (List Int) :=
  let n := (sliceOf j.elements j.comm.size j.comm.rank).2
  bindD (d.readCa j.access j.acc (4 * n)) (fun d bs =>
    (d, .ok ((List.range n).map (fun i => signedOf 32 (bytesField bs (4 * i) 4)))))

/-- The exact value of a sum (R572). -/
def RJob.sumValue (j : RJob) (e s : Int) : Num :=
  if s = 0 then .fin false 0 0
  else .fin (decide (s < 0)) s.natAbs (j.shift + e + 3 + j.comm.logN - j.comm.width)

/-- The rounded sums of an owner's slice, as value and Lining (R572, R596). -/
def RJob.rounded (j : RJob) (seed : BitVec 64) (e : Int) (sums : List Int) : List (Nat × Int) :=
  let first := (sliceOf j.elements j.comm.size j.comm.rank).1
  sums.zipIdx.map (fun si =>
    let i := first + si.2
    if j.sumLin = 0 then ((roundTo j.fmt j.rmode ⟨seed, 0, j.tid, j.step, i⟩ (j.sumValue e si.1)).1, 0)
    else splitLining j.fmt j.rmode ⟨seed, 1, j.tid, j.step, i⟩ (j.sumValue e si.1))

/-- Count bytes that have landed from a rank. -/
def Device.landBytes (d : Device) (ctx : Code) (ring : RingId) (seq r n : Nat) : Device :=
  d.updRun ctx ring seq (fun q => { q with landed := countIn q.landed r n })

/-- Write the sums of an owner's slice, or send an ALLREDUCE's rounded slice to every member; then clear ACC (R572, R596). -/
def Device.writeSums (d : Device) (j : RJob) (e : Int) : Device :=
  match d.ctx? j.ctx with
  | none => d
  | some c =>
    let (first, n) := sliceOf j.elements j.comm.size j.comm.rank
    let lins (ps : List (Nat × Int)) : List Byte := ps.flatMap (fun (p : Nat × Int) => leBytes 1 (patternOf 8 p.2))
    match bindD (d.sliceSums j) (fun d sums =>
        let ps : List (Nat × Int) := j.rounded c.seed e sums
        let vals : List Byte := ps.flatMap (fun (p : Nat × Int) => leBytes 2 p.1)
        bindD (match j.exch with
          | .bucket _ => bindD (d.writeCa j.access j.sum vals) (fun d _ =>
              if j.sumLin = 0 then (d, .ok ()) else d.writeCa j.access j.sumLin (lins ps))
          | .allreduce _ => d.writeCa j.access (j.sum + 2 * first) vals) (fun d _ =>
        bindD (d.writeCa j.access j.acc (List.replicate (4 * n) 0)) (fun d _ => (d, .ok (sums, vals))))) with
    | (d, .error s) => d.reductionFailed j s
    | (d, .ok (sums, vals)) =>
    let d := match j.exch with
      | .bucket _ => d
      | .allreduce _ =>
        let d := d.landBytes j.ctx j.ring j.seq j.comm.rank (2 * n)
        ((List.range j.comm.size).filter (fun r => r != j.comm.rank)).foldl (fun d r =>
          (piecesOf 4096 vals).foldl (fun d (p : Nat × List Byte) =>
            d.sendTracked c j.comm r .indigo
              (.returnData ⟨j.comm.commId, j.comm.rank, j.exch, BitVec.ofNat 32 j.step, first + p.1 / 2, p.2⟩) j.waiting) d) d
    d.updRed j (fun q => { q with sumQ := some ((sums.map (fun (s : Int) => s.natAbs * s.natAbs)).sum) })

/-! ## The progress of a reduction (R562, R567 to R575) -/

/-- AGREEING: combine the children's pairs with the own one, and send up, or, at the root, decide (R567). -/
def Device.reductionAgree (d : Device) (j : RJob) : Device :=
  let kids := j.children
  let got := j.red.pairs.filter (fun p => kids.contains p.1)
  if j.red.sentUp || got.length < kids.length then d
  else
    let e := got.foldl (fun m p => max m p.2.1) j.red.eLoc
    let nf := j.red.nonFinite || got.any (fun p => p.2.2)
    let d := d.updRed j (fun q => { q with sentUp := true })
    if j.comm.rank = 0 then
      (d.updRed j (fun q => { q with agreed := some (e, nf) })).sendChildren j (.exponentResult (j.pair e nf j.elements))
    else d.sendParent j (.exponentPair (j.pair e nf j.elements))

/-- The state of the bucket of an exchange. -/
def Device.setBucketState (d : Device) (j : RJob) (f : BitVec 32 → BucketState) : Device :=
  match j.exch with
  | .bucket b => d.updBucket j.ctx j.comm.commId b (fun q => { q with state := f (BitVec.ofNat 32 j.step) })
  | .allreduce _ => d

/-- The agreed exponent starts REDUCING, or ends the reduction on a non-finite flag (R568, R570). -/
def Device.reductionStart (d : Device) (j : RJob) : Device :=
  match j.red.agreed with
  | none => d
  | some (e, nf) =>
    if j.red.sent then d
    else if nf then d.reductionFailed j 0x0A06
    else (d.setBucketState j .reducing).sendTallies j e

/-- The owner's sums, once every slice has arrived (R572). -/
def Device.reductionSum (d : Device) (j : RJob) : Device :=
  match j.red.agreed with
  | none => d
  | some (e, _) => if j.red.sent && j.red.sumQ.isNone && j.allArrived then d.writeSums j e else d

/-- The noise message of a member. -/
def RJob.noiseMsg (j : RJob) (b : Nat) (down : Bool) (a q : Nat) : NoisePacket :=
  { commId := j.comm.commId, rank := j.comm.rank, bucket := b, step := BitVec.ofNat 32 j.step, down := down,
    a := BitVec.ofNat 128 a, q := BitVec.ofNat 128 q }

/-- The norms go up the tree, and the totals down it (R575). -/
def Device.reductionNoise (d : Device) (j : RJob) : Device :=
  match j.exch, j.red.sumQ with
  | .bucket b, some q =>
    let kids := j.children
    let got := j.red.noise.filter (fun p => kids.contains p.1)
    if j.red.noiseUp || got.length < kids.length then d
    else
      let a := (got.map (fun p => p.2.1)).sum + j.red.sentA
      let q := (got.map (fun p => p.2.2)).sum + q
      let d := d.updRed j (fun r => { r with noiseUp := true })
      if j.comm.rank = 0 then
        (d.updRed j (fun r => { r with totals := some (a, q) })).sendChildren j (.noise (j.noiseMsg b true a q))
      else d.sendParent j (.noise (j.noiseMsg b false a q))
  | _, _ => d

/-- DONE(t): sums written, every word sent acknowledged (R574). -/
def Device.reductionDone (d : Device) (j : RJob) : Device :=
  match j.exch with
  | .bucket b => match (j.comm.buckets[b]?).map (fun q => q.state) with
    | some (BucketState.reducing t) =>
      if j.red.sumQ.isSome && !d.awaitsExch j.ctx j.comm.commId j.exch then
        d.updBucket j.ctx j.comm.commId b (fun q => { q with state := .done t })
      else d
    | _ => d
  | .allreduce _ => d

/-- One stage of a reduction, if its exchange is still there. -/
def Device.stage (d : Device) (ctx : Code) (id : BitVec 32) (e : Exchange) (f : Device → RJob → Device) : Device :=
  match d.rjob? ctx id e with
  | some j => f d j
  | none => d

/-- The exchange has begun on this member: the bucket is AGREEING or later, or the ALLREDUCE may send. -/
def Device.exchangeOn (d : Device) (ctx : Code) (id : BitVec 32) (e : Exchange) : Bool :=
  match e with
  | .bucket b => match ((d.ctx? ctx).bind (fun c => c.comm? id)).bind (fun k => (k.buckets[b]?).map (fun q => q.state)) with
    | some (BucketState.agreeing _) | some (BucketState.reducing _) | some (BucketState.done _) => true
    | _ => false
  | .allreduce n => (d.allreduceRun? ctx id n).any (fun r => r.1.startOk && r.1.own)

/-- Every stage of a reduction that can go on. -/
def Device.reductionRun (d : Device) (ctx : Code) (id : BitVec 32) (e : Exchange) : Device :=
  if !d.exchangeOn ctx id e then d
  else
    let d := d.stage ctx id e Device.reductionAgree
    let d := d.stage ctx id e Device.reductionStart
    let d := d.stage ctx id e Device.reductionSum
    let d := d.stage ctx id e Device.reductionNoise
    d.stage ctx id e Device.reductionDone

/-- A bucket fills: AGREEING begins with the local exponent (R565, R567). -/
def Device.bucketFilled (d : Device) (ctx : Code) (id : BitVec 32) (b : Nat) : Device :=
  match d.rjob? ctx id (.bucket b) with
  | none => d
  | some j => match d.stagedNums j with
  | (d, .error s) => d.reductionFailed j s
  | (d, .ok xs) =>
    let (e, nf) := localExponent xs
    let d := d.updBucket ctx id b (fun q =>
      let red := { q.red with eLoc := e, nonFinite := nf }
      { q with state := .agreeing (BitVec.ofNat 32 j.step), red := red })
    d.reductionRun ctx id (.bucket b)

/-! ## Deliveries into a bucket (R563 to R565) -/

/-- The communicator and bucket index that a BUCKET field names (R563). -/
def Context.bucketOf (c : Context) (field : Nat) : Option (Comm × Nat × Bucket) :=
  if 2 ^ 20 ≤ field then none
  else (c.comms.find? (fun k => k.joined && k.slot = field / 2 ^ 16 % 16)).bind (fun k =>
    (k.buckets[field % 2 ^ 16]?).map (fun b => (k, field % 2 ^ 16, b)))

/-- What a delivery of `n` elements for step `t` meets before its first tack: a status, or whether it waits (R564). -/
def Context.deliveryCheck (c : Context) (field offset n : Nat) (t : BitVec 32) : Except Code Bool :=
  match c.bucketOf field with
  | none => .error 0x0A05
  | some (_, _, b) =>
    if b.elements < offset + n then .error 0x0A05
    else match b.state with
      | .idle => .ok false
      | .done u => if u.toNat < t.toNat then .ok false else .error 0x0A05
      | .filling u => if u = t then .ok false else .error 0x0A05
      | _ => .ok true

/-- Deliver `n` elements, each as value and Lining of a format (R563, R564); the last one fills the bucket (R565). -/
def Device.deliver (d : Device) (a : Access) (field offset fmt : Nat) (t : BitVec 32) (ps : List (Nat × Int)) : Device × Except Code Unit :=
  match (d.ctx? a.ctx).bind (fun c => c.bucketOf field) with
  | none => (d, .error 0x0A05)
  | some (k, i, b) =>
    let fresh := match b.state with
      | .filling _ => false
      | _ => true
    let staged := if fresh then [] else b.staged
    if staged.any (fun r => rangesOverlap r.1 r.2.1 offset ps.length) then (d, .error 0x0A04)
    else
      let d := d.updBucket a.ctx k.commId i (fun q =>
        let red : Reduction := if fresh then { pairs := q.red.pairs } else q.red
        { q with state := .filling t, staged := staged ++ [(offset, ps.length, fmt)], red := red })
      match d.writeCa a (b.stage + 2 * offset) (ps.flatMap (fun p => leBytes 2 p.1)) with
      | (d, .error e) => (d, .error e)
      | (d, .ok _) => match d.writeCa a (b.stage + 2 * b.elements + offset) (ps.flatMap (fun p => leBytes 1 (patternOf 8 p.2))) with
        | (d, .error e) => (d, .error e)
        | (d, .ok _) =>
          if ((staged.map (fun r => r.2.1)).sum + ps.length) = b.elements then (d.bucketFilled a.ctx k.commId i, .ok ())
          else (d, .ok ())

/-! ## Transfers (R583, R597, R598) -/

/-- The bytes that have landed from a rank. -/
def CollRun.landedFrom (r : CollRun) (rank : Nat) : Nat := ((r.landed.find? (fun x => x.1 = rank)).map (fun x => x.2)).getD 0

/-- Send bytes to a rank as bulk data, for a descriptor (R597, R598). -/
def Device.sendData (d : Device) (c : Context) (k : Comm) (rank : Nat) (cls : ColourClass) (kind : TransferKind) (nth : Nat)
    (bs : List Byte) (ring : RingId) (seq : Nat) : Device :=
  (piecesOf 4096 bs).foldl (fun d p =>
    d.sendTracked c k rank cls (.collData { commId := k.commId, rank := k.rank, kind := kind, nth := nth, offset := p.1, data := p.2 })
      { xtag := 0, ctx := c.id, ring := ring, seq := seq, dstMod := 0, deadline := 0 }) d

/-- The read class of a COLLECTIVE (R608). -/
def Desc.collRead (x : Desc) (ctx : Code) (ring : RingId) : Access := x.access ctx ring 0 (x.bits 35 1 1 0)
/-- The write class of a COLLECTIVE. -/
def Desc.collWrite (x : Desc) (ctx : Code) (ring : RingId) : Access := x.access ctx ring 0 (x.bits 35 1 3 2)

/-- The bucket and the slice that a RETURN sends (R583). -/
def Comm.returnSlice (k : Comm) (x : Desc) : Option (Nat × Nat) := (k.buckets[x.f 72 2]?).map (fun b => sliceOf b.elements k.size k.rank)

/-- Send this member's updated slice to a rank (R583). -/
def Device.sendSlice (d : Device) (c : Context) (k : Comm) (x : Desc) (ring : RingId) (rank : Nat) : Device :=
  match k.returnSlice x with
  | none => d
  | some (first, n) =>
    match d.readCa (x.collRead c.id ring) (x.f 48 8) (2 * n) with
    | (d, .error e) => d.failSeq c.id ring x.seq e
    | (d, .ok bs) => (piecesOf 4096 bs).foldl (fun d p =>
        d.sendTracked c k rank .indigo
          (.returnData ⟨k.commId, k.rank, .bucket (x.f 72 2), BitVec.ofNat 32 (x.f 124 4), first + p.1 / 2, p.2⟩)
          { xtag := 0, ctx := c.id, ring := ring, seq := x.seq, dstMod := 0, deadline := 0 }) d

/-- A descriptor of the context that sampled a bank as active has not completed (R582). -/
def Context.bankSampled (c : Context) (set : Nat) (bank : Bool) (but : Nat) : Bool :=
  c.rings.any (fun r => r.queue.any (fun x => x.begun && x.seq != but && x.views.any (fun v => v.1 = set && v.2 = bank)))

/-- Writes to a range of a context fall into a bank that an unshipped Fitting holds and has not copied (R582, R605). -/
def Device.fittingHolds (d : Device) (ctx : Code) (ca n : Nat) : Bool :=
  d.fabric.fittings.any (fun f => f.ctx = ctx && f.snapped && !f.shipped && f.held.any (fun h => rangesOverlap h.1 h.2 ca n)
    && !((cutAt (2 ^ 21) ca n).all (fun s => f.cow.any (fun w => w.1 = s.1 / 2 ^ 21 * 2 ^ 21))))

/-- Change a Fitting in progress. -/
def Device.updFit (d : Device) (ctx : Code) (ring : RingId) (seq : Nat) (f : FittingRun → FittingRun) : Device :=
  { d with fabric := { d.fabric with fittings := d.fabric.fittings.map (fun r =>
    if r.ctx = ctx && r.ring = ring && r.seq = seq then f r else r) } }

/-- Copy a region of 2 MiB of a held bank to the COW area, when space remains there (R605). -/
def Device.copyRegion (d : Device) (f : FittingRun) (x : Desc) (region : Nat) : Device :=
  let used := f.cow.length
  if x.f 64 8 < (used + 1) * 2 ^ 21 || f.cow.any (fun w => w.1 = region) then d
  else
    let at_ := x.f 56 8 + used * 2 ^ 21
    match d.readCa { ctx := f.ctx } region (2 ^ 21) with
    | (d, .ok bs) => match d.writeCa { ctx := f.ctx, cls := .slate } at_ bs with
      | (d, .ok _) => d.updFit f.ctx f.ring f.seq (fun g => { g with cow := g.cow ++ [(region, at_)] })
      | (d, .error _) => d
    | (d, .error _) => d

/-- Before a write to a range, the regions that an unshipped Fitting holds are copied (R605). -/
def Device.copyBefore (d : Device) (ctx : Code) (ca n : Nat) : Device :=
  d.fabric.fittings.foldl (fun d f =>
    if f.ctx != ctx || !f.snapped || f.shipped then d
    else match d.desc? f.ctx f.ring f.seq with
      | none => d
      | some x =>
        let regions := ((cutAt (2 ^ 21) ca n).map (fun s => s.1 / 2 ^ 21 * 2 ^ 21)).filter (fun r =>
          f.held.any (fun h => rangesOverlap h.1 h.2 r (2 ^ 21)))
        regions.foldl (fun d r => match d.fabric.fittings.find? (fun g => g.ctx = f.ctx && g.ring = f.ring && g.seq = f.seq) with
          | some g => d.copyRegion g x r
          | none => d) d) d

/-- A RETURN of the context may write a range of its pending bank (R582, R583). -/
def Device.returnMayWrite (d : Device) (c : Context) (x : Desc) (ca n : Nat) : Bool :=
  match c.sets.find? (fun s => s.index = x.f 76 1) with
  | none => false
  | some s => !c.bankSampled s.index (!s.active) x.seq && !d.fittingHolds c.id ca n

/-- The pending-bank address of a bucket element for a RETURN (R583). -/
def Context.returnAt (c : Context) (x : Desc) (e : Nat) : Option Nat :=
  (c.sets.find? (fun s => s.index = x.f 76 1)).map (fun s => s.bank (!s.active) + x.f 56 8 + 2 * e)

/-- A grant of a receiver (R583, R597, R598). -/
def Device.sendGrant (d : Device) (c : Context) (k : Comm) (rank : Nat) (kind : TransferKind) (nth bytes step : Nat) : Device :=
  d.sendRank c k rank .indigo (.collGrant ⟨k.commId, k.rank, kind, nth, bytes, BitVec.ofNat 32 step⟩)

/-- Count a transfer of a kind with a peer: its number, and the communicator after it. -/
def Comm.issue (k : Comm) (kind : TransferKind) (peer : Nat) : Nat × Comm :=
  let n := ((k.issued.find? (fun i => i.1 = kind && i.2.1 = peer)).map (fun i => i.2.2)).getD 0
  (n, { k with issued := (kind, peer, n + 1) :: k.issued.filter (fun i => !(i.1 = kind && i.2.1 = peer)) })

/-- The kind, the peer and the bytes of a transfer that a descriptor sends (R597, R598). -/
def Desc.transfer (x : Desc) : TransferKind := match x.op? with
  | some .broadcast => .broadcast
  | some .returnSlice => .slice (.bucket (x.f 72 2))
  | _ => .send

/-- The grant of a receiver, once its first send may begin (R597, R598, R600). -/
def Device.runGrants (d : Device) (r : CollRun) : Device :=
  match d.collDesc? r, d.ctx? r.ctx with
  | some x, some c => match c.comm? r.commId with
    | none => d
    | some k =>
      let peer := x.f 44 4
      let receives := match x.op? with
        | some .recv => true
        | some .broadcast => k.rank != peer
        | _ => false
      if !receives || !r.startOk || r.grantsOut.contains peer then d
      else (d.updRun r.ctx r.ring r.seq (fun q => { q with grantsOut := [peer] })).sendGrant c k peer x.transfer r.nth (x.f 64 8) (x.f 124 4)
  | _, _ => d

/-- The sends of a run whose grants have come, once its first send may begin (R583, R597, R598, R600). -/
def Device.runSends (d : Device) (r : CollRun) : Device :=
  match d.collDesc? r, d.ctx? r.ctx with
  | some x, some c => match c.comm? r.commId with
    | none => d
    | some k =>
      let due := r.grantsIn.filter (fun g => !r.sentTo.contains g)
      if !r.startOk then d
      else due.foldl (fun d g =>
        let d := d.updRun r.ctx r.ring r.seq (fun q => { q with sentTo := q.sentTo ++ [g] })
        match x.op? with
        | some .returnSlice => d.sendSlice c k x r.ring g
        | some .broadcast | some .send =>
          match d.readCa (x.collRead r.ctx r.ring) (x.f 48 8) (x.f 64 8) with
          | (d, .ok bs) => d.sendData c k g (classOf (x.bits 35 1 1 0)) x.transfer r.nth bs r.ring r.seq
          | (d, .error e) => d.failSeq r.ctx r.ring r.seq e
        | _ => d) d
  | _, _ => d

/-- The own slice of a RETURN goes to its place in the pending bank (R583). -/
def Device.returnOwn (d : Device) (c : Context) (k : Comm) (x : Desc) (r : CollRun) (at_ n : Nat) : Device :=
  let d := d.updRun r.ctx r.ring r.seq (fun q => { q with own := true })
  match d.readCa (x.collRead c.id r.ring) (x.f 48 8) (2 * n) with
  | (d, .error e) => d.failSeq r.ctx r.ring r.seq e
  | (d, .ok bs) => match d.writeCa (x.collWrite c.id r.ring) at_ bs with
    | (d, .ok _) => d.landBytes r.ctx r.ring r.seq k.rank (2 * n)
    | (d, .error e) => d.failSeq r.ctx r.ring r.seq e

/-- The slice of one rank in a RETURN: granted, or written here if it is this member's own, when R582 permits the write; the
regions of 2 MiB that a Fitting holds are copied first, if space remains (R583, R605). -/
def Device.returnSlot (d : Device) (c : Context) (k : Comm) (x : Desc) (r : CollRun) (elements g : Nat) : Device :=
  let (first, n) := sliceOf elements k.size g
  match c.returnAt x first with
  | none => d
  | some at_ =>
    let d := d.copyBefore c.id at_ (2 * n)
    if !d.returnMayWrite c x at_ (2 * n) then d
    else
      let d := d.updRun r.ctx r.ring r.seq (fun q => { q with grantsOut := q.grantsOut ++ [g] })
      if g = k.rank then d.returnOwn c k x r at_ n else d.sendGrant c k g x.transfer r.nth (2 * n) (x.f 124 4)

/-- The grants of a RETURN that R582 permits now (R583). -/
def Device.returnGrants (d : Device) (r : CollRun) : Device :=
  match d.collDesc? r, d.ctx? r.ctx with
  | some x, some c => match c.comm? r.commId with
    | none => d
    | some k =>
      if x.op? != some .returnSlice || !r.startOk then d
      else match k.buckets[x.f 72 2]? with
        | none => d
        | some b => ((List.range k.size).filter (fun g => !r.grantsOut.contains g)).foldl
            (fun (d : Device) g => d.returnSlot c k x r b.elements g) d
  | _, _ => d

/-! ## The noise record of a step (R576) -/

/-- A floating accumulator payload after an exact integer times a power of two is added (R167, R576). -/
def addNorm (t : Int × Int) (n : Nat) (e : Int) : Int × Int :=
  if n = 0 then t
  else
    let shift := floorLog2 n + 1 - 62
    let u : AccWord := { m := (n : Int) / 2 ^ shift, e := e + shift }
    let r := if t.1 = 0 then u else accAdd false 0 { m := t.1, e := t.2 } u
    (r.m, r.e)

/-- A positive rational rounded once to binary32, to nearest even. -/
def ratToLane (num den : Nat) : Lane :=
  if num = 0 || den = 0 then 0
  else
    let k : Int := (floorLog2 num : Int) - floorLog2 den
    let e := max (k - 26) (-152)
    let n := if 0 ≤ e then num else num * 2 ^ (-e).toNat
    let q := if 0 ≤ e then den * 2 ^ e.toNat else den
    let sticky := if n % q = 0 then 0 else 1
    laneOf (.fin false (2 * (n / q) + sticky) (e - 1))

/-- CRIT and whether it is undefined (R576). -/
def critOf (a q : Int × Int) (n : Nat) : Lane × Bool :=
  let e := min a.2 q.2
  let A := (Dy.mk a.1 a.2).floorAt e
  let Q := (Dy.mk q.1 q.2).floorAt e
  if n < 2 || decide (Q ≤ A) then (0, true)
  else
    let num := A * n - Q
    let r := ratToLane num.natAbs (Q - A).toNat
    (if num < 0 then r ||| 0x80000000 else r, false)

/-- The 64 bytes of a STEP_END record (R576). -/
def stepRecord (a q : Int × Int) (step n : Nat) : List Byte :=
  let (crit, undef) := critOf a q n
  leBytes 8 (patternOf 64 a.1) ++ leBytes 2 (patternOf 16 a.2) ++ leBytes 2 0 ++ leBytes 4 step
    ++ leBytes 8 (patternOf 64 q.1) ++ leBytes 2 (patternOf 16 q.2) ++ leBytes 2 0 ++ leBytes 4 n
    ++ leBytes 4 crit.toNat ++ leBytes 4 (if undef then 1 else 0) ++ leBytes 24 0

/-- A REDUCE completes: the totals join the step total, and STEP_END writes its record (R574, R576). -/
def Device.reduceEnds (d : Device) (r : CollRun) (x : Desc) (k : Comm) (b : Bucket) (totals : Nat × Nat) : Device :=
  let f : Int := match b.red.agreed with
    | some (e, _) => if e = -32768 then 0 else (k.width : Int) - 3 - k.logN - e
    | none => 0
  let a := addNorm k.stepA totals.1 (-2 * f)
  let q := addNorm k.stepQ totals.2 (-2 * f)
  let finish (d : Device) : Device := d.finish r.ctx r.ring x 0 0 none
  if !x.bit 33 1 0 then finish (d.updComm r.ctx k.commId (fun k => { k with stepA := a, stepQ := q }))
  else match d.writeCa (x.collWrite r.ctx r.ring) (x.f 48 8) (stepRecord a q (x.f 124 4) k.size) with
    | (d, .ok _) => finish (d.updComm r.ctx k.commId (fun k => { k with stepA := (0, 0), stepQ := (0, 0) }))
    | (d, .error e) => d.failSeq r.ctx r.ring r.seq e

/-! ## Completion of collectives (R574, R584, R596 to R598) -/

/-- Every rank's slice has landed. -/
def slicesLanded (r : CollRun) (elements n : Nat) : Bool :=
  (List.range n).all (fun g => 2 * (sliceOf elements n g).2 ≤ r.landedFrom g)

/-- An earlier REDUCE of the communicator has not completed: the step totals are added in ring order (R576). -/
def Device.earlierReduce (d : Device) (r : CollRun) : Bool :=
  d.fabric.colls.any (fun q => q.ctx = r.ctx && q.commId = r.commId && decide (q.seq < r.seq)
    && (d.collDesc? q).any (fun x => x.op? = some .reduce))

/-- A collective that has everything it waits for completes. A REDUCE whose step its bucket has left behind can never complete
and fails (R614). -/
def Device.runEnds (d : Device) (r : CollRun) : Device :=
  match d.collDesc? r, (d.ctx? r.ctx).bind (fun c => c.comm? r.commId) with
  | some x, some k =>
    let others := k.size - 1
    let quiet := !d.awaits r.ctx r.ring r.seq
    let ok (c : Bool) : Device := if c then d.finish r.ctx r.ring x 0 0 none else d
    match x.op? with
    | some .reduce => match k.buckets[x.f 72 2]? with
      | none => d
      | some b =>
        match b.failed.filter (fun f => f.1.toNat = x.f 124 4) with
        | some (_, code) =>
          (d.updBucket r.ctx k.commId (x.f 72 2) (fun q => { q with failed := none })).failSeq r.ctx r.ring r.seq code
        | none => if b.state.step?.any (fun t => x.f 124 4 < t.toNat) then d.failSeq r.ctx r.ring r.seq 0x0A05 else
          match b.state, b.red.totals with
          | .done t, some tot => if t.toNat = x.f 124 4 && !d.earlierReduce r then d.reduceEnds r x k b tot else d
          | _, _ => d
    | some .allreduce => ok (r.red.sumQ.isSome && slicesLanded r (x.f 40 4) k.size
        && !d.awaitsExch r.ctx r.commId (.allreduce r.nth))
    | some .broadcast => if k.rank = x.f 44 4 then ok (decide (others ≤ r.sentTo.length) && r.startOk && quiet)
                         else ok (decide (x.f 64 8 ≤ r.landedFrom (x.f 44 4)))
    | some .returnSlice => match k.buckets[x.f 72 2]? with
      | none => d
      | some b => ok (r.own && decide (others ≤ r.sentTo.length) && quiet && slicesLanded r b.elements k.size)
    | some .send => ok (decide (1 ≤ r.sentTo.length) && quiet)
    | some .recv => ok (decide (x.f 64 8 ≤ r.landedFrom (x.f 44 4)))
    | _ => d
  | _, _ => d

/-- Runs whose descriptors have finished or are gone are forgotten. -/
def Device.pruneRuns (d : Device) : Device :=
  let live (ctx : Code) (ring : RingId) (seq : Nat) : Bool := (d.desc? ctx ring seq).any (fun x => x.begun && match x.phase with
    | .finished _ => false
    | _ => true)
  { d with fabric := { d.fabric with
      colls := d.fabric.colls.filter (fun r => live r.ctx r.ring r.seq),
      relays := d.fabric.relays.filter (fun r => live r.ctx r.ring r.seq),
      fittings := d.fabric.fittings.filter (fun r => live r.ctx r.ring r.seq),
      outstanding := d.fabric.outstanding.filter (fun o => live o.ctx o.ring o.seq || (match o.exch with
        | some (.bucket _) => true
        | _ => false)) } }

/-- An ALLREDUCE begins with its local exponent (R567, R596). -/
def Device.allreduceStart (d : Device) (r : CollRun) : Device :=
  match (d.collDesc? r).bind (fun x => if x.op? = some .allreduce then d.rjob? r.ctx r.commId (.allreduce r.nth) else none) with
  | none => d
  | some j =>
    if !r.startOk || r.own then d
    else match d.stagedNums j with
    | (d, .error s) => d.reductionFailed j s
    | (d, .ok xs) =>
      let (e, nf) := localExponent xs
      (d.updRun r.ctx r.ring r.seq (fun q => { q with own := true, red := { q.red with eLoc := e, nonFinite := nf } })).reductionRun
        r.ctx r.commId (.allreduce r.nth)

/-- A context has a slot (R407). -/
def Device.awake (d : Device) (ctx : Code) : Bool := (d.ctx? ctx).any (fun c => c.resident)

/-- Everything that the collectives can do now. Those of a swapped context wait (R407). -/
def Device.settle (d : Device) : Device :=
  let colls (d : Device) : List CollRun := d.fabric.colls.filter (fun r => d.awake r.ctx)
  let exchanges := (d.contexts.filter (fun c => c.resident)).flatMap (fun c => c.comms.flatMap (fun k =>
    (List.range k.buckets.length).map (fun b => (c.id, k.commId, Exchange.bucket b))))
    ++ (colls d).map (fun r => (r.ctx, r.commId, Exchange.allreduce r.nth))
  let d := exchanges.foldl (fun d e => d.reductionRun e.1 e.2.1 e.2.2) d
  let d := (colls d).foldl (fun d r => d.allreduceStart r) d
  let d := (colls d).foldl (fun d r => d.runGrants r) d
  let d := (colls d).foldl (fun d r => d.returnGrants r) d
  let d := (colls d).foldl (fun d r => d.runSends r) d
  let d := (colls d).foldl (fun d r => d.runEnds r) d
  d.pruneRuns

/-! ## Packets of communicators -/

/-- Keep a packet of an exchange that this member has not begun. -/
def Device.keepEarly (d : Device) (ctx : Code) (id : BitVec 32) (p : Packet) : Device :=
  d.updComm ctx id (fun k => { k with early := k.early ++ [p] })

/-- EXPONENT_PAIR (R567, R599). -/
def Device.exponentPair (d : Device) (h : PktHead) (p : ExponentPair) : Device :=
  d.forResident ⟨h, .exponentPair p⟩ fun d =>
  let d := d.commRead h p.commId p.rank
  match d.commFor h p.commId p.rank with
  | .error e => d.refuseComm ⟨h, .exponentPair p⟩ e
  | .ok (c, k) =>
    if !k.joined || !(childrenOf k.size k.rank).contains p.rank then d.countRefused
    else match d.rjob? c.id k.commId p.exch with
      | none => match p.exch with
        | .bucket _ => d.countRefused
        | .allreduce _ => d.keepEarly c.id k.commId ⟨h, .exponentPair p⟩
      | some j =>
        let known := match p.exch with
          | .bucket b => match (k.buckets[b]?).map (fun q => q.state) with
            | some (BucketState.filling _) | some (BucketState.agreeing _) => true
            | _ => false
          | .allreduce _ => true
        if p.elements = 0 || (known && !j.agrees p) || p.elements != j.elements then d.reductionMismatch j
        else (d.updRed j (fun q => { q with pairs := (p.rank, p.eLoc, p.nonFinite) :: q.pairs.filter (fun x => x.1 != p.rank) })).settle

/-- EXPONENT_RESULT (R567, R568): it goes on down the tree. -/
def Device.exponentResult (d : Device) (h : PktHead) (p : ExponentPair) : Device :=
  d.forResident ⟨h, .exponentResult p⟩ fun d =>
  let d := d.commRead h p.commId p.rank
  match d.commFor h p.commId p.rank with
  | .error e => d.refuseComm ⟨h, .exponentResult p⟩ e
  | .ok (c, k) =>
    if k.rank = 0 || p.rank != parentOf k.rank then d.countRefused
    else match d.rjob? c.id k.commId p.exch with
      | none => d.countRefused
      | some j =>
        if !j.red.sentUp || j.red.agreed.isSome then d.countRefused
        else if !j.agrees p then
          (d.sendChildren j (.exponentResult (j.pair 0 false 0))).reductionFailed j 0x0A07
        else ((d.sendChildren j (.exponentResult (j.pair p.eLoc p.nonFinite j.elements))).updRed j
          (fun q => { q with agreed := some (p.eLoc, p.nonFinite) })).settle

/-- TALLY_WORDS (R571, R572): words of this owner's slice are added and acknowledged. -/
def Device.tallyWords (d : Device) (h : PktHead) (w : TallyPacket) : Device :=
  d.forResident ⟨h, .tally w⟩ fun d =>
  let d := d.commRead h w.commId w.rank
  let pkt : Packet := ⟨h, .tally w⟩
  match d.commFor h w.commId w.rank with
  | .error e => d.refuseComm pkt e
  | .ok (c, k) => match d.rjob? c.id k.commId w.exch with
    | none => d.countRefused
    | some j =>
      let wb := k.width / 8
      let n := w.words.length / wb
      let (first, cnt) := sliceOf j.elements k.size k.rank
      if !k.joined || !d.exchangeOn c.id k.commId w.exch || j.step != w.step.toNat || j.red.sumQ.isSome
          || w.first < first || first + cnt < w.first + n then d.countRefused
      else
        let ws := (List.range n).map (fun i => signedOf (8 * wb) (bytesField w.words (wb * i) wb))
        match d.addTallies j (w.first - first) ws with
        | (d, .error s) => ((d.emit (pkt.reply .writeAck)).reductionFailed j s).settle
        | (d, .ok _) =>
        let d := d.updRed j (fun q => { q with received := countIn q.received w.rank n })
        (d.emit (pkt.reply .writeAck)).settle

/-- NOISE_STATISTIC (R575). -/
def Device.noiseStatistic (d : Device) (h : PktHead) (n : NoisePacket) : Device :=
  d.forResident ⟨h, .noise n⟩ fun d =>
  let d := d.commRead h n.commId n.rank
  match d.commFor h n.commId n.rank with
  | .error e => d.refuseComm ⟨h, .noise n⟩ e
  | .ok (c, k) => match d.rjob? c.id k.commId (.bucket n.bucket) with
    | none => d.countRefused
    | some j =>
      if !k.joined then d.countRefused
      else if n.down then
        if k.rank = 0 || n.rank != parentOf k.rank || j.step != n.step.toNat || !j.red.noiseUp then d.countRefused
        else ((d.updRed j (fun q => { q with totals := some (n.a.toNat, n.q.toNat) })).sendChildren j
          (.noise (j.noiseMsg n.bucket true n.a.toNat n.q.toNat))).settle
      else if !(j.children.contains n.rank) then d.countRefused
      else (d.updRed j (fun q => { q with noise := (n.rank, n.a.toNat, n.q.toNat) :: q.noise.filter (fun x => x.1 != n.rank) })).settle

/-- RETURN_DATA (R583, R596): part of another owner's slice lands. -/
def Device.returnData (d : Device) (h : PktHead) (r : ReturnPacket) : Device :=
  d.forResident ⟨h, .returnData r⟩ fun d =>
  let d := d.commRead h r.commId r.rank
  let pkt : Packet := ⟨h, .returnData r⟩
  match d.commFor h r.commId r.rank with
  | .error e => d.refuseComm pkt e
  | .ok (c, k) =>
    let found := d.fabric.colls.findSome? (fun q =>
      if q.ctx != c.id || q.commId != k.commId then none
      else (d.collDesc? q).bind (fun x => match r.exch, x.op? with
        | .bucket b, some .returnSlice => if x.f 72 2 = b && q.grantsOut.contains r.rank then (c.returnAt x r.first).map (fun a => (q, x, a)) else none
        | .allreduce n, some .allreduce => if q.nth = n then some (q, x, x.f 56 8 + 2 * r.first) else none
        | _, _ => none))
    match found with
    | none => d.countRefused
    | some (q, x, at_) =>
      if x.f 124 4 != r.step.toNat then d.failSeq c.id q.ring q.seq 0x0A07
      else match d.writeCa (x.collWrite c.id q.ring) at_ r.data with
        | (d, .ok _) => ((d.landBytes c.id q.ring q.seq r.rank r.data.length).emit (pkt.reply .writeAck)).settle
        | (d, .error e) => d.failSeq c.id q.ring q.seq e

/-- The run at this member that a grant permits: it sends, to the rank that granted. -/
def Device.grantedRun? (d : Device) (c : Context) (k : Comm) (g : CollGrant) (sends : Bool) : Option (CollRun × Desc) :=
  d.fabric.colls.findSome? (fun q =>
    if q.ctx != c.id || q.commId != k.commId || q.nth != g.nth then none
    else (d.collDesc? q).bind (fun x =>
      let mine := match x.op? with
        | some .broadcast => (k.rank = x.f 44 4) = sends && (sends || x.f 44 4 = g.rank)
        | some .send => sends && x.f 44 4 = g.rank
        | some .recv => !sends && x.f 44 4 = g.rank
        | some .returnSlice => sends
        | _ => false
      if mine && x.transfer = g.kind then some (q, x) else none))

/-- The Fitting that a grant permits (R607). -/
def Device.grantedFitting? (d : Device) (c : Context) (k : Comm) (g : CollGrant) : Option FittingRun :=
  d.fabric.fittings.find? (fun f => f.ctx = c.id && f.nth = g.nth && g.kind = .send && f.snapped && !f.granted
    && (d.desc? c.id f.ring f.seq).any (fun x => x.bit 34 1 0 && x.f 40 4 = k.commId.toNat && x.f 44 4 = g.rank))

/-- The data bytes of a snapshot. -/
def FittingRun.bytes (f : FittingRun) : Nat := (f.held.map (fun h => h.2)).sum

/-- COLL_GRANT (R583, R597, R598, R599, R607): a receiver permits a transfer. A disagreement on bytes or step fails it
on this member, and a grant of 0 bytes in return fails it on the other. -/
def Device.collGrant (d : Device) (h : PktHead) (g : CollGrant) : Device :=
  d.forResident ⟨h, .collGrant g⟩ fun d =>
  let d := d.commRead h g.commId g.rank
  let pkt : Packet := ⟨h, .collGrant g⟩
  let no : Packet := pkt.reply (.collGrant { g with rank := 0, bytes := 0 })
  match d.commFor h g.commId g.rank with
  | .error e => d.refuseComm pkt e
  | .ok (c, k) =>
    let tell (d : Device) : Device := d.emit { no with body := .collGrant { g with rank := k.rank, bytes := 0 } }
    if !k.joined then d.countRefused
    else match d.grantedRun? c k g true, d.grantedFitting? c k g, d.grantedRun? c k g false with
      | some (q, x), _, _ =>
        let want := match x.op? with
          | some .returnSlice => ((k.returnSlice x).map (fun s => 2 * s.2)).getD 0
          | _ => x.f 64 8
        if want != g.bytes || g.step.toNat != x.f 124 4 then (tell d).failSeq c.id q.ring q.seq 0x0A07
        else (d.updRun q.ctx q.ring q.seq (fun r => { r with grantsIn := r.grantsIn ++ [g.rank] })).settle
      | none, some f, _ =>
        if g.bytes != 4800 + f.bytes then (tell d).failSeq c.id f.ring f.seq 0x0A07
        else { d with fabric := { d.fabric with fittings := d.fabric.fittings.map (fun y => if y = f then { y with granted := true } else y) } }
      | none, none, some (q, _) => if g.bytes = 0 then d.failSeq c.id q.ring q.seq 0x0A07 else d.keepEarly c.id k.commId pkt
      | none, none, none => d.keepEarly c.id k.commId pkt

/-- COLL_DATA (R597, R598): bulk data lands at the receiver's destination. -/
def Device.collData (d : Device) (h : PktHead) (m : CollData) : Device :=
  d.forResident ⟨h, .collData m⟩ fun d =>
  let d := d.commRead h m.commId m.rank
  let pkt : Packet := ⟨h, .collData m⟩
  match d.commFor h m.commId m.rank with
  | .error e => d.refuseComm pkt e
  | .ok (c, k) =>
    let found := d.fabric.colls.findSome? (fun q =>
      if q.ctx != c.id || q.commId != k.commId || q.nth != m.nth then none
      else (d.collDesc? q).bind (fun x => match x.op?, m.kind with
        | some .recv, .send => if x.f 44 4 = m.rank then some (q, x) else none
        | some .broadcast, .broadcast => if x.f 44 4 = m.rank && k.rank != m.rank then some (q, x) else none
        | _, _ => none))
    match found with
    | none => d.countRefused
    | some (q, x) =>
      if x.f 64 8 < m.offset + m.data.length then d.countRefused
      else match d.writeCa (x.collWrite c.id q.ring) (x.f 56 8 + m.offset) m.data with
        | (d, .ok _) => ((d.landBytes c.id q.ring q.seq m.rank m.data.length).emit (pkt.reply .writeAck)).settle
        | (d, .error e) => d.failSeq c.id q.ring q.seq e

end Sys2Proof.Machine
end

