-- ==== Sys2Proof/Machine/CollRows.lean ====
section
/-! DEFINITION. COLLECTIVE descriptors (10_job_mapping_and_reduction.md): their checks, how they begin, their start
positions, and the packets of communicators as commands. -/

namespace Sys2Proof.Machine

/-! ## Start positions (R60 to R66, R600) -/

/-- The running counter has reached a position. -/
def Device.reached (d : Device) (pos : Nat) : Bool := d.needle.state.schedules && decide (pos ≤ d.position)

/-- The current position lies beyond a position plus TOL_ANGLES (R62). -/
def Device.isLate (d : Device) (pos : Nat) : Bool := decide (pos + fieldOf d.regs.needleLate 11 0 < d.position)

/-- Set completion flags of a descriptor. -/
def Device.addFlags (d : Device) (ctx : Code) (ring : RingId) (seq : Nat) (f : BitVec 8) : Device :=
  d.updDesc ctx ring seq (fun x => { x with flags := x.flags ||| f })

/-- A descriptor that has begun and not finished. -/
def Desc.underWay (x : Desc) : Bool := x.begun && match x.phase with
  | .finished _ => false
  | _ => true

/-- The oldest descriptor under way of a ring whose operation passes a test. -/
def Device.underWay? (d : Device) (ctx : Code) (ring : RingId) (f : Op → Bool) : Option Desc :=
  (d.ring? ctx ring).bind (fun r => r.queue.find? (fun x => x.underWay && x.op?.any f))

/-! ## Checks (R554, R558, R559, R584, R601, R608, R609) -/

/-- Bytes 33 to 123 outside the named fields are 0. -/
def Desc.onlyFields (x : Desc) (used : List (Nat × Nat)) : Bool :=
  (List.range 91).all (fun i => used.any (fun u => u.1 ≤ 33 + i && 33 + i < u.1 + u.2) || x.f (33 + i) 1 = 0)

/-- The fields that a COLLECTIVE uses, and its permitted bits of COLL_CTL (R608). -/
def Desc.collFields (x : Desc) (o : Op) : List (Nat × Nat) × Nat :=
  let all := [(33, 1), (35, 1), (36, 4)]
  match o with
  | .commJoin => (all ++ [(40, 4), (44, 4), (48, 8), (56, 8), (74, 2), (76, 1)] ++ (if x.bits 33 1 4 3 = 1 then [(84, 4)] else []), 0x1E)
  | .reduce => (all ++ [(72, 2)] ++ (if x.bit 33 1 0 then [(48, 8)] else []), 1)
  | .allreduce => (all ++ [(34, 1), (40, 4), (48, 8), (56, 8), (64, 8), (77, 1), (80, 4)], 0)
  | .broadcast => (all ++ [(44, 4), (48, 8), (56, 8), (64, 8)], 0)
  | .returnSlice => (all ++ [(48, 8), (56, 8), (72, 2), (76, 1)], 0)
  | .send => (all ++ [(44, 4), (48, 8), (64, 8)], 0)
  | .recv => (all ++ [(44, 4), (56, 8), (64, 8)], 0)
  | _ => (all, 0)

/-- No field that the operation does not use is set. -/
def Desc.collReserved (x : Desc) (o : Op) : Bool :=
  let (used, ctl) := x.collFields o
  x.onlyFields used && x.f 33 1 &&& ctl = x.f 33 1 && x.bits 35 1 7 4 = 0 && x.f 77 1 ≤ 1 && x.bits 33 1 4 3 != 3

/-- The tally width, layout and sizes that a COMM_JOIN states, as a communicator without members. -/
def Desc.joinComm (x : Desc) (ring : RingId) : Comm :=
  { slot := x.f 76 1, commId := BitVec.ofNat 32 (x.f 36 4), size := x.f 40 4, rank := x.f 44 4, ring := ring, joinSeq := x.seq,
    table := x.f 48 8, digest := 0, w24 := x.bit 33 1 2, layout := x.bits 33 1 4 3, stagePages := x.f 84 4,
    commitComm := x.bit 33 1 1 }

/-- The bucket of a table entry (R560). -/
def bucketEntry (bs : List Byte) : Bucket :=
  let n := bytesField bs 0 4
  { elements := if n = 0 then 16777216 else n, tid := BitVec.ofNat 32 (bytesField bs 4 4), stage := bytesField bs 8 8,
    acc := bytesField bs 16 8, sum := bytesField bs 24 8, sumLin := bytesField bs 32 8, fmt := BitVec.ofNat 8 (bytesField bs 40 1),
    rmode := bytesField bs 41 1, shift := signedOf 16 (bytesField bs 42 2) }

/-- A bucket entry is well formed and well placed (R560, R561). -/
def Device.bucketOk (d : Device) (c : Context) (size : Nat) (bs : List Byte) : Bool :=
  let b := bucketEntry bs
  2097152 ≤ b.elements && b.elements ≤ 134217728 && is16 b.fmt.toNat && b.rmode ≤ 1 && -64 ≤ b.shift && b.shift ≤ 64
    && [b.stage, b.acc, b.sum, b.sumLin].all (fun a => a % 64 = 0) && (bs.drop 44).all (fun v => v = 0)
    && (d.homeCheck c b.stage (roundUp (ceilDiv (b.elements * 25) 8) 64)).isNone
    && (d.homeCheck c b.acc (4 * sliceLen b.elements size)).isNone

/-- The table of a COMM_JOIN: entries that name members, none twice, and its own rank this context (R553, R609). -/
def Device.tableOk (d : Device) (c : Context) (rank : Nat) (bs : List Byte) : Bool :=
  let es := (List.range (bs.length / 8)).map (fun i => bytesField bs (8 * i) 8)
  es.all (fun e => e &&& 0x0000FFFF00077FFF = e) && es.Nodup && es[rank]? = some (d.modNum.toNat + c.panel.val * 2 ^ 16 + c.id.toNat * 2 ^ 32)

/-- The checks of a COMM_JOIN (R601, R609), with the bytes of its tables. -/
def Device.joinCheckTables (d : Device) (c : Context) (ring : RingId) (x : Desc) : Res (List Byte × List Byte) :=
  let k := x.joinComm ring
  let a := x.collRead c.id ring
  if k.layout = 2 && !c.rights.getLsbD 1 then (d, .error 0x0A08)
  else
    let commitOk := !k.commitComm || (bitOf d.regs.needleCtl 1 && (match d.needle.state with
        | .locked | .treadle | .holdover | .reacquiring => true
        | _ => false) && !c.comms.any (fun q => q.commitComm))
    let aligned := k.table % 64 = 0 && x.f 56 8 % 64 = 0
    if k.commId = 0 || k.size = 0 || 32768 < k.size || k.size ≤ k.rank || 15 < k.slot || 1024 < x.f 74 2 || !aligned
        || c.comms.any (fun q => q.slot = k.slot || q.commId = k.commId) || (k.w24 && 256 < k.size) || !commitOk then (d, .error 0x0A02)
    else bindD (d.readCa a k.table (8 * k.size)) (fun d table =>
      bindD (d.readCa a (x.f 56 8) (64 * x.f 74 2)) (fun d buckets =>
        if d.tableOk c k.rank table && (List.range (x.f 74 2)).all (fun i => d.bucketOk c k.size ((buckets.drop (64 * i)).take 64))
        then (d, .ok (table, buckets)) else (d, .error 0x0A02)))

/-- The checks of a COLLECTIVE of a communicator that is joined. -/
def Comm.opCheck (k : Comm) (c : Context) (x : Desc) (o : Op) : Option Code :=
  let aligned := [48, 56].all (fun f => x.f f 8 % 64 = 0)
  let bytesOk := 64 ≤ x.f 64 8 && x.f 64 8 ≤ 2 ^ 30 && x.f 64 8 % 64 = 0
  let peer := x.f 44 4 < k.size
  match o with
  | .commLeave =>
    let busy := k.buckets.any (fun b => match b.state with
      | .agreeing _ | .reducing _ => true
      | _ => false)
    if busy && !k.broken then some 0x0A05 else none
  | .reduce => if k.buckets.length ≤ x.f 72 2 then some 0x0A05 else if aligned then none else some 0x0903
  | .allreduce =>
    if x.f 40 4 = 0 || 134217728 < x.f 40 4 then some 0x0902
    else if !is16 (x.f 34 1) then some 0x0901 else if aligned && x.f 64 8 % 64 = 0 then none else some 0x0903
  | .returnSlice =>
    match k.buckets[x.f 72 2]?, c.sets.find? (fun s => s.index = x.f 76 1) with
    | none, _ => some 0x0A05
    | _, none => some 0x0A0A
    | some b, some s => if s.bytes < x.f 56 8 + 2 * b.elements then some 0x0A0A else if aligned then none else some 0x0903
  | _ => if !peer || !bytesOk then some 0x0902 else if aligned then none else some 0x0903

/-- Every operation check of a COLLECTIVE. -/
def Device.collChecks (d : Device) (c : Context) (ring : RingId) (x : Desc) (o : Op) : Res Unit :=
  if !x.collReserved o then (d, .error 0x0906)
  else if o = .commJoin then bindD (d.joinCheckTables c ring x) (fun d _ => (d, .ok ()))
  else match c.comm? (BitVec.ofNat 32 (x.f 36 4)) with
    | none => (d, .error 0x0A03)
    | some k =>
      if !k.joined || k.ring != ring then (d, .error 0x0A03)
      else if k.broken && o != .commLeave then (d, .error 0x0A09)
      else match k.opCheck c x o with
        | some e => (d, .error e)
        | none => (d, .ok ())

/-! ## Begin -/

/-- A COMM_JOIN begins: the tables are read, and the notices go to its tree neighbours (R556, R560, R562). -/
def Device.joinBegin (d : Device) (c : Context) (ring : RingId) (x : Desc) : Device :=
  match d.joinCheckTables c ring x with
  | (d, .error e) => d.failSeq c.id ring x.seq e
  | (d, .ok (table, bs)) =>
    let buckets := (List.range (x.f 74 2)).map (fun i => bucketEntry ((bs.drop (64 * i)).take 64))
    let k := { x.joinComm ring with digest := (Config.sha3 table).setWidth 256, buckets := buckets }
    let d := d.updCtx c.id (fun c => { c with comms := c.comms ++ [k] })
    let d := (neighbours k.size k.rank).foldl (fun d r => d.sendRank c k r .indigo (.joinNotice k.notice)) d
    d.joinCheck c.id k.commId

/-- A context without its commit communicator takes an UNCERTAIN or SPLIT module back to IDLE (R613). -/
def Device.commitLeft (d : Device) (k : Comm) : Device :=
  if k.commitComm && (d.commit.state = .uncertain || d.commit.state = .split) then
    { d with commit := { d.commit with state := .idle } } else d

/-- COMM_LEAVE (R559, R613). -/
def Device.leaveComm (d : Device) (c : Context) (ring : RingId) (x : Desc) : Device :=
  match c.comm? (BitVec.ofNat 32 (x.f 36 4)) with
  | none => d
  | some k =>
    let d := d.updCtx c.id (fun c => { c with comms := c.comms.filter (fun q => q.commId != k.commId) })
    let d := { d with fabric := { d.fabric with outstanding := d.fabric.outstanding.filter (fun o => !(o.ctx = c.id && o.comm = some k.commId)) } }
    (d.commitLeft k).finish c.id ring x 0 0 none

/-- The kind and peer under which a member counts a transfer that it begins: a RECV apart from the SENDs to its peer. -/
def Desc.issueKey (x : Desc) : TransferKind × Nat :=
  match x.op? with
  | some .allreduce => (.slice (.allreduce 0), 0)
  | some .recv => (.send, 32768 + x.f 44 4)
  | some .send => (.send, x.f 44 4)
  | some .broadcast => (.broadcast, x.f 44 4)
  | _ => (x.transfer, 0)

/-- Take what came early for a communicator, and deliver it again. -/
def Device.replayEarly (d : Device) (ctx : Code) (id : BitVec 32) : Device :=
  match (d.ctx? ctx).bind (fun c => c.comm? id) with
  | none => d
  | some k =>
    let d := d.updComm ctx id (fun k => { k with early := [] })
    k.early.foldl (fun d p => match p.body with
      | .collGrant g => d.collGrant p.head g
      | .exponentPair e => d.exponentPair p.head e
      | _ => d) d

/-- Any other COLLECTIVE begins (R574, R583, R596 to R600). One with a start position waits with its first send. -/
def Device.runBegin (d : Device) (c : Context) (ring : RingId) (x : Desc) : Device :=
  match c.comm? (BitVec.ofNat 32 (x.f 36 4)) with
  | none => d
  | some k =>
    let (n, k') := k.issue x.issueKey.1 x.issueKey.2
    let d := d.updComm c.id k.commId (fun q => { q with issued := k'.issued })
    let run : CollRun := { ctx := c.id, ring := ring, seq := x.seq, commId := k.commId, nth := n,
                           startOk := !x.startEn || d.reached x.startAt }
    let d := { d with fabric := { d.fabric with colls := d.fabric.colls ++ [run] } }
    let d := if x.startEn && run.startOk && d.isLate x.startAt then d.addFlags c.id ring x.seq flagLate else d
    (d.settle.replayEarly c.id k.commId).settle

/-- A COLLECTIVE begins. -/
def Device.collBegin (d : Device) (c : Context) (ring : RingId) (x : Desc) (o : Op) : Device :=
  match o with
  | .commJoin => d.joinBegin c ring x
  | .commLeave => d.leaveComm c ring x
  | _ => d.runBegin c ring x

/-- COLLECTIVE_PHASE (R58, R65, R600, R869): the start position of a COLLECTIVE under way is reached. -/
def Device.collPhase (d : Device) (ctx : Code) (ring : RingId) : Device :=
  match d.underWay? ctx ring (fun o => o.neverSkips) with
  | none => d
  | some x =>
    if d.awake ctx && !d.haltedFor ctx && d.reached x.startAt && d.fabric.colls.any (fun r => r.ctx = ctx && r.ring = ring && r.seq = x.seq && !r.startOk) then
      let d := d.updRun ctx ring x.seq (fun r => { r with startOk := true })
      (if d.isLate x.startAt then d.addFlags ctx ring x.seq flagLate else d).settle
    else d

/-! ## Answers and losses (R516, R518, R533, R538) -/

/-- Read data or an acknowledgement for a transfer of this module. -/
def Device.response (d : Device) (h : PktHead) : Device :=
  if h.dstMod != d.modNum then d else (d.acknowledged h.xtag).1.settle

/-- A refusal or a loss fails the exchange that sent the packet. -/
def Device.refused (d : Device) (h : PktHead) (code : Code) : Device :=
  if h.dstMod != d.modNum then d
  else match d.fabric.outstanding.find? (fun o => o.xtag = h.xtag) with
    | some o => (d.exchangeFailed o code).settle
    | none => d

/-- No response within RESP_TIMEOUT_US (R533). -/
def Device.responseLate (d : Device) (xtag : BitVec 32) : Device :=
  match d.fabric.outstanding.find? (fun o => o.xtag = xtag) with
  | some o => if o.deadline ≤ d.now then (d.exchangeFailed o 0x0422).settle else d
  | none => d

/-! ## The commands -/

/-- COLLECTIVE_PHASE (R600). -/
def execCollectivePhase (ctx : Code) (ring : RingId) (s : State) : Out := s.run (fun d => d.collPhase ctx ring)
/-- REMOTE_RESPONSE (R516). -/
def execRemoteResponse (head : PktHead) (_ : Option (List Byte)) (s : State) : Out := s.run (fun d => d.response head)
/-- REFUSAL (R518). -/
def execRefusal (head : PktHead) (code : Code) (s : State) : Out := s.run (fun d => d.refused head code)
/-- LOSS_NOTICE (R538). -/
def execLossNotice (head : PktHead) (s : State) : Out := s.run (fun d => d.refused head 0x0420)
/-- RESPONSE_TIMEOUT (R533). -/
def execResponseTimeout (xtag : BitVec 32) (s : State) : Out := s.run (fun d => d.responseLate xtag)
/-- JOIN_NOTICE (R556). -/
def execJoinNotice (head : PktHead) (notice : JoinNotice) (s : State) : Out := s.run (fun d => d.joinNotice head notice)
/-- EXPONENT_PAIR (R567). -/
def execExponentPair (head : PktHead) (pair : ExponentPair) (s : State) : Out := s.run (fun d => d.exponentPair head pair)
/-- EXPONENT_RESULT (R567, R568). -/
def execExponentResult (head : PktHead) (pair : ExponentPair) (s : State) : Out := s.run (fun d => d.exponentResult head pair)
/-- TALLY_WORDS (R571). -/
def execTallyWords (head : PktHead) (words : TallyPacket) (s : State) : Out := s.run (fun d => d.tallyWords head words)
/-- NOISE_STATISTIC (R575). -/
def execNoiseStatistic (head : PktHead) (stat : NoisePacket) (s : State) : Out := s.run (fun d => d.noiseStatistic head stat)
/-- RETURN_DATA (R583). -/
def execReturnData (head : PktHead) (slice : ReturnPacket) (s : State) : Out := s.run (fun d => d.returnData head slice)
/-- COLL_GRANT (R583, R597, R598). -/
def execCollGrant (head : PktHead) (grant : CollGrant) (s : State) : Out := s.run (fun d => d.collGrant head grant)
/-- COLL_DATA (R597, R598). -/
def execCollData (head : PktHead) (data : CollData) (s : State) : Out := s.run (fun d => d.collData head data)

end Sys2Proof.Machine
end

