-- ==== Sys2Proof/Machine/Commit.lean ====
section
/-! DEFINITION. Flushing a ring (R479 to R482), and committing a step: commit sets, votes, decisions and step aborts
(R578 to R595, R690 to R695). -/

namespace Sys2Proof.Machine

/-! ## Flushing a ring -/

/-- TAIL as a doorbell line shows it (R431). -/
def Device.lineTail (d : Device) (addr : Nat) : Nat := leNat (d.hostRead addr 4)

/-- The work under way of a ring stops: running tacks, entries being filled, joins, transfers. -/
def Device.dropWork (d : Device) (ctx : Code) (ring : RingId) (r : Ring) : Device :=
  let d := d.discardRuns (fun q => q.ctx = ctx && q.ring = ring)
  let d := r.queue.foldl (fun d x => d.dropFill ctx x) d
  d.updCtx ctx (fun c => { c with comms := c.comms.filter (fun k => k.joined || k.ring != ring) })

/-- Every descriptor of a ring up to a TAIL completes with a status, in ring order, and the ring is no longer halted
(R479 to R482); the ticket is that of the error record that the completions point to. -/
def Device.flushRing (d : Device) (ctx : Code) (ring : RingId) (tail : Nat) (status : Code) (withSignals : Bool)
    (ticket : Option Nat) : Device :=
  match d.ring? ctx ring with
  | none => d
  | some r =>
    let n := tailAhead tail r.complNext
    let take (i : Nat) : Desc := ((r.queue.find? (fun x => x.seq = r.complNext + i)).getD (d.slotDesc r (r.complNext + i)))
    let ds := (List.range n).map (fun i => { take i with phase := DescPhase.finished status, ticket := ticket })
    let d := d.dropWork ctx ring r
    let d := match r.failed with
      | some f =>
        let x : Desc := { seq := f.seq, raw := f.raw }
        if r.halted && withSignals && x.signalEn then d.signalEc ctx x.signalEc x.signalInc else d
      | none => d
    let d := d.updRing ctx ring (fun r => { r with queue := ds, halted := false, failed := none,
                                                   tail := tail, next := max r.next (r.complNext + n) })
    ((List.range n).foldl (fun (d : Device) _ =>
      (d.completeHead ctx ring withSignals .none).updRing ctx ring (fun r => { r with halted := false, failed := none })) d).pruneRuns

/-! ## Commit sets (R578) -/

/-- A STEP_COMMIT COMMIT of the context is incomplete. -/
def Context.committing (c : Context) : Bool :=
  c.rings.any (fun r => r.queue.any (fun x => x.underWay && x.op? = some .stepCommit))

/-- The checks of a DEFINE. -/
def Desc.defineCheck (x : Desc) (c : Context) : Option Code :=
  let n := x.f 64 8
  let mine := [(x.f 40 8, n), (x.f 48 8, n), (x.f 56 8, n)]
  let others := (c.sets.filter (fun s => s.index != x.f 33 1)).flatMap (fun s => [(s.bank0, s.bytes), (s.bank1, s.bytes), (s.view, s.bytes)])
  let hit (a b : Nat × Nat) : Bool := rangesOverlap a.1 a.2 b.1 b.2
  if x.f 34 2 != 0 || (List.range 44).any (fun i => x.f (80 + i) 1 != 0) then some 0x0906
  else if 15 < x.f 33 1 || c.committing then some 0x0A0A
  else if x.f 40 8 = 0 then none
  else if n = 0 || n % 2 ^ 21 != 0 || mine.any (fun a => a.1 % 2 ^ 21 != 0) || others.any (fun o => mine.any (hit o))
      || hit (x.f 40 8, n) (x.f 48 8, n) || hit (x.f 40 8, n) (x.f 56 8, n) || hit (x.f 48 8, n) (x.f 56 8, n) then some 0x0A0A
  else none

/-- A DEFINE takes effect. -/
def Device.defineSet (d : Device) (ctx : Code) (x : Desc) : Device :=
  d.updCtx ctx (fun c =>
    let rest := c.sets.filter (fun s => s.index != x.f 33 1)
    let new : CommitSet := { index := x.f 33 1, bank0 := x.f 40 8, bank1 := x.f 48 8, view := x.f 56 8, bytes := x.f 64 8, commits := 0 }
    { c with sets := if x.f 40 8 = 0 then rest else rest ++ [new] })

/-! ## The commit communicator on this module (R585 to R588) -/

/-- The update stitch of a COMMIT. -/
def Desc.updateStitch (x : Desc) : Nat := x.bits 72 8 47 0

/-- Every local member: its context and its communicator. -/
def Device.commitMembers (d : Device) : List (Context × Comm) :=
  d.contexts.flatMap (fun c => (c.comms.filter (fun k => k.joined && k.commitComm)).map (fun k => (c, k)))

/-- The prepared COMMIT of a context (R586): the earlier descriptors of its ring have completed with SUCCESS or LATE_SKIPPED. -/
def Context.prepared? (c : Context) : Option Desc :=
  c.rings.findSome? (fun r => if r.unclean.isEmpty then r.queue.find? (fun x => x.underWay && x.op? = some .stepCommit) else none)

/-- The modules of the member table, each once. -/
def Device.commitModules (d : Device) : List (BitVec 15) :=
  match d.commitMembers.head? with
  | none => []
  | some (c, k) => ((List.range k.size).filterMap (fun r => (d.member? c.id k r).map (fun m => m.mod))).eraseDups

/-- The member of rank 0: the commit root. -/
def Device.commitRoot? (d : Device) : Option Member := d.commitMembers.head?.bind (fun ck => d.member? ck.1.id ck.2 0)

/-- This module is the commit root. -/
def Device.isRoot (d : Device) : Bool := d.commitRoot?.any (fun m => m.mod = d.modNum)

/-- Break the commit communicator. -/
def Device.breakCommit (d : Device) : Device :=
  { d with contexts := d.contexts.map (fun c => { c with comms := c.comms.map (fun k => if k.commitComm then { k with broken := true } else k) }) }

/-- An abort for a step is held. -/
def Device.abortHeld (d : Device) (t : BitVec 32) : Bool := d.commit.pendingAbort.any (fun a => a.step = t)

/-! ## Flooding (R589) -/

/-- Send a packet on every port of SRC_EN or OUT_EN that is UP, once for each (JOB_ID, TYPE, STEP), and not back. -/
def Device.flood (d : Device) (from_ : Option PortId) (job step : BitVec 32) (abort : Bool) (body : PktBody) : Device :=
  if d.commit.flooded.contains (job, abort, step) then d
  else
    let d := { d with commit := { d.commit with flooded := (job, abort, step) :: d.commit.flooded } }
    let head : PktHead := { cls := .indigo, layer := false, dstMod := 0, dstPanel := 0, srcMod := d.modNum, srcPanel := 0, age := 0,
                            dstCtx := 0, srcCtx := 0, addr := 0, xtag := 0, poisonMask := 0, tenant := none }
    (List.finRange 24).foldl (fun d n =>
      if (d.port n).state = .up && (bitOf d.regs.needleSrc n.val || bitOf d.regs.needleOut n.val) && from_ != some n then
        d.queueAt n (match from_ with
          | some p => ⟨p.val, by omega⟩
          | none => 24) ⟨head, body⟩
      else d) d

/-- The job of this module. -/
def Device.jobId (d : Device) : BitVec 32 := d.regs.needleJob.setWidth 32

/-! ## Aborts (R590 to R593, R690 to R695) -/

/-- Latch an abort (R692): it waits for its stitch. -/
def Device.latchAbort (d : Device) (a : AbortPacket) : Device :=
  { d with commit := { d.commit with pendingAbort := some a, abortStep := a.step, abortReason := a.reason, abortLost := a.lost,
                                     abortStitch := a.stitch, reason := a.reason } }

/-- The step being prepared: the one of the prepared COMMIT, else the one after the last applied. -/
def Device.preparing (d : Device) : BitVec 32 :=
  match d.commit.state with
  | .preparing | .voted | .decided => d.commit.step
  | _ => d.commit.lastStep + 1

/-- Issue an abort for a step with abort stitch s + 2 (R58, R590); beyond the update stitch it is for the next step. -/
def Device.issueAbort (d : Device) (t : BitVec 32) (reason : Code) (lost : BitVec 16) : Device :=
  let at_ := d.needle.stitch + 2
  let active := match d.commit.state with
    | .preparing | .voted | .decided => decide (d.commit.update < at_) && t = d.commit.step
    | _ => false
  let a : AbortPacket := { jobId := d.jobId, step := if active then t + 1 else t, stitch := BitVec.ofNat 48 at_, reason := reason, lost := lost }
  (d.latchAbort a).flood none a.jobId a.step true (.abort a)

/-! ## Votes and decisions (R586 to R591, R595) -/

/-- The root decides, when it holds every module's READY and no abort (R588). -/
def Device.tryDecide (d : Device) : Device :=
  let t := d.commit.step
  let voted (m : BitVec 15) : Bool := d.commit.ready.any (fun r => r.1 = m && r.2.1 = t && r.2.2 = d.commit.update)
  if d.commit.state = .voted && d.isRoot && d.commitModules.all voted && !d.abortHeld t then
    let d := { d with commit := { d.commit with state := .decided, decided := t :: d.commit.decided } }
    d.flood none d.jobId t false (.decide { jobId := d.jobId, step := t })
  else d

/-- The root takes a READY; one whose update stitch differs from the root's own aborts the step, whichever came first (R588). -/
def Device.takeReady (d : Device) (r : ReadyPacket) : Device :=
  if !d.isRoot || !d.commitModules.contains r.modNum then d.countRefused
  else
    let entry := (r.modNum, r.step, r.update.toNat)
    let d := { d with commit := { d.commit with ready := entry :: d.commit.ready.filter (fun q => q != entry) } }
    let active := match d.commit.state with
      | .preparing | .voted => true
      | _ => false
    if active && d.commit.ready.any (fun q => q.2.1 = d.commit.step && q.2.2 != d.commit.update) then
      if d.abortHeld d.commit.step then d else d.issueAbort d.commit.step 0x0A0D 0xFFFF
    else d.tryDecide

/-- A step begins to be prepared. What an earlier attempt of the same step has left of decisions and floods is forgotten, unless
an abort for it is held (assumption log 159). -/
def Device.startPreparing (d : Device) (t : BitVec 32) (u : Nat) : Device :=
  let c := { d.commit with state := .preparing, step := t, update := u, decided := d.commit.decided.filter (fun x => x != t) }
  if d.abortHeld t then { d with commit := c }
  else { d with commit := { c with flooded := d.commit.flooded.filter (fun f => f.2.2 != t) } }

/-- The hub votes when every local member has a prepared COMMIT for one step and update stitch (R55, R587, R595, R690). -/
def Device.tryVote (d : Device) : Device :=
  let xs := d.commitMembers.map (fun ck => ck.1.prepared?)
  match xs.findSome? id with
  | some x =>
    let t := BitVec.ofNat 32 (x.f 124 4)
    let u := x.updateStitch
    let d := if d.commit.state = .idle then d.startPreparing t u else d
    let agree := xs.all (fun y => y.any (fun y => y.f 124 4 = x.f 124 4 && y.updateStitch = u))
    let inTime := !d.needle.state.schedules || decide (d.position ≤ (u - 2) * 4096)
    if d.commit.state = .preparing && agree && inTime && d.needle.state != .lost && !d.commit.lostSelf && !d.abortHeld t then
      let d := { d with commit := { d.commit with state := .voted } }
      let d := if d.isRoot then d else d.countHub { code := 0x123 } 1
      let r : ReadyPacket := { modNum := d.modNum, step := t, update := BitVec.ofNat 48 u }
      if d.isRoot then d.takeReady r
      else match d.commitMembers.head?, d.commitRoot? with
        | some (c, _), some m => d.emit ⟨d.headTo c m .indigo, .ready r⟩
        | _, _ => d
    else d
  | none => d

/-- COMMIT_DECIDE (R588, R589). -/
def Device.takeDecide (d : Device) (port : Option PortId) (p : DecidePacket) : Device :=
  if p.jobId != d.jobId || d.commit.flooded.contains (p.jobId, false, p.step) then d
  else
    let d := d.flood port p.jobId p.step false (.decide p)
    let active := match d.commit.state with
      | .preparing | .voted => decide (d.commit.step = p.step)
      | _ => false
    { d with commit := { d.commit with decided := p.step :: d.commit.decided, state := if active then .decided else d.commit.state } }

/-- The steps for which a root without a COMMIT of its own holds a READY whose vote deadline has come. -/
def Device.lackedSteps (d : Device) : List (BitVec 32) :=
  if d.commit.state = .idle then
    ((d.commit.ready.filter (fun q => d.reached ((q.2.2 - 2) * 4096) && !d.abortHeld q.2.1 && !d.commit.decided.contains q.2.1)).map
      (fun q => q.2.1)).eraseDups
  else []

/-- COMMIT_VOTE_DEADLINE (R588): at (U − 2, 0) a root that lacks a READY, its own included, issues an abort. -/
def Device.voteDeadline (d : Device) : Device :=
  let waiting := match d.commit.state with
    | .preparing | .voted => true
    | _ => false
  if waiting && d.isRoot && d.reached ((d.commit.update - 2) * 4096) && !d.abortHeld d.commit.step then
    d.issueAbort d.commit.step 0x0A12 0xFFFF
  else if d.isRoot then d.lackedSteps.foldl (fun (d : Device) t => d.issueAbort t 0x0A12 0xFFFF) d
  else d

/-- Every prepared COMMIT of the module ends with a status. -/
def Device.endCommits (d : Device) (status : Code) : Device :=
  d.commitMembers.foldl (fun d ck =>
    (List.finRange 4).foldl (fun d n => match d.underWay? ck.1.id n (fun o => o = .stepCommit) with
      | some x => d.finish ck.1.id n x status 0 none
      | none => d) d) d

/-! ## STEP_COMMIT descriptors (R586, R590, R595, R610) -/

/-- The checks of a COMMIT or an ABORT. -/
def Device.stepCheck (d : Device) (c : Context) (x : Desc) : Option Code :=
  let commit := x.f 32 1 = 1
  if x.f 34 2 != 0 || (List.range 44).any (fun i => x.f (80 + i) 1 != 0) || (commit && x.bits 72 8 63 48 != 0) then some 0x0906
  else match c.comm? (BitVec.ofNat 32 (x.f 36 4)) with
    | none => some 0x0A03
    | some k =>
      if !k.joined || !k.commitComm then some 0x0A03
      else if k.broken then some 0x0A09
      else if commit && decide (d.needle.stitch + 2 ^ 24 < x.updateStitch) then some 0x0609 else none

/-- A COMMIT begins: it is prepared, for every earlier descriptor of its ring has completed (R586). -/
def Device.commitBegin (d : Device) : Device := d.tryVote

/-- An ABORT of the driver runs (R590). -/
def Device.abortBegin (d : Device) (ctx : Code) (ring : RingId) (x : Desc) : Device :=
  (d.issueAbort (BitVec.ofNat 32 (x.f 124 4)) 0x0A0C 0xFFFF).finish ctx ring x 0 0 none

/-! ## The commands -/

/-- COMMIT_READY (R587, R588). -/
def execCommitReady (_ : PktHead) (ready : ReadyPacket) (s : State) : Out := s.run (fun d => d.takeReady ready)
/-- COMMIT_DECIDE (R588, R589). -/
def execCommitDecide (port : Option PortId) (p : DecidePacket) (s : State) : Out := s.run (fun d => d.takeDecide port p)
/-- COMMIT_VOTE_DEADLINE (R588). -/
def execCommitVoteDeadline (s : State) : Out := s.run Device.voteDeadline
end Sys2Proof.Machine
end

