-- ==== Sys2Proof/Machine/Relay.lean ====
section
/-! DEFINITION. RELAY (09_optical_fabric.md, R540 to R546) and FITTING (10_job_mapping_and_reduction.md, R604 to R612)
descriptors. -/

namespace Sys2Proof.Machine

/-! ## RELAY: fields and checks -/

/-- STEPS. -/
def Desc.relaySteps (x : Desc) : Nat := x.f 36 2
/-- SLOT_BYTES. -/
def Desc.slotBytes (x : Desc) : Nat := x.f 64 8
/-- The context address of the slot of a step. -/
def Desc.slotAddr (x : Desc) (k : Nat) : Nat := x.f 56 8 + k % x.f 38 1 * x.slotBytes

/-- The checks of a RELAY (R546). -/
def Desc.relayCheck (x : Desc) : Option Code :=
  let n := x.slotBytes
  let slots := x.f 38 1
  if x.bits 39 1 7 4 != 0 || (List.range 40).any (fun i => x.f (88 + i) 1 != 0) then some 0x0906
  else if x.f 32 4 = 0 || x.relaySteps = 0 || 1023 < x.relaySteps || slots < 2 || 8 < slots || 7 < x.f 42 1 || 7 < x.f 43 1
      || 32767 < x.f 40 2 || 32767 < x.f 44 2 || x.f 48 8 % 64 != 0 || x.f 56 8 % 64 != 0 || n % 64 != 0 || n < 64 || 2 ^ 30 < n
      || x.f 72 4 = 0 || 31 < x.f 76 1 || 63 < x.f 77 1 || rangesOverlap (x.f 48 8) n (x.f 56 8) (slots * n) then some 0x0430
  else none

/-- The successor and the predecessor. -/
def Desc.relayNext (x : Desc) : Member := ⟨BitVec.ofNat 15 (x.f 40 2), Fin.ofNat 8 (x.f 42 1), BitVec.ofNat 16 (x.f 46 2)⟩
/-- The predecessor. -/
def Desc.relayPrev (x : Desc) : Member := ⟨BitVec.ofNat 15 (x.f 44 2), Fin.ofNat 8 (x.f 43 1), BitVec.ofNat 16 (x.f 78 2)⟩

/-- A packet comes from a member. -/
def PktHeadFrom (h : PktHead) (m : Member) : Bool := h.srcMod = m.mod && h.srcPanel = m.panel && h.srcCtx = m.ctx

/-- Change a relay in progress. -/
def Device.updRelay (d : Device) (ctx : Code) (ring : RingId) (seq : Nat) (f : RelayRun → RelayRun) : Device :=
  { d with fabric := { d.fabric with relays := d.fabric.relays.map (fun r =>
    if r.ctx = ctx && r.ring = ring && r.seq = seq then f r else r) } }

/-- The descriptor of a relay that has not finished. -/
def Device.relayDesc? (d : Device) (r : RelayRun) : Option Desc := (d.desc? r.ctx r.ring r.seq).filter (fun x => x.underWay)

/-- The grant of step `k` is due (R542). -/
def RelayRun.grantDue (r : RelayRun) (x : Desc) (c : Context) (k : Nat) : Bool :=
  let slots := x.f 38 1
  let ec := ((c.events.toList[x.f 77 1]?).getD 0).toNat
  k < x.relaySteps && (k < slots || decide (x.f 80 8 + k - slots + 1 ≤ ec))
    && (k < slots || x.relaySteps ≤ k - slots + 1 || r.acked.contains (k - slots + 1))

/-- Send every grant that is due, in order; the number bounds them. -/
def Device.relayGrants : Nat → Device → RelayRun → Device
  | 0, d, _ => d
  | n + 1, d, r =>
    match d.relayDesc? r, d.ctx? r.ctx with
    | some x, some c =>
      let k := r.grantsOut.length
      if !r.grantDue x c k then d
      else
        let d := d.emit ⟨d.headTo c x.relayPrev .indigo,
          .relayGrant ⟨BitVec.ofNat 32 (x.f 32 4), k, x.relaySteps, x.slotBytes⟩⟩
        let r := { r with grantsOut := r.grantsOut ++ [k] }
        Device.relayGrants n (d.updRelay r.ctx r.ring r.seq (fun _ => r)) r
    | _, _ => d

/-- A relay that has received and sent everything completes (R545). -/
def Device.relayEnd (d : Device) (r : RelayRun) : Device :=
  match d.relayDesc? r with
  | none => d
  | some x => if x.relaySteps ≤ r.received && x.relaySteps ≤ r.acked.length then (d.finish r.ctx r.ring x 0 0 none).pruneRuns else d

/-- Everything that the relays can do now but their sends. Those of a swapped context wait (R407). -/
def Device.relaySettle (d : Device) : Device :=
  let relays (d : Device) : List RelayRun := d.fabric.relays.filter (fun r => d.awake r.ctx)
  let d := (relays d).foldl (fun d r => Device.relayGrants 8 d r) d
  (relays d).foldl (fun d r => d.relayEnd r) d

/-- The next send of a relay may begin (R541); one with a position waits while the panel's sequencer is halted (R869). -/
def Device.relayReady (d : Device) (r : RelayRun) (x : Desc) : Bool :=
  decide (r.sent < x.relaySteps) && r.grantsIn.contains r.sent && decide (r.sent ≤ r.received)
    && (!x.startEn || (d.reached (x.startAt + r.sent * x.f 72 4) && !d.haltedFor r.ctx))

/-- RELAY_STEP_START (R541, R545): the send of the next step, as bulk packets under one transaction tag: the
acknowledgement of the step answers them, and the loss of any of them fails the RELAY (R537, R546). -/
def Device.relaySend (d : Device) (ctx : Code) (ring : RingId) : Device :=
  match d.fabric.relays.find? (fun r => r.ctx = ctx && r.ring = ring) with
  | none => d
  | some r => match d.relayDesc? r, d.ctx? ctx with
    | some x, some c =>
      if !c.resident || !d.relayReady r x then d
      else
        let k := r.sent
        let late := x.startEn && d.isLate (x.startAt + k * x.f 72 4)
        let d := if late then d.addFlags ctx ring r.seq flagLate else d
        let d := d.updRelay ctx ring r.seq (fun q => { q with sent := k + 1 })
        let from_ := if k = 0 then x.f 48 8 else x.slotAddr (k - 1)
        match d.readCa (x.access ctx ring 0 (x.bits 39 1 1 0)) from_ x.slotBytes with
        | (d, .error e) => d.failSeq ctx ring r.seq e
        | (d, .ok bs) =>
          let h := { d.headTo c x.relayNext (classOf (x.bits 39 1 1 0)) with xtag := d.fabric.nextXtag }
          let d := d.track h.dstMod { xtag := 0, ctx := ctx, ring := ring, seq := r.seq, step := some k, dstMod := 0, deadline := 0 }
          (piecesOf 4096 bs).foldl (fun (d : Device) p =>
            d.emit ⟨h, .relayBlock ⟨BitVec.ofNat 32 (x.f 32 4), k, p.1, p.2⟩⟩) d
    | _, _ => d

/-- The relay of a context with an identifier. -/
def Device.relayOf? (d : Device) (ctx : Code) (id : BitVec 32) : Option (RelayRun × Desc) :=
  d.fabric.relays.findSome? (fun r => if r.ctx != ctx then none
    else (d.relayDesc? r).bind (fun x => if x.f 32 4 = id.toNat then some (r, x) else none))

/-- The addressed context may take a relay packet (R655, R783). -/
def Device.relayTarget (d : Device) (h : PktHead) : Bool :=
  !(d.panel h.dstPanel).fenced && (d.ctx? h.dstCtx).any (fun c => c.panel = h.dstPanel && c.tenant = h.tenant)

/-- RELAY_GRANT (R542, R546). A grant for a RELAY that has not begun is kept. -/
def Device.takeGrant (d : Device) (h : PktHead) (g : RelayGrant) : Device :=
  d.forResident ⟨h, .relayGrant g⟩ fun d =>
  if !d.relayTarget h then d.countRefused
  else match d.relayOf? h.dstCtx g.relayId with
    | none => { d with fabric := { d.fabric with relayEarly := d.fabric.relayEarly ++ [⟨h, .relayGrant g⟩] } }
    | some (r, x) =>
      if !PktHeadFrom h x.relayNext then d.countRefused
      else if g.steps != x.relaySteps || g.slotBytes != x.slotBytes then d.failSeq r.ctx r.ring r.seq 0x0431
      else d.updRelay r.ctx r.ring r.seq (fun q => { q with grantsIn := if q.grantsIn.contains g.step then q.grantsIn else q.grantsIn ++ [g.step] })

/-- A packet of a panel that is fenced is answered with a loss notice that carries 0x0221 (R655). -/
def Device.refuseBulk (d : Device) (p : Packet) : Device :=
  if (d.panel p.head.dstPanel).fenced then d.countRefused.emit (p.reply (.refusal 0x0221)) else d.countRefused

/-- RELAY_BLOCK (R543, R544): the bytes land in the slot; the full step raises RECV_EC and is acknowledged. -/
def Device.takeBlock (d : Device) (h : PktHead) (b : RelayBlock) : Device :=
  let pkt : Packet := ⟨h, .relayBlock b⟩
  d.forResident pkt fun d =>
  if !d.relayTarget h then d.refuseBulk pkt
  else match d.relayOf? h.dstCtx b.relayId with
    | none => d.countRefused
    | some (r, x) =>
      if !PktHeadFrom h x.relayPrev || !r.grantsOut.contains b.step || b.step != r.received
          || x.slotBytes < b.offset + b.data.length then d.countRefused
      else match d.writeCa (x.access r.ctx r.ring 0 (x.bits 39 1 3 2)) (x.slotAddr b.step + b.offset) b.data with
        | (d, .error e) => d.failSeq r.ctx r.ring r.seq e
        | (d, .ok _) =>
          let d := d.updDesc r.ctx r.ring r.seq (fun y => { y with effect := true })
          let got := ((r.recvBytes.find? (fun q => q.1 = b.step)).map (fun q => q.2)).getD 0 + b.data.length
          let d := d.updRelay r.ctx r.ring r.seq (fun q => { q with recvBytes := countIn q.recvBytes b.step b.data.length })
          if got < x.slotBytes then d
          else
            let d := (d.updRelay r.ctx r.ring r.seq (fun q => { q with received := q.received + 1 })).countCtx r.ctx 0x04F 1
            ((d.signalEc r.ctx (x.f 76 1) 1).emit (pkt.reply (.relayAck ⟨b.relayId, b.step⟩))).relaySettle

/-- RELAY_ACK (R542, R545). -/
def Device.takeAck (d : Device) (h : PktHead) (a : RelayAck) : Device :=
  match d.acknowledged h.xtag with
  | (d, some o) =>
    if o.step = some a.step then
      (d.updRelay o.ctx o.ring o.seq (fun q => { q with acked := if q.acked.contains a.step then q.acked else q.acked ++ [a.step] })).relaySettle
    else d
  | (d, none) => d

/-- A RELAY begins (R541, R542): its first grants go, and grants that came early are taken. -/
def Device.relayBegin (d : Device) (ctx : Code) (ring : RingId) (x : Desc) : Device :=
  let r : RelayRun := { ctx := ctx, ring := ring, seq := x.seq, relayId := BitVec.ofNat 32 (x.f 32 4) }
  let mine (p : Packet) : Bool := p.head.dstCtx = ctx && (match p.body with
    | .relayGrant g => g.relayId = r.relayId
    | _ => false)
  let early := d.fabric.relayEarly.filter mine
  let d := { d with fabric := { d.fabric with relays := d.fabric.relays ++ [r],
                                              relayEarly := d.fabric.relayEarly.filter (fun p => !mine p) } }
  let d := d.relaySettle
  early.foldl (fun d p => match p.body with
    | .relayGrant g => d.takeGrant p.head g
    | _ => d) d

/-! ## FITTING: checks and snapshot (R604, R605, R611, R612) -/

/-- The sets of SET_MASK, in ascending index. -/
def Desc.fitSets (x : Desc) (c : Context) : List CommitSet :=
  (List.range 16).filterMap (fun k => if x.bit 32 2 k then c.sets.find? (fun s => s.index = k) else none)

/-- The bytes of a Fitting's data. -/
def Desc.fitBytes (x : Desc) (c : Context) : Nat := ((x.fitSets c).map (fun s => s.bytes)).sum

/-- The destination in host memory maps to host frames (R607). -/
def Device.allHost (d : Device) (c : Context) (ca n : Nat) : Bool :=
  (cutAt (2 ^ 21) ca n).all (fun s => match d.translate c s.1 true with
    | .ok (.host _) => true
    | _ => false)

/-- The checks of a FITTING. -/
def Device.fittingCheck (d : Device) (c : Context) (x : Desc) : Option Code :=
  let fabric := x.bit 34 1 0
  let cow := (x.f 56 8, x.f 64 8)
  let ranges := c.sets.flatMap (fun s => [(s.bank0, s.bytes), (s.bank1, s.bytes), (s.view, s.bytes)])
  let undefined := (List.range 16).any (fun k => x.bit 32 2 k && !c.sets.any (fun s => s.index = k))
  if 1 < x.f 34 1 || x.bits 35 1 7 2 != 0 || (List.range 44).any (fun i => x.f (80 + i) 1 != 0) then some 0x0906
  else if x.f 32 2 = 0 || undefined || cow.1 % 2 ^ 21 != 0 || cow.2 % 2 ^ 21 != 0 || x.f 72 8 % 64 != 0
      || ranges.any (fun r => rangesOverlap r.1 r.2 cow.1 cow.2)
      || (!fabric && (x.f 48 8 % 64 != 0 || !d.allHost c (x.f 48 8) (4800 + x.fitBytes c))) then some 0x0A10
  else if !fabric then none
  else match c.comm? (BitVec.ofNat 32 (x.f 40 4)) with
    | none => some 0x0A03
    | some k => if !k.joined then some 0x0A03 else if k.broken then some 0x0A09 else if k.size ≤ x.f 44 4 then some 0x0A10 else none

/-- A FITTING begins: it waits for the stitch edge of its snapshot. -/
def Device.fittingBegin (d : Device) (c : Context) (ring : RingId) (x : Desc) : Device :=
  let id := BitVec.ofNat 32 (x.f 40 4)
  let (n, d) := if !x.bit 34 1 0 then (0, d)
    else match c.comm? id with
      | some k =>
        let (n, k') := k.issue .send (x.f 44 4)
        (n, d.updComm c.id id (fun q => { q with issued := k'.issued }))
      | none => (0, d)
  { d with fabric := { d.fabric with fittings := d.fabric.fittings ++ [{ ctx := c.id, ring := ring, seq := x.seq, nth := n }] } }

/-- FITTING_SNAPSHOT (R58, R604, R869): at a stitch edge, the start position's or a later one. -/
def Device.snapshot (d : Device) (ctx : Code) (ring : RingId) : Device :=
  match d.underWay? ctx ring (fun o => o = .fitting), d.ctx? ctx with
  | some x, some c =>
    let due := !x.startEn || (d.needle.state.schedules && decide (x.startAt / 4096 ≤ d.needle.stitch))
    let waits := d.fabric.fittings.any (fun f => f.ctx = ctx && f.ring = ring && f.seq = x.seq && !f.snapped)
    if !waits || d.haltedFor ctx || !d.needle.state.runs || d.needle.tick != 0 || !due then d
    else
      let held := (x.fitSets c).map (fun s => (s.bank s.active, s.bytes))
      let late := x.startEn && decide (x.startAt / 4096 < d.needle.stitch)
      let d := d.updFit ctx ring x.seq (fun f => { f with snapped := true, stitch := d.needle.stitch, committed := d.commit.lastStep, held := held })
      let d := if late then d.addFlags ctx ring x.seq flagLate else d
      if x.bit 34 1 0 then d.replayEarly ctx (BitVec.ofNat 32 (x.f 40 4)) else d
  | _, _ => d

/-! ## FITTING: shipping (R606, R607, R784) -/

/-- The data of a snapshot: each region from its copy, if it was copied. -/
def Device.fitData (d : Device) (f : FittingRun) : Res (List Byte) :=
  foldD (f.held.flatMap (fun h => cutAt (2 ^ 21) h.1 h.2)) d [] (fun d out s =>
    let at_ := ((f.cow.find? (fun w => w.1 = s.1)).map (fun w => w.2)).getD s.1
    bindD (d.readCa { ctx := f.ctx, cls := .slate } at_ s.2) (fun d bs => (d, .ok (out ++ bs))))

/-- The first 128 bytes of a Fitting record (R606). -/
def Device.fitHead (d : Device) (c : Context) (f : FittingRun) (x : Desc) (data : List Byte) : List Byte :=
  leBytes 2 1 ++ leBytes 2 (x.f 32 2) ++ leBytes 4 (x.f 36 4) ++ leBytes 8 c.jobTag.toNat ++ leBytes 8 (posNat f.stitch 0)
    ++ leBytes 4 (x.f 124 4) ++ leBytes 4 f.committed.toNat ++ leBytes 2 d.modNum.toNat ++ leBytes 1 c.panel.val ++ leBytes 1 0
    ++ leBytes 2 c.id.toNat ++ leBytes 2 0 ++ leBytes 8 data.length ++ digestBytes (Config.sha3 data) ++ leBytes 16 0

/-- The whole record: its head, signed by the device identity key (R606). -/
def signedRecord (head : List Byte) : List Byte :=
  head ++ signDik (Config.sha3 head) ++ List.replicate 45 0

/-- Encrypt data in granules under a confidential context's current key, at shipping offsets (R784). -/
def Device.sealShipped (d : Device) (c : Context) (data : List Byte) : Res (List Byte) :=
  if !c.confidential then (d, .ok data)
  else match c.keys.head? with
    | none => (d, .error 0x0812)
    | some k =>
      let pieces := piecesOf 4096 data
      if 2 ^ 32 < k.counter + pieces.length then (d, .error 0x0813)
      else
        let sealed := pieces.zipIdx.map (fun p =>
          let iv := leBytes 8 k.installId ++ leBytes 4 (k.counter + p.2)
          (p.1.1, iv, Config.gcmSeal (granuleKey k) iv (granuleAad c k.epoch p.1.1) p.1.2))
        let d := sealed.foldl (fun d s => d.hostWrite (tagRecordAddr k s.1) (s.2.1 ++ leBytes 4 k.epoch ++ s.2.2.2.take 16)) d
        (d.updCtx c.id (fun c => { c with keys := c.keys.map (fun q => if q.epoch = k.epoch then { q with counter := q.counter + pieces.length } else q) }),
         .ok (sealed.flatMap (fun s => s.2.2.1)))

/-- Write bytes to host frames as they are. -/
def Device.writeHostFrames (d : Device) (c : Context) (ca : Nat) (bs : List Byte) : Res Unit :=
  foldD (cutAt (2 ^ 21) ca bs.length) d () (fun d _ s => match d.translate c s.1 true with
    | .ok (.host addr) => (d.hostData addr ((bs.drop (s.1 - ca)).take s.2), .ok ())
    | .ok _ => (d, .error 0x0A10)
    | .error e => (d.mapFault c s.1 (.descriptor c.id 0) { ctx := c.id }, .error e))

/-- Ship a snapshot (R606, R607): the record to REC_ADDR, and record and data to host memory or as a SEND. -/
def Device.ship (d : Device) (c : Context) (ring : RingId) (x : Desc) (f : FittingRun) : Res Unit :=
  bindD (d.fitData f) (fun d data =>
    let record := signedRecord (d.fitHead c f x data)
    bindD (d.sealShipped c data) (fun d out =>
    bindD (d.writeCa { ctx := c.id, ring := ring, seq := x.seq, cls := .slate } (x.f 72 8) record) (fun d _ =>
      let d := d.updFit c.id ring x.seq (fun g => { g with shipped := true })
      if !x.bit 34 1 0 then d.writeHostFrames c (x.f 48 8) (record ++ out)
      else match c.comm? (BitVec.ofNat 32 (x.f 40 4)) with
        | none => (d, .error 0x0A03)
        | some k => (d.sendData c k (x.f 44 4) (classOf (x.bits 35 1 1 0)) .send f.nth (record ++ out) ring x.seq, .ok ()))))

/-- A FITTING goes on: it ships after its snapshot, and over the fabric after its grant; it completes when its shipment
is acknowledged (R607). -/
def Device.fittingRun (d : Device) (ctx : Code) (ring : RingId) : Device :=
  match d.underWay? ctx ring (fun o => o = .fitting), d.ctx? ctx with
  | some x, some c =>
    match d.fabric.fittings.find? (fun f => f.ctx = ctx && f.ring = ring && f.seq = x.seq) with
    | none => d
    | some f =>
      if !f.snapped || (x.bit 34 1 0 && !f.granted) then d
      else
        let (d, r) := if f.shipped then (d, Except.ok ()) else d.ship c ring x f
        match r with
        | .error e => (d.failSeq ctx ring x.seq e).pruneRuns
        | .ok _ => if d.awaits ctx ring x.seq then d else (d.finish ctx ring x 0 0 none).pruneRuns
  | _, _ => d

/-! ## The commands -/

/-- RELAY_STEP_START (R541). -/
def execRelayStepStart (ctx : Code) (ring : RingId) (s : State) : Out := s.run (fun d => d.relaySend ctx ring)
/-- RELAY_GRANT (R542). -/
def execRelayGrant (head : PktHead) (grant : RelayGrant) (s : State) : Out := s.run (fun d => d.takeGrant head grant)
/-- RELAY_BLOCK (R543). -/
def execRelayBlock (head : PktHead) (block : RelayBlock) (s : State) : Out := s.run (fun d => d.takeBlock head block)
/-- RELAY_ACK (R545). -/
def execRelayAck (head : PktHead) (ack : RelayAck) (s : State) : Out := s.run (fun d => d.takeAck head ack)
/-- FITTING_SNAPSHOT (R604). -/
def execFittingSnapshot (ctx : Code) (ring : RingId) (s : State) : Out := s.run (fun d => d.snapshot ctx ring)

end Sys2Proof.Machine
end

