-- ==== Sys2Proof/Machine/Order.lean ====
section
/-! DEFINITION. The order of a ring (08_work_submission.md R464 to R466): what a descriptor reads, writes and names, which
descriptors depend on one another, and which may run ahead of earlier ones. -/

namespace Sys2Proof.Machine

/-- The kinds of things that descriptors name by number (R465). -/
inductive NameKind where
  | tag | param | chain | table | window
  deriving DecidableEq, Repr

/-- Names of a kind, from the first to the last number; `writes` when the descriptor changes what they name. -/
structure NameUse where
  kind : NameKind
  first : Nat
  last : Nat
  writes : Bool := false
  deriving DecidableEq, Repr

/-- What a descriptor reads, writes, names, touches in the ledger, and signals or waits on (R465). -/
structure Footprint where
  reads : List (Nat × Nat) := []
  writes : List (Nat × Nat) := []
  names : List NameUse := []
  tids : List Nat := []
  events : List Nat := []
  deriving DecidableEq, Repr

/-- Both footprints together. -/
def Footprint.both (a b : Footprint) : Footprint :=
  { reads := a.reads ++ b.reads, writes := a.writes ++ b.writes, names := a.names ++ b.names, tids := a.tids ++ b.tids,
    events := a.events ++ b.events }

/-- Two footprints have a dependence (R465). -/
def Footprint.depends (a b : Footprint) : Bool :=
  let hit (p q : List (Nat × Nat)) : Bool := p.any (fun r => q.any (fun s => rangesOverlap r.1 r.2 s.1 s.2))
  let names := a.names.any (fun m => b.names.any (fun n =>
    m.kind = n.kind && decide (m.first ≤ n.last) && decide (n.first ≤ m.last) && (m.writes || n.writes)))
  hit a.writes (b.reads ++ b.writes) || hit b.writes a.reads || names || a.tids.any (fun t => b.tids.contains t)
    || a.events.any (fun e => b.events.contains e)

/-- The auxiliary block that now lies at a context address. -/
def Device.auxNow (d : Device) (c : Context) (addr : Nat) : BitVec 1024 :=
  if addr = 0 then 0
  else match d.translate c addr false with
    | .ok (.dev m) => BitVec.ofNat 1024 (leNat (memRead d.mem m 128))
    | .ok (.host h) => BitVec.ofNat 1024 (leNat (d.hostRead h 128))
    | .error _ => 0

/-- The bounding range of rows of elements of at most 2 bytes: a narrow tensor may be stored as BF16 (R201, R465). -/
def rowSpan (base rows cols ld : Nat) : Nat × Nat := (base, boundBytes rows (2 * cols) (2 * ld))

/-- The dimensions under which a chain runs: of its output, of its vectors, and where its output lies. -/
structure ChainSpan where
  rows : Nat
  cols : Nat
  vrows : Nat
  vcols : Nat
  vlen : Nat
  out : Nat
  addr : Nat
  ld : Nat

/-- What the stages of a chain read and write (R299 to R318, R333, R334). -/
def chainFootprint (chain aux : BitVec 1024) (s : ChainSpan) : Footprint :=
  let c (off : Nat) : Nat := rawField chain off 1
  let a (off : Nat) : Nat := rawField aux off 8
  let en (i : Nat) : Bool := (rawField chain 0 2).testBit i
  let scan (i : Nat) : Bool := en 5 && (c 7).testBit i
  let one (b : Bool) (r : Nat × Nat) : List (Nat × Nat) := if b then [r] else []
  let lanes := if (c 7).testBit 3 then s.vcols else s.vrows
  let stored := !(c 3).testBit 3
  { reads := one (en 0) (a 0, 2 * (if c 4 % 2 = 0 then s.cols else s.rows)) ++ one (en 4) (a 8, 2 * s.vlen)
      ++ one (scan 4) (a 16, s.vrows * (ceilDiv s.vcols 512 * 64)) ++ one (scan 6) (a 24, 4 * lanes)
    writes := one (scan 7) (a 24, 4 * lanes) ++ one (en 5 && a 32 != 0) (a 32, 2 * lanes) ++ one (en 6) (a 40, 32)
      ++ one stored (rowSpan s.addr s.rows s.cols s.ld) ++ one (stored && (c 3).testBit 2) (a 48, s.rows * s.cols)
      ++ one (stored && s.out = fmtFP4) (a 56, s.rows * (s.ld / 32))
    names := if en 2 then [⟨.table, c 5 % 8, c 5 % 8, false⟩] else [] }

/-- The second stream of a chain: its bytes, or its Bobbin tag. -/
def in2Footprint (fmt tag : Nat) (bobbin : Bool) (addr scale rows cols ld : Nat) : Footprint :=
  if fmt = 0 then {}
  else if bobbin then { names := [⟨.tag, tag, tag, false⟩] }
  else { reads := rowSpan addr rows cols ld :: (if fmt = fmtFP4 then [(scale, rows * (ld / 32))] else []) }

/-- The footprint of a SEAM. -/
def Device.seamFootprint (d : Device) (c : Context) (x : Desc) : Option Footprint :=
  match c.chainOf (x.f 96 4) with
  | .error _ => none
  | .ok chain =>
    let aux := d.auxNow c (x.f 56 8)
    let a (off : Nat) : Nat := rawField aux off 8
    let out := rawField chain 2 1
    let rows := x.sRows
    let cols := x.sCols
    let input : Footprint := match x.inTag with
      | some t => { names := [⟨.tag, t, t, false⟩] }
      | none => { reads := rowSpan (x.f 32 8) rows cols (x.f 72 4)
          :: (if x.f 86 1 = fmtFP4 then [(a 64, rows * (x.f 72 4 / 32))] else if a 104 != 0 then [(a 104, rows * cols)] else []) }
    let own : Footprint := { reads := if x.f 56 8 = 0 then [] else [(x.f 56 8, 128)], names := [⟨.chain, x.f 96 4, x.f 96 4, false⟩],
                             tids := ((x.seamTids out).filter namesEntry).map (fun t => t.2) }
    some ((own.both input).both ((in2Footprint (x.f 87 1) (x.f 94 2) (x.bit 88 1 1) (x.f 40 8) (a 72) rows cols (x.f 76 4)).both
      (chainFootprint chain aux { rows := rows, cols := cols, vrows := rows, vcols := cols, vlen := x.vlen, out := out,
                                  addr := x.f 48 8, ld := x.f 80 4 })))

/-- The output of a product without a chain: its rows in memory, or the parameters of its Gusset entries. -/
def Context.productOut (c : Context) (x : Desc) : Footprint :=
  if x.yDest = 0 then
    { writes := (if x.cplx then [0, 1] else [0]).map (fun p => rowSpan (x.f 48 8 + p * (x.mM * x.f 92 4 * 2)) x.mM x.mN (x.f 92 4)) }
  else if x.yDest = 1 then
    { names := ((x.f 120 4) :: (c.gussetTargets x (x.mM + 1) (x.f 120 4) 0).map (fun t => t.1.param.toNat)).map (fun p => ⟨.param, p, p, true⟩) }
  else {}

/-- The bounding ranges of X (`true`) or W of a product, and of its block scales. -/
def Desc.operandRanges (x : Desc) (ofX : Bool) : List (Nat × Nat) :=
  let base := if ofX then x.f 32 8 else x.f 40 8
  let second := if ofX then x.f 56 8 else x.f 64 8
  let ld := if ofX then x.f 84 4 else x.f 88 4
  let other := if ofX then x.mM else x.mN
  let (rows, cols) := if (if ofX then !x.xT else x.wT) then (other, x.mK) else (x.mK, other)
  (if x.cplx then [0, 1, 2] else [0]).map (fun p => rowSpan (base + p * second) rows cols ld)
    ++ (if x.f 96 1 = fmtFP4 then [(second, other * (x.mK / 32))] else [])

/-- The byte ranges of a product's stationary operand; none for one that lies in the Bobbin. -/
def Desc.restRanges (x : Desc) : Option (List (Nat × Nat)) :=
  if x.isIs && x.xSrc then none else some (x.operandRanges x.isIs)

/-- The footprint of a MATMUL. -/
def Device.matmulFootprint (d : Device) (c : Context) (x : Desc) : Option Footprint :=
  let own : Footprint := {
    reads := (if x.xSrc then [] else x.operandRanges true) ++ x.operandRanges false
    names := if x.xSrc || x.xStash then [⟨.tag, x.stashTag, x.stashTag, x.xStash⟩] else []
    tids := ((x.matmulTids none).filter namesEntry).map (fun t => t.2) }
  if x.f 108 4 = 0 then some (own.both (c.productOut x))
  else match c.chainOf (x.f 108 4) with
    | .error _ => none
    | .ok chain =>
      let at_ := rawField chain 48 8
      let aux := d.auxNow c at_
      let a (off size : Nat) : Nat := rawField aux off size
      let out := chainOutFmt chain { attached := true, yFmt := x.f 98 1 }
      let tids := ([(out, rawField chain 8 4)] ++ (if a 92 1 = 0 then [] else [(a 92 1, a 96 4)])).filter namesEntry
      let hung : Footprint := { reads := if at_ = 0 then [] else [(at_, 128)], names := [⟨.chain, x.f 108 4, x.f 108 4, false⟩],
                                tids := tids.map (fun t => t.2) }
      let (vrows, vcols) := if x.isIs then (x.mN, x.mM) else (x.mM, x.mN)
      let stages := chainFootprint chain aux
        { rows := x.mM, cols := x.mN, vrows := vrows, vcols := vcols, vlen := 1024, out := out, addr := x.f 48 8, ld := x.f 92 4 }
      some ((own.both hung).both ((in2Footprint (a 92 1) (a 94 2) (a 93 1 = 1) (a 80 8) (a 72 8) x.mM x.mN (a 88 4)).both
        { stages with writes := if x.yDest = 0 then stages.writes else stages.writes.filter (fun r => r.1 != x.f 48 8) }))

/-- The bytes that a COLLECTIVE reads and writes (R560, R571, R583, R596 to R598, R608). -/
def Context.collFootprint (c : Context) (x : Desc) (o : Op) : Footprint :=
  let k := c.comm? (BitVec.ofNat 32 (x.f 36 4))
  let size := (k.map (fun q => q.size)).getD 1
  let rank := (k.map (fun q => q.rank)).getD 0
  let bucket := k.bind (fun q => q.buckets[x.f 72 2]?)
  match o with
  | .commJoin => { reads := [(x.f 48 8, 8 * x.f 40 4), (x.f 56 8, 64 * x.f 74 2)] }
  | .reduce => match bucket with
    | none => {}
    | some b => { writes := [(b.stage, roundUp (ceilDiv (b.elements * 25) 8) 64), (b.acc, 4 * sliceLen b.elements size), (b.sum, 2 * b.elements)]
                    ++ (if b.sumLin = 0 then [] else [(b.sumLin, b.elements)]) ++ (if x.bit 33 1 0 then [(x.f 48 8, 64)] else []) }
  | .allreduce => { reads := [(x.f 48 8, 2 * x.f 40 4)], writes := [(x.f 56 8, 2 * x.f 40 4), (x.f 64 8, 4 * sliceLen (x.f 40 4) size)] }
  | .broadcast => if x.f 44 4 = rank then { reads := [(x.f 48 8, x.f 64 8)] } else { writes := [(x.f 56 8, x.f 64 8)] }
  | .returnSlice => match bucket with
    | none => {}
    | some b => { reads := [(x.f 48 8, 2 * sliceLen b.elements size)],
                  writes := (c.sets.filter (fun s => s.index = x.f 76 1)).flatMap (fun s => [s.bank0, s.bank1].map (fun a => (a + x.f 56 8, 2 * b.elements))) }
  | .send => { reads := [(x.f 48 8, x.f 64 8)] }
  | .recv => { writes := [(x.f 56 8, x.f 64 8)] }
  | _ => {}

/-- What an operation reads, writes and names, but for its event counters; none when that cannot be told, and then it
depends on every other. -/
def Device.opFootprint (d : Device) (c : Context) (x : Desc) : Op → Option Footprint
  | .matmul => d.matmulFootprint c x
  | .seam => d.seamFootprint c x
  | .chainReg => some { reads := [(x.f 40 8, 128)], names := [⟨.chain, x.f 33 1, x.f 33 1, true⟩] }
  | .tableLoad => some { reads := [(x.f 40 8, 6272)], names := [⟨.table, x.f 33 1, x.f 33 1, true⟩] }
  | .storeConfig => some { writes := [(x.f 48 8, x.f 56 8)] }
  | .recomp => some { reads := [(x.f 48 8, 128)], names := [⟨.tag, x.f 36 2, x.f 36 2, true⟩] }
  | .release => some { names := [⟨.tag, x.f 36 2, x.f 38 2, true⟩] }
  | .gussetOpen => some { writes := [rowSpan (x.f 48 8) (x.f 36 4) (x.f 40 4) (x.f 44 4), (x.f 56 8, boundBytes (x.f 36 4) (x.f 40 4) (x.f 44 4))],
                          names := [⟨.param, x.f 32 4, x.f 32 4, true⟩] }
  | .gussetAcc => some { reads := rowSpan (x.f 48 8) (x.f 36 4) (x.f 40 4) (x.f 44 4) :: (if x.f 56 8 = 0 then [] else [(x.f 56 8, 4 * x.f 36 4)]),
                         names := [⟨.param, x.f 32 4, x.f 32 4, true⟩] }
  | .gussetFlush => some {
      writes := if x.f 36 1 != 1 then [] else match c.gusset? (BitVec.ofNat 32 (x.f 32 4)) with
        | none => []
        | some g => rowSpan (x.f 56 8) g.rows g.cols (x.f 72 4) :: (if x.f 64 8 = 0 then [] else [(x.f 64 8, g.rows * g.cols)])
      names := [⟨.param, x.f 32 4, x.f 32 4, true⟩] }
  | .copy => some { reads := [(x.f 32 8, boundBytes (x.f 48 4) (x.f 52 4) (x.f 56 8))], writes := [(x.f 40 8, boundBytes (x.f 48 4) (x.f 52 4) (x.f 64 8))] }
  | .fill => some { writes := [(x.f 32 8, boundBytes (x.f 40 4) (x.f 44 4) (x.f 48 8))] }
  | .windowOpen | .windowClose => some { names := [⟨.window, x.f 56 8, x.f 56 8, true⟩] }
  | .sync | .stepAbort => some {}
  | .relay => some { reads := [(x.f 48 8, x.slotBytes)], writes := [(x.f 56 8, x.f 38 1 * x.slotBytes)], events := [x.f 76 1, x.f 77 1] }
  | .fitting => some { reads := (x.fitSets c).flatMap (fun s => [(s.bank0, s.bytes), (s.bank1, s.bytes), (s.view, s.bytes)]),
                       writes := [(x.f 56 8, x.f 64 8), (x.f 72 8, 4800)] ++ (if x.bit 34 1 0 then [] else [(x.f 48 8, 4800 + x.fitBytes c)]) }
  | .setDefine => some { writes := (x.f 56 8, x.f 64 8) :: (c.sets.filter (fun s => s.index = x.f 33 1)).map (fun s => (s.view, s.bytes)) }
  | .stepCommit => some { writes := c.sets.map (fun s => (s.view, s.bytes)) }
  | o => some (c.collFootprint x o)

/-- The footprint of a descriptor (R465). -/
def Device.footprint (d : Device) (c : Context) (x : Desc) : Option Footprint :=
  (x.op?.bind (d.opFootprint c x)).map (fun f =>
    f.both { events := (if x.signalEn then [x.signalEc] else []) ++ (if x.waitEn then [x.waitEc] else []) })

/-- A restartable descriptor (R466). -/
def Context.restartable (c : Context) (x : Desc) : Bool :=
  match x.op? with
  | some .copy | some .fill => true
  | some .matmul => x.yDest != 1 && !x.xStash && !x.xSrc
  | some .seam => x.inTag.isNone && x.in2Tag.isNone && (match c.chainOf (x.f 96 4) with
      | .ok chain => !((rawField chain 0 2).testBit 5 && (rawField chain 7 1).testBit 7)
      | .error _ => false)
  | _ => false

/-- Promise 1 lets a descriptor begin with these earlier ones of its ring incomplete (R464). -/
def Device.mayBegin (d : Device) (c : Context) (x : Desc) (earlier : List Desc) : Bool :=
  earlier.isEmpty || (!x.waitEn && !x.startEn && !x.serial && c.restartable x && decide (earlier.length ≤ 3)
    && earlier.all (fun y => match d.footprint c x, d.footprint c y with
      | some a, some b => !a.depends b
      | _, _ => false))

end Sys2Proof.Machine
end

