-- ==== Sys2Proof/Machine/SaveArea.lean ====
section
/-! DEFINITION. The save area of a context: what a swap, and a pass that leaves the accumulator bank, write to it and read
back as Slate traffic (R121, R122, R249, R332, R410 to R412). The manual gives the items and their sizes; their layout in
the area is the model's (assumption log 57). -/

namespace Sys2Proof.Machine

/-! ## The layout -/

/-- The offset of the ring state and of the pass positions; the accumulator rows lie below it. -/
def saveRings : Nat := 2 ^ 24
/-- The offset of the chains. -/
def saveChains : Nat := saveRings + 4096
/-- The offset of the table slots. -/
def saveTables : Nat := saveChains + 64 * 128
/-- The offset of the scan state. -/
def saveScans : Nat := saveTables + 8 * 6272
/-- The offset of the Bobbin pages. -/
def savePages : Nat := 18 * 2 ^ 20

/-- Write bytes at an offset of a context's save area. -/
def Device.saveWrite (d : Device) (c : Context) (off : Nat) (bs : List Byte) : Device :=
  d.storeMpa (c.saveAddr + off) bs .stream .slate (.descriptor c.id 0) { ctx := c.id }

/-- Read bytes at an offset of a context's save area, and whether they are poisoned. -/
def Device.saveRead (d : Device) (c : Context) (off n : Nat) : Device × List Byte × Bool :=
  d.loadMpa (c.saveAddr + off) n .stream (fun _ => false) .slate (.descriptor c.id 0) { ctx := c.id }

/-! ## Accumulator rows (R121, R122) -/

/-- The code of an accumulator class. -/
def AccClass.code : AccClass → Nat
  | .finite => 0 | .posInf => 1 | .negInf => 2 | .nan => 3

/-- The class of a code. -/
def accClassOf (n : Nat) : AccClass := if n = 0 then .finite else if n = 1 then .posInf else if n = 2 then .negInf else .nan

/-- The 16 bytes of an accumulator word: payload, exponent, class (R164, R166). -/
def AccWord.bytes (w : AccWord) : List Byte := leBytes 12 (patternOf 96 w.m) ++ leBytes 3 (patternOf 24 w.e) ++ leBytes 1 w.cls.code

/-- The accumulator word of 16 bytes. -/
def accWordOf (bs : List Byte) : AccWord := ⟨accClassOf (bytesField bs 15 1), signedOf 96 (bytesField bs 0 12), signedOf 24 (bytesField bs 12 3)⟩

/-- The bytes of the area that a saved pass takes. -/
def SavedPass.size (s : SavedPass) : Nat := s.rows.length * (16 * s.words)

/-- Where `n` bytes of rows find room beside the passes that the area already holds. -/
def roomAt (saved : List SavedPass) (n : Nat) : Option Nat :=
  (0 :: saved.map (fun s => s.off + s.size)).find? (fun o => decide (o + n ≤ saveRings) && saved.all (fun s => !rangesOverlap o n s.off s.size))

/-- The committed rows of a bank slot. -/
def BankSlot.committed (b : BankSlot) : List (Nat × List AccWord) :=
  (b.rows.map (fun q => (q.row, q.committed))).filter (fun q => !q.2.isEmpty)

/-- The pass of a bank slot as its context's save area would hold it, where there is room for it. -/
def Context.placeFor (c : Context) (b : BankSlot) : Option SavedPass :=
  b.pass.bind (fun p =>
    let rows := b.committed
    let words := (rows.head?.map (fun q => q.2.length)).getD 0
    (roomAt c.saved (rows.length * (16 * words))).map (fun o => { pass := p, rows := rows.map (fun q => q.1), words := words, off := o }))

/-- A descriptor with the bytes and progress of its recompute descriptor. -/
def Desc.asInner (x : Desc) (i : InnerDesc) : Desc := { x with raw := i.raw, work := i.work }

/-- The form that a running tack takes its operands from: the descriptor, or its recompute descriptor. -/
def Desc.form (x : Desc) (inner : Bool) : Desc := if inner then x.inner.elim x x.asInner else x

/-- The position of a pass (R121): jt, vb, K-tile, component and next vector, with its ring and descriptor. -/
def Desc.position (x : Desc) (s : PassRef) : List Byte :=
  let y := x.form s.inner.isSome
  let e := if s.pass = y.work.pass then y.work.done else y.work.next
  let (kt, comp, v) := y.shape.entryAt s.pass e
  leBytes 4 (y.shape.jt s.pass) ++ leBytes 4 (y.shape.vb s.pass) ++ leBytes 4 kt ++ leBytes 4 comp ++ leBytes 4 v
    ++ leBytes 4 s.ref.ring.val ++ leBytes 8 s.ref.seq

/-- The committed sets of a bank slot's rows go to the save area of its context, with the pass position, and the slot is
free (R121); `none` where the area has no room. -/
def Device.savePass (d : Device) (p : PanelId) (k : Fin 2) : Option Device :=
  let b := (d.panel p).array.slots[k]
  match b.pass.bind (fun r => d.ctx? r.ref.ctx) with
  | none => some (d.updPanel p (fun q => { q with array := { q.array with slots := q.array.slots.set k {} } }))
  | some c => (c.placeFor b).map (fun s =>
      let pos := ((d.desc? s.pass.ref.ctx s.pass.ref.ring s.pass.ref.seq).map (fun x => x.position s.pass)).getD []
      let d := b.committed.zipIdx.foldl (fun d q => d.saveWrite c (s.off + 16 * s.words * q.2) (q.1.2.flatMap AccWord.bytes)) d
      let d := d.saveWrite c (saveRings + 2048 + 32 * (c.saved.length % 64)) pos
      (d.updCtx c.id (fun c => { c with saved := c.saved ++ [s] })).updPanel p (fun q =>
        { q with array := { q.array with slots := q.array.slots.set k {} } }))

/-- A pass comes back from the save area (R122): its bank rows. -/
def Device.loadPass (d : Device) (c : Context) (s : SavedPass) : Res (List AccRow) :=
  bindD (foldD s.rows.zipIdx d [] (fun d out q =>
    let (d, bs, bad) := d.saveRead c (s.off + 16 * s.words * q.2) (16 * s.words)
    if bad then (d, .error 0x0312)
    else (d, .ok (out ++ [({ row := q.1, set0 := (List.range s.words).map (fun i => accWordOf ((bs.drop (16 * i)).take 16)) } : AccRow)]))))
    (fun d rows => (d.updCtx c.id (fun c => { c with saved := c.saved.filter (fun x => x.pass != s.pass) }), .ok rows))

/-! ## The other items of a swap (R249, R332, R410) -/

/-- The ring state, event counters and translation state of a context. -/
def Context.ringState (c : Context) : List Byte :=
  let ring (r : Ring) : List Byte := leBytes 8 r.tail ++ leBytes 8 r.next ++ leBytes 8 r.complNext ++ leBytes 8 (if r.halted then 1 else 0)
  (c.rings.flatMap ring ++ c.events.toList.flatMap (fun e => leBytes 8 e.toNat)
    ++ c.tlb.flatMap (fun e => leBytes 8 e.1 ++ leBytes 8 e.2.toNat)).take 2048

/-- The scan state of a descriptor's chain: carries and partial reductions, and the statistics (R314, R315, R318). -/
def SeamScan.bytes (s : SeamScan) : List Byte :=
  (s.carries ++ s.reds).flatMap (fun p => leBytes 4 p.1 ++ leBytes 4 p.2.toNat)
    ++ leBytes 12 (patternOf 96 s.sumM) ++ leBytes 4 (patternOf 32 s.sumE) ++ leBytes 4 s.amax ++ leBytes 4 s.nans ++ leBytes 4 s.infs

/-- The scan states of a context's descriptors under way. -/
def Context.scans (c : Context) : List Byte :=
  (c.rings.flatMap (fun r => r.queue.filter Desc.underWay)).flatMap (fun x => if x.work.scan = {} then [] else x.work.scan.bytes)

/-- The entries with a Bobbin copy, each with the first page of the area that takes it. -/
def Context.bobbinPlaces (c : Context) : List (StashEntry × Nat) :=
  ((c.stash.filter (fun e => e.bobbin)).foldl (fun (r : List (StashEntry × Nat) × Nat) e => (r.1 ++ [(e, r.2)], r.2 + e.pages)) ([], 0)).1

/-- The items of a swap-out but the accumulator rows. A bad word of the Bobbin takes the poison code. -/
def Device.saveItems (d : Device) (c : Context) : Device :=
  let d := d.saveWrite c saveRings c.ringState
  let d := c.chains.foldl (fun d k => d.saveWrite c (saveChains + 128 * (k.1 % 64)) (leBytes 128 k.2.toNat)) d
  let d := c.tables.foldl (fun d t => d.saveWrite c (saveTables + 6272 * (t.1 % 8)) t.2) d
  let d := d.saveWrite c saveScans c.scans
  c.bobbinPlaces.foldl (fun d e =>
    let base := savePages + 65536 * e.2
    let d := (List.range e.1.pages).foldl (fun d i => d.saveWrite c (base + 65536 * i) (memRead e.1.data (65536 * i) 65536)) d
    d.poisonStored ((e.1.bad.map (fun b => (c.saveAddr + base + b) / 64)).eraseDups)) d

/-- The 8-byte words of a page's poisoned accesses, by their offset in the entry. -/
def badWords (d : Device) (mpa from_ : Nat) : List Nat :=
  ((List.range 1024).filter (fun k => d.badIn (mpa + 64 * k) 64)).flatMap (fun k => (List.range 8).map (fun w => from_ + 64 * k + 8 * w))

/-- The items of a swap-in (R410). A chain, a table or a page that comes back poisoned is bad in its store (R626); a
descriptor whose scan state does fails (R381). -/
def Device.restoreItems (d : Device) (c : Context) : Device :=
  let d := (d.saveRead c saveRings c.ringState.length).1
  let d := c.chains.foldl (fun d k =>
    let (d, bs, bad) := d.saveRead c (saveChains + 128 * (k.1 % 64)) 128
    d.updCtx c.id (fun c => { c with
      chains := c.chains.map (fun x => if x.1 = k.1 then (k.1, BitVec.ofNat 1024 (leNat bs)) else x)
      badChains := if bad then k.1 :: c.badChains else c.badChains })) d
  let d := c.tables.foldl (fun d t =>
    let (d, bs, bad) := d.saveRead c (saveTables + 6272 * (t.1 % 8)) t.2.length
    d.updCtx c.id (fun c => { c with
      tables := c.tables.map (fun x => if x.1 = t.1 then (t.1, bs) else x)
      badTables := if bad then t.1 :: c.badTables else c.badTables })) d
  let (d, _, lost) := d.saveRead c saveScans c.scans.length
  let d := c.bobbinPlaces.foldl (fun d e =>
    (List.range e.1.pages).foldl (fun d i =>
      let off := savePages + 65536 * (e.2 + i)
      let words := badWords d (c.saveAddr + off) (65536 * i)
      let (d, bs, _) := d.saveRead c off 65536
      d.updStash c.id e.1.tag (fun x => { x with data := memWrite x.data (65536 * i) bs, bad := (x.bad ++ words).eraseDups })) d) d
  if !lost then d
  else c.rings.zipIdx.foldl (fun d r => (r.1.queue.filter (fun x => x.underWay && x.work.scan != {})).foldl (fun d x =>
    d.failSeq c.id (Fin.ofNat 4 r.2) x.seq 0x0312) d) d

/-- A swapped context's shares and entries fit beside those of the panel's resident contexts (R219, R225, R251, R253,
assumption log 147). -/
def Device.swapFits (d : Device) (c : Context) : Bool :=
  let cs := d.residents c.panel
  let total (f : Context → Nat) : Nat := (cs.map f).sum + f c
  decide (total (fun k => k.bobbinPages) ≤ 1536) && decide (total (fun k => k.gussetLines) ≤ 16384)
    && decide (total (fun k => k.stash.length) ≤ 4096) && decide (total (fun k => k.gusset.length) ≤ 4096)

end Sys2Proof.Machine
end

