-- ==== Sys2Proof/Machine/Sequencer.lean ====
section
/-! DEFINITION. The panel sequencer: fetching, operation checks, readiness and order, tack boundaries, the run of tacks
(03_matrix_arrays.md, 08_work_submission.md R437 to R467, R925, 02_needle_time.md R60 to R67, R712 to R716). -/

namespace Sys2Proof.Machine

/-- Change the power state of a panel. -/
def Device.updPower (d : Device) (p : PanelId) (f : PanelPower → PanelPower) : Device :=
  { d with power := { d.power with panels := d.power.panels.set p.val (f d.power.panels[p.val]) p.isLt } }

/-- A descriptor has stopped with a status. -/
def Desc.isFinished (x : Desc) : Bool := match x.phase with
  | .finished _ => true
  | _ => false

/-! ## Held lines and counters read from the host (R434, R444, R813) -/

/-- The device keeps lines in the Shared state (R434, R817): POLLED = 0 and CXL.cache enabled. -/
def Device.heldMode (d : Device) : Bool := !bitOf d.regs.admitCtl 1 && d.host.cacheEnabled

/-- Acquire a line with RdShared. -/
def Device.holdLine (d : Device) (addr : Nat) : Device :=
  let l := addr / 64 * 64
  if !d.heldMode || d.host.lines.contains l then d else { d with host := { d.host with lines := d.host.lines ++ [l] } }

/-- Stop holding a line (R814). -/
def Device.dropLine (d : Device) (addr : Nat) : Device :=
  { d with host := { d.host with lines := d.host.lines.filter (fun l => l != addr / 64 * 64) } }

/-- Read a host counter from its page line (R444). -/
def Device.readCounter (d : Device) (id : Code) (ec : Nat) : Device :=
  match d.ctx? id with
  | none => d
  | some c =>
    if h : ec < 64 then
      if ec < 32 then d
      else
        let (d, bs) := d.hostFetch (c.ecAddr + 64 * ec) 8
        let d := { d with host := { d.host with counterFaults := d.host.counterFaults.filter (fun x => x != (id, ec)) } }
        d.updCtx id (fun c => { c with events := c.events.set ec (BitVec.ofNat 64 (leNat bs)) h })
    else d

/-! ## Operation checks (R925) -/

/-- A status, or none, as the answer of a check. -/
def checkOf (d : Device) (o : Option Code) : Res Unit := (d, match o with
  | some e => .error e
  | none => .ok ())

/-- The access of a descriptor's own checks and small reads. -/
def Desc.plainAccess (x : Desc) (ctx : Code) (ring : RingId) : Access := x.access ctx ring 0 1

/-- The operation checks of a descriptor, with steps 1 and 2 of R196. -/
def Device.opChecks (d : Device) (c : Context) (ring : RingId) (x : Desc) : Res Unit :=
  let a := x.plainAccess c.id ring
  match x.op? with
  | none => (d, .error 0x0906)
  | some .matmul => d.matmulChecks c ring x
  | some .seam => d.seamChecks c ring x
  | some .chainReg | some .tableLoad => d.seamCtlCheck a x
  | some .storeConfig | some .recomp | some .release => checkOf d (d.storeCtlCheck c x)
  | some .gussetOpen => checkOf d (d.gussetOpenCheck c x)
  | some .gussetAcc => d.gussetAccCheck a c x
  | some .gussetFlush => match gussetFlushCheck c x with
    | some e => (d, .error e)
    | none =>
      let n := (c.gusset? (BitVec.ofNat 32 (x.f 32 4))).elim 0 (fun e => e.rows * e.cols)
      if x.f 36 1 != 0 then (d, .ok ())
      else (d, (c.deliveryCheck (x.f 40 4) (x.f 48 8) n (BitVec.ofNat 32 (x.f 124 4))).map (fun _ => ()))
  | some .copy => checkOf d x.copyCheck
  | some .fill => checkOf d x.fillCheck
  | some .windowOpen => checkOf d (d.windowOpenCheck c x)
  | some .windowClose => checkOf d (d.windowCloseCheck c x)
  | some .sync => if (List.range 96).all (fun i => x.f (32 + i) 1 = 0) then (d, .ok ()) else (d, .error 0x0906)
  | some .relay => checkOf d x.relayCheck
  | some .fitting => checkOf d (d.fittingCheck c x)
  | some .setDefine => checkOf d (x.defineCheck c)
  | some .stepCommit | some .stepAbort => checkOf d (d.stepCheck c x)
  | some o => d.collChecks c ring x o

/-- The status with which a descriptor's start position is refused: in DISABLED, in LOST, and too far ahead while
needle-scheduled events run (R49, R66). -/
def Device.startRefusal (d : Device) (x : Desc) : Option Code :=
  if !x.startEn then none
  else match d.needle.state with
    | .disabled => some 0x0607
    | .lost => some 0x0608
    | .listen | .acquiring => none
    | _ => if d.position + 2 ^ 24 * 4096 < x.startAt then some 0x0609 else none

/-- Run the operation checks of every descriptor that is fetched, whose wait is satisfied and which may begin in ring
order: a descriptor is checked in the state that the earlier ones it depends on have left (R228, R248, R925). -/
def Device.bringUp (d : Device) (ctx : Code) (ring : RingId) : Device :=
  (List.range 4).foldl (fun d i =>
    match d.ctx? ctx, d.ring? ctx ring with
    | some c, some r =>
      match r.queue[i]? with
      | some x =>
        if !r.halted && x.phase = .fetched && c.waitMet x && d.mayBegin c x (r.queue.take i) then
          match d.opChecks c ring x with
          | (d, .ok _) => match d.startRefusal x with
            | some e => d.failDesc ctx ring x e
            | none => d.updDesc ctx ring x.seq (fun y => { y with phase := .checked })
          | (d, .error e) => d.failDesc ctx ring x e
        else if !r.halted && x.phase = .checked then
          match d.startRefusal x with
          | some e => d.failDesc ctx ring x e
          | none => d
        else d
      | none => d
    | _, _ => d) d

/-! ## Fetching (R437, R441) -/

/-- A TAIL too far ahead has stopped the ring: nothing new executes until the completion that shows it (R433). -/
def Ring.overrun (r : Ring) : Bool := r.queue.head?.any (fun x => x.phase = .finished 0x0515)

/-- The device may fetch the next descriptor of a ring (R433, R437, R475, R823). -/
def Device.fetchable (d : Device) (r : Ring) : Bool :=
  !r.halted && !r.overrun && d.hostUp && tailAhead r.tail r.next != 0 && tailAhead r.tail r.next ≤ 2 ^ r.sizeLog2

/-- DESCRIPTOR_FETCH: the next descriptor of a ring below TAIL is read, its SEQ and header are checked, and it is queued. -/
def Device.fetchDesc (d : Device) (ctx : Code) (ring : RingId) : Device :=
  match d.ring? ctx ring with
  | none => d
  | some r =>
    if !d.fetchable r then d
    else
      let (d, bs) := d.hostFetch (r.sqAddr + 128 * (r.next % 2 ^ r.sizeLog2)) 128
      let x : Desc := { seq := r.next, raw := BitVec.ofNat 1024 (leNat bs), fetchPos := d.position, fetchedAt := d.now }
      let bad := (if x.f 8 4 = r.next % 2 ^ 32 then none else some (0x0513 : Code)).or x.headerCheck
      let x := match bad with
        | some e => { x with phase := .finished e }
        | none => x
      let d := d.updRing ctx ring (fun r => { r with queue := r.queue ++ [x], next := r.next + 1 })
      let d := if bad.isNone && x.waitEn && 31 < x.waitEc then
          match d.ctx? ctx with
          | some c => (d.holdLine (c.ecAddr + 64 * x.waitEc)).readCounter ctx x.waitEc
          | none => d
        else d
      d.bringUp ctx ring

/-! ## Readiness (R457) -/

/-- Operations whose tacks the array or the Seam runs. -/
def Op.onArray : Op → Bool
  | .matmul | .seam | .gussetAcc => true
  | _ => false

/-- Operations whose tacks the DMA engine runs. -/
def Op.onDma : Op → Bool
  | .copy | .fill => true
  | _ => false

/-- Operations that begin before their start position and judge their own lateness (R541, R600, R604). -/
def Op.ownStart : Op → Bool
  | .reduce | .allreduce | .broadcast | .returnSlice | .send | .recv | .relay | .fitting => true
  | _ => false

/-- The descriptor of a ring that an operation's engine may run now: one under way, or one that may begin. -/
def Device.nextDesc? (d : Device) (c : Context) (ring : RingId) (f : Op → Bool) : Option Desc :=
  match c.ring? ring with
  | none => none
  | some r =>
    if r.halted || r.overrun then none
    else (List.range 4).findSome? (fun i => (r.queue[i]?).bind (fun x =>
      let open_ := (x.phase = .checked || x.phase = .started) && d.mayBegin c x (r.queue.take i)
        && (!x.startEn || x.phase = .started || d.reached x.startAt || x.op?.any Op.ownStart)
      if x.op?.any f && (x.underWay || open_) then some x else none))

/-- The panels whose tacks a rail carries (R729). -/
def railPanels (rail : Nat) : List PanelId :=
  (List.finRange 8).filter (fun p => rail = p.val || rail = 8 + p.val / 2 || rail = 13)

/-- The panels whose tacks a clock domain carries, in the order of R22. -/
def clockPanels (domain : Nat) : List PanelId :=
  (List.finRange 8).filter (fun p => domain = p.val || domain = 8 || domain = 9 || domain = 10 || domain = 13)

/-- The panel's tacks wait for a rail or a clock (R624). -/
def Device.waitsSupply (d : Device) (p : PanelId) : Bool :=
  d.railsOut.any (fun r => (railPanels r.1).contains p) || d.clocksOut.any (fun k => (clockPanels k).contains p)

/-- The panel serves the context: the context is resident, the panel enabled, not fenced, and its sequencer runs. -/
def Device.serves (d : Device) (c : Context) : Bool :=
  let q := d.panel c.panel
  c.resident && q.enabled && !q.fenced && !q.dbg.halted && !d.waitsSupply c.panel

/-- A ring is ready (R457). -/
def Device.ringReady (d : Device) (c : Context) (ring : RingId) : Bool := (d.nextDesc? c ring (fun _ => true)).isSome

/-- A context has a ready ring. -/
def Device.ctxReady (d : Device) (c : Context) : Bool := (List.finRange 4).any (fun n => d.ringReady c n)

/-- A filler's admission record grants BUBBLE_FILLER (R458). -/
def Context.isFiller (c : Context) : Bool := c.rights.getLsbD 2

/-! ## Beginning (R60 to R65, R580) -/

/-- The epoch of a context's current key (R769). -/
def Context.epoch (c : Context) : Nat := (c.keys.head?.map (fun k => k.epoch)).getD 0

/-- A descriptor begins: lateness is judged as its first tack or its effect begins (R62), banks are sampled. `false`: it was
skipped. A tile that rests in the active plane for an earlier run of it is not its own. -/
def Device.startDesc (d : Device) (c : Context) (ring : RingId) (x : Desc) : Device × Bool :=
  let late := x.startEn && !x.op?.any Op.ownStart && d.isLate x.startAt
  if late && x.skipIfLate && !x.op?.any Op.neverSkips then (d.finish c.id ring x 0x0610 0 none, false)
  else ((d.dropFill c.id x).updDesc c.id ring x.seq (fun y => { y with
      begun := true, phase := .running, work := {}, inner := none,
      flags := y.flags ||| (if late then flagLate else 0), views := c.sets.map (fun s => (s.index, s.active)),
      keyEpoch := c.epoch }), true)

/-- DESCRIPTOR_START (R60 to R64): the start position of a ring's waiting descriptor is reached. A descriptor that is
already late and may be skipped is skipped. Those of a swapped context and of a halted panel wait (R407, R869). -/
def Device.descStart (d : Device) (ctx : Code) (ring : RingId) : Device :=
  let d := d.bringUp ctx ring
  match d.ctx? ctx, (d.ring? ctx ring).bind (fun r => r.queue.head?) with
  | some c, some x =>
    if c.resident && !d.haltedFor ctx && x.phase = .checked && x.startEn && d.reached x.startAt && !(d.ring? ctx ring).any (fun r => r.halted) then
      if d.isLate x.startAt && x.skipIfLate && !x.op?.any Op.neverSkips then d.finish c.id ring x 0x0610 0 none
      else d.updDesc ctx ring x.seq (fun y => { y with phase := .started })
    else d
  | _, _ => d

/-! ## Preparing: steps 3 and 4 of R196, recomputation (R242 to R246) -/

/-- Where a form of a descriptor runs: the recompute descriptor's Y goes to its buffer (R243). -/
def Context.siteOf (c : Context) (ring : RingId) (x : Desc) (tag : Option Nat) : MmSite :=
  { c.site ring x with inner := tag, redirect := tag.bind (fun t => (c.recomps.find? (fun r => r.tag = t)).map (fun r => r.bufAddr)) }

/-- The tag of the recompute descriptor that a descriptor runs now. -/
def Desc.innerTag (x : Desc) : Option Nat := x.inner.map (fun i => i.tag)

/-- The stash tags that a descriptor reads. -/
def Device.readTags (d : Device) (c : Context) (ring : RingId) (x : Desc) : Res (List Nat) :=
  match x.op? with
  | some .matmul => bindD (d.matmulJob x (c.site ring x) x.shape) (fun d job =>
      (d, .ok ((if x.xSrc then [x.stashTag] else []) ++ (match job.bind (fun j => j.in2.tag) with
        | some t => [t]
        | none => []))))
  | some .seam => (d, .ok (x.inTag.toList ++ x.in2Tag.toList))
  | _ => (d, .ok [])

/-- The next dropped entry that a descriptor reads and that has not been recomputed for it. -/
def Device.nextDropped (d : Device) (c : Context) (ring : RingId) (x : Desc) : Res (Option StashEntry) :=
  bindD (d.readTags c ring x) (fun d tags =>
    (d, .ok (tags.findSome? (fun t => (c.stash? t).filter (fun e => e.dropped && !x.work.recomputed.contains t)))))

/-- The recompute descriptor of a dropped entry, of the form that R244 and R245 ask. Of its header only OPCODE, START_EN and
SIGNAL_EN count (assumption log 146). -/
def Device.innerForm (d : Device) (c : Context) (ring : RingId) (x : Desc) (e : StashEntry) : Res Desc :=
  match c.recomps.find? (fun r => r.tag = e.tag) with
  | none => (d, .error 0x0915)
  | some r => bindD (d.readCa (x.plainAccess c.id ring) r.descAddr 128) (fun d bs =>
      let y : Desc := { x with raw := BitVec.ofNat 1024 (leNat bs), work := {} }
      let form := y.op? = some .matmul && !y.xSrc && !y.xStash && y.yDest = 0 && !y.startEn && !y.signalEn
        && y.f 98 1 = e.fmt && y.mM = e.rows && y.mN = e.cols
        && stashBlocks e.rows e.cols * (1024 * elemBytes e.fmt) ≤ r.bufBytes
      if form then (d, .ok y) else (d, .error 0x0915))

/-- The recompute descriptor of a dropped entry, checked and prepared, and the flags that its operands add to the reader
(R205, R246). -/
def Device.innerStart (d : Device) (c : Context) (ring : RingId) (x : Desc) (e : StashEntry) : Res (InnerDesc × BitVec 8) :=
  bindD (d.innerForm c ring x e) (fun d y => bindD (d.matmulChecks c ring y) (fun d _ => bindD (d.matmulPrepare c ring y) (fun d w =>
    (d, .ok ({ tag := e.tag, raw := y.raw, work := w.1 }, w.2)))))

/-- Prepare a descriptor that has begun, and set up the recomputation of the next dropped entry that it reads. -/
def Device.makeReady (d : Device) (c : Context) (ring : RingId) (seq : Nat) : Res Unit :=
  match d.desc? c.id ring seq with
  | none => (d, .error 0x0511)
  | some x =>
    bindD (if x.work.prepared then (d, .ok ())
      else bindD (match x.op? with
          | some .matmul => d.matmulPrepare c ring x
          | some .seam => d.seamPrepare c ring x
          | _ => (d, .ok ({ x.work with prepared := true }, 0))) (fun d w =>
        (d.updDesc c.id ring seq (fun y => { y with work := w.1, flags := y.flags ||| w.2 }), .ok ()))) (fun d _ =>
    match d.desc? c.id ring seq, d.ctx? c.id with
    | some x, some c =>
      if x.inner.isSome then (d, .ok ())
      else bindD (d.nextDropped c ring x) (fun d e => match e with
        | none => (d, .ok ())
        | some e => bindD (d.innerStart c ring x e) (fun d i =>
            (d.updDesc c.id ring seq (fun y => { y with inner := some i.1, flags := y.flags ||| i.2 }), .ok ())))
    | _, _ => (d, .ok ()))

/-- The form that a descriptor's next tack will have and its site, with the formats in which its operands are read. A
descriptor that has not begun stays as it is. -/
def Device.upcoming (d : Device) (c : Context) (ring : RingId) (x : Desc) : Res (Desc × MmSite) :=
  if x.inner.isSome then (d, .ok (x.form true, c.siteOf ring x x.innerTag))
  else bindD (d.nextDropped c ring x) (fun d e => match e with
    | some e => bindD (d.innerForm c ring x e) (fun d y => bindD (d.withFormats c ring y) (fun d y =>
        (d, .ok (y, c.siteOf ring x (some e.tag)))))
    | none =>
      if x.op? = some .matmul then bindD (d.withFormats c ring x) (fun d y => (d, .ok (y, c.site ring x)))
      else (d, .ok (x, c.site ring x)))

/-! ## The length of a tack (R99, R100, R110 to R112, R319, R455) -/

/-- L of R111. -/
def Device.tackLimit (d : Device) (p : PanelId) : Nat :=
  fieldOf (d.panel p).arrayCtl 27 16 * (d.power.panels[p.val].freq * 40) / 1000

/-- Two tacks are of one product. -/
def TackRun.ofSite (t : TackRun) (s : MmSite) : Bool := t.ref = s.ref && t.inner = s.inner.isSome

/-- The entries of a pass before any of its vectors is complete. -/
def MmShape.undelivered (s : MmShape) (pass : Nat) : Nat :=
  if s.fp16 then (s.nk - 1) * 2 * s.rows pass else (s.nk * s.comps - 1) * s.rows pass

/-- The pass and the entry with which a product's next tack begins, and the entry that it may not pass. In chain mode, while
a tack of one pass drains, the next tack is of the pass after it, or of the one before (R99, R100); a tack of the later pass
delivers no vector before the earlier pass's last tack has entered (assumption log 157). -/
def Desc.nextEntry (x : Desc) (s : MmSite) (drain : Option TackRun) : Option (Nat × Nat × Nat) :=
  let sh := x.shape
  match drain.filter (fun t => t.ofSite s) with
  | none => some (x.work.pass, x.work.done, sh.entries x.work.pass)
  | some t =>
    if t.pass != x.work.pass then some (x.work.pass, x.work.done, sh.entries x.work.pass)
    else
      let p := t.pass + 1
      let bound := if sh.entries t.pass ≤ t.first + t.len then sh.entries p else sh.undelivered p
      if decide (p < sh.passes) && decide (x.work.next < bound) then some (p, x.work.next, bound) else none

/-- The length of the next tack of a form, with a cap that the filler guard may set: entries of a pass from `first` to
before `bound`, vectors, source rows or bytes. In chain mode a product's limit falls by 1,031 array cycles (R99); a limit
that this leaves empty still lets one vector enter (assumption log 149). -/
def Device.tackLen (d : Device) (c : Context) (x : Desc) (first bound : Nat) (cap : Option Nat) : Nat :=
  let l := d.tackLimit c.panel
  let capped (n : Nat) : Nat := match cap with
    | some k => min k n
    | none => n
  match x.op? with
  | some .matmul =>
    let l := if (d.panel c.panel).array.chain then l - 1031 else l
    let l := max 1 (capped l)
    let l := if x.shape.fp16 then max 2 (l / 2 * 2) else l
    min l (bound - first)
  | some .seam =>
    let chain := ((c.chains.find? (fun k => k.1 = x.f 96 4)).map (fun k => k.2)).getD 0
    min (max 1 (min (capped l) (x.seamBytesLimit chain))) (x.seamTotal - x.work.done)
  | some .gussetAcc => min (max 1 (capped x.accTackRows)) (x.f 36 4 - x.work.done)
  | _ => min (2 ^ 18) (x.dmaTotal - x.work.done)

/-! ## The accumulator bank's slots (R109, R121, R122, R462) -/

/-- The pass of a slot has committed rows, and its descriptor is under way. -/
def Device.passLives (d : Device) (b : BankSlot) : Bool :=
  !b.committed.isEmpty && b.pass.any (fun p => (d.desc? p.ref.ctx p.ref.ring p.ref.seq).any Desc.underWay)

/-- Change a slot of a panel's bank. -/
def Device.setSlot (d : Device) (p : PanelId) (k : Fin 2) (b : BankSlot) : Device :=
  d.updPanel p (fun q => { q with array := { q.array with slots := q.array.slots.set k b } })

/-- The pass in slot 0 is pre-empted by another descriptor: it is counted (R846, PREEMPTIONS; R462). -/
def Device.countPreempted (d : Device) (p : PanelId) (by_ : Code) : Device :=
  let b := (d.panel p).array.slots[0]
  match b.pass with
  | none => d
  | some old =>
    if !d.passLives b then d
    else
      let d := (d.count p { code := 0x034, ctx := old.ref.ctx } 1).updCtx old.ref.ctx (fun c =>
        { c with pageCounts := c.pageCounts.set 8 (c.pageCounts[8] + 1) })
      if (d.ctx? old.ref.ctx).any Context.isFiller && !(d.ctx? by_).any Context.isFiller
      then d.updPanel p (fun q => { q with fillerPreempts := satTo 32 (q.fillerPreempts + 1) }) else d

/-- Slot 0 becomes free: its pass moves to slot 1, and the one that waits there goes to its context's save area (R121). Where
that has no room for it, the pass of slot 0 goes to its own; `none`: there is no room either. -/
def Device.freeSlot0 (d : Device) (p : PanelId) : Option Device :=
  let a := (d.panel p).array
  let move (d : Device) : Device := (d.setSlot p 1 ((d.panel p).array.slots[0])).setSlot p 0 {}
  if !d.passLives a.slots[0] then some (d.setSlot p 0 {})
  else if !d.passLives a.slots[1] then some (move d)
  else ((d.savePass p 1).map move).or (d.savePass p 0)

/-- The slot of a pass becomes free: in chain mode the slot beside the product's other pass (R99), else slot 0. -/
def Device.freeFor (d : Device) (p : PanelId) (pr : PassRef) : Option (Device × Fin 2) :=
  let a := (d.panel p).array
  let paired (k : Fin 2) : Bool := a.chain && a.slots[k].pass.any (fun q => q.ref = pr.ref && q.inner = pr.inner)
  let free (k : Fin 2) : Option (Device × Fin 2) :=
    (if d.passLives a.slots[k] then d.savePass p k else some (d.setSlot p k {})).map (fun d => (d, k))
  if paired 0 then free 1 else if paired 1 then free 0
  else ((d.countPreempted p pr.ref.ctx).freeSlot0 p).map (fun d => (d, 0))

/-- A pass takes its slot (R99, R109, R121, R122): it holds it, comes back to slot 0 from slot 1 or from the save area, or
begins anew. `none`: no slot becomes free. -/
def Device.takeSlot (d : Device) (p : PanelId) (pr : PassRef) : Option (Res Unit) :=
  let a := (d.panel p).array
  match a.slotOf pr with
  | some 0 => some (d, .ok ())
  | some _ =>
    if a.chain then some (d, .ok ())
    else
      let d := d.countPreempted p pr.ref.ctx
      let old := if d.passLives a.slots[0] then a.slots[0] else {}
      some ((d.setSlot p 0 a.slots[1]).setSlot p 1 old, .ok ())
  | none => (d.freeFor p pr).map (fun r =>
      match (r.1.ctx? pr.ref.ctx).bind (fun c => (c.saved.find? (fun s => s.pass = pr)).map (fun s => (c, s))) with
      | none => (r.1.setSlot p r.2 { pass := some pr }, .ok ())
      | some (c, s) => bindD (r.1.loadPass c s) (fun d rows => (d.setSlot p r.2 { pass := some pr, rows := rows }, .ok ())))

/-! ## Beginning a tack -/

/-- The destination ranges that a MATMUL tack may write (R582). -/
def Desc.yRanges (x : Desc) : List (Nat × Nat) :=
  if x.op? = some .matmul && x.yDest = 0 then [(x.f 48 8, boundBytes x.mM (2 * x.mN) (2 * x.f 92 4))] else []

/-- The writes of a tack must wait (R582, R605). -/
def Device.writesWait (d : Device) (c : Context) (seq : Nat) (ranges : List (Nat × Nat)) : Bool :=
  ranges.any (fun r =>
    c.sets.any (fun s => rangesOverlap (s.bank (!s.active)) s.bytes r.1 r.2 && c.bankSampled s.index (!s.active) seq)
      || d.fittingHolds c.id r.1 r.2)

/-- What the entries of a tack compute and hold (R117, R264, R319, R455), with the checks of a product's vectors. -/
def Device.tackCompute (d : Device) (c : Context) (ring : RingId) (x : Desc) (s : MmSite) (pass first len : Nat) :
    Res (Held × List (Option VectorCheck)) :=
  let plain (r : Res Held) : Res (Held × List (Option VectorCheck)) := bindD r (fun d h => (d, .ok (h, [])))
  match x.op? with
  | some .matmul => d.matmulBegin x s pass first len
  | some .seam => plain (d.seamBegin c ring x len)
  | some .gussetAcc => plain (bindD (d.accSources (x.access c.id ring 0 (x.bits 71 1 1 0)) x x.work.done len)
      (fun d q => (d, .ok { sources := q })))
  | _ => plain (d.dmaBegin c.id ring x len)

/-- Keep the progress of a form. -/
def Desc.withWork (x : Desc) (inner : Bool) (w : Work) : Desc :=
  if inner then { x with inner := x.inner.map (fun i => { i with work := w }) } else { x with work := w }

/-- The half of the commit region that fills next: the first free one (R118). -/
def ArrayState.freeHalf (a : ArrayState) : Option (Fin 2) :=
  let used (k : Fin 2) : Bool := a.run.any (fun t => t.half = k) || a.drain.any (fun t => t.half = k)
  if !used a.fill then some a.fill else if !used (1 - a.fill) then some (1 - a.fill) else none

/-- Stamp a tack for tagging when it is the one drawn (R849, R850). -/
def Device.tagTack (d : Device) (p : PanelId) (ref : DescRef) (x : Desc) (len : Nat) : Device :=
  let q := d.panel p
  let only := fieldOf q.tagCtl 31 16
  if !(bitOf q.tagCtl 0 && d.dumpOn) || q.tag.isSome || (only != 0 && only != ref.ctx.toNat) then d
  else match q.tagWait with
    | none => d
    | some 0 =>
      let filler := (d.ctx? ref.ctx).any Context.isFiller
      -- when the ring became ready and when the tile's load began are free values
      let ready := x.fetchedAt + Config.freeNat d.fresh
      let load := if Config.freeNat (d.fresh + 1) % 2 = 0 then none else some (x.fetchedAt + Config.freeNat (d.fresh + 1) / 2)
      { d.updPanel p (fun q => { q with tagWait := none, tag := some {
          ref := ref, flags := 1 + (if filler then 4 else 0), index := x.tacks, entries := len,
          position := x.fetchPos, from_ := x.fetchedAt, stamps := [some ready, some d.now, load, some d.now] } }) with
        fresh := d.fresh + 2 }
    | some (n + 1) => d.updPanel p (fun q => { q with tagWait := some n })

/-- A computed tack of the array or the Seam runs: its writes and source rows lie in a half of the commit region (R118). -/
def Device.tackRuns (d : Device) (p : PanelId) (x : Desc) (matmul : Bool) (half : Fin 2) (t : TackRun) : Device :=
  let h := t.held
  let run : TackRun := { t with half := half, held := { h with writes := [], sources := [] } }
  (d.tagTack p t.ref x t.len).updPanel p (fun q => { q with
    entryDue := q.entryDue + (if matmul then t.len else 0)
    array := { q.array with run := some run, region := q.array.region.set half { writes := h.writes, sources := h.sources },
                            fill := 1 - half } })

/-- The tack of a form from an entry of a pass: `none` where something it must wait for holds it, with the ranges that it
would write. -/
def Device.tackTry (d : Device) (c : Context) (x : Desc) (ring : RingId) (pass first len : Nat) (replay : Bool) :
    Res (Option (List (Nat × Nat))) :=
  let inner := x.inner.isSome
  let s := c.siteOf ring x x.innerTag
  let y := x.form inner
  let a := (d.panel c.panel).array
  -- a tack that enters beside a draining one of its product goes on from what that one holds
  let y := match a.drain.filter (fun t => t.ofSite s) with
    | some t => { y with work := { y.work with scan := t.held.scan, gather := t.held.gather } }
    | none => y
  let dma := y.op?.any Op.onDma
  match a.freeHalf, (if y.op? = some .matmul then d.takeSlot c.panel (s.pass pass) else some (d, .ok ())) with
  | some half, some r => bindD r (fun d _ => bindD (d.tackCompute c ring y s pass first len) (fun d hc =>
      let ranges := hc.1.writes.map (fun w => (w.1, w.2.length)) ++ y.yRanges
      let d := ranges.foldl (fun d r => d.copyBefore c.id r.1 r.2) d
      if d.writesWait c x.seq ranges then (d, .ok (some ranges))
      else
        let run : TackRun := { ref := ⟨c.id, ring, x.seq⟩, inner := inner, pass := pass, first := first, len := len,
                               replay := replay, since := d.now, epoch := x.keyEpoch, held := hc.1, checks := hc.2 }
        let d := d.updDesc c.id ring x.seq (fun z => if z.startPos = 0 then { z with startPos := BitVec.ofNat 64 d.position } else z)
        if dma then (d.updPanel c.panel (fun q => { q with array := { q.array with dma := some run } }), .ok none)
        else (d.tackRuns c.panel x (y.op? = some .matmul) half run, .ok none)))
  | _, _ => (d, .ok (some []))

/-- The pass, first entry and length of the next tack of a form; a form without passes goes on from its progress. -/
def Device.nextPiece (d : Device) (c : Context) (y : Desc) (s : MmSite) (cap : Option Nat) : Option (Nat × Nat × Nat) :=
  if y.op? = some .matmul then
    (y.nextEntry s (d.panel c.panel).array.drain).map (fun n => (n.1, n.2.1, d.tackLen c y n.2.1 n.2.2 cap))
  else some (0, y.work.done, d.tackLen c y 0 0 cap)

/-- The next tack of a descriptor begins, or the one that replays; when something it must wait for holds it, nothing has
happened but the copies of regions that a Fitting holds. Its granules take the key that is current now (R770). -/
def Device.tackBegin (d : Device) (ctx : Code) (ring : RingId) (seq : Nat) (cap : Option Nat) (again : Option TackRun) : Device :=
  match d.ctx? ctx, d.desc? ctx ring seq with
  | some c, some x =>
    let (e, go) := if x.begun then (d, true) else d.startDesc c ring x
    if !go then e
    else match (e.updDesc ctx ring seq (fun z => { z with keyEpoch := c.epoch })).makeReady c ring seq with
      | (e, .error s) => e.failSeq ctx ring seq s
      | (e, .ok _) =>
        match e.ctx? ctx, e.desc? ctx ring seq with
        | some c, some x =>
          let y := x.form x.inner.isSome
          match (again.map (fun t => (t.pass, t.first, t.len))).or (e.nextPiece c y (c.siteOf ring x x.innerTag) cap) with
          | none => d
          | some (pass, first, len) => match e.tackTry c x ring pass first len again.isSome with
            | (e, .error s) => e.failSeq ctx ring seq s
            | (e, .ok none) => e
            | (_, .ok (some waits)) => waits.foldl (fun (d : Device) r => d.copyBefore ctx r.1 r.2) d
        | _, _ => d
  | _, _ => d

/-! ## Committing a tack (R114 to R119, R320, R455) -/

/-- The commit of a tack's held effects: the progress after it and the flags it adds. -/
def Device.tackEffects (d : Device) (c : Context) (ring : RingId) (x : Desc) (s : MmSite) (t : TackRun) : Res (Work × BitVec 8) :=
  match x.op? with
  | some .matmul => d.matmulCommit x s t
  | some .seam => d.seamCommit c ring x t.len t.held
  | some .gussetAcc => bindD (d.gussetAccRows (x.access c.id ring 0 (x.bits 71 1 1 0)) x t.held.sources)
      (fun d _ => (d, .ok ({ x.work with done := x.work.done + t.len }, 0)))
  | _ => d.dmaCommit c.id ring x t.len t.held

/-- A form's tacks have all committed. -/
def Desc.tacksDone (x : Desc) : Bool :=
  match x.op? with
  | some .matmul => x.matmulDone
  | some .seam => decide (x.seamTotal ≤ x.work.done)
  | some .gussetAcc => decide (x.f 36 4 ≤ x.work.done)
  | _ => decide (x.dmaTotal ≤ x.work.done)

/-- The places of a recompute buffer's blocks outside the matrix are zero (R221, R243). -/
def Device.padBuffer (d : Device) (c : Context) (ring : RingId) (x : Desc) (buf : Option Nat) : Res Unit :=
  match buf with
  | none => (d, .ok ())
  | some b => foldD (blockPadding x.mM x.mN (elemBytes (x.f 98 1))) d () (fun d _ p =>
      d.writeCa (x.access c.id ring (x.bits 106 1 5 4) (x.bits 107 1 3 2)) (b + p.1) (List.replicate p.2 0))

/-- What happens at the end of a form's last tack. -/
def Device.tacksEnd (d : Device) (c : Context) (ring : RingId) (x : Desc) (s : MmSite) : Res Unit :=
  match x.op? with
  | some .matmul => bindD (d.matmulEnd x s) (fun d _ => bindD (d.padBuffer c ring x s.redirect) (fun d _ =>
      match x.work.stash with
        | some n => d.stashFilled (x.access c.id ring 0 (x.bits 107 1 1 0)) n
        | none => (d, .ok ())))
  | some .seam => d.seamEnd c ring x
  | some .gussetAcc => (d.gussetAccEnd c.id x, .ok ())
  | _ => (d, .ok ())

/-- The slots of a committed tack's entries: retired and padded (R841). -/
def Desc.slotsOf (x : Desc) (t : TackRun) : Nat × Nat :=
  let sh := x.shape
  let u := (List.range t.len).foldl (fun u i =>
    let (kt, _, _) := sh.entryAt t.pass (t.first + i)
    u + min sh.ktile (x.mK - kt * sh.ktile) * sh.width t.pass / sh.ktile) 0
  (u, 1024 * t.len - u)

/-- Count a committed tack (R686, R841, R847). -/
def Device.countTack (d : Device) (c : Context) (x : Desc) (t : TackRun) : Device :=
  let ev (code : Nat) : PmcEvent := { code := code, ctx := c.id }
  let p := c.panel
  let d := d.count p (ev 0x020) 1
  let d := if c.isFiller then d.count p (ev 0x022) 1 else d
  let mm := x.op? = some .matmul
  let (u, pad) := if mm then x.slotsOf t else (0, 0)
  let d := if mm then (d.count p (ev 0x002) u).count p (ev 0x004) pad else d
  let d := if x.op? = some .seam then d.count p (ev 0x04B) t.len else d
  let d := if mm then d.updPower p (fun w => { w with used := w.used + t.len }) else d
  let d := d.updPanel p (fun q => { q with tackCount := q.tackCount + 1 })
  d.updCtx c.id (fun c => { c with
    tacks := c.tacks + 1
    pageCounts := (c.pageCounts.set 0 (c.pageCounts[0] + u)).set 1 (c.pageCounts[1] + pad) })

/-- A tagged tack committed (R850, R851). -/
def Device.tagCommit (d : Device) (p : PanelId) (t : TackRun) (last seam : Bool) : Device :=
  d.updPanel p (fun q => { q with tag := q.tag.map (fun g =>
    if g.ref = t.ref && !g.done && g.stamps.length = 4 then
      { g with done := true, flags := g.flags ||| (if last then 8 else 0) ||| (if t.replay then 2 else 0),
               stamps := g.stamps ++ [some d.now, some d.now, (if seam then some d.now else none), some d.now] }
    else g) })

/-- A tack commits: its effects become visible, and its descriptor goes on or finishes (R117, R228, R243). -/
def Device.tackDone (d : Device) (t : TackRun) : Device :=
  match d.ctx? t.ref.ctx, d.desc? t.ref.ctx t.ref.ring t.ref.seq with
  | some c, some x =>
    let y := { x.form t.inner with keyEpoch := t.epoch }
    let ring := t.ref.ring
    let s := c.siteOf ring x (if t.inner then x.innerTag else none)
    match d.tackEffects c ring y s t with
    | (d, .error e) => d.failSeq c.id ring x.seq e
    | (d, .ok (w, flags)) =>
      let d := d.countTack c y t
      -- the descriptor was stopped while this tack ran: it ends at this boundary, and the tack's effects remain (R475)
      if !x.underWay then d.updDesc c.id ring x.seq (fun z => { z with effect := true })
      else
      let d := d.updDesc c.id ring x.seq (fun z => { z.withWork t.inner w with
        tacks := z.tacks + 1, effect := true, flags := z.flags ||| flags })
      let y := { y with work := w }
      let last := y.tacksDone
      let d := d.tagCommit c.panel t (last && !t.inner) (y.op? = some .seam || y.f 108 4 != 0)
      if !last then d
      else match d.tacksEnd c ring y s with
        | (d, .error e) => d.failSeq c.id ring x.seq e
        | (d, .ok _) =>
          if t.inner then d.updDesc c.id ring x.seq (fun z => { z with
            inner := none, flags := z.flags ||| flagRecomputed,
            work := { z.work with recomputed := z.work.recomputed ++ (z.inner.map (fun i => i.tag)).toList } })
          else match d.desc? c.id ring x.seq with
            | some z => (d.finish c.id ring z 0 0 none).bringUp c.id ring
            | none => d
  | _, _ => d

/-- A replay has run: its record is MASKED when the tack committed, and the panel's counts of replays go up: those of the
array's tacks (R143), and those of the Seam's residue checks. -/
def Device.replayed (d : Device) (p : PanelId) (committed product : Bool) (rec_ : Option ErrRec) : Device :=
  let d := match rec_ with
    | some r => d.raiseReplayed (if committed then 0 else 1) r
    | none => d
  if !committed then d
  else d.updPanel p (fun q => { q with
    seamReplays := if rec_.any (fun r => r.mech = 0x03) then satTo 16 (q.seamReplays + 1) else q.seamReplays
    array := { q.array with replays := if product then satTo 24 (q.array.replays + 1) else q.array.replays } })

/-- What a tack of the array or the Seam holds in its half of the commit region comes back to it, and the half is free (R118). -/
def Device.drainHalf (d : Device) (p : PanelId) (t : TackRun) : Device × TackRun :=
  let h := (d.panel p).array.region[t.half]
  (d.updPanel p (fun q => { q with array := { q.array with region := q.array.region.set t.half {} } }),
   { t with held := { t.held with writes := h.writes, sources := h.sources } })

/-- A tack that has left its engine commits; its requester's reads have been answered, and one that replays a failed tack
settles that tack's record. -/
def Device.commitRun (d : Device) (p : PanelId) (t : TackRun) (failed : Option TackRun) : Device :=
  let was := (d.panel p).tackCount
  let product := (d.desc? t.ref.ctx t.ref.ring t.ref.seq).any (fun x => (x.form t.inner).op? = some .matmul)
  let d := (d.tackDone t).answered (.descriptor t.ref.ctx t.ref.ring)
  if t.replay then d.replayed p (decide (was < (d.panel p).tackCount)) product (failed.bind (fun x => x.fault)) else d

/-- The oldest uncommitted tack of the array or the Seam leaves it and commits: the one that drains, else the running one. -/
def Device.commitArray (d : Device) (p : PanelId) : Device :=
  let a := (d.panel p).array
  match a.drain.or a.run with
  | none => d
  | some t =>
    let d := d.updPanel p (fun q => { q with array := { q.array with
      drain := none, run := if a.drain.isSome then a.run else none, failedTack := if t.replay then none else a.failedTack } })
    let (d, t) := d.drainHalf p t
    d.commitRun p t a.failedTack

/-- The running tack of the DMA engine commits. -/
def Device.commitDma (d : Device) (p : PanelId) : Device :=
  let a := (d.panel p).array
  match a.dma with
  | none => d
  | some t => (d.updPanel p (fun q => { q with array := { q.array with
      dma := none, failedDma := if t.replay then none else a.failedDma } })).commitRun p t a.failedDma

/-- TACK_COMMIT (R115, R320, R455): the oldest uncommitted tack of a panel's array or Seam, and the one of its DMA engine,
commit. -/
def Device.tackCommit (d : Device) (p : PanelId) : Device := (d.commitArray p).commitDma p

/-! ## The tack boundary (R120) -/

/-- The ready rings of a panel's resident contexts for an engine, in the order of contexts and rings: the ring, its
descriptor, and whether it is a filler's. A context whose requests wait for buffer space or a write credit holds its tacks
back (R360). -/
def Device.readyRings (d : Device) (p : PanelId) (f : Op → Bool) : List ((Code × RingId) × Desc × Bool) :=
  ((d.residents p).filter (fun c => !d.stalledFor c.id)).flatMap (fun c => (List.finRange 4).filterMap (fun n =>
    (d.nextDesc? c n f).map (fun x => ((c.id, n), x, c.isFiller))))

/-- The first element after a ring in round-robin order (R459). -/
def afterRing (rings : List (Code × RingId)) (last : Option (Code × RingId)) (l : List ((Code × RingId) × Desc × Bool)) :
    Option ((Code × RingId) × Desc × Bool) :=
  let pos (r : Code × RingId) : Nat := rings.findIdx (fun q => q = r)
  match last with
  | none => l.head?
  | some r => (l.find? (fun e => pos r < pos e.1)).or l.head?

/-- The grant at a boundary (R458, R459): primaries before fillers, round-robin with a quantum. -/
def Device.chooseRing (d : Device) (p : PanelId) (l : List ((Code × RingId) × Desc × Bool)) (grant : Option (Code × RingId × Nat))
    (last : Option (Code × RingId)) : Option (((Code × RingId) × Desc × Bool) × Nat) :=
  let primaries := l.filter (fun e => !e.2.2)
  let cls := if primaries.isEmpty then l else primaries
  let quantum := fieldOf (d.panel p).schedCfg 6 0
  match grant.bind (fun g => if g.2.2 = 0 then none else (cls.find? (fun e => e.1 = (g.1, g.2.1))).map (fun e => (e, g.2.2 - 1))) with
  | some r => some r
  | none => (afterRing d.allRings last cls).map (fun e => (e, quantum - 1))

/-- A droop detector is tripped, or the last trip cleared within the last 5 µs (R727). -/
def PanelPower.drooped (w : PanelPower) (now : Nat) : Bool :=
  w.stretched || w.trips != 0 || w.clearSince.any (fun t => decide (now < t + 5000))

/-- The core-rail setpoint in mV of a frequency in steps of 40 MHz: an intermediate one runs at that of the next level above
(R708, R710). -/
def railOf (f : Nat) : Nat := if f ≤ 20 then 600 + 30 * ((f - 9) / 2) else 820

/-- At a tack boundary an issued step of frequency takes effect and the core rail follows it, unless droop defers it (R710, R727); in a thermal
emergency the allowance falls to 1 with it (R736). -/
def Device.takeFreqStep (d : Device) (p : PanelId) : Device :=
  let w := d.power.panels[p.val]
  match w.issued with
  | none => d
  | some f =>
    if w.drooped d.now then d.updPower p (fun w => { w with deferred := true })
    else
      let d := d.updPower p (fun w => { w with
        freq := f, railMv := railOf f, issued := none, deferred := false, allow := if w.emergency then 1 else w.allow })
      if w.deferred then
        { d with power := { d.power with reason := 0x0707 } }.raise
          { reason := 0x0707, mech := 0x0C, outcome := 2, panel := p.val, unit := 0xFFFF }
      else d

/-- The length in ns of a stitch as the power controller counts it (R718). -/
def Device.rampNs (d : Device) : Nat := match d.needle.state with
  | .disabled | .listen | .acquiring => 10000
  | _ => d.stitchNs

/-- The array cycles of a stitch that the panel may still use (R712). -/
def Device.shareLeft (d : Device) (p : PanelId) : Nat :=
  let w := d.power.panels[p.val]
  w.allow * (d.rampNs * (w.freq * 40) / 1000) / 32 - w.debt - w.used

/-- The Needle state lets descriptors wait for a start position (R49). -/
def NeedleState.awaits (n : NeedleState) : Bool := n != .disabled && n != .lost

/-- The cap of a filler's tack (R67): the array cycles left before the nearest guarded start position of a descriptor that
waits on the panel, counted from the position that the Needle shows. -/
def Device.fillerRoom (d : Device) (p : PanelId) : Option Nat :=
  let w := d.power.panels[p.val]
  let mhz := 40 * min w.freq (w.issued.getD w.freq)
  let nsOf (pos : Nat) : Nat := pos / 4096 * d.stitchNs + tickOfAngle d.stitchNs (pos % 4096)
  let waiting := ((d.residents p).filter (fun c => !c.isFiller)).flatMap (fun c => c.rings.flatMap (fun r =>
    r.queue.filter (fun x => x.startEn && !x.underWay && !x.isFinished)))
  if !d.needle.state.awaits then none
  else waiting.foldl (fun room x =>
    let cycles := (nsOf x.startAt - nsOf d.position) * mhz / 1000
    let fit (n : Nat) : Option Nat := some (min n (room.getD n))
    match x.op? with
    | some .matmul => fit (cycles - 512)
    | some .seam => fit cycles
    | _ => room) none

/-- The cap of a context's next tack on the array or the Seam: none for a primary. `none`: no filler tack may begin (R67,
R100). -/
def Device.fillerCap (d : Device) (c : Context) : Option (Option Nat) :=
  if !c.isFiller then some none
  else if (d.panel c.panel).array.chain then none
  else match d.fillerRoom c.panel with
    | none => some none
    | some n => if n < 64 then none else some (some n)

/-! ## The planes (R83 to R85, R463) -/

/-- The first tile of a descriptor's next tack is in the active plane, or ready in the shadow plane; else its load begins, or
goes on (R83, R84). An error of the operands is left to the tack itself. -/
def Device.readyTile (d : Device) (p : PanelId) (ctx : Code) (ring : RingId) (x : Desc) (again : Option TackRun) : Device × Bool :=
  match d.ctx? ctx with
  | none => (d, true)
  | some c => match d.upcoming c ring x with
    | (_, .error _) => (d, true)
    | (e, .ok (y, s)) =>
      if y.op? != some .matmul then (d, true)
      else
        let a := (d.panel p).array
        match (again.map (fun t => (t.pass, t.first))).or ((y.nextEntry s a.drain).map (fun n => (n.1, n.2.1))) with
        | none => (d, false)
        | some (pass, first) =>
          let t := y.tileAt s y.shape pass first
          if a.active.tile = some t || (a.shadow.tile = some t && a.shadowReady) then (e, true)
          else if a.shadow.tile = some t then (e, false)
          else (e.startShadow p (some (t, pass)), false)

/-- Where ranges of context addresses of a context lie in device memory. -/
def Device.placedRanges (d : Device) (c : Context) (rs : List (Nat × Nat)) : List (Nat × Nat) :=
  rs.flatMap (fun r => (cutAt (2 ^ 21) r.1 r.2).filterMap (fun s => match d.translate c s.1 false with
    | .ok (.dev m) => some (m, s.2)
    | _ => none))

/-- The first stationary tile of a descriptor that waits may be loaded while another one runs: its wait is satisfied and its
checks pass, and the operand overlaps nothing that the running one writes (R85, R463); nor does it lie in the view of a
commit set, which names another bank after the next step (R580). -/
def Device.mayPreload (d : Device) (c : Context) (ring : RingId) (x running : Desc) (of_ : Context) : Bool :=
  let hits (rs ws : List (Nat × Nat)) : Bool := rs.any (fun r => ws.any (fun w => rangesOverlap r.1 r.2 w.1 w.2))
  x.op? = some .matmul && c.waitMet x && !x.isFinished
    && (x.phase != .fetched || (match (d.opChecks c ring x).2 with
        | .ok _ => true
        | .error _ => false))
    && (match x.restRanges, d.footprint of_ running with
        | some rs, some f => !hits rs (c.sets.map (fun s => (s.view, s.bytes)))
            && !(if c.id = of_.id then hits rs f.writes else hits (d.placedRanges c rs) (d.placedRanges of_ f.writes))
        | _, _ => false)

/-- The ring and descriptor whose first tile the sequencer loads into a free shadow plane: the next descriptor of the
running one's ring (R85), or that of the ring that is granted next (R463). -/
def Device.nextForTile (d : Device) (p : PanelId) (t : TackRun) : List ((Code × RingId) × Desc) :=
  let a := (d.panel p).array
  let after := (((d.ring? t.ref.ctx t.ref.ring).map (fun r => r.queue)).getD []).find? (fun x => x.seq = t.ref.seq + 1)
  let same := after.toList.map (fun x => ((t.ref.ctx, t.ref.ring), x))
  let granted := ((d.chooseRing p (d.readyRings p Op.onArray) a.grant a.lastGrant).map (fun e => (e.1.1, e.1.2.1))).toList
  if a.grant.any (fun g => g.2.2 = 0) then granted ++ same else same ++ granted

/-- A free shadow plane begins to load the tile that is needed next beyond the running descriptor (R84, R85, R463). -/
def Device.preload (d : Device) (p : PanelId) : Device :=
  let a := (d.panel p).array
  match a.run with
  | none => d
  | some t => match a.shadow.tile, d.ctx? t.ref.ctx, d.desc? t.ref.ctx t.ref.ring t.ref.seq with
    | none, some of_, some running =>
      if a.chain then d
      else match (d.nextForTile p t).find? (fun q => (q.1, q.2.seq) != ((t.ref.ctx, t.ref.ring), t.ref.seq)
          && (d.ctx? q.1.1).any (fun c => d.mayPreload c q.1.2 q.2 running of_)) with
        | none => d
        | some q => (d.readyTile p q.1.1 q.1.2 q.2 none).1
    | _, _, _ => d

/-- SHADOW_LOAD_DONE (R83): the tile that loads has come. A load that fails fails its descriptor once that has begun; a tile
loaded ahead is given up. -/
def Device.shadowDone (d : Device) (p : PanelId) : Device :=
  let a := (d.panel p).array
  if a.shadowReady then d
  else match a.shadow.tile with
    | none => d
    | some t =>
      match d.ctx? t.ref.ctx, d.desc? t.ref.ctx t.ref.ring t.ref.seq with
      | some c, some x =>
        let failed (e : Code) : Device := if x.begun then d.failSeq c.id t.ref.ring x.seq e else d.startShadow p none
        match d.upcoming c t.ref.ring x with
        | (_, .error e) => failed e
        | (e, .ok (y, s)) =>
          if y.restFmt.fmt != t.fmt || s.inner != t.inner then d.startShadow p none
          else match e.tileRead y s y.shape t a.shadow.pass with
            | (_, .error s) => failed s
            | (e, .ok cols) => e.fillShadow p y.restFmt cols
      | _, _ => d.startShadow p none

/-! ## The actions of a boundary -/

/-- A certification slot (R96): its entries are masked (R842). -/
def Device.certSlot (d : Device) (p : PanelId) : Device :=
  let n := d.tackLimit p
  (d.count p { code := 0x005 } (1024 * n)).updPanel p (fun q => { q with
    entryDue := q.entryDue + n, array := { q.array with certTurn := 0 } })

/-- An idle tack that power control requests (R712). -/
def Device.idleTack (d : Device) (p : PanelId) : Device :=
  (d.count p { code := 0x024 } 1).updPanel p (fun q => { q with array := { q.array with idle := true } })

/-- A ballast tack (R716): at most 256 array cycles that commit nothing. -/
def Device.ballastTack (d : Device) (p : PanelId) : Device :=
  let d := (d.count p { code := 0x023 } 1).count p { code := 0x005 } (1024 * 256)
  (d.updPower p (fun w => { w with used := w.used + 256 })).updPanel p (fun q => { q with entryDue := q.entryDue + 256 })

/-- Chain mode as R94 gives it: until the latest certification has passed, and while CHAIN_FORCE is 1. -/
def ArrayState.withChain (a : ArrayState) (force : Bool) : ArrayState := { a with chain := !a.certified || force }

/-- At a boundary a certified array leaves chain mode, and CHAIN_FORCE keeps it (R94, R97); the array is idle no more. -/
def Device.setChain (d : Device) (p : PanelId) : Device :=
  d.updPanel p (fun q => { q with array := { q.array.withChain (bitOf q.arrayCtl 0) with idle := false } })

/-- A slot that a tack has taken counts against certification's share (R96). -/
def Device.countTurn (d : Device) (p : PanelId) : Device :=
  d.updPanel p (fun q => if q.array.certRunning && q.array.run.isSome
    then { q with array := { q.array with certTurn := q.array.certTurn + 1 } } else q)

/-- The granted ring's next tack begins on the array or the Seam, when its first tile has come. -/
def Device.runGranted (d : Device) (p : PanelId) (e : (Code × RingId) × Desc × Bool) (left : Nat) (cap : Option Nat) : Device :=
  let d := d.updPanel p (fun q => { q with array := { q.array with grant := some (e.1.1, e.1.2, left), lastGrant := some e.1 } })
  match d.readyTile p e.1.1 e.1.2 e.2.1 none with
  | (d, false) => d
  | (d, true) => (d.tackBegin e.1.1 e.1.2 e.2.1.seq cap none).countTurn p

/-- Steps 3 and 4 of R120: with the share spent an idle tack, else the next tack of the ring that is granted; without work
certification takes the slot, or a ballast tack. -/
def Device.nextTack (d : Device) (p : PanelId) : Device :=
  let a := (d.panel p).array
  let room := d.fillerRoom p
  let fits (e : (Code × RingId) × Desc × Bool) : Bool := !e.2.2 || (!a.chain && room.all (fun n => 64 ≤ n))
  let l := (d.readyRings p Op.onArray).filter fits
  let spent := d.shareLeft p = 0
  if !l.isEmpty && !spent then
    match d.chooseRing p l a.grant a.lastGrant with
    | some (e, left) => d.runGranted p e left (if e.2.2 then room else none)
    | none => d
  else if a.certRunning then d.certSlot p
  else if !l.isEmpty then d.idleTack p
  else if bitOf d.power.actCtl 2 && !spent then d.ballastTack p else d

/-- Replay a tack that was discarded, its first tile loaded again where it is no longer active (R124, R126); until it can
begin, its record waits with it. -/
def Device.replayTack (d : Device) (p : PanelId) (t : TackRun) : Device :=
  match d.desc? t.ref.ctx t.ref.ring t.ref.seq with
  | none => d
  | some x => match d.readyTile p t.ref.ctx t.ref.ring x (some t) with
    | (d, false) => d
    | (d, true) => (d.tackBegin t.ref.ctx t.ref.ring t.ref.seq none (some t)).countTurn p

/-- The first applicable action of R120. Certification takes one slot in four (R96). -/
def Device.nextAction (d : Device) (p : PanelId) : Device :=
  let a := (d.panel p).array
  if a.certRunning && 3 ≤ a.certTurn then d.certSlot p
  else match a.failedTack with
    | some t => d.replayTack p t
    | none => d.nextTack p

/-- A boundary of the array in chain mode while its tack drains (R99, R100): a tack of the draining one's product enters beside
it while its ring keeps the grant, or a replay; else the drain goes on alone. -/
def Device.chainBoundary (d : Device) (p : PanelId) (t : TackRun) : Device :=
  let a := (d.panel p).array
  if !(d.desc? t.ref.ctx t.ref.ring t.ref.seq).any (fun x => (x.form t.inner).op? = some .matmul) then d
  else
  let d := d.updPanel p (fun q => { q with array := { q.array with run := none, drain := some t } })
  let e := match a.failedTack with
    | some f => d.replayTack p f
    | none =>
      if (a.certRunning && 3 ≤ a.certTurn) || d.shareLeft p = 0 then d
      else match d.chooseRing p (d.readyRings p Op.onArray) a.grant a.lastGrant with
        | some (g, left) => if g.1 = (t.ref.ctx, t.ref.ring) && g.2.1.seq = t.ref.seq && !g.2.2 then d.runGranted p g left none else d
        | none => d
  let b := (e.panel p).array
  if b.run.isSome || b.drain.isNone then e
  else e.updPanel p (fun q => { q with array := { q.array with run := some t, drain := none } })

/-- Replay the DMA tack that was discarded (R455). -/
def Device.replayDma (d : Device) (t : TackRun) : Device := d.tackBegin t.ref.ctx t.ref.ring t.ref.seq none (some t)

/-- The DMA engine takes its next tack by the same rule (R460), a discarded one first; no filler's in chain mode (R100). -/
def Device.nextDma (d : Device) (p : PanelId) : Device :=
  let a := (d.panel p).array
  if a.dma.isSome then d
  else match a.failedDma with
  | some t => d.replayDma t
  | none => match d.chooseRing p ((d.readyRings p Op.onDma).filter (fun e => !(e.2.2 && a.chain))) a.dmaGrant a.dmaLast with
    | some (e, left) =>
      let d := d.updPanel p (fun q => { q with array := { q.array with dmaGrant := some (e.1.1, e.1.2, left), dmaLast := some e.1 } })
      d.tackBegin e.1.1 e.1.2 e.2.1.seq none none
    | none => d

/-- STEP_TACK has issued its tack, and the tack has ended: the sequencer halts (R870). -/
def Panel.stepped (q : Panel) : Bool := q.dbg.stepTack = 2 && q.array.run.isNone && q.array.dma.isNone

/-- Keep that STEP_TACK has issued a tack. -/
def Panel.noteStep (q : Panel) : Panel :=
  if q.dbg.stepTack = 1 && (q.array.run.isSome || q.array.dma.isSome) then { q with dbg := { q.dbg with stepTack := 2 } } else q

/-- TACK_BOUNDARY (R120): the panel takes the first applicable action. While a tack runs, only chain mode lets another enter. -/
def Device.tackBoundary (d : Device) (p : PanelId) : Device :=
  let q := d.panel p
  if q.stepped then d.updPanel p (fun q => { q with dbg := { q.dbg with halted := true, cause := 2, stepTack := 0 } })
  else if !q.enabled || q.fenced || q.dbg.halted || d.waitsSupply p then d
  else
    let d := (d.residents p).foldl (fun d c => (List.finRange 4).foldl (fun d n => d.bringUp c.id n) d) d
    let a := (d.panel p).array
    let d := if a.drain.isSome || (a.run.isSome && !a.chain) then d
      else
        let d := (d.takeFreqStep p).setChain p
        match a.run with
        | some t => if (d.panel p).array.chain then d.chainBoundary p t else d
        | none => d.nextAction p
    ((d.nextDma p).preload p).updPanel p Panel.noteStep

/-! ## Certification (R95 to R98) -/

/-- Start certification, in chain mode (R96). What has passed and failed since the panel reset stays shown (R143). -/
def ArrayState.certStart (a : ArrayState) : ArrayState := { a with certRunning := true, certTurn := 0, certified := false, chain := true }

/-- What an enable does to the array: the first one after power-up or a panel reset starts certification (R95), as does one
after a certification that a disable has cut short, and chain mode stands as R94 gives it. -/
def ArrayState.enable (a : ArrayState) (force : Bool) : ArrayState :=
  if a.certified || a.certFail then a.withChain force else a.certStart

/-- CERT_RUN (R98). -/
def Device.certRun (d : Device) (p : PanelId) : Device :=
  if (d.residents p).isEmpty then d.updPanel p (fun q => { q with array := q.array.certStart })
  else d.updPanel p (fun q => { q with array := { q.array with reason := 0x0205 } })

/-- CERT_COMPLETE (R97): an array that fails stays in chain mode. -/
def Device.certComplete (d : Device) (p : PanelId) (pass : Bool) : Device :=
  if !(d.panel p).array.certRunning then d
  else if pass then d.updPanel p (fun q => { q with array := { q.array with certRunning := false, certDone := true, certified := true } })
  else
    let d := d.updPanel p (fun q => { q with array := { q.array with certRunning := false, certFail := true, reason := 0x0203 } })
    d.raise { reason := 0x0203, mech := 0x01, outcome := 2, panel := p.val }

/-! ## Operations without tacks -/

/-- A descriptor finishes with SUCCESS, or fails with the status of its effect. -/
def Device.conclude (r : Res Unit) (ctx : Code) (ring : RingId) (seq : Nat) : Device :=
  match r.2 with
  | .error e => r.1.failSeq ctx ring seq e
  | .ok _ => match r.1.desc? ctx ring seq with
    | some x => ((r.1.answered (.descriptor ctx ring)).finish ctx ring x 0 0 none).bringUp ctx ring
    | none => r.1

/-- What follows a flush's reading (R266). -/
def Device.flushTail (d : Device) (a : Access) (x : Desc) : Res Unit :=
  let param := BitVec.ofNat 32 (x.f 32 4)
  bindD (if x.bit 37 1 0 then d.gussetClear a param else (d, .ok ())) (fun d _ =>
    (if x.bit 37 1 1 then d.gussetClose a.ctx param else d, .ok ()))

/-- GUSSET_FLUSH runs (R265 to R268, R563, R564); it waits while its bucket agrees or reduces. -/
def Device.flushRun (d : Device) (c : Context) (ring : RingId) (x : Desc) : Device :=
  let a := x.access c.id ring 0 (x.bits 76 1 1 0)
  let t := BitVec.ofNat 32 (x.f 124 4)
  match c.gusset? (BitVec.ofNat 32 (x.f 32 4)) with
  | none => d.failSeq c.id ring x.seq 0x0916
  | some e =>
    let pairs (d : Device) : Res (List (Nat × Int)) :=
      foldD (List.range e.lines) d [] (fun d out line => bindD (d.lineRead a e line) (fun d ps => (d, .ok (out ++ ps))))
    match x.f 36 1 with
    | 0 => match c.deliveryCheck (x.f 40 4) (x.f 48 8) (e.rows * e.cols) t with
      | .error s => d.failSeq c.id ring x.seq s
      | .ok true => d
      | .ok false =>
        (Device.conclude (bindD (pairs d) (fun d ps =>
          bindD (d.deliver a (x.f 40 4) (x.f 48 8) e.fmt t ps) (fun d _ => d.flushTail a x))) c.id ring x.seq).settle
    | 1 =>
      let ranges := [(x.f 56 8, 2 * boundBytes e.rows e.cols (x.f 72 4)), (x.f 64 8, if x.f 64 8 = 0 then 0 else boundBytes e.rows e.cols (x.f 72 4))]
      let d := ranges.foldl (fun d r => d.copyBefore c.id r.1 r.2) d
      if d.writesWait c x.seq ranges then d
      else Device.conclude (bindD (d.gussetToMemory a e x) (fun d _ => d.flushTail a x)) c.id ring x.seq
    | _ => Device.conclude (d.flushTail a x) c.id ring x.seq

/-- A descriptor without tacks takes effect, or goes on after a wait. -/
def Device.runEffect (d : Device) (c : Context) (ring : RingId) (x : Desc) (o : Op) (again : Bool) : Device :=
  let a := x.plainAccess c.id ring
  let ok (d : Device) : Device := Device.conclude (d, .ok ()) c.id ring x.seq
  match o with
  | .chainReg => Device.conclude (d.chainReg a x) c.id ring x.seq
  | .tableLoad => Device.conclude (d.tableLoad a x) c.id ring x.seq
  | .storeConfig => ok (d.storeConfig c.id x)
  | .recomp => Device.conclude (d.storeRecomp a x) c.id ring x.seq
  | .release => ok (d.storeRelease c.id x)
  | .gussetOpen => Device.conclude (d.gussetOpen a x) c.id ring x.seq
  | .gussetFlush => d.flushRun c ring x
  -- another ring may have opened or closed an entry since the checks (R393)
  | .windowOpen => match d.windowOpenCheck c x with
    | some e => d.failSeq c.id ring x.seq e
    | none => ok (d.windowOpen c.id x)
  | .windowClose => match d.windowCloseCheck c x with
    | some e => d.failSeq c.id ring x.seq e
    | none => if d.windowBusy c.id then d else ok (d.windowClose c.id (x.f 56 8))
  | .sync => ok d
  | .relay => if again then d.relaySettle else d.relayBegin c.id ring x
  | .fitting => if again then d.fittingRun c.id ring else (d.fittingBegin c ring x).fittingRun c.id ring
  | .setDefine => ok (d.defineSet c.id x)
  | .stepCommit => d.commitBegin
  | .stepAbort => d.abortBegin c.id ring x
  | .matmul | .seam | .gussetAcc | .copy | .fill => d
  | o => if again then d.settle else d.collBegin c ring x o

/-! ## Running a descriptor whole -/

/-- The cap of a descriptor's next tack on its engine; `none`: a filler's may not begin (R67, R100). -/
def Device.capFor (d : Device) (c : Context) (x : Desc) : Option (Option Nat) :=
  if x.op?.any Op.onDma then (if c.isFiller && (d.panel c.panel).array.chain then none else some none) else d.fillerCap c

/-- The tacks of a descriptor, each begun and committed in turn; the number bounds them. A filler's keep the rules of fillers
(R67, R100). -/
def Device.runTacks : Nat → Device → Code → RingId → Nat → Device
  | 0, d, _, _, _ => d
  | n + 1, d, ctx, ring, seq =>
    match d.ctx? ctx, (d.desc? ctx ring seq).filter (fun x => !x.isFinished) with
    | some c, some x =>
      let mine (t : TackRun) : Bool := t.ref = ⟨ctx, ring, seq⟩
      match d.capFor c x with
      | none => d
      | some cap =>
        let d := d.tackBegin ctx ring seq cap none
        let a := (d.panel c.panel).array
        if a.run.any mine then Device.runTacks n (d.commitArray c.panel) ctx ring seq
        else if a.dma.any mine then Device.runTacks n (d.commitDma c.panel) ctx ring seq
        else d
    | _, _ => d

/-- What an operation's engine has under way commits first, and a tack that waits for its replay replays. -/
def Device.clearEngine (d : Device) (p : PanelId) (o : Op) : Device :=
  if o.onDma then
    let d := match (d.panel p).array.dma, (d.panel p).array.failedDma with
      | none, some t => d.replayDma t
      | _, _ => d
    d.commitDma p
  else
    let d := (d.commitArray p).commitArray p
    match (d.panel p).array.failedTack with
    | some t => (d.tackBegin t.ref.ctx t.ref.ring t.ref.seq none (some t)).commitArray p
    | none => d

/-- The row of an operation: the ring's next descriptor runs, if it has that operation and may run. -/
def Device.runOp (d : Device) (ctx : Code) (ring : RingId) (o : Op) : Device :=
  let d := d.bringUp ctx ring
  match d.ctx? ctx with
  | none => d
  | some c =>
    if !d.serves c then d
    else match d.nextDesc? c ring (fun q => q = o) with
      | none => d
      | some x =>
        if o.onArray || o.onDma then
          let d := d.clearEngine c.panel o
          match d.desc? ctx ring x.seq with
          | some y => if y.isFinished then d else d.runTacks (2 ^ 40) ctx ring x.seq
          | none => d
        else if x.underWay then d.runEffect c ring x o true
        else
          let (d, go) := d.startDesc c ring x
          if go then
            match d.desc? ctx ring x.seq, d.ctx? ctx with
            | some x, some c => d.runEffect c ring x o false
            | _, _ => d
          else d

/-! ## The commands -/

/-- DESCRIPTOR_FETCH (R437). -/
def execDescriptorFetch (ctx : Code) (ring : RingId) (s : State) : Out := s.run (fun d => d.fetchDesc ctx ring)
/-- DESCRIPTOR_START (R60). -/
def execDescriptorStart (ctx : Code) (ring : RingId) (s : State) : Out := s.run (fun d => d.descStart ctx ring)
/-- TACK_BOUNDARY (R120). -/
def execTackBoundary (panel : PanelId) (s : State) : Out := s.run (fun d => d.tackBoundary panel)
/-- TACK_COMMIT (R115). -/
def execTackCommit (panel : PanelId) (s : State) : Out := s.run (fun d => d.tackCommit panel)
/-- SHADOW_LOAD_DONE (R83). -/
def execShadowLoadDone (panel : PanelId) (s : State) : Out := s.run (fun d => d.shadowDone panel)
/-- CERT_RUN (R98). -/
def execCertRun (panel : PanelId) (s : State) : Out := s.run (fun d => d.certRun panel)
/-- CERT_COMPLETE (R97). -/
def execCertComplete (panel : PanelId) (pass : Bool) (s : State) : Out := s.run (fun d => d.certComplete panel pass)
/-- MATMUL (R136). -/
def execMatmul (ctx : Code) (ring : RingId) (s : State) : Out := s.run (fun d => d.runOp ctx ring .matmul)
/-- SEAM (R336). -/
def execSeam (ctx : Code) (ring : RingId) (s : State) : Out := s.run (fun d => d.runOp ctx ring .seam)
/-- SEAM_CTL CHAIN_REG (R326). -/
def execSeamCtlChainReg (ctx : Code) (ring : RingId) (s : State) : Out := s.run (fun d => d.runOp ctx ring .chainReg)
/-- SEAM_CTL TABLE_LOAD (R302). -/
def execSeamCtlTableLoad (ctx : Code) (ring : RingId) (s : State) : Out := s.run (fun d => d.runOp ctx ring .tableLoad)
/-- STORE_CTL CONFIG (R274). -/
def execStoreCtlConfig (ctx : Code) (ring : RingId) (s : State) : Out := s.run (fun d => d.runOp ctx ring .storeConfig)
/-- STORE_CTL RECOMP (R242). -/
def execStoreCtlRecomp (ctx : Code) (ring : RingId) (s : State) : Out := s.run (fun d => d.runOp ctx ring .recomp)
/-- STORE_CTL RELEASE (R247). -/
def execStoreCtlRelease (ctx : Code) (ring : RingId) (s : State) : Out := s.run (fun d => d.runOp ctx ring .release)
/-- GUSSET_OPEN (R276). -/
def execGussetOpen (ctx : Code) (ring : RingId) (s : State) : Out := s.run (fun d => d.runOp ctx ring .gussetOpen)
/-- GUSSET_ACC (R258). -/
def execGussetAcc (ctx : Code) (ring : RingId) (s : State) : Out := s.run (fun d => d.runOp ctx ring .gussetAcc)
/-- GUSSET_FLUSH (R265). -/
def execGussetFlush (ctx : Code) (ring : RingId) (s : State) : Out := s.run (fun d => d.runOp ctx ring .gussetFlush)
/-- COPY (R452). -/
def execCopy (ctx : Code) (ring : RingId) (s : State) : Out := s.run (fun d => d.runOp ctx ring .copy)
/-- FILL (R453). -/
def execFill (ctx : Code) (ring : RingId) (s : State) : Out := s.run (fun d => d.runOp ctx ring .fill)
/-- MEM_WINDOW OPEN (R392). -/
def execMemWindowOpen (ctx : Code) (ring : RingId) (s : State) : Out := s.run (fun d => d.runOp ctx ring .windowOpen)
/-- MEM_WINDOW CLOSE (R397). -/
def execMemWindowClose (ctx : Code) (ring : RingId) (s : State) : Out := s.run (fun d => d.runOp ctx ring .windowClose)
/-- SYNC (R440). -/
def execSync (ctx : Code) (ring : RingId) (s : State) : Out := s.run (fun d => d.runOp ctx ring .sync)
/-- COMM_JOIN (R552). -/
def execCommJoin (ctx : Code) (ring : RingId) (s : State) : Out := s.run (fun d => d.runOp ctx ring .commJoin)
/-- COMM_LEAVE (R559). -/
def execCommLeave (ctx : Code) (ring : RingId) (s : State) : Out := s.run (fun d => d.runOp ctx ring .commLeave)
/-- REDUCE (R574). -/
def execReduce (ctx : Code) (ring : RingId) (s : State) : Out := s.run (fun d => d.runOp ctx ring .reduce)
/-- ALLREDUCE (R596). -/
def execAllreduce (ctx : Code) (ring : RingId) (s : State) : Out := s.run (fun d => d.runOp ctx ring .allreduce)
/-- BROADCAST (R597). -/
def execBroadcast (ctx : Code) (ring : RingId) (s : State) : Out := s.run (fun d => d.runOp ctx ring .broadcast)
/-- RETURN (R583). -/
def execCollReturn (ctx : Code) (ring : RingId) (s : State) : Out := s.run (fun d => d.runOp ctx ring .returnSlice)
/-- SEND (R598). -/
def execCollSend (ctx : Code) (ring : RingId) (s : State) : Out := s.run (fun d => d.runOp ctx ring .send)
/-- RECV (R598). -/
def execCollRecv (ctx : Code) (ring : RingId) (s : State) : Out := s.run (fun d => d.runOp ctx ring .recv)
/-- RELAY (R540). -/
def execRelay (ctx : Code) (ring : RingId) (s : State) : Out := s.run (fun d => d.runOp ctx ring .relay)
/-- FITTING (R606). -/
def execFitting (ctx : Code) (ring : RingId) (s : State) : Out := s.run (fun d => d.runOp ctx ring .fitting)
/-- STEP_COMMIT DEFINE (R578). -/
def execStepCommitDefine (ctx : Code) (ring : RingId) (s : State) : Out := s.run (fun d => d.runOp ctx ring .setDefine)
/-- STEP_COMMIT COMMIT (R586). -/
def execStepCommitCommit (ctx : Code) (ring : RingId) (s : State) : Out := s.run (fun d => d.runOp ctx ring .stepCommit)
/-- STEP_COMMIT ABORT (R590). -/
def execStepCommitAbort (ctx : Code) (ring : RingId) (s : State) : Out := s.run (fun d => d.runOp ctx ring .stepAbort)

/-- DESCRIPTOR_COMPLETE (R467): the completion of a ring's oldest descriptor; the ring's next one is then checked. -/
def execDescriptorComplete (ctx : Code) (ring : RingId) (s : State) : Out :=
  s.run (fun d => (List.finRange 4).foldl (fun d n => d.bringUp ctx n) (d.completeHead ctx ring false .none))

end Sys2Proof.Machine
end

