-- ==== Sys2Proof/Machine/Admission.lean ====
section
/-! DEFINITION. Contexts (08_work_submission.md): the admission ring and its commands, frames and measurement at
admission (14_security.md), swapping, doorbells and held lines, counter pages (16_counters_and_debug.md R845 to R848). -/

namespace Sys2Proof.Machine

/-! ## Counter pages (R845 to R847) -/

/-- A counter in the layout of its PMC_CNT register. -/
def PmcCounter.word (c : PmcCounter) : Nat := c.val.toNat + (if c.ovf then 2 ^ 63 else 0)

/-- A host area is being written: its HUB.HOST_FAULT bit is clear (R809). -/
def Device.areaOn (d : Device) (bit : Nat) : Bool := !d.host.fault.getLsbD bit

/-- The body of a context's counter page. -/
def Device.pageBytes (d : Device) (c : Context) (gen : Nat) : List Byte :=
  let counts := c.pageCounts.toList
  let n (i : Nat) : List Byte := leBytes 8 ((counts[i]?).getD 0)
  let pmc := (d.panel c.panel).pmc.toList.flatMap (fun k =>
    leBytes 8 (if fieldOf k.sel 47 32 = c.id.toNat then k.word else 0))
  leBytes 2 c.id.toNat ++ leBytes 6 0 ++ leBytes 8 gen ++ leBytes 8 d.position ++ leBytes 8 c.tacks ++ n 0 ++ n 1 ++ n 2 ++ n 3
    ++ n 4 ++ n 5 ++ n 6 ++ n 7 ++ n 8 ++ n 9 ++ n 10 ++ n 11 ++ leBytes 384 0 ++ pmc ++ leBytes 3064 0 ++ leBytes 8 gen

/-- Write a context's counter page when it has COUNTER_READ: GEN_HEAD, then the body, then GEN_TAIL (R846). -/
def Device.writePage (d : Device) (id : Code) : Device :=
  match d.ctx? id with
  | none => d
  | some c =>
    if !c.rights.getLsbD 0 || !d.areaOn 4 then d
    else
      let gen := c.pageGen + 1
      let at_ := fieldOf d.regs.pmcPageBase 63 6 * 64 + 4096 * id.toNat
      let bytes := d.pageBytes c gen
      [(8, 8), (0, 4088), (4088, 8)].foldl (fun (d : Device) p => d.hostWrite (at_ + p.1) ((bytes.drop p.1).take p.2))
        (d.updCtx id (fun c => { c with pageGen := gen }))

/-- The page lines of a context's device counters (R443). -/
def Device.writeCounterLines (d : Device) (c : Context) : Device :=
  (List.range 32).foldl (fun d n =>
    d.hostWrite (c.ecAddr + 64 * n) (leBytes 8 ((c.events.toList[n]?).getD 0).toNat)) d

/-! ## Doorbell and head lines (R431 to R436, R634, R813 to R815) -/

/-- Read a ring's doorbell line. -/
def Device.readDoorbell (d : Device) (id : Code) (n : RingId) : Device :=
  match d.ring? id n with
  | none => d
  | some r =>
    let (d, bs) := d.hostFetch r.dbAddr 4
    d.newTail id n (leNat bs)

/-- Read the doorbell lines of all rings of a context. -/
def Device.readDoorbells (d : Device) (id : Code) : Device := (List.finRange 4).foldl (fun d n => d.readDoorbell id n) d

/-- Hold the doorbell lines of a resident context (R434). -/
def Device.holdDoorbells (d : Device) (c : Context) : Device := c.rings.foldl (fun d r => d.holdLine r.dbAddr) d

/-- The host address of the admission doorbell line. -/
def Device.admissionDb (d : Device) : Nat := fieldOf d.regs.admitDb 63 6 * 64

/-- The entries of the admission ring as a power of two. -/
def Device.admissionSize (d : Device) : Nat := fieldOf d.regs.admitCtl 11 8

/-- Write an admission completion and send its message (R419, R822). -/
def Device.admissionDone (d : Device) (status : Code) (userTag : Nat) : Device :=
  let r := d.admitRing
  let at_ := fieldOf d.regs.admitCplBase 63 6 * 64 + 32 * (r.next % 2 ^ d.admissionSize)
  let d := d.hostWrite at_ (completionBytes status userTag 0 (r.next % 2 ^ 32) 0 0 0 (phaseBit r.next d.admissionSize))
  { d with admitRing := { d.admitRing with next := r.next + 1 } }.sendMsg 1

/-- Read the admission doorbell: an overrun halts the ring (R419, R433). -/
def Device.readAdmissionDb (d : Device) : Device :=
  if !d.admitOn || d.admitRing.halted || !d.areaOn 1 then d
  else
    let (d, bs) := d.hostFetch d.admissionDb 4
    let tail := leNat bs
    if 2 ^ d.admissionSize < tailAhead tail d.admitRing.next then
      let d := d.admissionDone 0x0515 0
      { d with admitRing := { d.admitRing with halted := true } }
    else { d with admitRing := { d.admitRing with tail := tail } }

/-- The next value of a head line, as a sequence number not below the old one. -/
def headAfter (old line next : Nat) : Nat :=
  let h := old + tailAhead line old
  if h ≤ next then h else old

/-- Read the error ring's head line (R634). -/
def Device.readErrHead (d : Device) : Device :=
  if !d.enabled || !d.areaOn 0 then d
  else
    let (d, bs) := d.hostFetch (fieldOf d.regs.errHeadLine 63 6 * 64) 4
    { d with err := { d.err with head := headAfter d.err.head (leNat bs) d.err.nextSeq } }

/-- Read the dump ring's head line (R854). -/
def Device.readDumpHead (d : Device) : Device :=
  if !d.dumpOn || !d.areaOn 4 then d
  else
    let (d, bs) := d.hostFetch (fieldOf d.regs.dumpHeadLine 63 6 * 64) 4
    { d with counters := { d.counters with head := headAfter d.counters.head (leNat bs) d.counters.next } }

/-- The host-counter lines on which descriptors wait (R444): context and counter. -/
def Device.waitedCounters (d : Device) : List (Code × Nat) :=
  (d.contexts.flatMap (fun c => c.rings.flatMap (fun r => (r.queue.filter (fun x =>
    x.waitEn && 31 < x.waitEc && x.phase = .fetched)).map (fun x => (c.id, x.waitEc))))).eraseDups

/-- Read waited host counters, and check what they release. -/
def Device.readWaited (d : Device) (which : List (Code × Nat)) : Device :=
  which.foldl (fun d w => (List.finRange 4).foldl (fun d n => d.bringUp w.1 n) (d.readCounter w.1 w.2)) d

/-- The device reads a line again after the host wrote it (R815): whatever it serves. -/
def Device.refreshLine (d : Device) (line : Nat) : Device :=
  let d := if d.admissionDb = line then d.readAdmissionDb else d
  let d := if fieldOf d.regs.errHeadLine 63 6 * 64 = line then d.readErrHead else d
  let d := if fieldOf d.regs.dumpHeadLine 63 6 * 64 = line then d.readDumpHead else d
  let d := d.allRings.foldl (fun d cn => match d.ring? cn.1 cn.2 with
    | some r => if r.dbAddr / 64 * 64 = line then d.readDoorbell cn.1 cn.2 else d
    | none => d) d
  d.waitedCounters.foldl (fun d w => match d.ctx? w.1 with
    | some c => if c.ecAddr + 64 * w.2 = line then
        (List.finRange 4).foldl (fun d n => d.bringUp w.1 n) (d.readCounter w.1 w.2) else d
    | none => d) d

/-- The held mode returns: every line that the device keeps in it is held and read again (R434, R444, R634, R854). -/
def Device.holdAgain (d : Device) : Device :=
  if !d.heldMode then d
  else
    let d := (d.contexts.filter (fun c => c.resident)).foldl (fun (d : Device) c => (d.holdDoorbells c).readDoorbells c.id) d
    let d := if d.admitOn then (d.holdLine d.admissionDb).readAdmissionDb else d
    let d := if d.enabled then (d.holdLine (fieldOf d.regs.errHeadLine 63 6 * 64)).readErrHead else d
    let d := if d.dumpOn then (d.holdLine (fieldOf d.regs.dumpHeadLine 63 6 * 64)).readDumpHead else d
    let d := d.waitedCounters.foldl (fun (d : Device) w => match d.ctx? w.1 with
      | some c => d.holdLine (c.ecAddr + 64 * w.2)
      | none => d) d
    d.readWaited d.waitedCounters

/-- Codes of `HostLink.snoopAnswer`: 1 RspIHitSE, 2 RspSHitSE, 3 RspIHitI. -/
def Device.answerSnoop (d : Device) (code : Nat) : Device := { d with host := { d.host with snoopAnswer := code } }

/-- CXL.cache is usable: the link is in L0 and CXL.cache is enabled. -/
def Device.cacheOn (d : Device) : Bool := d.hostUp && d.host.cacheEnabled

/-- SNPINV (R434, R814, R815): the host writes a line; a held line is dropped, and read again when it is still needed. -/
def Device.snoopInv (d : Device) (addr : Nat) (line : List Byte) : Device :=
  if !d.cacheOn then d
  else
    let l := addr / 64 * 64
    let held := d.host.lines.contains l
    let d := { d with hostMem := memWrite d.hostMem l (line.take 64) }
    if held then ((d.answerSnoop 1).countHub { code := 0x104 } 1).refreshLine l else d.answerSnoop 3

/-- SNPDATA and SNPCUR (R814). -/
def Device.snoopRead (d : Device) (addr : Nat) : Device :=
  if !d.cacheOn then d else d.answerSnoop (if d.host.lines.contains (addr / 64 * 64) then 2 else 3)

/-- The polling interval in ns (R435). -/
def Device.pollNs (d : Device) : Nat := d.anglesNs (fieldOf d.regs.admitCtl 27 16)

/-- The doorbell lines of swapped contexts that one interval reads, in turn (R435, R436). -/
def Device.pollSwapped (d : Device) : Device :=
  let all := d.contexts.flatMap (fun c => if c.resident then [] else
    (List.finRange 4).filterMap (fun n => if n.val < c.rings.length then some (c.id, n) else none))
  if all.isEmpty then d
  else
    let n := min all.length (fieldOf d.regs.admitPoll 6 0)
    let turn := d.admitRing.pollTurn % all.length
    let d := ((all.drop turn ++ all.take turn).take n).foldl (fun d cn => d.readDoorbell cn.1 cn.2) d
    { d with admitRing := { d.admitRing with pollTurn := turn + n } }

/-- The lines that one interval reads (R435, R436): doorbells of swapped contexts, and in the polled mode every line that
the device would else hold. -/
def Device.pollLines (d : Device) : Nat :=
  let rings (f : Context → Bool) : Nat := ((d.contexts.filter f).map (fun c => c.rings.length)).sum
  min (rings (fun c => !c.resident)) (fieldOf d.regs.admitPoll 6 0)
    + (if d.heldMode then 0
       else rings (fun c => c.resident) + d.waitedCounters.length + (if d.admitOn && !d.admitRing.halted then 1 else 0)
        + (if d.enabled then 1 else 0) + (if d.dumpOn then 1 else 0))

/-- DOORBELL_POLL (R435, R436, R444, R634, R854). -/
def Device.poll (d : Device) : Device :=
  if !d.hostUp || d.now < d.admitRing.lastPoll + d.pollNs then d
  else
    let d := { d with admitRing := { d.admitRing with lastPoll := d.now } }.countHub { code := 0x105 } d.pollLines
    let d := d.pollSwapped
    -- a line whose read failed is read again at every interval (R809)
    let d := d.allRings.foldl (fun d cn => if (d.ring? cn.1 cn.2).any (fun r => r.doorbellFault) then d.readDoorbell cn.1 cn.2 else d) d
    if d.heldMode then d.readWaited (d.waitedCounters.filter (fun w => d.host.counterFaults.contains w))
    else
      let d := (d.contexts.filter (fun c => c.resident)).foldl (fun d c => d.readDoorbells c.id) d
      let d := d.readAdmissionDb.readErrHead.readDumpHead
      d.readWaited d.waitedCounters

/-! ## Readiness over time, swapping (R407 to R411) -/

/-- Keep since when each context has had a ready ring, or none. -/
def Device.noteReady (d : Device) : Device :=
  { d with contexts := d.contexts.map (fun c =>
      if d.ctxReady c then { c with readySince := c.readySince.or (some d.now) }
      else if c.readySince.isSome then { c with readySince := none, idleSince := d.now } else c) }

/-- The element with the least value. -/
def minBy {α : Type} (f : α → Nat) (l : List α) : Option α :=
  l.foldl (fun m a => match m with
    | none => some a
    | some b => if f a < f b then some a else some b) none

/-- The passes of a context leave the accumulator bank for its save area (R121, R410); `none` where that has no room. -/
def Device.savePasses (d : Device) (c : Context) : Option Device :=
  [(0 : Fin 2), 1].foldl (fun (r : Option Device) k => r.bind (fun d =>
    let b := (d.panel c.panel).array.slots[k]
    if !b.pass.any (fun p => p.ref.ctx = c.id) then some d
    else if d.passLives b then d.savePass c.panel k else some (d.setSlot c.panel k {}))) (some d)

/-- None of the context's tacks runs, its save area takes its passes, and no completion of its waits for an error record
(R410, R635). -/
def Device.mayLeaveSlot (d : Device) (c : Context) : Bool :=
  let a := (d.panel c.panel).array
  let mine (t : Option TackRun) : Bool := t.any (fun t => t.ref.ctx = c.id)
  !mine a.run && !mine a.drain && !mine a.dma && !mine a.failedTack && !mine a.failedDma && (d.savePasses c).isSome
    && !c.rings.any (fun r => r.queue.any (fun x => x.isFinished && (d.ticketIndex x.ticket).isNone))

/-- The resident context that gives up its slot (R409). -/
def Device.swapVictim (d : Device) (p : PanelId) : Option Context :=
  let cs := (d.residents p).filter (fun c => !c.pinned && d.mayLeaveSlot c)
  (minBy (fun c => c.idleSince) (cs.filter (fun c => c.readySince.isNone))).or
    (minBy (fun c => c.residentSince) (cs.filter (fun c =>
      decide (c.residentSince + fieldOf (d.panel p).schedCfg 31 16 * 1000 ≤ d.now))))

/-- A context gives up its slot (R121, R249, R269, R332, R410, R443, R846). -/
def Device.swapOutCtx (d : Device) (c : Context) : Device :=
  let d := (((d.savePasses c).getD d).saveItems c).gussetHome c.id
  let d := d.updPanel c.panel (fun q => { q with array := q.array.without (fun r => r.ctx = c.id) })
  let d := d.writeCounterLines c
  let d := d.updCtx c.id (fun c => { c with resident := false, pageCounts := c.pageCounts.set 9 (c.pageCounts[9] + 1) })
  let d := c.rings.foldl (fun d r => d.dropLine r.dbAddr) d
  (d.count c.panel { code := 0x035, ctx := c.id } 1).writePage c.id

/-- A context takes a slot: its items come back, its Gusset lines return, its doorbell lines are held and read (R249, R269,
R332, R410, R434). A context that has never been swapped out has nothing in its save area. -/
def Device.swapInCtx (d : Device) (c : Context) : Device :=
  let d := d.updCtx c.id (fun c => { c with resident := true, residentSince := d.now })
  let d := ((if c.pageCounts[9] = 0 then d else d.restoreItems c).gussetFront c.id).holdDoorbells c
  if d.heldMode then d.readDoorbells c.id else d

/-- A panel holds 32 resident contexts. -/
def Device.slotsFull (d : Device) (p : PanelId) : Bool := decide (32 ≤ (d.residents p).length)

/-- The swapped context of a panel whose ring became ready first (R409). -/
def Device.firstReady (d : Device) (p : PanelId) : Option Context :=
  minBy (fun c => c.readySince.getD 0) (d.contexts.filter (fun c => c.panel = p && !c.resident && c.readySince.isSome))

/-- The first of them whose shares and entries fit (R219, R225, R251, R253, assumption log 147). -/
def Device.firstFitting (d : Device) (p : PanelId) : Option Context :=
  minBy (fun c => c.readySince.getD 0) (d.contexts.filter (fun c => c.panel = p && !c.resident && c.readySince.isSome && d.swapFits c))

/-- SWAP_OUT (R409, R410). -/
def Device.swapOut (d : Device) (id : Code) : Device :=
  let d := d.noteReady
  match d.ctx? id with
  | none => d
  | some c =>
    if d.slotsFull c.panel && (d.firstReady c.panel).isSome && (d.swapVictim c.panel).any (fun v => v.id = id)
      then d.swapOutCtx c else d

/-- SWAP_IN (R409, R410). -/
def Device.swapIn (d : Device) (id : Code) : Device :=
  let d := d.noteReady
  match d.ctx? id with
  | none => d
  | some c =>
    if !c.resident && !d.slotsFull c.panel && (d.firstFitting c.panel).any (fun v => v.id = id)
        && (d.panel c.panel).memOn then d.swapInCtx c else d

/-! ## Frames of a context (R417, R427, R780 to R782) -/

/-- The device frames that map entries, map array and save area name. -/
def Device.namedFrames (d : Device) (mapAddr mapEntries saveAddr saveBytes : Nat) : List Nat :=
  let ofRange (a n : Nat) : List Nat := (cutAt (2 ^ 21) a n).map (fun s => s.1 / 2 ^ 21)
  let entries := (List.range mapEntries).filterMap (fun k =>
    let a := mapAddr + 8 * k
    let e := BitVec.ofNat 64 (memNat d.mem a 8)
    let frame := fieldOf e 51 21
    if d.badAt (a / 64) || (d.panel (panelOf a)).retires (ppaOf a) || !bitOf e 63 || bitOf e 61 || fieldOf e 60 52 != 0
        || fieldOf e 20 0 != 0 || mpaEnd ≤ frame * 2 ^ 21 then none else some frame)
  (entries ++ ofRange mapAddr (8 * mapEntries) ++ ofRange saveAddr saveBytes).eraseDups

/-- A map array holds uncorrectable data. -/
def Device.mapPoisoned (d : Device) (mapAddr mapEntries : Nat) : Bool :=
  d.badIn mapAddr (8 * mapEntries)

/-- A map array is read, at Vermilion class (assumption log 151): reads that ECC cannot correct write their records (R380). -/
def Device.mapRecords (d : Device) (mapAddr mapEntries : Nat) (b : Blame) : Device :=
  (d.loadMpa mapAddr (8 * mapEntries) .stream (fun _ => false) .vermilion .nobody b).1

/-- A context can claim a frame. -/
def Device.claimable (d : Device) (id : Code) (conf : Bool) (f : Nat) : Bool :=
  let e := d.frames.get f
  !isCrashFrame f && decide (f * 2 ^ 21 < mpaEnd)
    && (e.owners.contains id || (if conf then e.owners.isEmpty else !e.conf || e.owners.isEmpty))

/-- Claim a frame. -/
def Device.claim (d : Device) (id : Code) (conf : Bool) (f : Nat) : Device :=
  let e := d.frames.get f
  if e.owners.contains id then d
  else
    let (d, clean) := if conf && !e.clean then (d.zeroFrame f, true) else (d, e.clean)
    { d with frames := d.frames.put { e with owners := e.owners ++ [id], conf := conf, clean := clean, fresh := false } }

/-- Release a frame. -/
def Device.releaseFrame (d : Device) (id : Code) (conf : Bool) (f : Nat) : Device :=
  let d := if conf then d.zeroFrame f else d
  let e := d.frames.get f
  { d with frames := d.frames.put { e with owners := e.owners.filter (fun o => o != id), conf := false, clean := conf } }

/-- The frames that a context owns. -/
def Device.ownedFrames (d : Device) (id : Code) : List Nat :=
  (d.frames.entries.filter (fun e => e.owners.contains id)).map (fun e => e.index)

/-! ## The end of a context (R427, R662, R690, R781) -/

/-- The context leaves: it loses everything that it holds. -/
def Device.endContext (d : Device) (id : Code) : Device :=
  match d.ctx? id with
  | none => d
  | some c =>
    let d := (d.writeCounterLines c).writePage id
    let d := d.discardRuns (fun r => r.ctx = id)
    let d := c.gusset.foldl (fun d e => d.gussetClose id e.param) d
    let d := c.comms.foldl (fun d k => d.commitLeft k) d
    let lost := c.comms.any (fun k => k.joined && k.commitComm)
    let d := if lost then { d with commit := { d.commit with lostSelf := true } } else d
    let d := (d.windowDrop id)
    let d := { d with fabric := { d.fabric with
      outstanding := d.fabric.outstanding.filter (fun o => o.ctx != id), colls := d.fabric.colls.filter (fun r => r.ctx != id),
      relays := d.fabric.relays.filter (fun r => r.ctx != id), fittings := d.fabric.fittings.filter (fun r => r.ctx != id) } }
    let d := c.rings.foldl (fun d r => d.dropLine r.dbAddr) d
    let d := (List.range 32).foldl (fun d n => d.dropLine (c.ecAddr + 64 * (32 + n))) d
    let d := (d.ownedFrames id).foldl (fun d f => d.releaseFrame id c.confidential f) d
    { d with contexts := d.contexts.filter (fun k => k.id != id) }

/-! ## ADMIT (R422 to R425) -/

/-- A ring pair of a setup block. -/
def setupRing (setup : List Byte) (n : Nat) : Ring :=
  { sqAddr := bytesField setup (64 + 48 * n) 8, cqAddr := bytesField setup (72 + 48 * n) 8,
    dbAddr := bytesField setup (80 + 48 * n) 8, sizeLog2 := bytesField setup (88 + 48 * n) 1 }

/-- The context that an admission record and a setup block describe. -/
def admittedContext (rec_ setup : List Byte) : Context :=
  { id := BitVec.ofNat 16 (bytesField rec_ 2 2), panel := Fin.ofNat 8 (bytesField setup 0 1), pinned := (bytesField setup 2 1).testBit 0,
    resident := false, rings := (List.range (bytesField setup 1 1)).map (setupRing setup),
    rights := BitVec.ofNat 4 (bytesField rec_ 4 4), confidential := (bytesField rec_ 8 4).testBit 0,
    ledgerAddr := bytesField rec_ 24 8, ledgerEntries := bytesField rec_ 12 4, seed := BitVec.ofNat 64 (bytesField rec_ 16 8),
    jobTag := BitVec.ofNat 64 (bytesField rec_ 64 8), authority := BitVec.ofNat 256 (bytesField rec_ 32 32),
    mapAddr := bytesField setup 8 8, mapEntries := bytesField setup 16 4, saveAddr := bytesField setup 24 8,
    saveBytes := bytesField setup 32 8, bobbinMax := bytesField setup 4 2, ecAddr := bytesField setup 40 8,
    measure := extendMeasure 0 0x10 0 (rec_.take 4755), recordDigest := Config.sha3 (rec_.take 4755) }

/-- The reserved fields of an admission record are 0. -/
def recordReservedOk (rec_ : List Byte) : Bool :=
  bytesField rec_ 4 4 < 16 && bytesField rec_ 8 4 < 2 && bytesField rec_ 72 56 = 0

/-- The reserved fields of a setup block are 0. -/
def setupReservedOk (setup : List Byte) : Bool :=
  let rings := bytesField setup 1 1
  bytesField setup 2 1 < 2 && bytesField setup 3 1 = 0 && bytesField setup 6 2 = 0 && bytesField setup 20 4 = 0
    && bytesField setup 48 16 = 0 && (List.range 4).all (fun n =>
      bytesField setup (89 + 48 * n) 23 = 0 && (n < rings || bytesField setup (64 + 48 * n) 48 = 0))

/-- The fields of a setup block lie within their ranges and alignments; the save area meets R412. -/
def setupFieldsOk (setup : List Byte) : Bool :=
  let f (o n : Nat) : Nat := bytesField setup o n
  let need := roundUp (18 * 2 ^ 20 + 65536 * f 4 2) (2 ^ 21)
  let save := f 24 8
  f 0 1 < 8 && 1 ≤ f 1 1 && f 1 1 ≤ 4 && f 4 2 ≤ 1536 && f 8 8 % 4096 = 0 && 1 ≤ f 16 4 && f 16 4 ≤ 16777216
    && f 8 8 + 8 * f 16 4 ≤ mpaEnd && save % 2 ^ 21 = 0 && need ≤ f 32 8
    && f 0 1 * panelBytes ≤ save && save + f 32 8 ≤ (f 0 1 + 1) * panelBytes && f 40 8 % 4096 = 0
    && (List.range (f 1 1)).all (fun n =>
      let r := setupRing setup n
      r.sqAddr % 4096 = 0 && r.cqAddr % 4096 = 0 && r.dbAddr % 64 = 0 && 6 ≤ r.sizeLog2 && r.sizeLog2 ≤ 16)

/-- A registered authority signed the record (check 3 of R424). -/
def Device.recordSigned (d : Device) (rec_ : List Byte) : Bool :=
  match d.thimble.authorities.find? (fun a => (digestBytes (Config.sha3 a.2)).take 32 = (rec_.drop 32).take 32) with
  | none => false
  | some a => Config.mlDsaVerify a.2 (Config.sha3 (rec_.take 128)) ((rec_.drop 128).take 4627)

/-- The checks of R424 in order; none: the context may be enrolled. -/
def Device.enrollCheck (d : Device) (cmd rec_ setup : List Byte) (readable : Bool) : Option Code :=
  let c := admittedContext rec_ setup
  let form := bytesField cmd 16 8 % 64 = 0 && bytesField cmd 24 8 % 64 = 0 && readable && bytesField cmd 12 4 = 4755
    && bytesField rec_ 0 2 = 1 && recordReservedOk rec_ && setupReservedOk setup && bytesField cmd 2 2 = bytesField rec_ 2 2
  let pinned := (d.contexts.filter (fun k => k.panel = c.panel && k.pinned)).length
  let frames := d.namedFrames c.mapAddr c.mapEntries c.saveAddr c.saveBytes
  (firstFailure [(form, 0x0502, 0), (c.id != 0 && (d.ctx? c.id).isNone, 0x0503, 0), (d.recordSigned rec_, 0x0501, 0),
    (!(c.confidential && c.rights.getLsbD 3), 0x0506, 0), (setupFieldsOk setup, 0x0504, 0),
    (!c.pinned || decide (pinned < 32), 0x0505, 0), (!d.power.admitHold, 0x0507, 0),
    (!d.mapPoisoned c.mapAddr c.mapEntries, 0x0312, 0), (frames.all (fun f => d.claimable c.id c.confidential f), 0x0512, 0)]).map
      (fun p => p.1)

/-- The context that gives up its slot for a pinned one: R409's choice, else the one that has been resident longest. -/
def Device.leaver (d : Device) (p : PanelId) : Option Context :=
  (d.swapVictim p).or (minBy (fun k => k.residentSince) ((d.residents p).filter (fun k => !k.pinned && d.mayLeaveSlot k)))

/-- Enroll a context that passed its checks: frames, measurement, a slot where one is free or it is pinned (R408). -/
def Device.enroll (d : Device) (rec_ setup : List Byte) : Device :=
  let c := { admittedContext rec_ setup with idleSince := d.now }
  let d := (d.namedFrames c.mapAddr c.mapEntries c.saveAddr c.saveBytes).foldl (fun d f => d.claim c.id c.confidential f) d
  let d := { d with contexts := d.contexts ++ [c] }
  let d := if c.pinned && d.slotsFull c.panel then
      match d.leaver c.panel with
      | some v => d.swapOutCtx v
      | none => d
    else d
  if d.slotsFull c.panel then d else d.swapInCtx c

/-- ADMIT (R424); out of service it is refused at once (R680). -/
def Device.admitCmd (d : Device) (cmd : List Byte) (readable : Bool) : Device × Code :=
  let (d, rec_) := d.hostFetch (bytesField cmd 16 8) 4755
  let (d, setup) := d.hostFetch (bytesField cmd 24 8) 256
  match d.escalationCode.or (d.enrollCheck cmd rec_ setup readable) with
  | some e =>
    let c := admittedContext rec_ setup
    (if e = 0x0312 then d.mapRecords c.mapAddr c.mapEntries {} else d, e)
  | none =>
    let c := admittedContext rec_ setup
    (((d.mapRecords c.mapAddr c.mapEntries {}).enroll rec_ setup).countHub { code := 0x106 } 1, 0)

/-- An ADMIT of a pinned context that would be accepted waits for a context that may give up its slot (R408, R410). -/
def Device.admitWaits (d : Device) (cmd : List Byte) (readable : Bool) : Bool :=
  let rec_ := d.hostRead (bytesField cmd 16 8) 4755
  let setup := d.hostRead (bytesField cmd 24 8) 256
  let c := admittedContext rec_ setup
  c.pinned && d.slotsFull c.panel && (d.leaver c.panel).isNone && (d.escalationCode.or (d.enrollCheck cmd rec_ setup readable)).isNone

/-! ## LEAVE, FLUSH, RESUME, REMAP (R418, R426, R476 to R482) -/

/-- The running tacks of a ring commit: a tack boundary is reached (R480). -/
def Device.stopAtBoundary (d : Device) (id : Code) (n : RingId) : Device :=
  match d.ctx? id with
  | none => d
  | some c =>
    let mine (t : Option TackRun) : Bool := t.any (fun t => t.ref.ctx = id && t.ref.ring = n)
    let array (d : Device) : Device := let a := (d.panel c.panel).array; if mine (a.drain.or a.run) then d.commitArray c.panel else d
    let d := array (array d)
    if mine (d.panel c.panel).array.dma then d.commitDma c.panel else d

/-- Flush one ring to the TAIL of its doorbell line (R479, R482); the status tells an overrun. -/
def Device.flushOne (d : Device) (id : Code) (n : RingId) (withSignals : Bool) : Device × Code :=
  match d.ring? id n with
  | none => (d, 0)
  | some r =>
    let (d, bs) := d.hostFetch r.dbAddr 4
    let d := (d.stopAtBoundary id n).redeliver id n
    let tail := leNat bs
    match d.ring? id n with
    | none => (d, 0)
    | some r =>
      if 2 ^ r.sizeLog2 < tailAhead tail r.complNext then
        let d := d.updRing id n (fun r => { r with halted := false })
        ((d.newTail id n tail).completeHead id n false .none, 0x0515)
      else (d.flushRing id n tail 0x0518 withSignals none, 0)

/-- The rings of a mask that a context has. -/
def Context.masked (c : Context) (mask : Nat) : List RingId :=
  (List.finRange 4).filter (fun n => mask.testBit n.val && decide (n.val < c.rings.length))

/-- FLUSH (R479 to R482). -/
def Device.flushCmd (d : Device) (c : Context) (mask : Nat) (withSignals : Bool) : Device × Code :=
  (c.masked mask).foldl (fun (r : Device × Code) n =>
    let (d, e) := r.1.flushOne c.id n withSignals
    (d, if r.2 = 0 then e else r.2)) (d, 0)

/-- LEAVE (R426, R427): without FORCE it is judged on the TAILs that the doorbell lines show now. -/
def Device.leaveCmd (d : Device) (c : Context) (force : Bool) : Device × Code :=
  let d := if force then d else d.readDoorbells c.id
  let busy := ((d.ctx? c.id).getD c).rings.any (fun r => tailAhead r.tail r.complNext != 0)
  if busy && !force then (d, 0x050B)
  else
    let d := if force then (d.flushCmd c 15 false).1 else d
    (d.endContext c.id, 0)

/-- A failed descriptor is fetched anew and runs again from its start (R476). -/
def Device.retryRing (d : Device) (id : Code) (n : RingId) (f : FailedDesc) : Device :=
  match d.ring? id n with
  | none => d
  | some r =>
    let (d, bs) := d.hostFetch (r.sqAddr + 128 * (f.seq % 2 ^ r.sizeLog2)) 128
    let x : Desc := { seq := f.seq, raw := BitVec.ofNat 1024 (leNat bs), fetchPos := d.position, fetchedAt := d.now }
    let bad := (if x.f 8 4 = f.seq % 2 ^ 32 then none else some (0x0513 : Code)).or x.headerCheck
    let x := match bad with
      | some e => { x with phase := .finished e }
      | none => x
    d.updRing id n (fun r => { r with queue := x :: r.queue, complNext := f.seq, failed := none, halted := false })

/-- RESUME (R476 to R478). -/
def Device.resumeCmd (d : Device) (c : Context) (mask : Nat) (retry : Bool) : Device × Code :=
  let halted := (c.masked mask).filter (fun n => (c.ring? n).any (fun r => r.halted))
  let left (n : RingId) : Bool := (c.ring? n).any (fun r => r.failed.any (fun f => f.effect))
  if halted.isEmpty then (d, 0x050C)
  else if retry && halted.any left then (d, 0x050D)
  else (halted.foldl (fun d n =>
    -- what later descriptors had begun goes back to its start (R475)
    let d := (d.redeliver c.id n).discardRuns (fun r => r.ctx = c.id && r.ring = n)
    let d := match retry, (d.ring? c.id n).bind (fun r => r.failed) with
      | true, some f => d.retryRing c.id n f
      | _, _ => d.updRing c.id n (fun r => { r with halted := false, failed := none })
    -- a TAIL that still lies too far ahead is an overrun again (R433)
    let d := match d.ring? c.id n with
      | some r => if 2 ^ r.sizeLog2 < tailAhead r.tail r.complNext then d.newTail c.id n r.tail else d
      | none => d
    d.bringUp c.id n) d, 0)

/-- REMAP (R418, R780, R781): every access uses the new entries; frames are claimed and given up. -/
def Device.remapCmd (d : Device) (c : Context) : Device × Code :=
  let named := d.namedFrames c.mapAddr c.mapEntries c.saveAddr c.saveBytes
  let denied := named.any (fun f => !d.claimable c.id c.confidential f)
  let bad := d.mapPoisoned c.mapAddr c.mapEntries
  let d := d.mapRecords c.mapAddr c.mapEntries { ctx := c.id }
  let d := d.updCtx c.id (fun c => { c with tlb := [] })
  let d := (named.filter (fun f => d.claimable c.id c.confidential f)).foldl (fun d f => d.claim c.id c.confidential f) d
  let d := ((d.ownedFrames c.id).filter (fun f => !named.contains f)).foldl (fun d f => d.releaseFrame c.id c.confidential f) d
  (d, if bad then 0x0312 else if denied then 0x0512 else 0)

/-! ## Taking commands (R419 to R421, R924, R428) -/

/-- The command sets a reserved bit or byte, or has a reserved CMD (R924). -/
def cmdReserved (cmd : List Byte) : Bool :=
  let k := bytesField cmd 0 1
  let ctl := bytesField cmd 1 1
  k = 0 || 5 < k || (if 2 ≤ k && k ≤ 4 then 1 < ctl else ctl != 0) || 15 < bytesField cmd 6 1 || bytesField cmd 7 1 != 0
    || bytesField cmd 32 96 != 0

/-- A RESUME, a FLUSH, or the FLUSH in a LEAVE with FORCE waits while a selected ring's completion waits for its error record
(R635); a LEAVE waits for the window accesses that its context's entries have accepted (R397). -/
def Device.cmdWaits (d : Device) (cmd : List Byte) : Bool :=
  match d.ctx? (BitVec.ofNat 16 (bytesField cmd 2 2)) with
  | none => false
  | some c =>
    let leave := bytesField cmd 0 1 = 2
    let force := (bytesField cmd 1 1).testBit 0
    (leave && d.windowBusy c.id) || ((bytesField cmd 0 1 = 3 || bytesField cmd 0 1 = 4 || (leave && force))
      && (c.masked (if leave then 15 else bytesField cmd 6 1)).any (fun n =>
      (c.ring? n).any (fun r => r.queue.any (fun x => x.isFinished && (d.ticketIndex x.ticket).isNone)
        || (!r.halted && r.queue.head?.any (fun x => x.isFinished && x.ticket.isSome)))))

/-- The effect of a well-formed command: its status. -/
def Device.cmdEffect (d : Device) (cmd : List Byte) (readable : Bool) : Device × Code :=
  let ctl := (bytesField cmd 1 1).testBit 0
  let mask := bytesField cmd 6 1
  if bytesField cmd 0 1 = 1 then d.admitCmd cmd readable
  else match d.ctx? (BitVec.ofNat 16 (bytesField cmd 2 2)) with
    | none => (d, 0x050A)
    | some c => match bytesField cmd 0 1 with
      | 2 => d.leaveCmd c ctl
      | 3 => d.resumeCmd c mask ctl
      | 4 => d.flushCmd c mask ctl
      | _ => d.remapCmd c

/-- The row of a command: the next command of the admission ring is taken when it is this one, or when it is refused
before its CMD is looked at. -/
def Device.takeCommand (d : Device) (k : Nat) (readable : Bool) : Device :=
  let r := d.admitRing
  if !d.admitOn || r.halted || !d.hostUp || !d.areaOn 1 || tailAhead r.tail r.next = 0 then d
  else
    let (d, cmd) := d.hostFetch (fieldOf d.regs.admitBase 63 6 * 64 + 128 * (r.next % 2 ^ d.admissionSize)) 128
    let tag := bytesField cmd 4 2
    if bytesField cmd 8 4 != r.next % 2 ^ 32 then d.admissionDone 0x0513 tag
    else if cmdReserved cmd then d.admissionDone 0x0516 tag
    else if bytesField cmd 0 1 != k || d.cmdWaits cmd || (k = 1 && d.admitWaits cmd readable) then d
    else
      let (d, status) := d.cmdEffect cmd readable
      d.admissionDone status tag

/-! ## The admission enable (R484, R485) -/

/-- The checks of R887 and R484, in order, with their BAD_REG values (R888). -/
def Device.admissionChecks (d : Device) : Option (Code × Nat) :=
  let r := d.regs
  let size := d.admissionSize
  let base := fieldOf r.admitBase 63 6 * 64
  let cpl := fieldOf r.admitCplBase 63 6 * 64
  let db := d.admissionDb
  let hit (a n b m : Nat) : Bool := rangesOverlap a n b m
  match d.escalationCode with
  | some c => some (c, 0xFF)
  | none => firstFailure [
      (d.enabled, 0x0509, 0xFF),
      (6 ≤ size && size ≤ 12 && fieldOf r.admitCtl 27 16 != 0, 0x0508, 0x00),
      (1 ≤ fieldOf r.admitPoll 6 0 && fieldOf r.admitPoll 6 0 ≤ 64, 0x0508, 0x05),
      (base != 0, 0x0508, 0x01), (cpl != 0, 0x0508, 0x02), (db != 0, 0x0508, 0x03),
      (!hit base (128 * 2 ^ size) cpl (32 * 2 ^ size), 0x0508, 0x02),
      (!hit base (128 * 2 ^ size) db 64, 0x0508, 0x03),
      (!hit cpl (32 * 2 ^ size) db 64, 0x0508, 0x03)]

/-- A write of HUB.ADMIT_CTL (R483 to R485, R880 to R882). -/
def Device.admissionCtlWrite (d : Device) (v mask : BitVec 64) : Device :=
  let was := d.admitOn
  let held := d.heldMode
  let d := if was then d else { d with regs := { d.regs with admitCtl := mergeBits d.regs.admitCtl v (mask &&& 0x0FFF0F02) } }
  let d := if held then d else d.holdAgain
  if !bitOf mask 0 then d
  else if was then
    if bitOf v 0 then d
    else { d with regs := { d.regs with admitCtl := setBit d.regs.admitCtl 0 false } }.dropLine d.admissionDb
  else if !bitOf v 0 then d
  else match d.admissionChecks with
    | some (c, b) => { d with admitRing := { d.admitRing with reason := c, badReg := b } }
    | none =>
      let d := { d with regs := { d.regs with admitCtl := setBit d.regs.admitCtl 0 true },
                        admitRing := { lastPoll := d.now, pollTurn := d.admitRing.pollTurn } }
      let d := d.holdLine d.admissionDb
      if d.heldMode then d.readAdmissionDb else d

/-! ## The commands -/

/-- ADMIT (R424). -/
def execAdmitContext (s : State) : Out := s.run (fun d => d.takeCommand 1 true)
/-- LEAVE (R426). -/
def execLeave (s : State) : Out := s.run (fun d => d.takeCommand 2 true)
/-- RESUME (R476). -/
def execResume (s : State) : Out := s.run (fun d => d.takeCommand 3 true)
/-- FLUSH (R479). -/
def execFlush (s : State) : Out := s.run (fun d => d.takeCommand 4 true)
/-- REMAP (R418). -/
def execRemap (s : State) : Out := s.run (fun d => d.takeCommand 5 true)
/-- Setting HUB.ADMIT_CTL.EN (R484). -/
def execAdmitEnable (value : BitVec 32) (s : State) : Out := s.run (fun d => d.admissionCtlWrite (value.setWidth 64) 0xFFFFFFFF)
/-- Clearing HUB.ADMIT_CTL.EN (R485). -/
def execAdmitDisable (value : BitVec 32) (s : State) : Out := s.run (fun d => d.admissionCtlWrite (value.setWidth 64) 0xFFFFFFFF)
/-- DOORBELL_POLL (R435). -/
def execDoorbellPoll (s : State) : Out := s.run Device.poll
/-- SNPINV (R814). -/
def execSnpinv (addr : Nat) (line : List Byte) (s : State) : Out := s.run (fun d => d.snoopInv addr line)
/-- SNPDATA (R814). -/
def execSnpdata (addr : Nat) (s : State) : Out := s.run (fun d => d.snoopRead addr)
/-- SNPCUR (R814). -/
def execSnpcur (addr : Nat) (s : State) : Out := s.run (fun d => d.snoopRead addr)
/-- SWAP_OUT (R410). -/
def execSwapOut (ctx : Code) (s : State) : Out := s.run (fun d => d.swapOut ctx)
/-- SWAP_IN (R410). -/
def execSwapIn (ctx : Code) (s : State) : Out := s.run (fun d => d.swapIn ctx)

end Sys2Proof.Machine
end

