-- ==== Sys2Proof/Machine/Abort.lean ====
section
/-! DEFINITION. Step aborts and the update stitch (R58, R591 to R593, R690 to R695): what happens at the abort stitch and at
(U, 0). -/

namespace Sys2Proof.Machine

/-- What an abort does to a context of the commit communicator (R268, R592): its running tacks stop at their boundaries (R693),
its rings are flushed, and its stores are cleared. -/
def Device.abortContext (d : Device) (ctx : Code) : Device :=
  match d.ctx? ctx with
  | none => d
  | some c =>
    let a : Access := { ctx := ctx, cls := .slate }
    let d := (List.finRange 4).foldl (fun d n => match d.ring? ctx n with
      | some r => (d.stopAtBoundary ctx n).flushRing ctx n (d.lineTail r.dbAddr) 0x0A0C true none
      | none => d) d
    let d := c.sets.foldl (fun d s => (d.segmentsOf ctx (s.bank (!s.active)) s.bytes).foldl (fun d seg => d.undefine seg.1 seg.2) d) d
    let d := c.gusset.foldl (fun d e => (d.gussetClear a e.param).1) d
    let d := c.comms.foldl (fun d k => k.buckets.foldl (fun d b =>
      (d.writeCa a b.acc (List.replicate (4 * (sliceOf b.elements k.size k.rank).2) 0)).1) d) d
    let d := (List.finRange 4).foldl (fun (d : Device) n => d.updRing ctx n (fun r => { r with unclean := [] })) d
    d.updCtx ctx (fun c => { c with stash := [], releasedSince := c.releasedSince || !c.stash.isEmpty, comms := c.comms.map (fun k =>
      { k with buckets := k.buckets.map (fun b => { b with state := .idle, staged := [], failed := none, red := {} }) }) })

/-- The pending abort acts (R592, R693). -/
def Device.applyAbort (d : Device) : Device :=
  match d.commit.pendingAbort with
  | none => d
  | some a =>
    let d := (d.commitMembers.map (fun ck => ck.1.id)).eraseDups.foldl (fun d id => d.abortContext id) d
    let keep := d.commit.state = .uncertain || d.commit.state = .split
    let d := { d with fabric := { d.fabric with outstanding := d.fabric.outstanding.filter (fun o => o.comm.isNone) } }
    { d with commit := { d.commit with pendingAbort := none, aborts := satTo 32 (d.commit.aborts + 1),
                                       state := if keep then d.commit.state else .idle,
                                       ready := d.commit.ready.filter (fun r => r.2.1 != a.step) } }

/-- STEP_ABORT_APPLY (R592): at the abort stitch. -/
def Device.abortDue (d : Device) : Device :=
  match d.commit.pendingAbort with
  | none => d
  | some a => if d.reached (a.stitch.toNat * 4096) then d.applyAbort else d

/-- The record of an abort that arrives after its stitch and acts at once (R58): DETAIL holds the abort stitch, with bit 63 set
as the mark of lateness (assumption log 139). -/
def lateAbortRecord (a : AbortPacket) : ErrRec :=
  { reason := a.reason, mech := 0x11, outcome := 2, detail := BitVec.ofNat 128 (a.stitch.toNat + 2 ^ 63) }

/-- STEP_ABORT_PACKET (R58, R558, R589, R592, R593, R692). -/
def Device.abortPacket (d : Device) (port : Option PortId) (a : AbortPacket) : Device :=
  if a.jobId != d.jobId || d.commit.flooded.contains (a.jobId, true, a.step) then d
  else
    let d := d.flood port a.jobId a.step true (.abort a)
    let lost := a.lost.toNat
    let d := if a.lost = 0xFFFF then d
      else { d with contexts := d.contexts.map (fun c => { c with comms := c.comms.map (fun k =>
        if d.hasModule c.id k lost && !k.lostMods.contains lost then
          { k with lostMods := lost :: k.lostMods } else k) }) }
    if d.commit.applied && a.step.toNat ≤ d.commit.lastStep.toNat then
      let d := (d.latchAbort a).breakCommit
      { d with commit := { d.commit with pendingAbort := none, reason := 0x0A0F, state := .split } }.raise
        { reason := 0x0A0F, mech := 0x11, outcome := 1 }
    else
      let late := d.needle.state.schedules && decide (a.stitch.toNat * 4096 < d.position)
      let d := if late then d.raise (lateAbortRecord a) else d
      (d.latchAbort a).abortDue

/-- UPDATE_COMMIT (R591): at (U, 0), after an abort that is due (R59). -/
def Device.updateCommit (d : Device) : Device :=
  let d := d.abortDue
  let t := d.commit.step
  let active := match d.commit.state with
    | .preparing | .voted | .decided => true
    | _ => false
  if !active || !d.reached (d.commit.update * 4096) || d.abortHeld t then d
  else if d.commit.decided.contains t then
    let d := d.endCommits 0
    let ids := d.commitMembers.map (fun ck => ck.1.id)
    let d := ids.foldl (fun d id => d.updCtx id (fun c => { c with sets := c.sets.map (fun s => { s with commits := s.commits + 1 }) })) d
    { d with commit := { d.commit with state := .idle, lastStep := t, applied := true, commits := satTo 32 (d.commit.commits + 1),
                                       ready := d.commit.ready.filter (fun r => r.2.1 != t) } }
  else
    let d := (d.endCommits 0x0A0E).breakCommit
    { d with commit := { d.commit with state := .uncertain, reason := 0x0A0E, lostSelf := true } }.raise
      { reason := 0x0A0E, mech := 0x11, outcome := 1 }

/-! ## The commands -/

/-- STEP_ABORT_APPLY (R592). -/
def execStepAbortApply (s : State) : Out := s.run Device.abortDue
/-- UPDATE_COMMIT (R591). -/
def execUpdateCommit (s : State) : Out := s.run Device.updateCommit
/-- STEP_ABORT_PACKET (R592, R692). -/
def execStepAbortPacket (port : Option PortId) (abort : AbortPacket) (s : State) : Out := s.run (fun d => d.abortPacket port abort)

end Sys2Proof.Machine
end

