-- ==== Sys2Proof/Machine/Errors.lean ====
section
/-! DEFINITION. The device error ring (11_fault_coverage.md R632 to R637): how queued records reach host memory. -/

namespace Sys2Proof.Machine

/-- The bytes of an error record (R637). -/
def ErrRec.bytes (r : ErrRec) (seq phase : Nat) : List Byte :=
  leBytes 2 r.reason.toNat ++ leBytes 1 r.mech ++ leBytes 1 r.outcome ++ leBytes 4 seq ++ leBytes 8 r.position.toNat
    ++ leBytes 2 r.ctx.toNat ++ leBytes 1 r.panel ++ leBytes 1 r.ring ++ leBytes 4 r.descSeq ++ leBytes 2 r.unit
    ++ leBytes 2 r.sub ++ leBytes 2 r.count ++ leBytes 1 r.attr ++ leBytes 1 phase ++ leBytes 8 r.addr
    ++ leBytes 16 r.detail.toNat ++ leBytes 4 r.tacks ++ leBytes 4 0

/-- The records of the error ring as a power of two. -/
def Device.errSize (d : Device) : Nat := fieldOf d.regs.errCtl 12 8

/-- The host address of the error ring. -/
def Device.errBase (d : Device) : Nat := fieldOf d.regs.errBase 63 6 * 64

/-- The device writes to the error ring (R636, R809): the device is enabled, the area not stopped, the link not down. -/
def Device.errOpen (d : Device) : Bool :=
  d.enabled && d.areaOn 0 && (match d.host.link with
    | .l0 | .recovery => true
    | _ => false)

/-- The ring holds 2^SIZE_LOG2 records that the driver has not read (R635). -/
def Device.errFull (d : Device) : Bool := decide (2 ^ d.errSize ≤ d.err.nextSeq - d.err.head)

/-- A mechanism code where the manual gives none: a free one of R638. -/
def Device.freeMech (d : Device) : Device × Nat :=
  let (d, n) := drawFree d 8
  (d, 1 + n % 18)

/-- Once room has returned, one record tells how many were dropped (R635). -/
def Device.reportLost (d : Device) : Device :=
  let n := d.err.lostUnreported
  if n = 0 || 64 ≤ d.err.general then d
  else
    let (d, m) := d.freeMech
    { d with err := { d.err with lostUnreported := 0 } }.raise { reason := 0x0130, mech := m, outcome := 2, count := satTo 16 n }

/-- ERROR_RECORD_WRITE (R633, R635, R822): the oldest queued record takes its sequence number and is written. -/
def Device.writeRecord (d : Device) : Device :=
  match d.err.queue with
  | [] => d
  | q :: rest =>
    if !d.errOpen || d.errFull then d
    else
      let s := d.err.nextSeq
      let at_ := d.errBase + 64 * (s % 2 ^ d.errSize)
      let d := { d with err := { d.err with
        queue := rest
        nextSeq := s + 1
        written := match q.ticket with
          | some t => (t, s) :: d.err.written
          | none => d.err.written } }
      ((d.hostWrite at_ (q.content.bytes (s % 2 ^ 32) (phaseBit s d.errSize))).countHub { code := 0x107 } 1 |>.sendMsg 0).reportLost

/-- Write queued records until the queue is empty or the ring is full. -/
def Device.drainErr (d : Device) : Device := (List.range d.err.queue.length).foldl (fun d _ => d.writeRecord) d

/-- The sequence number under which a ticket's record was written. -/
def Device.writtenSeq (d : Device) (ticket : Nat) : Option Nat :=
  (d.err.written.find? (fun w => w.1 = ticket)).map (fun w => w.2)

end Sys2Proof.Machine
end

