-- ==== Sys2Proof/Machine/Reset.lean ====
section
/-! DEFINITION. Fences, panel resets, crash samples, device resets, escalation and heartbeats
(12_reset_and_recovery.md). -/

namespace Sys2Proof.Machine

/-! ## Ending contexts (R662, R663, R674, R680) -/

/-- A context ends: every descriptor up to the TAIL last read completes with a status, pointing to a record, without a
signal; then the context leaves (R427, R662). -/
def Device.endBy (d : Device) (status : Code) (ticket : Option Nat) (id : Code) : Device :=
  let d := (List.finRange 4).foldl (fun d n => match d.ring? id n with
    | some r =>
      -- an overrun TAIL (R433) names no descriptors beyond those fetched
      let tail := if 2 ^ r.sizeLog2 < tailAhead r.tail r.complNext then r.next else r.tail
      d.flushRing id n tail status false ticket
    | none => d) d
  d.endContext id

/-- The command at the front of the admission ring, if the device takes commands. -/
def Device.frontCommand (d : Device) : Option (List Byte) :=
  let r := d.admitRing
  if !d.admitOn || r.halted || !d.hostUp || !d.areaOn 1 || tailAhead r.tail r.next = 0 then none
  else some (d.hostRead (fieldOf d.regs.admitBase 63 6 * 64 + 128 * (r.next % 2 ^ d.admissionSize)) 128)

/-- An admission command that waits on a context that a test picks completes with a status (R663, R674, R680). -/
def Device.endCommand (d : Device) (f : Context → Bool) (status : Code) : Device :=
  match d.frontCommand with
  | none => d
  | some cmd =>
    let named := d.ctx? (BitVec.ofNat 16 (bytesField cmd 2 2))
    if bytesField cmd 8 4 = d.admitRing.next % 2 ^ 32 && d.cmdWaits cmd && named.any f
      then d.admissionDone status (bytesField cmd 4 2) else d

/-- Completions can be written: the link is not down. -/
def Device.mayComplete (d : Device) : Bool := match d.host.link with
  | .l0 | .recovery => true
  | _ => false

/-! ## The fence (R653 to R658) -/

/-- Raise the fence on a panel: engines stop, the running tack is discarded, accepted reads are answered with poison, the
Spool is written back (its bytes lie in the one coherent view already). -/
def Device.fencePanel (d : Device) (p : PanelId) : Device :=
  let m := (d.panel p).mem
  let reads := (m.queues.flatMap (fun q => q.2) ++ m.stalled).filter (fun r => !r.write)
  let faults := (d.panel p).array.faultsOf (fun _ => true)
  let d := faults.foldl (Device.raiseReplayed · 1) ((d.writeBack m.spool).updPanel p (fun q => { q with
    array := q.array.without (fun _ => true)
    mem := { q.mem with queues := [], stalled := [], batches := [], spool := [] } }))
  reads.foldl (fun d r => d.consumePoison r.requester) d

/-! ## Crash samples (R669 to R673) -/

/-- The Gusset tag table of a sample: open entries in the order of their contexts; a confidential context's are 0. -/
def Device.crashTags (d : Device) (p : PanelId) : List Byte :=
  let entries := (d.contexts.filter (fun c => c.panel = p)).flatMap (fun c => c.gusset.map (fun e => (c, e)))
  let bytes (k : Nat) (ce : Context × GussetEntry) : List Byte :=
    if ce.1.confidential && !d.thimble.debugOpen then leBytes 16 0
    else leBytes 2 ce.1.id.toNat ++ freeBytes (d.fresh + 2 * k) 2 ++ leBytes 4 ce.2.param.toNat ++ leBytes 4 ce.2.rows
      ++ leBytes 4 ce.2.cols
  let used := (entries.take 4096).zipIdx.flatMap (fun x => bytes x.2 x.1)
  used ++ List.replicate (65536 - used.length) 0

/-- The 256 KiB of a sample (R672): header and tag table as the manual lays them out, the rest undefined to it. -/
def Device.crashBytes (d : Device) (p : PanelId) (cause ctx : Code) (errSeq pos : Nat) (device : Bool) : List Byte :=
  let redacted := !d.thimble.debugOpen && d.contexts.any (fun c => c.panel = p && c.confidential)
  leBytes 2 1 ++ leBytes 1 p.val ++ leBytes 1 ((if redacted then 1 else 0) + (if device then 2 else 0)) ++ leBytes 2 cause.toNat
    ++ leBytes 2 ctx.toNat ++ leBytes 4 (errSeq % 2 ^ 32) ++ leBytes 4 (d.panel p).resets ++ leBytes 8 (pos % 2 ^ 60)
    ++ leBytes 4072 0 ++ freeBytes (d.fresh + 8192) 0x2F000 ++ d.crashTags p

/-- The MPA of a panel's reserved crash region (R669). -/
def crashRegion (p : PanelId) : Nat := p.val * panelBytes + 0x4FFFE00000

/-- Set bit `p` of a panel mask. -/
def maskSet (v : BitVec 8) (p : PanelId) (b : Bool) : BitVec 8 :=
  if b then v ||| (1#8 <<< p.val) else v &&& ~~~(1#8 <<< p.val)

/-- Write a panel's crash sample, or drop it (R669 to R671, R825). -/
def Device.crashSample (d : Device) (p : PanelId) (cause ctx : Code) (errSeq : Option Nat) (pos : Nat)
    (device inStack : Bool) (suspects : BitVec 4) : Device :=
  let base := fieldOf d.regs.crashBase 63 21 * 2 ^ 21
  let region := inStack || base = 0
  if d.reset.crashValid.getLsbD p.val || (region && suspects != 0) then
    let (d, m) := d.freeMech
    let d := { d with reset := { d.reset with crashDropped := satTo 8 (d.reset.crashDropped + 1) } }
    d.raise { reason := 0x0225, mech := m, outcome := 2, panel := p.val }
  else if !region && !d.areaOn 3 then d
  else
    -- an ERR_SEQ that the record has not taken yet is undefined
    let seq := errSeq.getD (Config.freeNat (d.fresh + 8191))
    let bytes := d.crashBytes p cause ctx seq pos device
    let d := { d with fresh := d.fresh + 8192 + 0x2F000 }
    let d := if region then d.storeMpa (crashRegion p) bytes .stream .ivory .nobody {} else d.hostData (base + 2 ^ 18 * p.val) bytes
    { d with reset := { d.reset with
        crashValid := maskSet d.reset.crashValid p true
        crashInStack := maskSet d.reset.crashInStack p region } }

/-! ## Panel resets (R660 to R668) -/

/-- The reset times of a window of `ms` minutes that still count (R678). -/
def windowOf (now minutes : Nat) (l : List Nat) : List Nat := l.filter (fun t => decide (now - t < minutes * 60000000000))

/-- The record of a suspect stack (R665). -/
def suspectRecord (p : PanelId) (s : Nat) : ErrRec :=
  { reason := 0x0223, mech := 0x0B, outcome := 1, panel := p.val, unit := 4 * p.val + s }

/-- A stack holds the poison code everywhere (R666). -/
def Device.loseStack (d : Device) (p : PanelId) (s : Nat) : Device :=
  { d with lostStacks := (4 * p.val + s, []) :: d.lostStacks.filter (fun l => l.1 != 4 * p.val + s) }

/-- The stacks of a mask. -/
def maskStacks (v : BitVec 4) : List Nat := (List.range 4).filter (fun s => v.getLsbD s)

/-- The logic reset of a panel: what R650 resets and R667 and R884 keep. -/
def Panel.logicReset (q : Panel) : Panel :=
  { q with
    ctl := setBit q.ctl 0 false
    memCtl := setBit q.memCtl 0 false
    array := { persistent := q.array.persistent, replays := q.array.replays, mismatches := q.array.mismatches }
    mem := { q.mem with spool := [], queues := [], stalled := [], batches := [], refreshed := [], maintained := [] }
    entryDue := 0
    homeSegs := []
    replayTacks := []
    tagWait := none
    tag := none
    dbg := {}
    state := .retraining
    resetRun := none }

/-- A panel reset goes on once the record of its detection is written, where completions are to point to it: sample,
completions, logic reset (R661). -/
def Device.panelGoOn (d : Device) (p : PanelId) : Device :=
  match (d.panel p).resetRun with
  | none => d
  | some r =>
    let cs := d.contexts.filter (fun c => c.panel = p)
    let seq := d.writtenSeq r.ticket
    if seq.isNone && !cs.isEmpty && d.mayComplete then d
    else
      let d := d.crashSample p r.cause r.ctx seq r.pos false false r.suspects
      let d := (maskStacks r.suspects).foldl (fun d s => d.loseStack p s) d
      let d := d.endCommand (fun c => c.panel = p) 0x0222
      let d := cs.foldl (fun d c => d.endBy 0x0222 (some r.ticket) c.id) d
      (d.updPanel p Panel.logicReset).updateGuard

/-- A panel reset starts with the record of its detection (R661, R678). A panel that is in a reset, or out of service,
starts no other. -/
def Device.panelReset (d : Device) (p : PanelId) (rec_ : ErrRec) (suspects : BitVec 4) : Device :=
  if (d.panel p).state.resets || d.reset.warm.isSome then d
  else
    let pos := d.position
    let (d, t) := (d.fencePanel p).raiseNeeded { rec_ with panel := p.val, outcome := 3 }
    let window := windowOf d.now 15 d.reset.panelWindow ++ [d.now]
    let d := { d with reset := { d.reset with
      panelWindow := window
      outDue := d.reset.outDue.or (if 3 ≤ window.length && d.escalationCode.isNone then some p else none) } }
    let d := d.updPanel p (fun q => { q with
      state := .fenced
      resets := satTo 16 (q.resets + 1)
      lastCause := rec_.reason
      suspects := suspects
      resetRun := some ⟨t, rec_.reason, rec_.ctx, pos, suspects⟩ })
    let d := (maskStacks suspects).foldl (fun d s => d.raise (suspectRecord p s)) d
    d.drainErr.panelGoOn p

/-- The device goes OUT_OF_SERVICE once the record of the reset that caused it is written (R679, R680). -/
def Device.outGoOn (d : Device) : Device :=
  match d.reset.outEnter with
  | none => d
  | some t =>
    if !d.contexts.isEmpty && d.mayComplete && (d.writtenSeq t).isNone then d
    else
      let d := (List.finRange 8).foldl (fun d p => d.fencePanel p) d
      let d := d.endCommand (fun _ => true) 0x0140
      let d := d.contexts.foldl (fun d c => d.endBy 0x0140 (some t) c.id) d
      let d := d.mapPanels (fun _ q => { q with state := .outOfService, resetRun := none })
      { d with reset := { d.reset with escalation := .outOfService, outEnter := none } }

/-- PANEL_RESET_DONE (R661, R665, R666, R679): retraining and the poison fill have ended. -/
def Device.panelResetDone (d : Device) (p : PanelId) (retrained : BitVec 4) : Device :=
  let q := d.panel p
  if q.state != .retraining then d
  else
    let failed := ~~~retrained
    let d := (maskStacks (failed &&& ~~~q.suspects)).foldl (fun d s => d.raise (suspectRecord p s)) d
    let d := (maskStacks failed).foldl (fun d s => d.loseStack p s) d
    let d := d.updPanel p (fun q => { q with
      state := .ready
      suspects := q.suspects ||| failed
      mem := { q.mem with trained := retrained } })
    let (d, m) := d.freeMech
    let (d, t) := d.raiseNeeded { reason := 0x0224, mech := m, outcome := 2, panel := p.val }
    let d := d.sendMsg ⟨3 + p.val, by omega⟩
    let d := if d.reset.outDue = some p && d.escalationCode.isNone then
        { d with reset := { d.reset with outDue := none, outEnter := some t } }
      else d
    d.drainErr.outGoOn

/-- A write of PANELp.RESET_CTL (R660); out of service it is not accepted (R679). -/
def Device.panelResetWrite (d : Device) (p : PanelId) (v : BitVec 64) : Device :=
  if !bitOf v 0 || d.escalationCode.isSome then d
  else
    let (d, m) := d.freeMech
    d.panelReset p { reason := 0x0220, mech := m, outcome := 3 } 0

/-! ## Device resets (R674 to R677, R884) -/

/-- A panel after a device reset: PANELp.RESET_STATUS.STATE takes its reset value, in SERVICE_REQUIRED too. -/
def Panel.afterReset (q : Panel) (cold : Bool) : Panel :=
  { state := .idle, resets := q.resets,
    mem := { present := q.mem.present, loaded := q.mem.loaded && !cold, retired := if cold then [] else q.mem.retired,
             stackStates := q.mem.stackStates } }

/-- The power controller after a device reset: every panel at level 0 with allowance 0, the predictor uncalibrated
(R720); its registers keep their values (R884). -/
def Power.afterReset (w : Power) : Power :=
  { w with panels := w.panels.map (fun q => { ceilFreq := q.ceilFreq, ceilAllow := q.ceilAllow, stackAllow := q.stackAllow, stackHot := q.stackHot, emergency := q.emergency })
           calibrated := false, calStitches := 0, sprinting := false, atFloor := false }

/-- The device after a reset (R650, R884). A reset that is `cold` loses memory and retire tables; afterwards every frame
is fresh (R677, R779). -/
def Device.afterReset (d : Device) (cold : Bool) (cause : Code) : Device :=
  { now := d.now, fresh := d.fresh, hostMem := d.hostMem
    -- guarantee mode that a debugger turned off stays off until the next cold reset (R866)
    regs := { guardCtl := setBit ({} : HubRegs).guardCtl 0 (cold || d.guarantee) }
    mem := if cold then [] else d.mem
    poison := if cold then [] else d.poison
    faulty := if cold then [] else d.faulty
    lostStacks := if cold then [] else d.lostStacks
    railsOut := d.railsOut, clocksOut := d.clocksOut
    frames := { entries := [], freshDefault := cold }
    panels := d.panels.map (fun q => q.afterReset cold)
    ports := d.ports.map (fun q => { lastSent := q.lastSent })
    fabric := { carts := d.fabric.carts.map (fun c => { present := c.present, genuine := c.genuine }) }
    err := { nextTicket := d.err.nextTicket }
    host := { link := if d.host.link = .heldInReset then .heldInReset else .detect }
    power := d.power.afterReset
    bodkin := d.bodkin
    thimble := if cold then {} else
      { cold := false, slot := d.thimble.slot, images := d.thimble.images, fallback := d.thimble.fallback,
        fusesRaised := d.thimble.fusesRaised, debugOpen := d.thimble.debugOpen, scopes := d.thimble.scopes,
        fromBoot := d.thimble.fromBoot }
    reset := { d.reset with
      escalation := if d.reset.escalation = .serviceRequired then .serviceRequired else .inService
      lastKind := if cold then 2 else 1, lastCause := cause, panelWindow := [], crashValid := 0, crashInStack := 0
      outDue := none, outEnter := none, warm := none } }

/-- Every port of the module goes down with a cause of MODULE (R536, R688). -/
def Device.portsDown (d : Device) : Device := (List.finRange 24).foldl (fun d n => d.portStop n .disabled true) d

/-- A device reset is counted: the second within 60 minutes of the previous one requires service (R678, R679). -/
def Device.countReset (d : Device) : Device :=
  let old := windowOf d.now 60 d.reset.deviceWindow
  { d with reset := { d.reset with
    deviceWindow := old ++ [d.now]
    deviceResets := satTo 16 (d.reset.deviceResets + 1)
    panelWindow := []
    escalation := if old.isEmpty then d.reset.escalation else .serviceRequired } }

/-- The record of a reset's cause. -/
def resetRecord (cause : Code) (mech : Nat) : ErrRec := { reason := cause, mech := mech, outcome := 3 }

/-- The whole module resets cold: rails off and on again (R677, R919). A cause is recorded after the next enable. -/
def Device.coldDown (d : Device) (cause : Code) (rec_ : Option ErrRec) : Device :=
  let d := d.portsDown.afterReset true cause
  match rec_ with
  | none => d
  | some r => (d.raiseNeeded r).1

/-- A warm reset goes on once the record of its cause is written, where completions are to point to it: samples,
completions, zeroisation, reset (R674 to R676, R759, R825). -/
def Device.warmGoOn (d : Device) : Device :=
  match d.reset.warm with
  | none => d
  | some w =>
    let seq := d.writtenSeq w.ticket
    let quiet := w.quiet || !d.mayComplete
    if !quiet && !d.contexts.isEmpty && seq.isNone then d
    else
      let service := d.reset.escalation = .serviceRequired
      let status : Code := if service then 0x0142 else 0x0141
      let d := if service then d
        else ((List.finRange 8).filter (fun p => (d.panel p).enabled)).foldl
          (fun d p => d.crashSample p w.cause 0 seq w.pos true (w.quiet || w.viaLink) (d.panel p).suspects) d
      let d := if quiet then d.contexts.foldl (fun d c => d.endContext c.id) d
        else d.contexts.foldl (fun d c => d.endBy status (some w.ticket) c.id) (d.endCommand (fun _ => true) status)
      if !w.zeroised then d.coldDown 0x0144 (some (resetRecord 0x0144 0x0F))
      else if !w.imageSame then d.coldDown w.cause none
      else
        let d := d.afterReset false w.cause
        -- a record that could not be written is written after the next enable
        if w.viaLink then (d.raiseNeeded (resetRecord w.cause 0x10)).1 else d

/-- A device warm reset starts (R674): ports down, every panel fenced, the record of the cause. -/
def Device.warmReset (d : Device) (rec_ : ErrRec) (quiet viaLink zeroised imageSame : Bool) : Device :=
  if d.reset.warm.isSome then d
  else
    let pos := d.position
    let d := d.countReset.portsDown
    let d := (List.finRange 8).foldl (fun d p => d.fencePanel p) d
    let d := d.mapPanels (fun _ q => { q with state := .fenced, resetRun := none })
    let (d, t) := if viaLink then (d, d.err.nextTicket) else d.raiseNeeded rec_
    let d := { d with reset := { d.reset with warm := some ⟨t, rec_.reason, quiet, viaLink, pos, zeroised, imageSame⟩ } }
    d.drainErr.warmGoOn

/-- SERVICE_REQUIRED is recorded in the non-volatile store (R681). -/
def State.keepService (s : State) : State :=
  if s.dev.reset.escalation = .serviceRequired then { s with vault := { s.vault with serviceRequired := true } } else s

/-- A warm reset of a powered package. -/
def State.warmReset (s : State) (rec_ : ErrRec) (quiet viaLink zeroised imageSame : Bool) : State :=
  if !s.pins.railsOn then s
  else (s.onDev (fun d => d.warmReset rec_ quiet viaLink zeroised imageSame)).keepService

/-- A cold reset of a powered package (R677, R678). The package stays off while RESET_N is low (R901). -/
def State.coldReset (s : State) (cause : Code) (rec_ : Option ErrRec) : State :=
  if !s.pins.railsOn then s
  else
    let s := (s.onDev (fun d => d.countReset.coldDown cause rec_)).keepService
    { s with pins := { s.pins with railsOn := s.pins.resetN, pwrGood := s.pins.resetN } }

/-- What waits for the error ring goes on: panel resets, a warm reset, OUT_OF_SERVICE. -/
def Device.resetsGoOn (d : Device) : Device :=
  ((List.finRange 8).foldl (fun d p => d.panelGoOn p) d).outGoOn.warmGoOn

/-- A write of HUB.RESET_CTL (R674, R677); not accepted in SERVICE_REQUIRED (R679). A cold reset takes precedence. -/
def State.resetCtlWrite (s : State) (v : BitVec 64) (zeroised imageSame : Bool) : State :=
  if s.dev.reset.escalation = .serviceRequired || !s.pins.railsOn || !(bitOf v 0 || bitOf v 1) then s
  else
    let (d, m) := s.dev.freeMech
    let s := { s with dev := d }
    if bitOf v 1 then s.coldReset 0x0143 (some (resetRecord 0x0143 m))
    else s.warmReset (resetRecord 0x0143 m) false false zeroised imageSame

/-! ## Heartbeats (R58, R683 to R686) -/

/-- The state code of PANELp.RESET_STATUS.STATE (R704). -/
def Panel.stateCode (q : Panel) : Nat := match q.state with
  | .idle => if q.enabled then 1 else 0
  | .fenced => 2
  | .resetting => 3
  | .retraining => 4
  | .ready => 5
  | .outOfService => 6

/-- The state code of HUB.RESET_STATUS.STATE (R704). -/
def Device.escalationState (d : Device) : Nat := match d.reset.escalation with
  | .inService => 0
  | .outOfService => 1
  | .serviceRequired => 2

/-- One bit per ring that a test picks. -/
def ringBits (f : RingId → Bool) : Nat :=
  ((List.finRange 4).map (fun n => if f n then 2 ^ n.val else 0)).sum

/-- The next descriptor of a ring waits on an event counter or a start position (R686). -/
def Device.ringWaits (d : Device) (c : Context) (n : RingId) : Bool :=
  ((c.ring? n).bind Ring.head?).any (fun x => !x.begun && (!c.waitMet x || (x.startEn && !d.reached x.startAt)))

/-- A progress entry (R686). -/
def Device.progressEntry (d : Device) (c : Context) : List Byte :=
  leBytes 2 c.id.toNat ++ leBytes 1 (ringBits (fun n => (c.ring? n).any (fun r => r.halted)))
    ++ leBytes 1 (ringBits (fun n => d.ringReady c n)) ++ leBytes 1 (ringBits (fun n => d.ringWaits c n))
    ++ leBytes 3 0 ++ leBytes 8 c.tacks

/-- A heartbeat line (R684, R685); the hub writes it for a panel that is not RUNNING or is halted (R868). -/
def Device.heartbeatLine (d : Device) (p : PanelId) (seq : Nat) : List Byte :=
  let q := d.panel p
  let scheduled := posNat (d.position / 4096) (512 * p.val) + (if d.needle.state = .lost then 2 ^ 63 else 0)
    + (if d.needle.state = .holdover then 2 ^ 62 else 0)
  let hub := q.stateCode != 1 || q.dbg.halted
  let late := decide (posNat (d.position / 4096) (512 * p.val) < d.position)
  let run := q.array.run.map (fun t => t.ref)
  leBytes 8 scheduled ++ leBytes 4 seq ++ leBytes 1 p.val ++ leBytes 1 q.stateCode ++ leBytes 1 d.escalationState
    ++ leBytes 1 ((if q.array.chain then 1 else 0) + (if hub then 2 else 0) + (if late then 4 else 0))
    ++ leBytes 8 (q.tackCount - q.hbBase) ++ leBytes 2 (run.elim 0 (fun r => r.ctx.toNat))
    ++ leBytes 1 (run.elim 0 (fun r => 128 + r.ring.val)) ++ leBytes 1 (d.residents p).length
    ++ leBytes 4 (run.elim 0 (fun r => r.seq % 2 ^ 32)) ++ leBytes 4 (d.err.nextSeq % 2 ^ 32) ++ leBytes 2 q.resets ++ leBytes 26 0

/-- HEARTBEAT (R54, R58, R683): at angle 512 × p of a stitch whose number is a multiple of 16, once, in every state but
DISABLED. -/
def Device.heartbeat (d : Device) (p : PanelId) : Device :=
  let q := d.panel p
  let stitch := d.position / 4096
  let due := d.needle.state != .disabled && stitch % 16 = 0 && decide (512 * p.val ≤ d.position % 4096) && q.hbStitch != some stitch
  if !d.enabled || !due then d
  else
    let seq := q.hbSeq + 1
    let d := d.updPanel p (fun q => { q with hbSeq := seq, hbStitch := some stitch })
    if !d.areaOn 2 then d
    else
      let base := fieldOf d.regs.hbBase 63 12 * 4096
      let cs := d.residents p
      let entries := cs.flatMap (fun c => d.progressEntry c)
      (d.hostWrite (base + 64 * p.val) (d.heartbeatLine p seq)).hostWrite (base + 512 + 512 * p.val)
        (entries ++ List.replicate (512 - entries.length) 0)

/-! ## The commands -/

/-- ERROR_RECORD_WRITE (R633, R635); what waits for the record goes on. -/
def execErrorRecordWrite (s : State) : Out := s.run (fun d => d.writeRecord.resetsGoOn)
/-- PANEL_RESET (R660). -/
def execPanelReset (panel : PanelId) (value : BitVec 32) (s : State) : Out :=
  s.run (fun d => d.panelResetWrite panel (value.setWidth 64))
/-- PANEL_RESET_DONE (R661). -/
def execPanelResetDone (panel : PanelId) (retrained : BitVec 4) (s : State) : Out := s.run (fun d => d.panelResetDone panel retrained)
/-- DEVICE_WARM_RESET (R674). -/
def execDeviceWarmReset (value : BitVec 32) (zeroised imageSame : Bool) (s : State) : Out :=
  .next (s.resetCtlWrite (value.setWidth 64 &&& 1) zeroised imageSame)
/-- DEVICE_COLD_RESET (R677). -/
def execDeviceColdReset (value : BitVec 32) (s : State) : Out := .next (s.resetCtlWrite (value.setWidth 64 &&& 2) true true)
/-- ESCALATION_WINDOW_EXPIRY (R678): resets that have left their window no longer count. -/
def execEscalationWindowExpiry (device : Bool) (s : State) : Out :=
  .next (s.onDev (fun d => { d with reset :=
    if device then { d.reset with deviceWindow := windowOf d.now 60 d.reset.deviceWindow }
    else { d.reset with panelWindow := windowOf d.now 15 d.reset.panelWindow } }))
/-- HEARTBEAT (R683). -/
def execHeartbeat (panel : PanelId) (s : State) : Out := s.run (fun d => d.heartbeat panel)

end Sys2Proof.Machine
end

