-- ==== Sys2Proof/Machine/Faults.lean ====
section
/-! DEFINITION. Detected faults (11_fault_coverage.md R624 to R645): replay, persistence, resets, and the handling of each
structure that holds an uncorrectable word. -/

namespace Sys2Proof

/-- The UNIT codes of R638. -/
def SramStructure.code : SramStructure → Nat
  | .spool => 0 | .bobbin => 1 | .gusset => 2 | .seamScratch => 3 | .accumulator => 4 | .dma => 5
  | .fabricBuffer => 6 | .yokeBuffer => 7 | .seqMemory => 8

/-- The structure of a place. The manual gives the chain and table stores no UNIT of their own; they lie in the Seam. -/
def SramPlace.code : SramPlace → Nat
  | .spoolLine _ => 0
  | .accUncommitted | .accCommitted => 4
  | .seamCommit | .chainStore _ _ | .tableStore _ _ => 3
  | .bobbinPage _ _ _ => 1
  | .gussetLine _ _ _ => 2
  | .dmaBuffer => 5
  | .fabricBuffer _ _ => 6
  | .yokeBuffer => 7
  | .seqMemory => 8

/-- The panel a checker belongs to; `none` for the hub. -/
def Checker.panel? : Checker → Option PanelId
  | .arrayChecksum p | .seamResidue p | .reduceResidue p | .seqLockstep p | .panelConfig p | .sramEcc p | .droop p
  | .clockMonitor p => some p
  | .hubLockstep | .hubConfig => none

/-- The mechanism of a checker (R638). -/
def Checker.mech : Checker → Nat
  | .arrayChecksum _ => 0x01
  | .seamResidue _ => 0x03
  | .reduceResidue _ => 0x04
  | .seqLockstep _ => 0x08
  | .hubLockstep => 0x09
  | .panelConfig _ | .hubConfig => 0x0A
  | .sramEcc _ => 0x02
  | .droop _ => 0x0C
  | .clockMonitor _ => 0x0D

end Sys2Proof

namespace Sys2Proof.Machine

/-! ## Replay and persistence (R124 to R127, R626 to R629) -/

/-- A discarded tack leaves the array: its rows keep their committed words (R114), and its half of the commit region is free. -/
def ArrayState.discardTack (a : ArrayState) (t : TackRun) : ArrayState :=
  let mine (b : BankSlot) : Bool := b.pass.any (fun p => p.ref = t.ref && p.pass = t.pass && p.inner.isSome = t.inner)
  { a with slots := a.slots.map (fun b => if mine b then { b with rows := discardRows b.rows } else b),
           region := a.region.set t.half {} }

/-- The entry cycles of a discarded product tack, as the counters take them (R839, R841). -/
def Device.countDiscarded (d : Device) (p : PanelId) (t : TackRun) : Device :=
  let mm := (d.desc? t.ref.ctx t.ref.ring t.ref.seq).any (fun x => (x.form t.inner).op? = some .matmul)
  if !mm then d
  else (d.count p { code := 0x003, ctx := t.ref.ctx } (1024 * t.len)).updCtx t.ref.ctx (fun c =>
    { c with pageCounts := c.pageCounts.set 1 (c.pageCounts[1] + 1024 * t.len) })

/-- The array's or the Seam's uncommitted tacks are discarded: a tack that entered beside `t`, and goes on from what it holds,
begins anew later (assumption log 157). The shadow plane abandons its load (R627). -/
def Device.discardArray (d : Device) (p : PanelId) (t : TackRun) : Device :=
  let a := (d.panel p).array
  let beside := if a.drain.isSome then a.run.toList else []
  let gone := if a.drain.any (fun u => u.pass = t.pass && u.first = t.first) then t :: beside else [t]
  let d := gone.foldl (fun (d : Device) u => d.countDiscarded p u) d
  let rest := if gone.length = 1 && a.drain.isSome then a.drain else none
  d.updPanel p (fun q => { q with array := { gone.foldl ArrayState.discardTack q.array with
    run := none, drain := rest, shadow := { q.array.shadow with tile := none }, shadowReady := false } })

/-- Put a discarded tack where it waits for its replay; one that replays already stays there. -/
def Device.holdForReplay (d : Device) (p : PanelId) (dma : Bool) (t : TackRun) : Device :=
  let held (old : Option TackRun) : Option TackRun := if t.replay then old else some t
  let d := if dma then d.updPanel p (fun q => { q with array := { q.array with dma := none, failedDma := held q.array.failedDma } })
    else ((d.discardArray p t).count p { code := 0x021, ctx := t.ref.ctx } 1).updPanel p (fun q => { q with array := { q.array with
      failedTack := held q.array.failedTack } })
  d.updPanel p (fun q => { q with
    replayTacks := (q.replayTacks ++ [q.tackCount]).filter (fun k => decide (q.tackCount < k + 1048576)) })

/-- More tacks were replayed than HUB.GUARD_CTL.REPLAY_LIMIT allows (R628): the panel is reset. -/
def Device.replayRate (d : Device) (p : PanelId) (rec_ : ErrRec) : Device :=
  if fieldOf d.regs.guardCtl 15 8 < (d.panel p).replayTacks.length then
    d.panelReset p { rec_ with reason := 0x0123, attr := rec_.attr ||| 2 } 0
  else d

/-- A check of a tack fails: the tack is discarded and replayed; when it was a replay the fault is persistent, and the panel
is reset with a further record (R124, R126, R320, R455, R626). -/
def Device.tackFailed (d : Device) (p : PanelId) (dma : Bool) (t : TackRun) (rec_ : ErrRec) (persistent : Code) : Device :=
  let rec_ := { rec_.blaming (blameDesc t.ref.ctx t.ref.ring t.ref.seq) with panel := p.val }
  if t.replay then
    let d := d.updPanel p (fun q => { q with array :=
      if rec_.mech = 0x01 then { q.array with persistent := satTo 16 (q.array.persistent + 1) } else q.array })
    d.panelReset p { rec_ with reason := persistent, attr := rec_.attr ||| 2 } 0
  else (d.holdForReplay p dma { t with fault := some (d.stampRec rec_) }).replayRate p rec_

/-- The tack of the array or the Seam whose results come next: the one that drains, else the running one. -/
def ArrayState.oldest (a : ArrayState) : Option TackRun := a.drain.or a.run

/-- The difference r − s that a comparison shows, in units of the grid of the named column's result (R160, assumption log
158). -/
def VectorCheck.shown (k : VectorCheck) (column : Nat) (diff : BitVec 64) : Dy := ⟨diff.toInt, (k.grids[column]?).getD k.least⟩

/-- The comparison of a vector of a tack fails (R130 to R133): the tack has that vector, and the difference is none that
passes. -/
def TackRun.checkFails (t : TackRun) (column entry : Nat) (diff : BitVec 64) : Bool :=
  match (t.checks[entry]?).bind id with
  | some k => !k.passes (k.shown column diff)
  | none => false

/-- TACK_CHECK_FAIL (R124, R126, R128 to R134, R638): the checksum, or the row parity, of a product tack. The parity is
checked as vectors enter, the checksum as results leave. -/
def Device.tackCheckFail (d : Device) (p : PanelId) (column entry : Nat) (diff : BitVec 64) (parity : Bool) : Device :=
  let a := (d.panel p).array
  match if parity then a.run.or a.drain else a.oldest with
  | none => d
  | some t =>
    if !(d.desc? t.ref.ctx t.ref.ring t.ref.seq).any (fun x => (x.form t.inner).op? = some .matmul)
        || !(parity || t.checkFails column entry diff) then d
    else
      let d := d.updPanel p (fun q => { q with array := { q.array with mismatches := satTo 24 (q.array.mismatches + 1) } })
      let detail := diff.toNat + 2 ^ 64 * (entry % 2 ^ 32) + (if parity then 2 ^ 96 else 0)
      d.tackFailed p false t { reason := 0x0201, mech := 0x01, outcome := 0, sub := column, detail := BitVec.ofNat 128 detail } 0x0202

/-- SEAM_RESIDUE_FAIL (R320, R624). -/
def Device.seamResidueFail (d : Device) (p : PanelId) (stage lane : Nat) : Device :=
  match (d.panel p).array.oldest with
  | none => d
  | some t => d.tackFailed p false t
      { reason := 0x0122, mech := 0x03, outcome := 0, unit := stage, sub := lane, detail := if t.replay then 2 else 1 } 0x0122

/-! ## Reduction and near-memory residues (R624) -/

/-- The bucket of a panel whose accumulation words hold an address of module memory: context, communicator, index. -/
def Device.bucketAt (d : Device) (p : PanelId) (mpa : Nat) : Option (Context × Comm × Nat) :=
  (d.contexts.filter (fun c => c.panel = p)).findSome? (fun c => c.comms.findSome? (fun k =>
    (k.buckets.zipIdx.find? (fun b =>
      (d.segmentsOf c.id b.1.acc (4 * sliceLen b.1.elements k.size)).any (fun s => s.1 ≤ mpa && mpa < s.1 + s.2))).map
        (fun b => (c, k, b.2))))

/-- The ALLREDUCE of a panel whose accumulation words hold an address. -/
def Device.allreduceAt (d : Device) (p : PanelId) (mpa : Nat) : Option RJob :=
  (d.fabric.colls.filter (fun r => (d.ctx? r.ctx).any (fun c => c.panel = p))).findSome? (fun r =>
    (d.rjob? r.ctx r.commId (.allreduce r.nth)).filter (fun j =>
      (d.segmentsOf j.ctx j.acc (4 * sliceLen j.elements j.comm.size)).any (fun s => s.1 ≤ mpa && mpa < s.1 + s.2)))

/-- REDUCE_RESIDUE_FAIL (R624): the addition is repeated, or the REDUCE or ALLREDUCE fails with 0x0312. -/
def Device.reduceResidueFail (d : Device) (p : PanelId) (wordAddr : Nat) (again : Bool) : Device :=
  let job := match d.bucketAt p wordAddr with
    | some b => d.rjob? b.1.id b.2.1.commId (.bucket b.2.2)
    | none => d.allreduceAt p wordAddr
  match job with
  | none => d
  | some j =>
    let bucket := match j.exch with
      | .bucket b => b
      | .allreduce _ => 0
    let d := d.raise (ErrRec.blaming
      { reason := 0x0124, mech := 0x04, outcome := if again then 1 else 0, panel := p.val, unit := bucket, sub := j.comm.slot,
        addr := wordAddr } (blameDesc j.ctx j.ring j.seq))
    if again then (d.reductionFailed j 0x0312).settle else d

/-- The context whose open Gusset entry has its home at an address. -/
def Device.homeOwner (d : Device) (p : PanelId) (mpa : Nat) : Option Context :=
  d.contexts.find? (fun c => c.panel = p && c.gusset.any (fun e =>
    (d.homeSegments c.id e).any (fun s => s.1 ≤ mpa && mpa < s.1 + s.2)))

/-- NEARMEM_RESIDUE_FAIL (R624): the addition is repeated, or the element's access takes the poison code. -/
def Device.nearmemResidueFail (d : Device) (p : PanelId) (mpa : Nat) (again : Bool) : Device :=
  let place := interleave (ppaOf mpa)
  let d := d.raise { reason := 0x0132, mech := 0x05, outcome := if again then 1 else 0, panel := p.val,
                     unit := 4 * p.val + place.stack, sub := place.channel, addr := mpa,
                     ctx := ((d.homeOwner p mpa).map (fun c => c.id)).getD 0 }
  if again then d.poisonStored [mpa / 64] else d

/-! ## Controllers (R624) -/

/-- A lockstep mismatch of a panel sequencer resets the panel. -/
def Device.seqLockstep (d : Device) (p : PanelId) (output : Nat) (fwPc : BitVec 64) : Device :=
  let b := match (d.panel p).array.run with
    | some t => blameDesc t.ref.ctx t.ref.ring t.ref.seq
    | none => {}
  let d := d.updPanel p (fun q => { q with lockstep := satTo 8 (q.lockstep + 1) })
  d.panelReset p (ErrRec.blaming { reason := 0x0126, mech := 0x08, outcome := 3, sub := output,
                                   detail := fwPc.setWidth 128 } b) 0

/-! ## SRAM (R625, R626) -/

/-- SRAM_CORRECTED (R625, R640). -/
def Device.sramCorrected (d : Device) (p : PanelId) (w : SramStructure) (bank addr bit : Nat) : Device :=
  (d.updPanel p (fun q => { q with sramCorr := satTo 32 (q.sramCorr + 1) })).raiseCoalesced
    { reason := 0x0120, mech := 0x02, outcome := 0, panel := p.val, unit := w.code, sub := bank, addr := addr,
      detail := BitVec.ofNat 128 bit }

/-- A descriptor fails with 0x0312 and points to the record of the fault that caused it (R642). -/
def Device.failWithRecord (d : Device) (ref : DescRef) (rec_ : ErrRec) : Device :=
  let (d, t) := d.raiseNeeded (rec_.blaming (blameDesc ref.ctx ref.ring ref.seq))
  match d.desc? ref.ctx ref.ring ref.seq with
  | none => d
  | some x => ((d.dropFill ref.ctx x).discardRuns (fun r => r = ref)).finish ref.ctx ref.ring x 0x0312 0 (some t)

/-- A packet between panels of this module waits in the Yoke buffers of a panel: those of the panel that it goes to. -/
def crossesYoke (p : PanelId) (ingress : Fin 25) (q : Packet) : Bool := ingress.val = 24 && q.head.dstPanel = p && q.head.srcPanel != p

/-- SRAM_UNCORRECTABLE (R626): each structure's own handling. -/
def Device.sramUncorrectable (d : Device) (p : PanelId) (place : SramPlace) (bank addr : Nat) : Device :=
  let d := d.updPanel p (fun q => { q with sramUncorr := satTo 8 (q.sramUncorr + 1) })
  let rec_ (outcome : Nat) (ctx : Code) : ErrRec :=
    { reason := 0x0121, mech := 0x02, outcome := outcome, panel := p.val, unit := place.code, sub := bank, addr := addr,
      detail := 0xFF, ctx := ctx }
  match place with
  | .spoolLine u =>
    match (d.panel p).mem.spool.find? (fun l => l.unit = u) with
    | none => d.raise (rec_ 0 0)
    | some l =>
      let d := d.spoolDrop (u * 256) 256
      if l.dirty then (d.raise (rec_ 1 0)).poisonAccesses (accessesOf (u * 256) 256) else d.raise (rec_ 0 0)
  | .accUncommitted | .seamCommit =>
    match (d.panel p).array.oldest with
    | some t => d.tackFailed p false t (rec_ 0 0) 0x0121
    | none => d.raise (rec_ 1 0)
  | .dmaBuffer =>
    match (d.panel p).array.dma with
    | some t => d.tackFailed p true t (rec_ 0 0) 0x0121
    | none => d.raise (rec_ 1 0)
  | .accCommitted =>
    match ((d.panel p).array.slots[0].pass).or (d.panel p).array.slots[1].pass with
    | some q => d.failWithRecord q.ref (rec_ 1 0)
    | none => d.raise (rec_ 1 0)
  | .bobbinPage ctx tag page =>
    match ((d.ctx? ctx).filter (fun c => c.resident)).bind (fun c => c.stash? tag.toNat) with
    | none => d.raise (rec_ 1 ctx)
    | some e =>
      if e.spill.isEmpty then
        (d.updStash ctx tag.toNat (fun e => { e with bad := 65536 * page :: e.bad })).raise (rec_ 1 ctx)
      else (d.updStash ctx tag.toNat (fun e => { e with bobbin := false, data := [], bad := [] })).raise (rec_ 0 ctx)
  | .gussetLine ctx param line => (d.updGusset ctx param (fun e =>
      if line < e.frontLines then { e with bad := line :: e.bad } else e)).raise (rec_ 1 ctx)
  | .chainStore ctx chain => (d.updCtx ctx (fun c =>
      if c.resident && c.chains.any (fun k => k.1 = chain) then { c with badChains := chain :: c.badChains } else c)).raise (rec_ 1 ctx)
  | .tableStore ctx slot => (d.updCtx ctx (fun c =>
      if c.resident && c.tables.any (fun k => k.1 = slot) then { c with badTables := slot :: c.badTables } else c)).raise (rec_ 1 ctx)
  | .fabricBuffer n vc =>
    let d := d.raise { rec_ 1 0 with panel := 0xFF }
    match (d.port n).queues[vc.val] with
    | [] => d
    | q :: rest => (d.updPort n (fun t => { t with queues := t.queues.set vc.val rest vc.isLt })).discarded q.pkt 0x0420
  | .yokeBuffer =>
    let d := d.raise (rec_ 1 0)
    match d.fabric.inbox.find? (fun q => crossesYoke p q.1 q.2) with
    | none => d
    | some q => ({ d with fabric := { d.fabric with inbox := d.fabric.inbox.erase q } }).discarded q.2 0x0420
  | .seqMemory => (d.raise (rec_ 3 0)).seqLockstep p 0 0

/-! ## Links (R625) -/

/-- YOKE_RETRY_LIMIT: the sending panel is reset; the hub's port is only detected. -/
def Device.yokeRetry (d : Device) (port : Fin 9) : Device :=
  let r : ErrRec := { reason := 0x0125, mech := 0x06, outcome := 1, unit := port.val, sub := 8 }
  if h : port.val < 8 then d.panelReset ⟨port.val, h⟩ r 0 else d.raise r

/-- HOST_LINK_ERROR (R640). -/
def Device.hostLinkError (d : Device) (lane : Nat) (replays : BitVec 32) : Device :=
  ({ d with host := { d.host with linkReplays := satTo 32 (d.host.linkReplays + 1) } }).raiseCoalesced
    { reason := 0x012F, mech := 0x10, outcome := 0, sub := lane, detail := replays.setWidth 128 }

/-! ## Clocks and rails (R624, R725) -/

/-- The running tacks of a panel are discarded and wait for the supply (R624); the rate rule of R628 applies. -/
def Device.supplyLost (d : Device) (p : PanelId) (rec_ : ErrRec) : Device :=
  let a := (d.panel p).array
  let d := match a.oldest with
    | some t => d.holdForReplay p false t
    | none => d
  let d := match a.dma with
    | some t => d.holdForReplay p true t
    | none => d
  if a.oldest.isSome || a.dma.isSome then d.replayRate p rec_ else d

/-- CLOCK_FAULT: a monitored domain leaves its frequency limit. KCLK is the reference and DCLK is not monitored. -/
def Device.clockFault (d : Device) (domain : Nat) (kHz : BitVec 32) : Device :=
  if 16 ≤ domain || d.clocksOut.contains domain then d
  else
    let r : ErrRec := { reason := 0x012B, mech := 0x0D, outcome := 1, unit := domain, detail := kHz.setWidth 128 }
    let d := { d with clocksOut := domain :: d.clocksOut }.raise r
    (clockPanels domain).foldl (fun d p => d.supplyLost p r) d

/-- CLOCK_RETURN. -/
def Device.clockReturn (d : Device) (domain : Nat) : Device := { d with clocksOut := d.clocksOut.filter (fun k => k != domain) }

/-- RAIL_FAULT (R624, R725): a rail leaves its window. -/
def Device.railFault (d : Device) (rail : Nat) (mV : BitVec 16) : Device :=
  if 16 ≤ rail || d.railsOut.any (fun r => r.1 = rail) then d
  else
    let r : ErrRec := { reason := 0x012A, mech := 0x0C, outcome := 1, panel := if rail < 8 then rail else 0xFF, unit := rail,
                        detail := mV.setWidth 128 }
    let d := { d with railsOut := (rail, d.now) :: d.railsOut }.raise r
    (railPanels rail).foldl (fun d p => d.supplyLost p r) d

/-- RAIL_RETURN: the discarded tacks replay. -/
def Device.railReturn (d : Device) (rail : Nat) : Device := { d with railsOut := d.railsOut.filter (fun r => r.1 != rail) }

/-- RAIL_WINDOW_TIMEOUT: 100 µs outside its window reset the rail's panels; the memory interface rail makes their stacks
suspect. -/
def Device.railTimeout (d : Device) (rail : Nat) : Device :=
  if d.railsOut.any (fun r => r.1 = rail && decide (100000 ≤ d.now - r.2)) then
    (railPanels rail).foldl (fun d p =>
      d.panelReset p { reason := 0x012A, mech := 0x0C, outcome := 3, unit := rail } (if rail = 13 then 15 else 0)) d
  else d

/-! ## Self-tests (R645) -/

/-- CHECKER_SELFTEST: a test that sees its failure costs at most 200 array cycles of the array (R645, R842), a free
number; one that does not see it resets the unit. -/
def State.selftest (s : State) (k : Checker) (seen : Bool) : State :=
  let rec_ : ErrRec := { reason := 0x012E, mech := k.mech, outcome := 3 }
  match k.panel? with
  | some p =>
    if !seen then s.onDev (fun d => d.panelReset p rec_ 0)
    else s.onDev (fun d => match k with
      | .arrayChecksum _ =>
        let (d, n) := drawFree d 8
        (d.count p { code := 0x005 } (1024 * (n % 201))).updPanel p (fun q => { q with entryDue := q.entryDue + n % 201 })
      | _ => d)
  | none => if seen then s else s.warmReset rec_ false false true true

/-- THIMBLE_SELF_CHECK_FAIL (R624, R650, R676): Thimble stops, and the device resets warm; a stopped Thimble cannot
complete the zeroisation, so that the reset becomes a cold one. -/
def State.thimbleStop (s : State) (engine : Nat) : State :=
  if s.dev.thimble.stopped || !s.pins.railsOn then s
  else
    let s := s.onDev (fun d => { d with thimble := { d.thimble with stopped := true, busy := false } })
    s.warmReset { reason := 0x012D, mech := 0x0F, outcome := 3, sub := engine } false false false true

/-! ## The commands -/

/-- TACK_CHECK_FAIL (R124). -/
def execTackCheckFail (panel : PanelId) (column entry : Nat) (diff : BitVec 64) (parity : Bool) (s : State) : Out :=
  s.run (fun d => d.tackCheckFail panel column entry diff parity)
/-- SEAM_RESIDUE_FAIL (R624). -/
def execSeamResidueFail (panel : PanelId) (stage lane : Nat) (s : State) : Out := s.run (fun d => d.seamResidueFail panel stage lane)
/-- REDUCE_RESIDUE_FAIL (R624). -/
def execReduceResidueFail (panel : PanelId) (wordAddr : Nat) (again : Bool) (s : State) : Out :=
  s.run (fun d => d.reduceResidueFail panel wordAddr again)
/-- NEARMEM_RESIDUE_FAIL (R624). -/
def execNearmemResidueFail (panel : PanelId) (elementAddr : Nat) (again : Bool) (s : State) : Out :=
  s.run (fun d => d.nearmemResidueFail panel elementAddr again)
/-- SEQ_LOCKSTEP_MISMATCH (R624). -/
def execSeqLockstepMismatch (panel : PanelId) (output : Nat) (fwPc : BitVec 64) (s : State) : Out :=
  s.run (fun d => d.seqLockstep panel output fwPc)
/-- HUB_LOCKSTEP_MISMATCH (R624, R674, R675): no completion is written. -/
def execHubLockstepMismatch (output : Nat) (fwPc : BitVec 64) (s : State) : Out :=
  .next (s.warmReset { reason := 0x0127, mech := 0x09, outcome := 3, sub := output, detail := fwPc.setWidth 128 } true false true true)
/-- CLOCK_FAULT (R624). -/
def execClockFault (domain : Fin 18) (kHz : BitVec 32) (s : State) : Out := s.run (fun d => d.clockFault domain.val kHz)
/-- CLOCK_RETURN (R624). -/
def execClockReturn (domain : Fin 18) (s : State) : Out := s.run (fun d => d.clockReturn domain.val)
/-- RAIL_FAULT (R725). -/
def execRailFault (rail : Nat) (mV : BitVec 16) (s : State) : Out := s.run (fun d => d.railFault rail mV)
/-- RAIL_RETURN (R624). -/
def execRailReturn (rail : Nat) (s : State) : Out := s.run (fun d => d.railReturn rail)
/-- RAIL_WINDOW_TIMEOUT (R624). -/
def execRailWindowTimeout (rail : Nat) (s : State) : Out := s.run (fun d => d.railTimeout rail)
/-- THIMBLE_SELF_CHECK_FAIL (R624). -/
def execThimbleSelfCheckFail (engine : Nat) (s : State) : Out := .next (s.thimbleStop engine)
/-- SRAM_CORRECTED (R625). -/
def execSramCorrected (panel : PanelId) (where_ : SramStructure) (bank addr bit : Nat) (s : State) : Out :=
  s.run (fun d => d.sramCorrected panel where_ bank addr bit)
/-- SRAM_UNCORRECTABLE (R626). -/
def execSramUncorrectable (panel : PanelId) (place : SramPlace) (bank addr : Nat) (s : State) : Out :=
  s.run (fun d => d.sramUncorrectable panel place bank addr)
/-- YOKE_RETRY_LIMIT (R625). -/
def execYokeRetryLimit (yokePort : Fin 9) (s : State) : Out := s.run (fun d => d.yokeRetry yokePort)
/-- HOST_LINK_ERROR (R625). -/
def execHostLinkError (lane : Nat) (replays : BitVec 32) (s : State) : Out := s.run (fun d => d.hostLinkError lane replays)
/-- CHECKER_SELFTEST (R645). -/
def execCheckerSelftest (checker : Checker) (seen : Bool) (s : State) : Out :=
  .next (if s.pins.railsOn then s.selftest checker seen else s)

end Sys2Proof.Machine
end

