-- ==== Sys2Proof/Machine/Power.lean ====
section
/-! DEFINITION. The power controller (13_power_and_thermal.md): setup, ramps, caps, temperature, sprint, droop, trips,
throttle counters. -/

namespace Sys2Proof.Machine

/-! ## Setup registers (R730, R748) -/

/-- Record a reason code of the power domain. -/
def Device.powerReason (d : Device) (c : Code) : Device := { d with power := { d.power with reason := c } }

/-- A record of the power controller that names no rail (R729). -/
def powerRecord (reason : Code) (outcome : Nat) : ErrRec := { reason := reason, mech := 0x0C, outcome := outcome, unit := 0xFFFF }

/-- Write a record of the power controller. -/
def Device.powerRaise (d : Device) (r : ErrRec) : Device := (d.powerReason r.reason).raise r

/-- The fields of PWR_CTL are in range (R748). -/
def powerCtlOk (v : BitVec 64) : Bool :=
  fieldOf v 19 16 ≤ 5 && fieldOf v 23 20 ≤ 5 && 1 ≤ fieldOf v 28 24 && fieldOf v 28 24 ≤ 16

/-- The fields of PWR_CAP are in range (R730). -/
def powerCapOk (v : BitVec 64) : Bool :=
  600 ≤ fieldOf v 12 0 && fieldOf v 12 0 ≤ 4300 && 1 ≤ fieldOf v 23 16 && fieldOf v 23 16 ≤ 100

/-- A write of PWR_CTL, PWR_CAP or PWR_RAMP (offsets 0, 8, 16); one that is out of range is ignored. -/
def Device.powerWrite (d : Device) (offset : Nat) (v mask : BitVec 64) : Device :=
  let w := d.power
  if offset = 0 then
    let new := mergeBits w.ctl v (mask &&& 0x1FFF0007)
    if powerCtlOk new then { d with power := { w with ctl := new } } else d.powerReason 0x0702
  else if offset = 8 then
    let new := mergeBits w.cap v (mask &&& 0xFF1FFF)
    if powerCapOk new then { d with power := { w with cap := new } } else d.powerReason 0x0701
  else if offset = 16 then { d with power := { w with ramp := mergeBits w.ramp v (mask &&& 0x803FFFFFFFFFFFFF) } }
  else d

/-- CAP_W in effect. -/
def Power.capW (w : Power) : Nat := fieldOf w.actCap 12 0
/-- SPRINT_EN in effect. -/
def Power.sprintEn (w : Power) : Bool := bitOf w.actCtl 1
/-- FIXED in effect. -/
def Power.fixed (w : Power) : Bool := bitOf w.actCtl 0

/-! ## Levels and targets (R708, R710, R713 to R716) -/

/-- The frequency of a level in steps of 40 MHz (R708). -/
def levelFreq (level : Nat) : Nat := if level = 6 then 24 else 10 + 2 * level

/-- The level that a frequency reads as: an intermediate step reads as the level below. -/
def freqLevel (f : Nat) : Nat := if 24 ≤ f then 6 else min 5 ((f - 10) / 2)

/-- The power controller changes at stitch edges (R718). -/
def Device.edgesRamp (d : Device) : Bool := match d.needle.state with
  | .disabled | .listen | .acquiring => false
  | _ => true

/-- The frequency that a panel is to reach before limits. -/
def Power.baseFreq (w : Power) : Nat :=
  if w.fixed then levelFreq (fieldOf w.actCtl 23 20)
  else if w.sprinting then 24 else levelFreq (fieldOf w.actCtl 19 16)

/-- The allowance that a panel is to reach before limits (R715, R718). -/
def Device.baseAllow (d : Device) (p : PanelId) : Nat :=
  if bitOf d.power.actRamp 63 then
    if d.edgesRamp && decide (fieldOf d.power.actRamp 47 0 ≤ d.needle.stitch) then min 32 (fieldOf d.power.actRamp 53 48) else 0
  else if (d.residents p).any (fun c => d.ctxReady c) then 32 else 0

/-- The targets under every limit (R731, R736, R737). With FIXED set the frequency is held: the ceilings act on the allowance
alone (R721). -/
def Device.targets (d : Device) (p : PanelId) : Nat × Nat :=
  let w := d.power
  let q := w.panels[p.val]
  if q.emergency then (10, 1)
  else (if w.fixed then w.baseFreq else min w.baseFreq (min w.modFreq q.ceilFreq), min (d.baseAllow p) (min w.modAllow (min q.ceilAllow q.stackAllow)))

/-- The frequency that a panel has, or has been told to take. -/
def PanelPower.nextFreq (q : PanelPower) : Nat := q.issued.getD q.freq

/-- The one change of a panel at an edge (R713, R714): down in frequency first, up in allowance first. The core rail rises when
a step upward is issued (R710). -/
def PanelPower.change (q : PanelPower) (t : Nat × Nat) : PanelPower :=
  if t.1 < q.freq then { q with issued := some (q.freq - 1), sinceChange := 0 }
  else if t.2 < q.allow then { q with allow := q.allow - 1, sinceChange := 0 }
  else if q.allow < t.2 then { q with allow := q.allow + 1, sinceChange := 0 }
  else if q.freq < t.1 then { q with issued := some (q.freq + 1), railMv := max q.railMv (railOf (q.freq + 1)), sinceChange := 0 }
  else q

/-- SLOPE_DIV, which counts as 16 until the predictor is calibrated (R720). -/
def Power.slope (w : Power) : Nat := if w.calibrated then fieldOf w.actCtl 28 24 else 16

/-- A stitch of a panel ends: its excess becomes debt (R712). -/
def PanelPower.carryDebt (q : PanelPower) (rampNs : Nat) : PanelPower :=
  { q with debt := q.used + q.debt - q.allow * (rampNs * (q.freq * 40) / 1000) / 32, used := 0,
           sinceChange := min 16 (q.sinceChange + 1) }

/-! ## The module ceiling (R731, R732) -/

/-- The enabled panels. -/
def Device.enabledPanels (d : Device) : List PanelId := (List.finRange 8).filter (fun p => (d.panel p).enabled)

/-- The predicted input power with the panels' points under a ceiling. -/
def Device.predicted (d : Device) (points : PanelPower → Nat × Nat) : Nat :=
  let ps := d.power.panels.toList.map points
  Config.predictedWatts (ps.map (fun x => x.1)) (ps.map (fun x => x.2))

/-- The largest of a list of numbers. -/
def maxOf (l : List Nat) : Nat := l.foldl max 0

/-- The module ceiling after one edge. -/
def Device.moveCeiling (d : Device) : Device :=
  let w := d.power
  let ps := d.enabledPanels.map (fun p => w.panels[p.val])
  if ps.isEmpty then d
  else
    let f := min w.modFreq (maxOf (ps.map PanelPower.nextFreq))
    let a := min w.modAllow (maxOf (ps.map (fun q => q.allow)))
    if w.capW < d.predicted (fun q => (q.nextFreq, q.allow)) then
      { d with power := if 10 < f && !w.fixed then { w with modFreq := f - 1 } else { w with modAllow := max 1 (a - 1) } }
    else
      let up := if w.modAllow < 32 then (w.modFreq, w.modAllow + 1) else (min 24 (w.modFreq + 1), w.modAllow)
      let point (q : PanelPower) : Nat × Nat := if up.2 = w.modAllow then (min up.1 (q.nextFreq + 1), q.allow)
        else (q.nextFreq, min up.2 (q.allow + 1))
      if d.predicted point ≤ w.capW && w.inputW * 100 < w.capW * 97 then
        { d with power := { w with modFreq := up.1, modAllow := up.2 } }
      else d

/-- CAP_AT_FLOOR holds: every enabled panel is at level 0 and the cap holds the allowance below 32 (R732). -/
def Device.floorHolds (d : Device) : Bool :=
  !d.enabledPanels.isEmpty && d.enabledPanels.all (fun p => d.power.panels[p.val].nextFreq = 10) && d.power.modAllow < 32

/-- CAP_AT_FLOOR begins or ends, with its record (R732). -/
def Device.judgeFloor (d : Device) : Device :=
  let holds := d.floorHolds
  let w := d.power
  let w := if holds && !w.atFloor then { w with atFloor := true, floorSince := d.now, floorUs := 0 }
    else if w.atFloor then { w with atFloor := holds, floorUs := (d.now - w.floorSince) / 1000 } else w
  let changed := holds != d.power.atFloor
  let d := { d with power := w }
  if changed then d.powerRaise (powerRecord 0x0705 2) else d

/-- Since when the window average has been above the cap at the floor, or at or below it (R733). -/
def Device.judgeCap (d : Device) : Device :=
  let w := d.power
  let above := w.atFloor && decide (w.capW < w.inputW)
  let met := decide (w.inputW ≤ w.capW)
  { d with power := { w with
    capMet := met
    aboveSince := if above then some (w.aboveSince.getD d.now) else none
    belowSince := if met then some (w.belowSince.getD d.now) else none } }

/-! ## Throttle reasons (R746, R747) -/

/-- The hottest stack of a panel in the power controller's readings. -/
def Power.stackTemp (w : Power) (p : PanelId) : Nat := maxOf ((w.stackTemps.toList.drop (4 * p.val)).take 4)

/-- The junction reading of a panel's die. -/
def Power.dieTemp (w : Power) (p : PanelId) : Nat := (w.dies.toList[p.val / 2]?).getD 0

/-- Throttle reason `n` holds the panel (R746). -/
def Device.heldBy (d : Device) (p : PanelId) (n : Nat) : Bool :=
  let w := d.power
  let q := w.panels[p.val]
  let tf := w.baseFreq
  let ta := d.baseAllow p
  (d.panel p).enabled && (match n with
    | 0 => ((!w.fixed && w.modFreq < tf) || w.modAllow < ta) && 10 < q.freq
    | 1 => (!w.fixed && q.ceilFreq < tf) || q.ceilAllow < ta || (q.emergency && 92 ≤ w.dieTemp p)
    | 2 => (d.panel p).mem.stackStates.toList.any (fun s => s.throttled) || q.stackAllow < ta || (q.emergency && 95 ≤ w.stackTemp p)
    | 3 => w.sprintEn && !w.fixed && !w.sprinting && 0 < w.integ
    | 4 => q.stretched
    | 5 => w.lockout && w.sprintEn
    | _ => w.atFloor)

/-- Bring the throttle reasons up to date after `us` microseconds under the old ones. -/
def Device.updThrottle (d : Device) (us : Nat) : Device :=
  let now (n : Nat) : BitVec 8 := BitVec.ofNat 8 (((List.finRange 8).map (fun p => if d.heldBy p n then 2 ^ p.val else 0)).sum)
  let thr := Vector.ofFn (fun i : Fin 7 =>
    let t := d.power.thr[i.val]
    let h := now i.val
    { events := if t.holds = 0 && h != 0 then satTo 16 (t.events + 1) else t.events
      durationUs := if t.holds = 0 then t.durationUs else satTo 48 (t.durationUs + us)
      holds := h : Throttle })
  let all := thr.toList.foldl (fun m t => m ||| t.holds) 0
  let changed := all != d.power.throttled
  let d := { d with power := { d.power with thr := thr, throttled := all } }
  if changed then (d.powerReason 0x0703).raiseCoalesced (powerRecord 0x0703 2) else d

/-! ## Sprint (R739, R741) -/

/-- The conditions of sprint but for the integrator's. -/
def Device.sprintMay (d : Device) : Bool :=
  let w := d.power
  w.sprintEn && !w.fixed && w.capW = 4300 && !w.lockout && w.dies.toList.all (fun t => t < 88) && w.hubTemp < 88
    && d.panels.toList.all (fun q => q.mem.stackStates.toList.all (fun s => !s.throttled))
    && !d.enabledPanels.isEmpty && d.enabledPanels.all (fun p => w.panels[p.val].allow = 32
      && (d.residents p).any (fun c => !c.isFiller && d.ctxReady c))

/-- Sprint ends. -/
def Device.endSprint (d : Device) : Device :=
  if !d.power.sprinting then d
  else { d with power := { d.power with sprinting := false, sprintMs := satTo 16 ((d.now - d.power.sprintSince) / 1000000) } }

/-- 1,400 J in units of 10 µJ (R739, R740). -/
def sprintJoules : Nat := 140000000

/-- Sprint has reached 2.0 s or 1,400 J. -/
def Device.sprintSpent (d : Device) : Bool :=
  d.power.sprinting && (sprintJoules ≤ d.power.integ || decide (2000000000 ≤ d.now - d.power.sprintSince))

/-- Sprint at a stitch edge: it begins when the integrator reads 0 J. -/
def Device.sprintEdge (d : Device) : Device :=
  if d.power.sprinting then (if !d.sprintMay || d.sprintSpent then d.endSprint else d)
  else if d.sprintMay && d.power.integ / 100000 = 0 then
    { d with power := { d.power with sprinting := true, sprintSince := d.now } }
  else d

/-! ## Temperature at a stitch edge (R736 to R738) -/

/-- The throttle ceilings of a panel after an edge. -/
def PanelPower.throttleStep (q : PanelPower) (die stack : Nat) (fixed : Bool) : PanelPower :=
  let q := if 95 ≤ die then
      if fixed then { q with ceilAllow := min q.ceilAllow q.allow - 1 } else { q with ceilFreq := max 10 (min q.ceilFreq q.nextFreq - 1) }
    else if die < 92 then
      if q.ceilAllow < 32 then { q with ceilAllow := q.ceilAllow + 1 } else { q with ceilFreq := min 24 (q.ceilFreq + 1) }
    else q
  let hot := decide (97 ≤ stack) || (q.stackHot && decide (95 < stack))
  let q := { q with stackHot := hot }
  if hot then { q with stackAllow := min q.stackAllow q.allow - 1 }
  else if stack < 95 then { q with stackAllow := min 32 (q.stackAllow + 1) } else q

/-! ## The ramp step (R713, R718, R748) -/

/-- Every enabled panel is at full allowance and at its frequency: a stitch that calibrates the predictor (R720). -/
def Device.calibrates (d : Device) : Bool :=
  !d.enabledPanels.isEmpty && d.enabledPanels.all (fun p =>
    d.power.panels[p.val].allow = 32 && d.power.panels[p.val].freq = (d.targets p).1)

/-- The ramp step: setup registers take effect, debts carry over, ceilings move, and every enabled panel changes by at
most one step. A panel whose issued step waits gets no other (R728). -/
def Device.rampStep (d : Device) : Device :=
  let ns := d.rampNs
  let cal := d.calibrates
  let w := d.power
  let n := if w.calibrated || !cal then 0 else w.calStitches + 1
  let d := { d with power := { w with
    actCtl := w.ctl, actCap := w.cap, actRamp := w.ramp, lastStep := d.now
    calStitches := n, calibrated := w.calibrated || decide (16 ≤ n)
    panels := w.panels.map (fun (q : PanelPower) => q.carryDebt ns) } }
  let d := d.enabledPanels.foldl (fun (d : Device) p => d.updPower p (fun q =>
    q.throttleStep (d.power.dieTemp p) (d.power.stackTemp p) d.power.fixed)) d
  let d := d.sprintEdge.moveCeiling
  let d := d.enabledPanels.foldl (fun (d : Device) p =>
    let t := d.targets p
    d.updPower p (fun q => if q.issued.isSome || q.sinceChange < d.power.slope then q else q.change t)) d
  (d.judgeFloor.judgeCap).updThrottle 0

/-- POWER_RAMP_STEP (R713): the step of the current stitch, once. -/
def Device.rampDue (d : Device) : Bool :=
  d.edgesRamp && (decide (d.power.lastStep + d.needle.tick < d.now) || d.power.lastStep = 0)

/-! ## Measurements (R740, R745) -/

/-- A monitored rating is exceeded (R619): input voltage, junction or stack temperature. -/
def Device.judgeRatings (d : Device) : Device :=
  let w := d.power
  let out := w.inputOut || w.dies.toList.any (fun t => 105 < t) || 105 < w.hubTemp || w.stackTemps.toList.any (fun t => 105 < t)
  { d with err := { d.err with ratingsExceeded := out } }.updateGuard

/-- POWER_SAMPLE (R718, R730, R740, R745, R746): the measurement of 10 µs. -/
def Device.powerSample (d : Device) (watts mV : Nat) : Device :=
  let w := d.power
  let samples := (watts :: w.samples).take (fieldOf w.actCap 23 16 * 100)
  let integ := if 3600 < watts then w.integ + (watts - 3600) else if w.sprinting then w.integ else w.integ - 140
  let out := mV < 40000 || 56000 < mV
  let d := { d with power := { w with
    watts := watts, samples := samples, inputW := samples.sum / samples.length, integ := integ, millivolts := mV, inputOut := out
    sprintUs := if w.sprinting then w.sprintUs + 10 else w.sprintUs } }
  let d := if out && !w.inputOut then d.powerRaise { powerRecord 0x070D 2 with detail := BitVec.ofNat 128 (mV % 65536) } else d
  let d := (if d.sprintSpent then d.endSprint else d).judgeRatings.judgeFloor.judgeCap.updThrottle 10
  let d := if d.edgesRamp then d else d.rampStep
  match d.needle.state with
  | .disabled | .listen => if d.err.coalesceSince + 10000 ≤ d.now then d.flushCoalesced else d
  | _ => d

/-- ADMIT_HOLD_TIMER (R733). -/
def Device.holdTimer (d : Device) : Device :=
  let w := d.power
  let ms50 (t : Option Nat) : Bool := t.any (fun t => decide (50000000 ≤ d.now - t))
  if !w.admitHold && ms50 w.aboveSince then
    { d with power := { w with admitHold := true } }.powerRaise (powerRecord 0x0704 2)
  else if w.admitHold && ms50 w.belowSince then
    { d with power := { w with admitHold := false } }.powerRaise (powerRecord 0x0704 2)
  else d

/-! ## Droop (R723 to R728) -/

/-- DROOP_TRIP (R724, R726): the record of the stitch keeps the lowest voltage. -/
def Device.droopTrip (d : Device) (p : PanelId) (detector : Fin 16) (mV : BitVec 16) : Device :=
  let d := d.updPower p (fun q => { q with trips := q.trips ||| (1#16 <<< detector.val), stretched := true, clearSince := none })
  let d := (d.powerReason 0x0706).raiseCoalesced
    { reason := 0x0706, mech := 0x0C, outcome := 0, panel := p.val, unit := p.val, detail := mV.setWidth 128 }
  { d with err := { d.err with coalesced := d.err.coalesced.map (fun (r : ErrRec) =>
    if r.reason = 0x0706 && r.panel = p.val && mV.toNat < r.detail.toNat then { r with detail := mV.setWidth 128 } else r) } }.updThrottle 0

/-- DROOP_STRETCH_END (R724): 64 array cycles, stretched by 25 %, have passed since the last trip cleared. -/
def Device.stretchEnd (d : Device) (p : PanelId) : Device :=
  let q := d.power.panels[p.val]
  if !q.stretched then d
  else (d.updPower p (fun q => { q with trips := 0, stretched := false, clearSince := some (d.now - 2000 / q.freq) })).updThrottle 0

/-- FREQ_STEP_DEFERRED (R727): a deferred step takes effect at a tack boundary, once the panel is free of trips. -/
def Device.deferredStep (d : Device) (p : PanelId) : Device :=
  if d.power.panels[p.val].deferred && (d.panel p).array.run.isNone then d.takeFreqStep p else d

/-! ## Temperature samples and trips (R735 to R744) -/

/-- The package loses its rails: a reset counted in the 60-minute window, whose cause is recorded after the next enable
(R742 to R744). A current trip sends no DOWN. -/
def State.trip (s : State) (cause : Code) (down : Bool) : State :=
  if !s.pins.railsOn then s
  else
    let s := (s.onDev (fun d =>
      let d := if down then d.portsDown else d
      let d := (d.countReset.afterReset true cause).powerReason cause
      let d := (d.raiseNeeded { powerRecord cause 3 with unit := 0xFFFF }).1
      { d with reset := { d.reset with trip := some cause } })).keepService
    { s with pins := { s.pins with railsOn := false, pwrGood := false, thermtrip := true } }

/-- A panel enters or leaves a thermal emergency (R736 to R738). -/
def Device.judgeEmergency (d : Device) (p : PanelId) : Device :=
  let die := d.power.dieTemp p
  let stack := d.power.stackTemp p
  let q := d.power.panels[p.val]
  if !q.emergency && (101 ≤ die || 100 ≤ stack) then
    (d.updPower p (fun q => { q with emergency := true, issued := some 10 })).powerRaise { powerRecord 0x070A 2 with panel := p.val }
  else if q.emergency && die < 92 && stack < 95 then d.updPower p (fun q => { q with emergency := false, ceilFreq := 10, ceilAllow := 1 })
  else d

/-- The readings of a temperature sample. -/
def Device.keepTemps (d : Device) (dies : Vector (BitVec 8) 4) (hub : BitVec 8) (stackTemps : Vector (BitVec 8) 32) : Device :=
  { d with power := { d.power with dies := dies.map (fun t => t.toNat), hubTemp := hub.toNat,
                                   stackTemps := stackTemps.map (fun t => t.toNat) } }

/-- A sample calls for a thermal trip: a junction at 104 °C, a stack at 105 °C. -/
def Power.tooHot (w : Power) : Bool :=
  w.dies.toList.any (fun t => 104 ≤ t) || 104 ≤ w.hubTemp || w.stackTemps.toList.any (fun t => 105 ≤ t)

/-- Every sensor reads below 85 °C (R742). -/
def Power.allCool (w : Power) : Bool := w.dies.toList.all (fun t => t < 85) && w.hubTemp < 85 && w.stackTemps.toList.all (fun t => t < 85)

/-- A sample's effect on a powered package. -/
def Device.judgeTemps (d : Device) : Device :=
  let d := (List.finRange 8).foldl (fun d p => d.judgeEmergency p) d.judgeRatings
  (if d.power.sprinting && !d.sprintMay then d.endSprint else d).updThrottle 0

/-- CURRENT_TRIP (R743): the input switch opens. A package without its rails draws no such current. -/
def State.currentTrip (s : State) : State :=
  if !s.pins.railsOn then s
  else
    let s := s.trip 0x070C false
    { s with pins := { s.pins with inputSwitch := false } }

/-! ## Lifetime (R18, R741) -/

/-- LIFETIME_UPDATE (R741): powered time and sprint residency, rounded up to whole seconds, are stored, and the sprint budget is
judged. -/
def State.lifetime (s : State) : State :=
  let total := ceilDiv s.dev.power.sprintUs 1000000
  let v : Vault := { s.vault with
    poweredMin := satTo 32 (s.vault.poweredMin + 1)
    sprintSeconds := satTo 32 (s.vault.sprintSeconds + (total - s.dev.power.sprintCounted)) }
  let d := { s.dev with power := { s.dev.power with sprintCounted := total } }
  let secs := 60 * v.poweredMin
  let d := if !d.power.lockout && decide (5 * secs ≤ 100 * v.sprintSeconds) then
      { d with power := { d.power with lockout := true } }.powerRaise (powerRecord 0x0708 2)
    else if d.power.lockout && decide (1000 * v.sprintSeconds ≤ 45 * secs) then
      { d with power := { d.power with lockout := false } }.powerRaise (powerRecord 0x0709 2)
    else d
  { s with vault := v, dev := d.updThrottle 0 }

/-! ## The commands -/

/-- PWR_REG_WRITE (R748). -/
def execPwrRegWrite (offset size : Nat) (value : BitVec 64) (s : State) : Out :=
  s.run (fun d =>
    let base := offset / 8 * 8
    if offset % 8 = 4 then d.powerWrite base (value <<< 32) 0xFFFFFFFF00000000
    else if size = 4 then d.powerWrite base (value &&& 0xFFFFFFFF) 0xFFFFFFFF
    else d.powerWrite base value 0xFFFFFFFFFFFFFFFF)
/-- POWER_RAMP_STEP (R713). -/
def execPowerRampStep (s : State) : Out := s.run (fun d => if d.rampDue then d.rampStep else d)
/-- POWER_SAMPLE (R740). -/
def execPowerSample (watts millivolts : Nat) (s : State) : Out := s.run (fun d => d.powerSample watts millivolts)
/-- DROOP_TRIP (R724). -/
def execDroopTrip (panel : PanelId) (detector : Fin 16) (mV : BitVec 16) (s : State) : Out := s.run (fun d => d.droopTrip panel detector mV)
/-- DROOP_STRETCH_END (R724). -/
def execDroopStretchEnd (panel : PanelId) (s : State) : Out := s.run (fun d => d.stretchEnd panel)
/-- FREQ_STEP_DEFERRED (R727). -/
def execFreqStepDeferred (panel : PanelId) (s : State) : Out := s.run (fun d => d.deferredStep panel)
/-- CURRENT_TRIP (R743). -/
def execCurrentTrip (s : State) : Out := .next s.currentTrip
/-- ADMIT_HOLD_TIMER (R733). -/
def execAdmitHoldTimer (s : State) : Out := s.run Device.holdTimer
/-- SPRINT_LIMIT (R739). -/
def execSprintLimit (s : State) : Out := s.run (fun d => if d.sprintSpent then (d.endSprint).updThrottle 0 else d)
/-- LIFETIME_UPDATE (R741). -/
def execLifetimeUpdate (s : State) : Out := .next (if s.pins.railsOn then s.lifetime else s)

end Sys2Proof.Machine
end

