-- ==== Sys2Proof/Machine/Security.lean ====
section
/-! DEFINITION. Thimble (14_security.md): boot and measurement, firmware images, attestation, tenant keys, authorities,
debug unlock, the mailbox. -/

namespace Sys2Proof.Machine

/-! ## Measurement (R755 to R757) -/

/-- Extend a measurement register by an event whose content has a digest. -/
def extendDigest (m : BitVec 512) (type index : Nat) (digest : BitVec 512) : BitVec 512 :=
  Config.sha3 (digestBytes m ++ leBytes 1 type ++ leBytes 2 index ++ digestBytes digest)

/-- Change Thimble. -/
def Device.updThimble (d : Device) (f : Thimble → Thimble) : Device := { d with thimble := f d.thimble }

/-- Extend MEAS register `n` by an event. -/
def Device.measure (d : Device) (n : Fin 5) (type index : Nat) (digest : BitVec 512) : Device :=
  d.updThimble (fun t => { t with meas := t.meas.set n.val (extendDigest t.meas[n.val] type index digest) n.isLt })

/-- The security configuration record (R757). -/
def Device.configRecord (d : Device) : List Byte :=
  leBytes 4 d.regs.guardCtl.toNat ++ leBytes 1 d.err.guardBits.toNat ++ leBytes 1 (if d.host.ideActive then 1 else 0)
    ++ leBytes 1 (if bitOf d.regs.admitCtl 1 then 1 else 0) ++ leBytes 1 (if Config.steppingA1 then 1 else 0)
    ++ leBytes 1 d.escalationState ++ leBytes 55 0

/-! ## Firmware images (R760 to R763) -/

/-- The fuse counter of an image's class. -/
def Vault.svnOf (v : Vault) (f : FwImage) : Nat := if f.component = 0 then v.thimbleSvn else v.mainSvn

/-- The SVN and FUSE_SVN of an image are in range, and not below its fuse counter (R761). -/
def Vault.svnOk (v : Vault) (f : FwImage) : Bool :=
  v.svnOf f ≤ f.svn.toNat && f.svn.toNat ≤ 64 && f.fuseSvn.toNat ≤ f.svn.toNat

/-- An image is accepted (R761). -/
def Vault.accepts (v : Vault) (f : FwImage) : Bool := f.valid && v.svnOk f

/-- The image of a component in a set. -/
def imageOf (imgs : List FwImage) (component : Nat) : Option FwImage := imgs.find? (fun f => f.component.toNat = component)

/-- The images at the front of a payload, each a header and its body (R760); the number bounds them. -/
def parseImages : Nat → List Byte → Option (List FwImage)
  | 0, bs => if bs.isEmpty then some [] else none
  | n + 1, bs =>
    if bs.isEmpty then some []
    else
      let body := bytesField bs 16 8
      if bs.length < 4736 + body then none
      else
        let digest := (bs.drop 24).take 64
        let valid := bs.take 4 = ascii "MWH8" && digest = digestBytes (Config.sha3 ((bs.drop 4736).take body))
          && Config.mlDsaVerify Config.firmwareKey (Config.sha3 (bs.take 108)) ((bs.drop 108).take 4627)
        let img : FwImage := {
          component := BitVec.ofNat 8 (bytesField bs 4 1), version := BitVec.ofNat 16 (bytesField bs 6 2)
          svn := BitVec.ofNat 8 (bytesField bs 8 1), fuseSvn := BitVec.ofNat 8 (bytesField bs 9 1)
          digest := Config.sha3 (bs.take (4736 + body)), valid := valid }
        (parseImages n (bs.drop (4736 + body))).map (fun l => img :: l)

/-- A set holds each of the six components once. -/
def completeSet (imgs : List FwImage) : Bool := imgs.length = 6 && (List.range 6).all (fun c => (imageOf imgs c).isSome)

/-- The slot that did not boot. -/
def otherSlot (k : Fin 2) : Fin 2 := if k = 0 then 1 else 0

/-- The image set of a slot whose Thimble image is accepted. -/
def Vault.thimbleImage (v : Vault) (k : Fin 2) : Option FwImage :=
  (v.slots[k.val]).bind (fun imgs => (imageOf imgs 0).filter (fun f => v.accepts f))

/-! ## The boot (R758, R759, R763) -/

/-- A boot stops: the module stays in reset. -/
def Device.bootFailed (d : Device) : Device := d.updThimble (fun t => { t with failed := true })

/-- The slot of a boot: the one that is to boot, or else the other; `none` when neither is accepted. -/
def Vault.bootSlot (v : Vault) (first : Fin 2) : Option (Fin 2) :=
  if (v.thimbleImage first).isSome then some first
  else if (v.thimbleImage (otherSlot first)).isSome then some (otherSlot first) else none

/-- The lasers of present, genuine cartridges come on at the end of the boot (R490). -/
def Device.lasersOn (d : Device) : Device :=
  (List.finRange 8).foldl (fun d k => d.updCart k (fun c => { c with lasers := c.present && c.genuine && !d.removeAsked k, since := d.now })) d

/-- A module that powers up with the service record stays in SERVICE_REQUIRED (R681). -/
def Device.enterService (d : Device) (recorded : Bool) : Device :=
  if !recorded then d
  else { d with reset := { d.reset with escalation := .serviceRequired } }

/-- ROM starts: MEAS0 is extended (R756). -/
def Device.measureRom (d : Device) (v : Vault) : Device :=
  let seed := Config.sha3 (leBytes 32 Config.fuseSeed.toNat)
  d.measure 0 0x01 Config.romVersion (Config.sha3 (Config.romContent seed v.thimbleSvn v.mainSvn v.debugCount Config.steppingA1))

/-- Thimble verifies the other images in the order of R756, and measures each that it accepts; the first that it does not
accept stops the boot. -/
def Device.measureImages (d : Device) (v : Vault) (imgs : List FwImage) : List Nat → Device × Bool
  | [] => (d, true)
  | c :: cs => match (imageOf imgs c).filter (fun f => v.accepts f) with
    | none => (d, false)
    | some f => (d.measure 2 0x03 c f.digest).measureImages v imgs cs

/-- THIMBLE_BOOT (R758, R759, R763): its steps in order, until one fails. -/
def State.boot (s : State) (storeSound : Bool) : State :=
  let t := s.dev.thimble
  let v := s.vault
  if !s.pins.railsOn || t.booted || t.failed then s
  else
    let s := s.onDev (fun d => d.measureRom v)
    match v.bootSlot (if t.cold then v.boots else t.slot) with
    | none => s.onDev Device.bootFailed
    | some slot =>
      let imgs := (v.slots[slot.val]).getD []
      let d := s.dev.measure 1 0x02 slot.val (((imageOf imgs 0).map (fun f => f.digest)).getD 0)
      let (d, ok) := if storeSound then d.measureImages v imgs [1, 2, 3, 4, 5] else (d, false)
      let s := { s with dev := d }
      if !ok then s.onDev Device.bootFailed
      else
        let fallback := if t.cold then slot != v.boots else t.fallback
        s.onDev (fun d =>
          let d := d.updThimble (fun t => { t with
            booted := true, slot := slot, images := imgs, fallback := fallback, cold := false })
          let d := if fallback && t.cold then
              let (d, m) := d.freeMech
              d.raise { reason := 0x0820, mech := m, outcome := 2 }
            else d
          (d.enterService v.serviceRequired).lasersOn)

/-- The fuse counters rise after a boot that accepted every image and set the device enable once (R762). -/
def State.raiseFuses (s : State) : State :=
  let t := s.dev.thimble
  if !t.booted || t.fusesRaised then s
  else
    let top (f : FwImage → Bool) (old : Nat) : Nat := min 64 (maxOf (old :: (t.images.filter f).map (fun i => i.fuseSvn.toNat)))
    { s with
      vault := { s.vault with thimbleSvn := top (fun i => i.component = 0) s.vault.thimbleSvn
                              mainSvn := top (fun i => i.component != 0) s.vault.mainSvn }
      dev := s.dev.updThimble (fun t => { t with fusesRaised := true }) }

/-! ## Reports (R764, R765) -/

/-- The 5,440 bytes of an attestation report. -/
def Device.report (d : Device) (v : Vault) (type : Nat) (c : Option Context) (nonce : List Byte) (kemDigest : List Byte) : List Byte :=
  let t := d.thimble
  let bit (b : Bool) (n : Nat) : Nat := if b then 2 ^ n else 0
  let flags := bit t.debugOpen 0 + bit t.fromBoot 1 + bit (d.err.guardBits.getLsbD 0) 2
    + bit (d.reset.escalation = .serviceRequired) 3 + bit t.fallback 4 + bit d.host.ideActive 5 + bit v.debugFull 6
  let body := leBytes 2 1 ++ leBytes 1 type ++ leBytes 1 (if Config.steppingA1 then 1 else 0) ++ leBytes 4 flags
    ++ leBytes 4 v.thimbleSvn ++ leBytes 4 v.mainSvn ++ leBytes 2 d.modNum.toNat ++ leBytes 2 ((c.map (fun c => c.id.toNat)).getD 0)
    ++ leBytes 4 ((c.map (fun c => c.rights.toNat)).getD 0) ++ leBytes 4 (bit (c.any (fun c => c.confidential)) 0)
    ++ leBytes 4 v.debugCount ++ nonce ++ leBytes 32 deviceId.toNat ++ t.meas.toList.flatMap digestBytes
    ++ digestBytes ((c.map (fun c => c.measure)).getD 0) ++ leBytes 32 ((c.map (fun c => c.authority.toNat)).getD 0)
    ++ leBytes 8 ((c.map (fun c => c.jobTag.toNat)).getD 0) ++ leBytes 8 d.position ++ kemDigest ++ leBytes 144 0
  body ++ signDik (Config.sha3 body) ++ leBytes 45 0

/-! ## Requests (R764 to R770, R786 to R794) -/

/-- What a request leaves: the state, its result code, and its response. -/
structure MboxResult where
  state : State
  code : Code := 0
  bytes : List Byte := []

/-- Field of a request block. -/
abbrev reqField (req : List Byte) (off size : Nat) : Nat := bytesField req off size

/-- A pair is live: not yet 60 s old (R766). -/
def KemPair.live (k : KemPair) (now : Nat) : Bool := decide (now < k.created + 60000000000)

/-- The live pair of a slot. -/
def Device.kemPair? (d : Device) (slot : Nat) : Option KemPair := d.thimble.kem.find? (fun k => k.slot = slot && k.live d.now)

/-- Destroy the pair of a slot. -/
def Device.dropKem (d : Device) (slot : Nat) : Device := d.updThimble (fun t => { t with kem := t.kem.filter (fun k => k.slot != slot) })

/-- The encapsulation key of a pair. -/
def kemKey (draw : Nat) : List Byte := padTo 1568 (Config.kemPublic draw)

/-- The digest of a pair's encapsulation key. -/
def kemDigest (draw : Nat) : List Byte := digestBytes (Config.sha3 (kemKey draw))

/-- ATTEST (R764). -/
def State.attest (s : State) (req : List Byte) : MboxResult :=
  let id := BitVec.ofNat 16 (reqField req 2 2)
  let nonce := (req.drop 32).take 64
  if id = 0 then { state := s, bytes := s.dev.report s.vault 0 none nonce (leBytes 64 0) }
  else match s.dev.ctx? id with
    | none => { state := s, code := 0x0809 }
    | some c => { state := s, bytes := s.dev.report s.vault 1 (some c) nonce (leBytes 64 0) }

/-- KEY_OPEN (R766): a new pair, its report, its encapsulation key. -/
def State.keyOpen (s : State) (req : List Byte) : MboxResult :=
  let slot := reqField req 4 1
  if 16 ≤ slot then { state := s, code := 0x0801 }
  else
    let draw := s.dev.fresh
    let s := s.onDev (fun d => { (d.dropKem slot).updThimble (fun t => { t with kem := ⟨slot, draw, d.now⟩ :: t.kem }) with
      fresh := draw + 1 })
    let report := s.dev.report s.vault 2 none ((req.drop 32).take 64) (kemDigest draw)
    { state := s, bytes := report ++ kemKey draw }

/-- The binding of a key (R767). -/
def keyBinding (c : Context) (epoch tagBase : Nat) (digest : List Byte) : List Byte :=
  leBytes 2 c.id.toNat ++ leBytes 4 epoch ++ digestBytes c.recordDigest ++ digest.take 32 ++ leBytes 6 tagBase

/-- Decapsulate and unwrap a tenant key (R768). -/
def unwrapKey (c : Context) (pair : KemPair) (pay : List Byte) : Option (List Byte) :=
  let digest := kemDigest pair.draw
  (Config.kemDecaps pair.draw (pay.take 1568)).bind (fun ss =>
    let kek := (digestBytes (Config.sha3 (ss ++ ascii "MWH8-TENANT" ++ digest))).take 32
    Config.gcmOpen kek (leBytes 12 0) (keyBinding c (bytesField pay 1568 4) (bytesField pay 1576 8) digest)
      ((pay.drop 1584).take 32) ((pay.drop 1616).take 16))

/-- The new key becomes current and the current one previous (R769, R774). -/
def Device.installKey (d : Device) (c : Context) (pair : KemPair) (pay dk : List Byte) : Device :=
  let epoch := bytesField pay 1568 4
  let tagBase := bytesField pay 1576 8
  let (d, id) := drawFree d 63
  let binding := keyBinding c epoch tagBase (kemDigest pair.draw)
  d.updCtx c.id (fun c => { c with
    keys := ⟨epoch, dk, id, 0, tagBase⟩ :: c.keys.take 1
    measure := extendMeasure c.measure 0x14 (epoch % 65536) binding })

/-- KEY_INSTALL (R766 to R769): the slot's pair is destroyed, whatever the outcome. -/
def State.keyInstall (s : State) (req pay : List Byte) : MboxResult :=
  let slot := reqField req 4 1
  let form := slot < 16 && reqField req 20 4 = 1640 && bytesField pay 1572 4 = 0 && bytesField pay 1632 8 = 0
    && bytesField pay 1576 8 % 4096 = 0
  let pair := s.dev.kemPair? slot
  let s := s.onDev (fun d => d.dropKem slot)
  if !form then { state := s, code := 0x0801 }
  else
    match (s.dev.ctx? (BitVec.ofNat 16 (reqField req 2 2))).filter (fun c => c.confidential) with
    | none => { state := s, code := 0x0809 }
    | some c => match pair with
      | none => { state := s, code := 0x0806 }
      | some pair => match unwrapKey c pair pay with
        | none => { state := s, code := 0x0807 }
        | some dk =>
          if bytesField pay 1568 4 ≤ (c.keys.head?.map (fun k => k.epoch)).getD 0 then { state := s, code := 0x0808 }
          else { state := s.onDev (fun d => d.installKey c pair pay dk) }

/-- AUTH_REGISTER (R793). -/
def State.authRegister (s : State) (req pay : List Byte) : MboxResult :=
  let slot := reqField req 4 1
  if reqField req 20 4 != 2592 then { state := s, code := 0x0801 }
  else if 32 ≤ slot || s.dev.thimble.authorities.any (fun a => a.1 = slot) then { state := s, code := 0x0805 }
  else { state := s.onDev (fun d =>
    (d.updThimble (fun t => { t with authorities := t.authorities ++ [(slot, pay)] })).measure 4 0x06 slot (Config.sha3 pay)) }

/-- AUTH_REMOVE (R793). -/
def State.authRemove (s : State) (req : List Byte) : MboxResult :=
  let slot := reqField req 4 1
  match s.dev.thimble.authorities.find? (fun a => a.1 = slot) with
  | none => { state := s, code := 0x0805 }
  | some a => { state := s.onDev (fun d =>
      (d.updThimble (fun t => { t with authorities := t.authorities.filter (fun x => x.1 != slot) })).measure 4 0x07 slot
        (Config.sha3 a.2)) }

/-- A new debug challenge (R787). -/
def Device.newChallenge (d : Device) : Device × List Byte :=
  let bs := freeBytes d.fresh 32
  ({ d.updThimble (fun t => { t with challenge := some bs }) with fresh := d.fresh + 32 }, bs)

/-- A debug token is accepted (R786, R787). -/
def tokenOk (token challenge : List Byte) : Bool :=
  token.length = 4800 && (token.drop 8).take 32 = leBytes 32 deviceId.toNat && (token.drop 40).take 32 = challenge
    && Config.mlDsaVerify Config.debugAuthority (Config.sha3 (token.take 128)) ((token.drop 128).take 4627)

/-- The effect of an accepted unlock, in the order of R788. -/
def State.openDebug (s : State) (token : List Byte) : State :=
  let s := s.onDev (fun d =>
    let d := d.endCommand (fun c => c.confidential) 0x0814
    let d := (d.contexts.filter (fun c => c.confidential)).foldl (fun d c => d.endBy 0x0814 none c.id) d
    (d.updThimble (fun t => { t with kem := [], debugOpen := true })).measure 3 0x05 (bytesField token 2 2) (Config.sha3 token))
  { s with
    vault := { s.vault with debugCount := min 32 (s.vault.debugCount + 1), debugFull := s.vault.debugFull || s.vault.debugCount = 32 }
    dev := s.dev.updThimble (fun t => { t with scopes := t.scopes ||| BitVec.ofNat 3 (bytesField token 2 2) }) }

/-- DEBUG_UNLOCK (R787 to R790): the challenge serves once. -/
def State.unlock (s : State) (token : List Byte) : State × Code :=
  match s.dev.thimble.challenge with
  | none => (s, 0x080B)
  | some ch =>
    let s := s.onDev (fun d => d.updThimble (fun t => { t with challenge := none }))
    if tokenOk token ch then (s.openDebug token, 0) else (s, 0x080A)

/-- FW_STAGE (R763, R794): the set goes to the slot that did not boot. -/
def State.stageFw (s : State) (pay : List Byte) : MboxResult :=
  let k := otherSlot s.dev.thimble.slot
  let put (imgs : Option (List FwImage)) (boots : Fin 2) : State :=
    { s with vault := { s.vault with slots := s.vault.slots.set k.val imgs, boots := boots } }
  let bad (code : Code) : MboxResult := { state := put none s.dev.thimble.slot, code := code }
  match parseImages 6 pay with
  | none => bad 0x0803
  | some imgs =>
    if !completeSet imgs || imgs.any (fun f => !f.valid) then bad 0x0803
    else if imgs.any (fun f => !s.vault.svnOk f) then bad 0x0804
    else { state := put (some imgs) k }

/-! ## The mailbox (R791, R792, R795, R796) -/

/-- Thimble takes requests: it has booted, and no self-check stopped it (R624, R795). -/
def Thimble.serves (t : Thimble) : Bool := t.booted && !t.stopped

/-- A write of HUB.SEC_MBOX_CTL (R791). -/
def Device.mboxGo (d : Device) (v : BitVec 64) : Device :=
  if !bitOf v 0 || !d.thimble.serves then d
  else if d.thimble.busy then d.updThimble (fun t => { t with reason := 0x0802 })
  else d.updThimble (fun t => { t with busy := true, mboxAddr := fieldOf d.regs.secMboxAddr 63 6 * 64 })

/-- A request block is well formed, whatever it asks. -/
def reqWellFormed (req : List Byte) : Bool :=
  1 ≤ reqField req 0 1 && reqField req 0 1 ≤ 9 && reqField req 1 1 = 0 && reqField req 5 3 = 0 && reqField req 8 8 % 64 = 0
    && reqField req 96 32 = 0

/-- The request's own work. -/
def State.request (s : State) (req pay : List Byte) : MboxResult :=
  match reqField req 0 1 with
  | 1 => { state := s, bytes := Config.certChain }
  | 2 => s.attest req
  | 3 => s.keyOpen req
  | 4 => s.keyInstall req pay
  | 5 => s.authRegister req pay
  | 6 => s.authRemove req
  | 7 => let r := s.dev.newChallenge; { state := { s with dev := r.1 }, bytes := r.2 }
  | 8 => if reqField req 20 4 = 4800 then let r := s.unlock pay; { state := r.1, code := r.2 } else { state := s, code := 0x0801 }
  | _ => s.stageFw pay

/-- The size of the response that a request is to return, for the check of its buffer. -/
def responseSize (req : Nat) : Nat := match req with
  | 1 => Config.certChain.length
  | 2 => 5440
  | 3 => 7008
  | 7 => 32
  | _ => 0

/-- The request ends: response, REASON, RESP_BYTES, message (R791, R822). -/
def MboxResult.deliver (r : MboxResult) (addr : Nat) : State :=
  let bytes := if r.code = 0 then r.bytes else []
  r.state.onDev (fun d =>
    let d := if bytes.isEmpty then d else d.hostWrite addr bytes
    (d.updThimble (fun t => { t with busy := false, reason := r.code, respBytes := ceilDiv bytes.length 64 })).sendMsg 2)

/-- The row of a request: the request in progress is processed when it is this one, or when it is malformed. -/
def State.mailbox (s : State) (k : Nat) : State :=
  if !s.pins.railsOn || !s.dev.thimble.busy || !s.dev.thimble.serves then s
  else
    let (d, req) := s.dev.hostFetch s.dev.thimble.mboxAddr 128
    let s := { s with dev := d }
    let addr := reqField req 8 8
    if !reqWellFormed req then MboxResult.deliver { state := s, code := 0x0801 } addr
    else if reqField req 0 1 != k then s
    else if reqField req 16 4 < responseSize k then MboxResult.deliver { state := s, code := 0x0801 } addr
    else
      let (d, pay) := if reqField req 20 4 = 0 then (s.dev, []) else s.dev.hostFetch (reqField req 24 8) (reqField req 20 4)
      (State.request { s with dev := d } req pay).deliver addr

/-! ## Frames (R782) -/

/-- FRAME_ZEROED (R782): the background zeroing of a fresh unowned frame ends. -/
def Device.frameZeroed (d : Device) (f : Nat) : Device :=
  let e := d.frames.get f
  if f * 2 ^ 21 < mpaEnd && (d.panel (panelOf (f * 2 ^ 21))).memOn && e.owners.isEmpty && e.fresh && !e.clean && !isCrashFrame f then
    { d.zeroFrame f with frames := d.frames.put { e with clean := true } }
  else d

/-! ## The commands -/

/-- CERT_CHAIN (R754). -/
def execCertChain (s : State) : Out := .next (s.mailbox 1)
/-- ATTEST (R764). -/
def execAttest (s : State) : Out := .next (s.mailbox 2)
/-- KEY_OPEN (R766). -/
def execKeyOpen (s : State) : Out := .next (s.mailbox 3)
/-- KEY_INSTALL (R769). -/
def execKeyInstall (s : State) : Out := .next (s.mailbox 4)
/-- AUTH_REGISTER (R793). -/
def execAuthRegister (s : State) : Out := .next (s.mailbox 5)
/-- AUTH_REMOVE (R793). -/
def execAuthRemove (s : State) : Out := .next (s.mailbox 6)
/-- DEBUG_CHALLENGE (R787). -/
def execDebugChallenge (s : State) : Out := .next (s.mailbox 7)
/-- DEBUG_UNLOCK (R788). -/
def execDebugUnlock (s : State) : Out := .next (s.mailbox 8)
/-- FW_STAGE (R763). -/
def execFwStage (s : State) : Out := .next (s.mailbox 9)
/-- KEM_PAIR_EXPIRY (R766). -/
def execKemPairExpiry (slot : Fin 16) (s : State) : Out :=
  s.run (fun d => if d.thimble.kem.any (fun k => k.slot = slot.val && !k.live d.now) then d.dropKem slot.val else d)
/-- THIMBLE_BOOT (R758). -/
def execThimbleBoot (storeSound : Bool) (s : State) : Out := .next (s.boot storeSound)
/-- FRAME_ZEROED (R782). -/
def execFrameZeroed (frame : Nat) (s : State) : Out := s.run (fun d => d.frameZeroed frame)

end Sys2Proof.Machine
end

