-- ==== Sys2Proof/Machine/HostLink.lean ====
section
/-! DEFINITION. The host link (15_host_attachment.md): configuration space, HDM decoder, translations, failed host
accesses, link events, the device enable. -/

namespace Sys2Proof.Machine

/-- Change the host link. -/
def Device.updHost (d : Device) (f : HostLink → HostLink) : Device := { d with host := f d.host }

/-! ## Configuration space (R800 to R804) -/

/-- The value that a configuration dword reads as. -/
def Device.configRead (d : Device) (offset : Nat) : BitVec 32 :=
  let w := d.host.stored offset
  match offset with
  | 0x00 => 0x0A281FD7
  | 0x04 => (w &&& 0x0546) ||| 0x00100000
  | 0x08 => if Config.steppingA1 then 0x12000001 else 0x12000000
  | 0x0C => w &&& 0xFF
  | 0x10 => (w &&& 0xFC000000) ||| 4
  | 0x14 => w
  | 0x18 => (w &&& 0xFFFE0000) ||| 4
  | 0x1C => w
  | 0x20 => (w &&& 0xFFFF0000) ||| 4
  | 0x24 => w
  | 0x2C => (Config.configWord 0x2C 0 &&& 0xFFFF) ||| 0x00010000
  | 0x3C => w &&& 0xFF
  | 0x78 => (Config.configWord 0x78 0 &&& 0xFFFF0000) ||| (d.host.devControl &&& 0xFFFF)
  | 0xB4 => 4
  | 0xB8 => 0x8004
  | 0x154 => deviceId.setWidth 32
  | 0x158 => (deviceId >>> 32).setWidth 32
  | 0x204 => (w &&& 0x8000001F) ||| (Config.configWord 0x204 0 &&& 0x7FFFFFE0)
  | 0x308 => 0x00170000
  | 0x30C => w &&& 0x7FFF
  | 0x318 => 0x40
  | 0x31C => 3
  | _ => Config.configWord offset w

/-- A write of a configuration dword. Without ATS no translation is kept, without CXL.cache no line is held (R807, R813). -/
def Device.configWrite (d : Device) (offset : Nat) (v : BitVec 32) : Device :=
  d.updHost (fun h =>
    let h := { h with config := (offset, v) :: h.config.filter (fun c => c.1 != offset) }
    { h with translations := if h.atsOn then h.translations else []
             lines := if h.cacheEnabled then h.lines else [] })

/-- A configuration write may give the device CXL.cache again, and with it the lines that it holds (R434). -/
def Device.configTaken (d : Device) (offset : Nat) (v : BitVec 32) : Device :=
  let e := d.configWrite offset v
  if d.heldMode then e else e.holdAgain

/-- CONFIG_REQUEST (R803): Configuration Request Retry Status until the boot completes. -/
def Device.configRequest (d : Device) (offset : Nat) (write : Option (BitVec 32)) : Device :=
  let o := offset / 4 * 4
  if !d.hostUp || 4096 ≤ o then d
  else if !d.thimble.booted then d.updHost (fun h => { h with retryStatus := true, lastAnswer := none })
  else match write with
    | some v => (d.configTaken o v).updHost (fun h => { h with retryStatus := false, lastAnswer := none })
    | none => d.updHost (fun h => { h with retryStatus := false, lastAnswer := some (d.configRead o) })

/-- HDM_COMMIT (R818): a commit of the settings, or a decommit; a committed decoder that is locked keeps its settings. -/
def Device.hdmCommit (d : Device) (commit : Bool) (base size ways : Nat) (lock : Bool) : Device :=
  let k := d.host.hdm
  if !d.hostUp || !d.thimble.booted || (k.committed && (k.lockOnCommit || commit)) then d
  else if !commit then d.updHost (fun h => { h with hdm := { k with committed := false, error := false } })
  else
    let ok := size % 2 ^ 28 = 0 && 2 ^ 28 ≤ size && size ≤ 2 ^ 38 && ways = 1
    d.updHost (fun h => { h with hdm := { base := base, size := size, ways := ways, lockOnCommit := lock, committed := ok, error := !ok } })

/-- The answer of a Data Object Exchange request (R801, R820). Discovery answers in the published layout. -/
def doeBytes (obj : DoeObject) : List Byte :=
  match obj with
  | .discovery 0 => leBytes 4 0x01000001
  | .discovery 1 => leBytes 4 0x02010001
  | .discovery 2 => leBytes 4 0x03020001
  | .discovery 3 => leBytes 4 0x00021E98
  | .discovery _ => leBytes 4 0x0000FFFF
  | .spdm message _ => Config.spdmAnswer message
  | .cdat entry => Config.cdat entry
  | .other => []

/-- DOE_REQUEST (R801). IDE opens only on a link trained at 16 GT/s or more (R798). -/
def Device.doeRequest (d : Device) (obj : DoeObject) : Device :=
  if !d.hostUp || !d.thimble.booted then d
  else d.updHost (fun h => { h with
    doeAnswer := doeBytes obj
    ideActive := h.ideActive || (match obj with
      | .spdm _ opens => opens && decide (4 ≤ h.speed)
      | _ => false) })

/-- ATS_INVALIDATE (R808): the translations of a range go, and with them the lines held under them, which the device
translates and reads again. -/
def Device.atsInvalidate (d : Device) (addr size : Nat) : Device :=
  if !d.hostUp then d
  else
    let gone := d.host.lines.filter (fun l => rangesOverlap (l / 4096 * 4096) 4096 addr size)
    let d := d.updHost (fun h => { h with
      translations := h.translations.filter (fun t => !rangesOverlap (t * 4096) 4096 addr size)
      lines := h.lines.filter (fun l => !gone.contains l) })
    gone.foldl (fun (d : Device) l => (d.holdLine l).refreshLine l) d

/-! ## Failed host accesses (R809) -/

/-- Count a failure: a refused translation, or any other failed access. -/
def Device.countHostFault (d : Device) (refused : Bool) : Device :=
  d.updHost (fun h => if refused then { h with xlateFaults := satTo 16 (h.xlateFaults + 1) }
    else { h with accessFaults := satTo 16 (h.accessFaults + 1) })

/-- The record of a failed host access. -/
def Device.hostFaultRecord (d : Device) (addr : Nat) (b : Blame) : ErrRec :=
  ErrRec.blaming { reason := 0x0152, mech := 0x10, outcome := 1, addr := addr,
                   panel := ((d.ctx? b.ctx).map (fun c => c.panel.val)).getD 0xFF } b

/-- Count and record a failure that no completion points to. -/
def Device.hostFault (d : Device) (refused : Bool) (addr : Nat) (b : Blame) : Device :=
  (d.countHostFault refused).raise (d.hostFaultRecord addr b)

/-- Count and record a failure whose record a completion points to. -/
def Device.hostFaultNeeded (d : Device) (refused : Bool) (addr : Nat) (b : Blame) : Device × Nat :=
  (d.countHostFault refused).raiseNeeded (d.hostFaultRecord addr b)

/-- Set a bit of HUB.HOST_FAULT: the area is no longer written. -/
def Device.stopArea (d : Device) (bit : Nat) : Device := d.updHost (fun h => { h with fault := h.fault ||| (1#5 <<< bit) })

/-- A failure of an area that the device uses now. -/
def Device.areaFault (d : Device) (bit : Nat) (used refused : Bool) (addr : Nat) : Device :=
  if used && d.areaOn bit then (d.hostFault refused addr {}).stopArea bit else d

/-- The running descriptor's operand access failed. -/
def Device.operandFault (d : Device) (ctx : Code) (ring : RingId) (refused : Bool) (addr : Nat) : Device :=
  match (d.ring? ctx ring).bind Ring.running? with
  | none => d
  | some x =>
    let (d, t) := d.hostFaultNeeded refused addr (blameDesc ctx ring x.seq)
    ((d.dropFill ctx x).discardRuns (fun r => r.ctx = ctx && r.ring = ring && r.seq = x.seq)).finish ctx ring x 0x0511 addr (some t)

/-- The fetch of the next descriptor failed: it fails in ring order. Its USER_TAG was not read, so it is a free value. -/
def Device.fetchFault (d : Device) (ctx : Code) (ring : RingId) (refused : Bool) (addr : Nat) : Device :=
  match d.ring? ctx ring with
  | none => d
  | some r =>
    if !d.fetchable r then d
    else
      let (d, t) := d.hostFaultNeeded refused addr (blameDesc ctx ring r.next)
      let (d, tag) := drawFree d 16
      let x : Desc := { seq := r.next, raw := BitVec.ofNat 1024 (tag * 2 ^ 16), fetchPos := d.position, fetchedAt := d.now,
                        phase := .finished 0x0511, ticket := some t }
      d.updRing ctx ring (fun r => { r with queue := r.queue ++ [x], next := r.next + 1 })

/-- The oldest descriptor of a ring has finished and its completion may be written now (R467, R472). -/
def Device.completable (d : Device) (ctx : Code) (ring : RingId) : Option (Desc × Code) :=
  (d.ring? ctx ring).bind (fun r => r.queue.head?.bind (fun x => match x.phase with
    | .finished status => if r.halted || (d.ticketIndex x.ticket).isNone then none else some (x, status)
    | _ => none))

/-- The write of a completion, or of its counter's line, failed. -/
def Device.completionFault (d : Device) (ctx : Code) (ring : RingId) (refused : Bool) (addr : Nat) (line : Bool) : Device :=
  match d.completable ctx ring with
  | none => d
  | some (x, status) =>
    if line && !(x.signalEn && signals status) then d
    else (d.hostFault refused addr (blameDesc ctx ring x.seq)).completeHead ctx ring false (if line then .eventLine else .record)

/-- A doorbell line could not be read: it counts as unchanged, and one record stands for it until a read succeeds. -/
def Device.doorbellFault (d : Device) (ctx : Code) (ring : RingId) (refused : Bool) (addr : Nat) : Device :=
  match d.ring? ctx ring with
  | none => d
  | some r =>
    if r.doorbellFault then d.countHostFault refused
    else (d.hostFault refused addr (blameDesc ctx ring r.next)).updRing ctx ring (fun r => { r with doorbellFault := true })

/-- A waited host-counter line could not be read. -/
def Device.counterFault' (d : Device) (ctx : Code) (n : Nat) (refused : Bool) (addr : Nat) : Device :=
  if !d.waitedCounters.contains (ctx, n) then d
  else if d.host.counterFaults.contains (ctx, n) then d.countHostFault refused
  else (d.hostFault refused addr { ctx := ctx }).updHost (fun h => { h with counterFaults := (ctx, n) :: h.counterFaults })

/-- The next admission command reads a record and a setup block. -/
def Device.readsRecord (d : Device) : Bool :=
  (d.frontCommand).any (fun cmd => bytesField cmd 0 1 = 1 && bytesField cmd 8 4 = d.admitRing.next % 2 ^ 32 && !cmdReserved cmd)

/-- HOST_ACCESS_FAULT (R809): the named access, as its host part fails. -/
def State.hostAccessFault (s : State) (use : HostUse) (addr : Nat) (refused : Bool) : State :=
  if !s.pins.railsOn || !s.dev.hostUp then s
  else match use with
    | .operand c n => s.onDev (fun d => d.operandFault c n refused addr)
    | .fetch c n => s.onDev (fun d => d.fetchFault c n refused addr)
    | .completion c n => s.onDev (fun d => d.completionFault c n refused addr false)
    | .eventLine c n => s.onDev (fun d => d.completionFault c n refused addr true)
    | .errorRing => s.onDev (fun d => d.areaFault 0 d.enabled refused addr)
    | .admissionRing => s.onDev (fun d => d.areaFault 1 d.admitOn refused addr)
    | .heartbeat => s.onDev (fun d => d.areaFault 2 d.enabled refused addr)
    | .crash => s.onDev (fun d => d.areaFault 3 (fieldOf d.regs.crashBase 63 21 != 0) refused addr)
    | .dumpRing => s.onDev (fun d => d.areaFault 4 d.dumpOn refused addr)
    | .counterPage c => s.onDev (fun d => d.areaFault 4 ((d.ctx? c).any (fun k => k.rights.getLsbD 0)) refused addr)
    | .mailbox =>
      if s.dev.thimble.busy then
        MboxResult.deliver { state := s.onDev (fun d => d.hostFault refused addr {}), code := 0x0801 } 0
      else s
    | .admissionRecord =>
      if s.dev.readsRecord then s.onDev (fun d => (d.hostFault refused addr {}).takeCommand 1 false) else s
    | .retireTable p =>
      if (s.dev.panel p).mem.loadBusy then s.onDev (fun d => (d.hostFault refused addr {}).updPMem p PanelMem.loadFailed) else s
    | .doorbell c n => s.onDev (fun d => d.doorbellFault c n refused addr)
    | .hostCounter c n => s.onDev (fun d => d.counterFault' c n.val refused addr)

/-- Write 1 to bits of HUB.HOST_FAULT: their areas go on (R809). -/
def Device.hostFaultClear (d : Device) (v : BitVec 64) : Device :=
  let d := d.updHost (fun h => { h with fault := h.fault &&& ~~~(v.setWidth 5) })
  if d.heldMode then d.readAdmissionDb.readErrHead.readDumpHead else d

/-! ## Link events (R799, R823 to R826) -/

/-- A link that is not up. -/
def HostLink.lost (h : HostLink) (dst : LinkState) : HostLink :=
  { link := dst, xlateFaults := h.xlateFaults, accessFaults := h.accessFaults, linkReplays := h.linkReplays, messages := h.messages }

/-- HOST_LINK_UP (R799): the device trains only at the widths and speeds that it supports (R798). -/
def State.linkUp (s : State) (cxl : Bool) (width speed : Nat) : State :=
  let d := s.dev
  if s.pins.railsOn && s.pins.perstN && d.host.link = .detect && !d.thimble.failed && d.reset.warm.isNone
      && (width = 8 || width = 16) && 3 ≤ speed && speed ≤ 5 then
    s.onDev (fun d => d.updHost (fun h => { h with link := .l0, cxl := cxl, width := width, speed := speed }))
  else s

/-- The link goes down and a warm reset starts with a cause (R823, R825). -/
def State.linkReset (s : State) (cause : Code) (dst : LinkState) : State :=
  (s.onDev (fun d => d.updHost (fun h => { h with link := dst }))).warmReset (resetRecord cause 0x10) true true true true

/-- The link is in L0 or Recovery. -/
def State.linked (s : State) : Bool := s.pins.railsOn && s.dev.mayComplete

/-- PERST_ASSERT (R823): the link stays down until the release. Before the end of the boot it only keeps the link down. -/
def State.perstAssert (s : State) : State :=
  let s' := { s with pins := { s.pins with perstN := false } }
  if !s.pins.perstN || !s.pins.railsOn then s'
  else if s.dev.thimble.booted then s'.linkReset 0x0151 .heldInReset
  else s'.onDev (fun d => d.updHost (fun h => h.lost .heldInReset))

/-- PERST_RELEASE (R823): the link may train. -/
def State.perstRelease (s : State) : State :=
  let s' := { s with pins := { s.pins with perstN := true } }
  if s.dev.host.link = .heldInReset then s'.onDev (fun d => d.updHost (fun h => { h with link := .detect })) else s'

/-- LINK_RECOVERY (R823): requests are held while the link is in Recovery, and go out in order on the return to L0. -/
def Device.linkRecovery (d : Device) (enter : Bool) : Device :=
  if enter then (if d.hostUp then d.updHost (fun h => { h with link := .recovery }) else d)
  else if d.host.link = .recovery then
    let ws := d.host.heldWrites
    let ms := d.host.heldMessages
    let d := d.updHost (fun h => { h with link := .l0, heldWrites := [], heldMessages := [] })
    ms.foldl (fun (d : Device) m => d.sendMsg m) (ws.foldl (fun (d : Device) w => d.hostPut w.2.2 w.1 w.2.1) d)
  else d

/-! ## The device enable (R828, R829) -/

/-- Set REASON and BAD_REG of DEV_STATUS. -/
def Device.devReason (d : Device) (c : Code) (bad : Nat) : Device := d.updHost (fun h => { h with reason := c, badReg := bad })

/-- The checks of R828 in order, with their BAD_REG values (R888). -/
def Device.deviceChecks (d : Device) : Option (Code × Nat) :=
  let r := d.regs
  let size := d.errSize
  let ring := d.errBase
  let head := fieldOf r.errHeadLine 63 6 * 64
  let limit := fieldOf r.guardCtl 15 8
  let hb := fieldOf r.hbBase 63 12 * 4096
  let crash := fieldOf r.crashBase 63 21 * 2 ^ 21
  firstFailure [
    (d.thimble.booted, 0x0101, 0),
    (d.escalationCode.isNone, d.escalationCode.getD 0, 0xC001),
    (d.hostUp && (d.host.width = 16 || d.host.width = 8), 0x0103, 0),
    (d.host.busMaster, 0x0104, 0),
    (d.host.cacheEnabled || bitOf r.admitCtl 1, 0x0105, 0x4000),
    (!d.host.cacheEnabled || d.host.atsOn, 0x0106, 0),
    (ring != 0, 0x0110, 0xA002),
    (head != 0 && !rangesOverlap ring (64 * 2 ^ size) head 64, 0x0110, 0xA003),
    (6 ≤ fieldOf r.errCtl 12 8 && fieldOf r.errCtl 12 8 ≤ 16, 0x0110, 0xA004),
    (16 ≤ limit && limit ≤ 255, 0x0110, 0xA000),
    (hb != 0 && !rangesOverlap hb 8192 ring (64 * 2 ^ size) && !(crash != 0 && rangesOverlap hb 8192 crash (2 ^ 21)), 0x0111, 0xC002)]

/-- A passed enable takes effect: record numbers from 0, heartbeats from 0, MEAS3 (R633, R683, R756). A heartbeat whose
angle of this stitch has passed is not made up for. -/
def Device.enableDevice (d : Device) : Device :=
  let passed (p : PanelId) : Bool := d.needle.state != .disabled && decide (512 * p.val ≤ d.position % 4096)
  let d := { d with
    regs := { d.regs with devCtl := setBit d.regs.devCtl 0 true }
    err := { d.err with nextSeq := 0, head := 0 } }
  let d := d.mapPanels (fun p q => { q with
    hbSeq := 0, hbBase := q.tackCount, hbStitch := if passed p then some (d.position / 4096) else none })
  let d := (d.devReason 0 0).holdLine (fieldOf d.regs.errHeadLine 63 6 * 64)
  (d.measure 3 0x04 0 (Config.sha3 d.configRecord)).drainErr.resetsGoOn

/-- A block that keeps the device enable set (R829). -/
def Device.blocksActive (d : Device) : Bool :=
  d.admitOn || d.ports.toList.any (fun q => q.enabled) || d.panels.toList.any (fun q => q.enabled)

/-- A write of HUB.DEV_CTL. -/
def State.devCtlWrite (s : State) (v mask : BitVec 64) : State :=
  if !s.pins.railsOn || !bitOf mask 0 || bitOf v 0 = s.dev.enabled then s
  else if bitOf v 0 then
    match s.dev.deviceChecks with
    | some (c, b) => s.onDev (fun d => d.devReason c b)
    | none => (s.onDev Device.enableDevice).raiseFuses
  else if s.dev.blocksActive then s.onDev (fun d => { d with host := { d.host with reason := 0x0107 } })
  else s.onDev (fun d =>
    { d with regs := { d.regs with devCtl := setBit d.regs.devCtl 0 false } }.dropLine (fieldOf d.regs.errHeadLine 63 6 * 64))

/-! ## The commands -/

/-- DEVICE_ENABLE (R828). -/
def execDeviceEnable (value : BitVec 32) (s : State) : Out := .next (s.devCtlWrite (value.setWidth 64) 0xFFFFFFFF)
/-- DEVICE_DISABLE (R829). -/
def execDeviceDisable (value : BitVec 32) (s : State) : Out := .next (s.devCtlWrite (value.setWidth 64) 0xFFFFFFFF)
/-- CONFIG_REQUEST (R803). -/
def execConfigRequest (offset : Nat) (write : Option (BitVec 32)) (s : State) : Out := s.run (fun d => d.configRequest offset write)
/-- HDM_COMMIT (R818). -/
def execHdmCommit (commit : Bool) (base size ways : Nat) (lock : Bool) (s : State) : Out :=
  s.run (fun d => d.hdmCommit commit base size ways lock)
/-- ATS_INVALIDATE (R808). -/
def execAtsInvalidate (addr size : Nat) (s : State) : Out := s.run (fun d => d.atsInvalidate addr size)
/-- HOST_ACCESS_FAULT (R809). -/
def execHostAccessFault (use : HostUse) (addr : Nat) (refused : Bool) (s : State) : Out :=
  .next (s.hostAccessFault use addr refused)
/-- HOST_FAULT_CLEAR (R809). -/
def execHostFaultClear (value : BitVec 32) (s : State) : Out := s.run (fun d => d.hostFaultClear (value.setWidth 64))
/-- DOE_REQUEST (R801). -/
def execDoeRequest (obj : DoeObject) (s : State) : Out := s.run (fun d => d.doeRequest obj)
/-- PERST_ASSERT (R823). -/
def execPerstAssert (s : State) : Out := .next s.perstAssert
/-- PERST_RELEASE (R823). -/
def execPerstRelease (s : State) : Out := .next s.perstRelease
/-- HOT_RESET (R823). -/
def execHotReset (s : State) : Out := .next (if s.linked then s.linkReset 0x0151 .detect else s)
/-- LINK_DISABLE (R823). -/
def execLinkDisable (s : State) : Out := .next (if s.linked then s.linkReset 0x0151 .detect else s)
/-- D3HOT_ENTRY (R823, R824). -/
def execD3hotEntry (s : State) : Out := .next (if s.linked && s.dev.enabled then s.linkReset 0x0151 .detect else s)
/-- HOST_LINK_LOSS (R823). -/
def execHostLinkLoss (s : State) : Out := .next (if s.linked then s.linkReset 0x0150 .detect else s)
/-- LINK_RECOVERY (R823). -/
def execLinkRecovery (enter : Bool) (s : State) : Out := s.run (fun d => d.linkRecovery enter)
/-- HOST_LINK_UP (R799). -/
def execHostLinkUp (cxl : Bool) (width speed : Nat) (s : State) : Out := .next (s.linkUp cxl width speed)

end Sys2Proof.Machine
end

