-- ==== Sys2Proof/Machine/Counters.lean ====
section
/-! DEFINITION. Performance counters, tag records and counter dumps (16_counters_and_debug.md R832 to R858, R873). -/

namespace Sys2Proof.Machine

/-- Change the counters of the hub. -/
def Device.updCounters (d : Device) (f : Counters → Counters) : Device := { d with counters := f d.counters }

/-! ## PMC_CTL (R837, R873) -/

/-- A counter at 0. -/
def PmcCounter.cleared (c : PmcCounter) : PmcCounter := { c with val := 0, ovf := false, latched := none }

/-- A write of PMC_CTL of the hub or of a panel. The hub's scope is every counter of the module. -/
def Device.pmcCtlWrite (d : Device) (scope : PmcScope) (v mask : BitVec 64) : Device :=
  let clear := bitOf (v &&& mask) 1
  let clearPanel (q : Panel) : Panel := if clear then { q with pmc := q.pmc.map PmcCounter.cleared } else q
  match scope with
  | .hub =>
    let d := { d with regs := { d.regs with pmcCtl := mergeBits d.regs.pmcCtl v (mask &&& 1) } }
    if clear then (d.updCounters (fun k => { k with hub := k.hub.map PmcCounter.cleared })).mapPanels (fun _ q => clearPanel q) else d
  | .panel p => d.updPanel p (fun q => clearPanel { q with pmcCtl := mergeBits q.pmcCtl v (mask &&& 1) })

/-! ## Reading counters (R834, R878) -/

/-- The counters of a block. -/
def Device.pmcList (d : Device) (scope : PmcScope) : List PmcCounter := match scope with
  | .hub => d.counters.hub.toList
  | .panel p => (d.panel p).pmc.toList

/-- Change counter `n` of a block. -/
def Device.updPmc (d : Device) (scope : PmcScope) (n : Nat) (f : PmcCounter → PmcCounter) : Device :=
  match scope with
  | .hub => d.updCounters (fun k => if h : n < 32 then { k with hub := k.hub.set n (f k.hub[n]) h } else k)
  | .panel p => d.updPanel p (fun q => if h : n < 64 then { q with pmc := q.pmc.set n (f q.pmc[n]) h } else q)

/-- Counter `n` counts the wraps of the counter below it (R834). -/
def Device.chained (d : Device) (scope : PmcScope) (n : Nat) : Bool :=
  n % 2 = 1 && ((d.pmcList scope)[n]?).any (fun c => bitOf c.sel 62)

/-- A read of counter `n` latches its chained upper half (R834). -/
def Device.latchChain (d : Device) (scope : PmcScope) (n : Nat) : Device :=
  if d.chained scope (n + 1) then d.updPmc scope (n + 1) (fun c => { c with latched := some (BitVec.ofNat 64 c.word) }) else d

/-- The value that a read of counter `n` returns. -/
def Device.pmcValue (d : Device) (scope : PmcScope) (n : Nat) : BitVec 64 :=
  match (d.pmcList scope)[n]? with
  | some c => c.latched.getD (BitVec.ofNat 64 c.word)
  | none => 0

/-! ## Tag records (R849 to R851) -/

/-- A stamp's field: the ticks from the fetch, saturating; all ones for a stage that did not occur. -/
def stampField (from_ : Nat) (s : Option Nat) : Nat := match s with
  | some t => min (t - from_) 0xFFFFFFFE
  | none => 0xFFFFFFFF

/-- The 64 bytes of a tag record. -/
def TagRec.bytes (g : TagRec) : List Byte :=
  let saturated := g.stamps.any (fun s => s.any (fun t => decide (0xFFFFFFFE ≤ t - g.from_)))
  let stamps := (List.range 9).map (fun i => stampField g.from_ ((g.stamps[i]?).getD none))
  leBytes 2 g.ref.ctx.toNat ++ leBytes 1 g.ref.ring.val ++ leBytes 1 (g.flags + (if saturated then 16 else 0))
    ++ leBytes 4 (g.ref.seq % 2 ^ 32) ++ leBytes 4 g.index ++ leBytes 2 g.entries ++ leBytes 2 0 ++ leBytes 8 g.position
    ++ stamps.flatMap (fun s => leBytes 4 s) ++ leBytes 4 0xFFFFFFFF

/-- The tag's last stage has occurred: the completion for a descriptor's last tack, the commit for another. -/
def TagRec.ready (g : TagRec) : Bool := g.done && !g.placed && (!g.flags.testBit 3 || g.stamps.length = 9)

/-- A tagged tack that never commits, because its descriptor ended, is dropped. -/
def Device.staleTag (d : Device) (g : TagRec) : Bool :=
  !g.done && (match d.desc? g.ref.ctx g.ref.ring g.ref.seq with
    | some x => x.isFinished
    | none => true)

/-! ## Dumps (R852 to R858) -/

/-- The stitches between two snapshots (R852). -/
def Device.dumpEvery (d : Device) : Nat :=
  let k := fieldOf d.regs.dumpCtl 31 16
  if k * d.stitchNs < 10000 then k * ceilDiv 10000 (k * d.stitchNs) else k

/-- The records of the dump ring as a power of two, and its host address. -/
def Device.dumpSize (d : Device) : Nat := fieldOf d.regs.dumpCtl 11 8
/-- The host address of the dump ring. -/
def Device.dumpBase (d : Device) : Nat := fieldOf d.regs.dumpBase 63 6 * 64

/-- DUMP_RECORD_WRITE (R854, R855): the oldest waiting snapshot is written when the ring has room. -/
def Device.writeDump (d : Device) : Device :=
  let k := d.counters
  match k.waiting with
  | [] => d
  | (bytes, tags) :: rest =>
    if !d.dumpOn || !d.areaOn 4 || !d.mayComplete || decide (2 ^ d.dumpSize ≤ k.next - k.head) then d
    else
      let phase := phaseBit k.next d.dumpSize
      let record := bytes.take 3 ++ leBytes 1 phase ++ leBytes 4 (k.next % 2 ^ 32) ++ (bytes.drop 8).take 8
        ++ leBytes 4 (satTo 32 k.skippedSince) ++ bytes.drop 20
      let d := d.hostWrite (d.dumpBase + 5504 * (k.next % 2 ^ d.dumpSize)) record
      let d := d.updCounters (fun k => { k with waiting := rest, next := k.next + 1, skippedSince := 0 })
      d.mapPanels (fun p q => if tags.getLsbD p.val then { q with tag := none } else q)

/-- The block of a panel in a dump record (R856). -/
def Device.dumpPanel (d : Device) (p : PanelId) : List Byte :=
  let q := d.panel p
  let w := d.power.panels[p.val]
  let tag := match q.tag with
    | some g => if g.ready then g.bytes else List.replicate 64 0
    | none => List.replicate 64 0
  q.pmc.toList.flatMap (fun c => leBytes 8 c.word) ++ tag ++ leBytes 8 (q.tackCount - q.hbBase)
    ++ leBytes 1 (freqLevel w.freq) ++ leBytes 1 w.allow ++ leBytes 1 q.stateCode ++ leBytes 1 (d.residents p).length
    ++ List.replicate 52 0

/-- The 5,504 bytes of a snapshot (R856), with SEQ, PHASE and SKIPPED left to the write. -/
def Device.dumpBytes (d : Device) : List Byte :=
  let flags := (if d.needle.state = .lost then 1 else 0) + (if d.needle.state = .holdover then 2 else 0) + (if d.frozen then 4 else 0)
  let running := ((List.finRange 8).map (fun p => if (d.panel p).stateCode = 1 then 2 ^ p.val else 0)).sum
  leBytes 2 1 ++ leBytes 1 flags ++ leBytes 1 0 ++ leBytes 4 0 ++ leBytes 8 d.position ++ leBytes 4 0 ++ leBytes 1 running
    ++ leBytes 1 0 ++ leBytes 2 d.power.inputW ++ List.replicate 104 0 ++ d.counters.hub.toList.flatMap (fun c => leBytes 8 c.word)
    ++ (List.finRange 8).flatMap (fun p => d.dumpPanel p)

/-- The draw of a panel's next tagged tack after a snapshot (R849); records placed in the snapshot wait with it. -/
def Device.drawTags (d : Device) : Device :=
  let d := d.mapPanels (fun p q => { q with
    tagWait := if bitOf q.tagCtl 0 then some (Config.freeNat (d.fresh + p.val) % 2 ^ fieldOf q.tagCtl 7 4) else none
    tag := (q.tag.filter (fun g => !d.staleTag g)).map (fun g => if g.ready then { g with placed := true } else g) })
  { d with fresh := d.fresh + 8 }

/-- A snapshot (R846, R849, R852, R855): counter pages, the record, tags. One that finds two waiting is not taken. -/
def Device.takeSnapshot (d : Device) : Device :=
  let d := d.writeDump.updCounters (fun k => { k with lastDump := some (d.position / 4096) })
  if 2 ≤ d.counters.waiting.length then
    d.updCounters (fun k => { k with skipped := satTo 32 (k.skipped + 1), skippedSince := k.skippedSince + 1 })
  else
    let d := d.contexts.foldl (fun (d : Device) c => d.writePage c.id) d
    let tags := ((List.finRange 8).map (fun p => if (d.panel p).tag.any TagRec.ready then 2 ^ p.val else 0)).sum
    let bytes := d.dumpBytes
    (d.updCounters (fun k => { k with waiting := k.waiting ++ [(bytes, BitVec.ofNat 8 tags)] })).drawTags

/-- The current position is that of a snapshot that has not been taken (R852, R853). -/
def Device.snapshotDue (d : Device) : Bool :=
  let stitch := d.position / 4096
  let edge := if d.needle.state.runs then decide (d.needle.tick = 0) else decide (d.position % 4096 = 0)
  d.dumpOn && d.needle.state != .disabled && edge && d.counters.lastDump != some stitch && stitch % d.dumpEvery = 0

/-- The checks of R887 and R858 in order, with their BAD_REG values (R883, R888). -/
def Device.dumpChecks (d : Device) : Option (Code × Nat) :=
  let size := d.dumpSize
  let base := d.dumpBase
  let head := fieldOf d.regs.dumpHeadLine 63 6 * 64
  let crash := fieldOf d.regs.crashBase 63 21 * 2 ^ 21
  let apart (a n : Nat) : Bool := !rangesOverlap a n d.errBase (64 * 2 ^ d.errSize)
    && !rangesOverlap a n (fieldOf d.regs.hbBase 63 12 * 4096) 8192 && !(crash != 0 && rangesOverlap a n crash (2 ^ 21))
  let k := fieldOf d.regs.dumpCtl 31 16
  match d.escalationCode with
  | some c => some (c, 0xFF)
  | none => firstFailure [
      (d.enabled, 0x0162, 0xFF),
      (base != 0, 0x0160, 0x02), (head != 0, 0x0160, 0x03), (4 ≤ size && size ≤ 12, 0x0160, 0x01),
      (!rangesOverlap base (5504 * 2 ^ size) head 64, 0x0160, 0x03),
      (apart base (5504 * 2 ^ size), 0x0160, 0x02), (apart head 64, 0x0160, 0x03),
      (1 ≤ k && k ≤ 65535, 0x0161, 0x01)]

/-- A write of HUB.DUMP_CTL (R858, R873, R880 to R882). -/
def Device.dumpCtlWrite (d : Device) (v mask : BitVec 64) : Device :=
  let was := d.dumpOn
  let d := if was then d else { d with regs := { d.regs with dumpCtl := mergeBits d.regs.dumpCtl v (mask &&& 0xFFFF0F00) } }
  let head := fieldOf d.regs.dumpHeadLine 63 6 * 64
  if !bitOf mask 0 || bitOf v 0 = was then d
  else if was then { d with regs := { d.regs with dumpCtl := setBit d.regs.dumpCtl 0 false } }.dropLine head
  else match d.dumpChecks with
    | some (c, b) => d.updCounters (fun k => { k with reason := c, badReg := b })
    | none =>
      let d := { d with regs := { d.regs with dumpCtl := setBit d.regs.dumpCtl 0 true } }
      (d.updCounters (fun k => { k with reason := 0, badReg := 0, next := 0, head := 0, waiting := [], skippedSince := 0, lastDump := none })).holdLine head

/-! ## The commands -/

/-- PMC_CHAINED_READ (R834): counter `n - 1` is read, and the chained counter `n` is latched. -/
def execPmcChainedRead (scope : PmcScope) (n : Nat) (s : State) : Out :=
  s.run (fun d => if n % 2 = 1 then d.latchChain scope (n - 1) else d)
/-- PMC_CLEAR (R873). -/
def execPmcClear (scope : PmcScope) (value : BitVec 32) (s : State) : Out :=
  s.run (fun d => d.pmcCtlWrite scope (value.setWidth 64) 0xFFFFFFFF)
/-- PMC_FREEZE (R837). -/
def execPmcFreeze (scope : PmcScope) (value : BitVec 32) (s : State) : Out :=
  s.run (fun d => d.pmcCtlWrite scope (value.setWidth 64) 0xFFFFFFFF)
/-- COUNTER_DUMP_SNAPSHOT (R852). -/
def execCounterDumpSnapshot (s : State) : Out := s.run (fun d => if d.snapshotDue then d.takeSnapshot else d)
/-- DUMP_RECORD_WRITE (R855). -/
def execDumpRecordWrite (s : State) : Out := s.run Device.writeDump
/-- DUMP_ENABLE (R858). -/
def execDumpEnable (value : BitVec 32) (s : State) : Out := s.run (fun d => d.dumpCtlWrite (value.setWidth 64) 0xFFFFFFFF)

end Sys2Proof.Machine
end

