-- ==== Sys2Proof/Machine/Registers.lean ====
section
/-! DEFINITION. The register map (17_register_map.md): what each register of BAR0 reads as, what a write of it does, the
panel enable, configuration parity and shadow checks. -/

namespace Sys2Proof.Machine

/-! ## Fields -/

/-- A register's value from its fields: lowest bit, width, value. -/
def packFields (l : List (Nat × Nat × Nat)) : Nat := (l.map (fun f => f.2.2 % 2 ^ f.2.1 * 2 ^ f.1)).sum

/-- One bit as a number. -/
def bitNat (b : Bool) : Nat := if b then 1 else 0

/-- One bit per cartridge, panel or stack that a test picks. -/
def maskOf (n : Nat) (f : Fin n → Bool) : Nat := ((List.finRange n).map (fun i => if f i then 2 ^ i.val else 0)).sum

/-- Values of `w` bits side by side, the first lowest. -/
def sideBySide (w : Nat) : List Nat → Nat
  | [] => 0
  | v :: vs => v % 2 ^ w + 2 ^ w * sideBySide w vs

/-! ## Reading (R876, R877) -/

/-- The DEVICE block (R830). -/
def Device.readDevice (d : Device) (off : Nat) : Nat :=
  let h := d.host
  match off with
  | 0x00 => d.regs.devCtl.toNat
  | 0x08 => packFields [(48, 16, h.reason.toNat), (24, 24, h.badReg), (19, 1, bitNat h.atsOn), (18, 1, bitNat h.memEnabled),
      (17, 1, bitNat h.cacheEnabled), (16, 1, bitNat h.cxl), (8, 4, h.speed), (2, 6, h.width),
      (1, 1, bitNat d.thimble.booted), (0, 1, bitNat d.enabled)]
  | 0x10 => h.fault.toNat
  | 0x18 => packFields [(48, 16, h.xlateFaults), (32, 16, h.accessFaults), (0, 32, h.linkReplays)]
  | 0x20 => d.regs.hostIrq.toNat
  | 0x28 => h.lines.length
  | _ => 0

/-- The NEEDLE block (R68, R69). -/
def Device.readNeedle (d : Device) (off : Nat) : Nat :=
  let n := d.needle
  let r := d.regs
  match off with
  | 0x00 => r.needleCtl.toNat
  | 0x08 => r.needleCfg.toNat
  | 0x10 => r.needleJob.toNat
  | 0x18 => r.needleSrc.toNat
  | 0x20 => r.needleOut.toNat
  | 0x28 => r.needleLoad.toNat
  | 0x30 => d.position
  | 0x38 => r.needleLate.toNat
  | 0x40 => packFields [(16, 16, n.reason.toNat), (8, 8, n.badReg), (4, 4, n.hop), (0, 4, n.state.code)]
  | 0x48 =>
    let hold := if n.state = .holdover then (d.now - n.lastValid) / 1000 else n.holdUs
    packFields [(32, 32, hold), (16, 16, n.phase.toNat), (0, 16, n.freq.toNat)]
  | _ => 0

/-- The ADMIT block (R483). -/
def Device.readAdmission (d : Device) (off : Nat) : Nat :=
  let r := d.regs
  match off with
  | 0x00 => r.admitCtl.toNat
  | 0x08 => r.admitBase.toNat
  | 0x10 => r.admitCplBase.toNat
  | 0x18 => r.admitDb.toNat
  | 0x20 => packFields [(16, 16, d.admitRing.reason.toNat), (8, 8, d.admitRing.badReg), (0, 1, bitNat d.admitOn)]
  | 0x28 => r.admitPoll.toNat
  | 0x30 => packFields [(32, 16, d.contexts.length), (0, 9, (d.contexts.filter (fun c => c.resident)).length)]
  | _ => 0

/-- The FABRIC block (R547). SAFE: the cartridge's ports are drained and its lasers off. -/
def Device.readFabric (d : Device) (off : Nat) : Nat :=
  let f := d.fabric
  let carts (g : Cartridge → Bool) : Nat := maskOf 8 (fun k => g (d.cart k))
  let safe (k : CartId) : Bool := d.removeAsked k && !(d.cart k).lasers
  match off with
  | 0x00 => d.regs.fabCfg.toNat
  | 0x08 => d.regs.fabRouteBase.toNat
  | 0x18 => packFields [(40, 24, f.ageDiscards), (32, 8, f.refused), (16, 16, f.reason.toNat), (2, 1, bitNat f.standby.isSome),
      (1, 1, bitNat f.loadBusy), (0, 1, bitNat f.active.isSome)]
  | 0x20 => d.regs.lcCtl.toNat
  | 0x28 => packFields [(24, 8, carts (fun c => c.fault)), (16, 8, carts (fun c => c.ready)), (8, 8, maskOf 8 safe),
      (0, 8, carts (fun c => c.present))]
  | _ => 0

/-- The GUARD block (R646). -/
def Device.readGuard (d : Device) (off : Nat) : Nat :=
  let e := d.err
  match off with
  | 0x00 => d.regs.guardCtl.toNat
  | 0x08 => packFields [(16, 16, e.guardReason.toNat), (0, 8, e.guardBits.toNat)]
  | 0x10 => d.regs.errBase.toNat
  | 0x18 => d.regs.errHeadLine.toNat
  | 0x20 => d.regs.errCtl.toNat
  | 0x28 => packFields [(32, 32, e.nextSeq), (16, 16, e.lost), (11, 5, ceilDiv (e.queue.length - e.general) 64), (0, 7, e.general)]
  | _ => 0

/-- The RESET block (R704). -/
def Device.readReset (d : Device) (off : Nat) : Nat :=
  let r := d.reset
  match off with
  | 0x08 => packFields [(56, 8, (windowOf d.now 15 r.panelWindow).length), (48, 8, (windowOf d.now 60 r.deviceWindow).length),
      (32, 16, r.deviceResets), (16, 16, r.lastCause.toNat), (2, 2, r.lastKind), (0, 2, d.escalationState)]
  | 0x10 => d.regs.hbBase.toNat
  | 0x18 => d.regs.crashBase.toNat
  | 0x20 => packFields [(16, 8, r.crashDropped), (8, 8, r.crashInStack.toNat), (0, 8, r.crashValid.toNat)]
  | 0x28 => packFields [(32, 32, d.commit.abortStep.toNat), (16, 16, d.commit.abortReason.toNat), (0, 16, d.commit.abortLost.toNat)]
  | 0x30 => d.commit.abortStitch.toNat
  | _ => 0

/-- The POWER block (R748). -/
def Device.readPower (d : Device) (v : Vault) (off : Nat) : Nat :=
  let w := d.power
  let panels := w.panels.toList
  match off with
  | 0x00 => w.ctl.toNat
  | 0x08 => w.cap.toNat
  | 0x10 => w.ramp.toNat
  | 0x18 => packFields [(48, 16, w.reason.toNat), (35, 13, w.inputW), (24, 8, maskOf 8 (fun p => decide (20 < w.panels[p.val].freq))),
      (16, 8, w.throttled.toNat), (4, 1, bitNat w.calibrated), (3, 1, bitNat w.lockout), (2, 1, bitNat w.admitHold),
      (1, 1, bitNat w.atFloor), (0, 1, bitNat w.capMet)]
  | 0x20 => sideBySide 4 (panels.map (fun q => freqLevel q.freq))
  | 0x28 => sideBySide 8 (panels.map (fun q => q.allow))
  | 0x30 => w.integ / 100000 % 2 ^ 16
  | 0x38 => packFields [(32, 32, v.poweredMin), (0, 32, v.sprintSeconds)]
  | 0x78 => packFields [(32, 32, if w.atFloor then (d.now - w.floorSince) / 1000 else w.floorUs), (0, 16, w.sprintMs)]
  | 0x80 => sideBySide 8 w.dies.toList
  | _ =>
    match w.thr.toList[off / 8 - 8]? with
    | some t => if 0x40 ≤ off then packFields [(48, 16, t.events), (0, 48, t.durationUs)] else 0
    | none => 0

/-- Unowned frames outside the reserved crash regions that are not CLEAN (R782). -/
def FrameTable.dirty (t : FrameTable) : Nat :=
  1310712 - (t.entries.filter (fun e => !isCrashFrame e.index && (!e.owners.isEmpty || e.clean))).length

/-- The SEC block (R795, R796). -/
def Device.readSecurity (d : Device) (v : Vault) (off : Nat) : Nat :=
  let t := d.thimble
  match off with
  | 0x00 => d.regs.secMboxAddr.toNat
  | 0x10 => packFields [(48, 16, t.reason.toNat), (32, 16, t.respBytes), (7, 1, bitNat t.debugOpen), (6, 1, bitNat t.fallback),
      (5, 1, bitNat d.host.ideActive), (0, 1, bitNat t.busy)]
  | 0x18 => packFields [(48, 16, v.debugCount), (16, 8, v.mainSvn), (8, 8, v.thimbleSvn)]
  | 0x20 => deviceId.toNat % 2 ^ 64
  | 0x28 => deviceId.toNat / 2 ^ 64 % 2 ^ 64
  | 0x30 => deviceId.toNat / 2 ^ 128 % 2 ^ 64
  | 0x38 => deviceId.toNat / 2 ^ 192
  | 0x40 => packFields [(32, 21, d.frames.dirty), (0, 21, (d.frames.entries.filter (fun e => e.conf && !e.owners.isEmpty)).length)]
  | 0x48 => packFields [(16, 5, (t.kem.filter (fun k => k.live d.now)).length),
      (0, 16, (d.contexts.filter (fun c => c.confidential && !c.keys.isEmpty)).length)]
  | _ => 0

/-- The code of HUB.COMMIT_STATUS.STATE. -/
def CommitState.code : CommitState → Nat
  | .idle => 0 | .preparing => 1 | .voted => 2 | .decided => 3 | .uncertain => 4 | .split => 5

/-- The COMMIT block (R613). -/
def Device.readCommit (d : Device) (off : Nat) : Nat :=
  let k := d.commit
  match off with
  | 0x00 => packFields [(32, 32, k.lastStep.toNat), (16, 16, k.reason.toNat), (0, 4, k.state.code)]
  | 0x08 => packFields [(32, 32, k.aborts), (0, 32, k.commits)]
  | _ => 0

/-- The PMC block (R873). -/
def Device.readPmc (d : Device) (off : Nat) : Nat :=
  let k := d.counters
  match off with
  | 0x00 => d.regs.pmcCtl.toNat
  | 0x08 => d.regs.dumpCtl.toNat
  | 0x10 => d.regs.dumpBase.toNat
  | 0x18 => d.regs.dumpHeadLine.toNat
  | 0x20 => packFields [(32, 32, k.skipped), (16, 16, k.reason.toNat), (8, 8, k.badReg), (0, 1, bitNat d.dumpOn)]
  | 0x28 => d.regs.pmcPageBase.toNat
  | _ =>
    if 0x100 ≤ off && off < 0x200 then ((k.hub.toList[(off - 0x100) / 8]?).map (fun c => c.sel.toNat)).getD 0
    else if 0x200 ≤ off && off < 0x300 then (d.pmcValue .hub ((off - 0x200) / 8)).toNat else 0

/-- A PANELp block (R877). Shares and open entries are those of the resident contexts (R249, R269). -/
def Device.readPanel (d : Device) (p : PanelId) (off : Nat) : Nat :=
  let q := d.panel p
  let m := q.mem
  let a := q.array
  let cs := d.residents p
  let stacks_ := m.stackStates.toList
  match off with
  | 0x000 => q.ctl.toNat
  | 0x008 => packFields [(16, 16, q.reason.toNat), (8, 8, q.badReg), (0, 1, bitNat q.enabled)]
  | 0x400 => q.arrayCtl.toNat
  | 0x408 => packFields [(16, 16, a.reason.toNat), (2, 1, bitNat a.certFail), (1, 1, bitNat a.certDone), (0, 1, bitNat a.chain)]
  | 0x410 => packFields [(48, 16, a.persistent), (24, 24, a.replays), (0, 24, a.mismatches)]
  | 0x500 => packFields [(48, 16, q.exhausted), (32, 16, q.drops), (16, 16, q.spills), (0, 12, 1536 - (cs.map (fun c => c.bobbinPages)).sum)]
  | 0x508 => packFields [(32, 13, (cs.map (fun c => c.gusset.length)).sum), (0, 15, 16384 - (cs.map (fun c => c.gussetLines)).sum)]
  | 0x600 => packFields [(48, 16, q.permRange), (16, 9, (cs.map (fun c => c.tables.length)).sum), (0, 12, (cs.map (fun c => c.chains.length)).sum)]
  | 0x700 => q.schedCfg.toNat
  | 0x708 => packFields [(32, 32, q.fillerPreempts), (0, 6, cs.length)]
  | 0x800 => q.memCtl.toNat
  | 0x808 => packFields [(16, 16, m.reason.toNat), (8, 8, m.badReg), (4, 4, m.trained.toNat), (2, 1, bitNat m.loadBusy),
      (1, 1, bitNat m.loaded), (0, 1, bitNat q.memOn)]
  | 0x810 => q.memScrub.toNat
  | 0x818 => q.memRetireBase.toNat
  | 0x820 => q.memRetireCtl.toNat
  | 0x830 => packFields [(40, 4, sideBySide 1 (stacks_.map (fun s => bitNat s.throttled))),
      (32, 8, sideBySide 2 (stacks_.map (fun s => s.refresh))), (0, 32, sideBySide 8 (stacks_.map (fun s => s.temp)))]
  | 0x838 => packFields [(48, 16, m.uncorr), (0, 48, m.corr)]
  | 0x840 => q.memEccThresh.toNat
  | 0x848 => packFields [(31, 1, bitNat m.uePage.isSome), (0, 23, m.ueLast)]
  | 0x850 => q.spoolCfg.toNat
  | 0x900 => packFields [(56, 8, q.lockstep), (40, 16, q.seamReplays), (32, 8, q.sramUncorr), (0, 32, q.sramCorr)]
  | 0xA08 => packFields [(48, 16, q.resets), (32, 16, q.lastCause.toNat), (8, 4, q.suspects.toNat), (0, 3, q.stateCode)]
  | 0xB00 => q.pmcCtl.toNat
  | 0xB08 => q.tagCtl.toNat
  | _ =>
    if 0xC00 ≤ off && off < 0xE00 then ((q.pmc.toList[(off - 0xC00) / 8]?).map (fun c => c.sel.toNat)).getD 0
    else if 0xE00 ≤ off && off < 0x1000 then (d.pmcValue (.panel p) ((off - 0xE00) / 8)).toNat else 0

/-- A PORTn block (R877). -/
def Device.readPort (d : Device) (n : PortId) (off : Nat) : Nat :=
  let q := d.port n
  match off with
  | 0x00 => q.ctl.toNat
  | 0x08 => q.creditRes.toNat
  | 0x10 => q.creditShr.toNat
  | 0x18 => q.arb.toNat
  | 0x20 => q.peerExpect.toNat
  | 0x28 => packFields [(16, 16, q.reason.toNat), (8, 8, q.badReg), (0, 4, q.state.code)]
  | 0x30 => match q.peer with
    | some k => packFields [(31, 1, 1), (24, 5, k.port.toNat), (18, 1, bitNat k.ext), (0, 15, k.modNum.toNat)]
    | none => 0
  | 0x38 => q.rtt.toNat
  | 0x40 => packFields [(40, 24, q.replays), (0, 40, q.corrSymbols)]
  | 0x48 => packFields [(56, 8, q.authFails), (48, 8, q.downCount), (32, 16, q.turnDrops), (0, 32, q.uncorrCw)]
  | _ => 0

/-- The places of BAR0 (R876, R877). -/
inductive RegPlace where
  | hub (block off : Nat)
  | panel (p : PanelId) (off : Nat)
  | port (n : PortId) (off : Nat)
  | reserved

/-- The place of a BAR0 offset. -/
def regPlace (o : Nat) : RegPlace :=
  if o < 0xB0000 then .hub (o / 0x10000) (o % 0x10000)
  else if 0x1000000 ≤ o && o < 0x1800000 then .panel (Fin.ofNat 8 ((o - 0x1000000) / 0x100000)) (o % 0x100000)
  else if 0x2000000 ≤ o && o < 0x2180000 then .port (Fin.ofNat 24 ((o - 0x2000000) / 0x10000)) (o % 0x10000)
  else .reserved

/-- The value of the register whose first byte lies at a BAR0 offset; 0 where none does (R805). -/
def State.regValue (s : State) (o : Nat) : BitVec 64 :=
  let d := s.dev
  BitVec.ofNat 64 (match regPlace o with
    | .hub 0 off => d.readDevice off
    | .hub 1 off => d.readNeedle off
    | .hub 2 off => d.readAdmission off
    | .hub 3 off => if off = 0 then packFields [(32, 32, d.unmapped), (0, 7, d.openRegions.length)] else 0
    | .hub 4 off => d.readFabric off
    | .hub 5 off => d.readGuard off
    | .hub 6 off => d.readReset off
    | .hub 7 off => d.readPower s.vault off
    | .hub 8 off => d.readSecurity s.vault off
    | .hub 9 off => d.readCommit off
    | .hub _ off => d.readPmc off
    | .panel p off => d.readPanel p off
    | .port n off => d.readPort n off
    | .reserved => 0)

/-- What else a read of a register does: a counter latches its chained upper half, and a latched value is used up (R834). -/
def Device.readEffect (d : Device) (o : Nat) : Device :=
  let use (scope : PmcScope) (n : Nat) : Device := (d.updPmc scope n (fun c => { c with latched := none })).latchChain scope n
  match regPlace o with
  | .hub 10 off => if 0x200 ≤ off && off < 0x300 then use .hub ((off - 0x200) / 8) else d
  | .panel p off => if 0xE00 ≤ off && off < 0x1000 then use (.panel p) ((off - 0xE00) / 8) else d
  | _ => d

/-- A read of 4 bytes (R69, R878): the low half latches the high half, whose next read returns the latched value. -/
def State.read32 (s : State) (o : Nat) : State × BitVec 32 :=
  let r := o / 8 * 8
  if o % 8 = 0 then
    let v := s.regValue r
    let hi := (v >>> 32).setWidth 32
    (s.onDev (fun d => { d.readEffect r with latches := (r, hi) :: d.latches.filter (fun l => l.1 != r) }), v.setWidth 32)
  else match s.dev.latches.find? (fun l => l.1 = r) with
    | some l => (s.onDev (fun d => { d with latches := d.latches.filter (fun l => l.1 != r) }), l.2)
    | none => (s, ((s.regValue r) >>> 32).setWidth 32)

/-! ## The panel enable (R885, R886) -/

/-- The checks of R885 in order, with their BAD_REG values. -/
def Device.panelChecks (d : Device) (p : PanelId) : Option (Code × Nat) :=
  let q := d.panel p
  let tack := fieldOf q.arrayCtl 27 16
  let quantum := fieldOf q.schedCfg 6 0
  match d.escalationCode with
  | some c => some (c, 0xFF)
  | none => firstFailure [
      (q.memOn, 0x0213, 0xFF),
      (1000 ≤ tack && tack ≤ 4000, 0x0204, 0x80),
      (1 ≤ quantum && quantum ≤ 64, 0x0206, 0xE0)]

/-- A write of PANELp.CTL (R881, R882, R885, R886). A passed enable starts certification when none has ended
since the panel reset (R95). -/
def Device.panelCtlWrite (d : Device) (p : PanelId) (v mask : BitVec 64) : Device :=
  let q := d.panel p
  if !bitOf mask 0 || bitOf v 0 = q.enabled then d
  else if q.enabled then
    if d.contexts.any (fun c => c.panel = p) then d.updPanel p (fun q => { q with reason := 0x0208 })
    else d.updPanel p (fun q => { q with ctl := setBit q.ctl 0 false, array := { q.array with certRunning := false } })
  else match d.panelChecks p with
    | some (c, b) => d.updPanel p (fun q => { q with reason := c, badReg := b })
    | none => d.updPanel p (fun q => { q with
        ctl := setBit q.ctl 0 true, reason := 0, badReg := 0, state := .idle, array := q.array.enable (bitOf q.arrayCtl 0) })

/-! ## Writing (R878 to R880) -/

/-- Bits [63:6] of a host address register. -/
def addrMask : BitVec 64 := 0xFFFFFFFFFFFFFFC0

/-- Change the setup registers of the hub. -/
def Device.updRegs (d : Device) (f : HubRegs → HubRegs) : Device := { d with regs := f d.regs }

/-- A write of HUB.NEEDLE_CTL. -/
def Device.needleCtlWrite (d : Device) (v mask : BitVec 64) : Device :=
  if !bitOf mask 0 then d else if d.needleOn then d.needleDisable (v.setWidth 32) else d.needleEnable (v.setWidth 32)

/-- A write of the NEEDLE block. -/
def Device.writeNeedle (d : Device) (off : Nat) (v mask : BitVec 64) : Device :=
  let put (old fields : BitVec 64) : BitVec 64 := if d.needleOn then old else mergeBits old v (mask &&& fields)
  match off with
  | 0x00 => d.needleCtlWrite v mask
  | 0x08 => d.updRegs (fun r => { r with needleCfg := put r.needleCfg 0xFFFFFF })
  | 0x10 => d.updRegs (fun r => { r with needleJob := put r.needleJob 0xFFFFFFFF })
  | 0x18 => d.updRegs (fun r => { r with needleSrc := put r.needleSrc 0xFFFFFF })
  | 0x20 => d.updRegs (fun r => { r with needleOut := put r.needleOut 0xFFFFFF })
  | 0x28 => d.updRegs (fun r => { r with needleLoad := put r.needleLoad 0x0FFFFFFFFFFFFFFF })
  | 0x38 => d.updRegs (fun r => { r with needleLate := mergeBits r.needleLate v (mask &&& 0xFFF) })
  | _ => d

/-- A write of the ADMIT block. -/
def Device.writeAdmission (d : Device) (off : Nat) (v mask : BitVec 64) : Device :=
  let put (old fields : BitVec 64) : BitVec 64 := if d.admitOn then old else mergeBits old v (mask &&& fields)
  match off with
  | 0x00 => d.admissionCtlWrite v mask
  | 0x08 => d.updRegs (fun r => { r with admitBase := put r.admitBase addrMask })
  | 0x10 => d.updRegs (fun r => { r with admitCplBase := put r.admitCplBase addrMask })
  | 0x18 => d.updRegs (fun r => { r with admitDb := put r.admitDb addrMask })
  | 0x28 => d.updRegs (fun r => { r with admitPoll := put r.admitPoll 0x7F })
  | _ => d

/-- A write of the FABRIC block. What a cartridge's identity reads as at a release is a free value here. -/
def Device.writeFabric (d : Device) (off : Nat) (v mask : BitVec 64) : Device :=
  match off with
  | 0x00 =>
    if d.ports.toList.any (fun q => q.enabled) then d
    else d.updRegs (fun r => { r with fabCfg := mergeBits r.fabCfg v (mask &&& 0x3FFF0FFF7FFF) })
  | 0x08 => d.updRegs (fun r => { r with fabRouteBase := mergeBits r.fabRouteBase v (mask &&& addrMask) })
  | 0x10 => d.routeCtlWrite v mask
  | 0x20 =>
    let (d, genuine) := drawFree d 8
    d.lcCtlWrite v mask (BitVec.ofNat 8 genuine)
  | _ => d

/-- A write of the GUARD block. -/
def Device.writeGuard (d : Device) (off : Nat) (v mask : BitVec 64) : Device :=
  let put (old fields : BitVec 64) : BitVec 64 := if d.enabled then old else mergeBits old v (mask &&& fields)
  match off with
  | 0x00 => d.updRegs (fun r => { r with guardCtl := put r.guardCtl 0xFF00 })
  | 0x10 => d.updRegs (fun r => { r with errBase := put r.errBase addrMask })
  | 0x18 => d.updRegs (fun r => { r with errHeadLine := put r.errHeadLine addrMask })
  | 0x20 => d.updRegs (fun r => { r with errCtl := put r.errCtl 0x1F00 })
  | _ => d

/-- A write of the RESET block but for RESET_CTL. -/
def Device.writeReset (d : Device) (off : Nat) (v mask : BitVec 64) : Device :=
  let put (old fields : BitVec 64) : BitVec 64 := if d.enabled then old else mergeBits old v (mask &&& fields)
  match off with
  | 0x10 => d.updRegs (fun r => { r with hbBase := put r.hbBase 0xFFFFFFFFFFFFF000 })
  | 0x18 => d.updRegs (fun r => { r with crashBase := put r.crashBase 0xFFFFFFFFFFE00000 })
  | 0x20 => { d with reset := { d.reset with crashValid := d.reset.crashValid &&& ~~~((v &&& mask).setWidth 8) } }
  | _ => d

/-- The writable bits of a counter's selector. -/
def selMask : BitVec 64 := 0xC000FFFF0F7F0FFF

/-- A write of a counter's selector, or of the counter: VALUE is written, OVF is cleared by a 1. -/
def PmcCounter.write (c : PmcCounter) (sel : Bool) (v mask : BitVec 64) : PmcCounter :=
  if sel then { c with sel := mergeBits c.sel v (mask &&& selMask) }
  else { c with val := (mergeBits (c.val.setWidth 64) v (mask &&& 0xFFFFFFFFFFFF)).setWidth 48, ovf := c.ovf && !bitOf (v &&& mask) 63 }

/-- A write of the PMC block. -/
def Device.writePmc (d : Device) (off : Nat) (v mask : BitVec 64) : Device :=
  let put (old : BitVec 64) : BitVec 64 := if d.dumpOn then old else mergeBits old v (mask &&& addrMask)
  match off with
  | 0x00 => d.pmcCtlWrite .hub v mask
  | 0x08 => d.dumpCtlWrite v mask
  | 0x10 => d.updRegs (fun r => { r with dumpBase := put r.dumpBase })
  | 0x18 => d.updRegs (fun r => { r with dumpHeadLine := put r.dumpHeadLine })
  | 0x28 => d.updRegs (fun r => { r with pmcPageBase := put r.pmcPageBase })
  | _ =>
    if 0x100 ≤ off && off < 0x200 then d.updPmc .hub ((off - 0x100) / 8) (fun c => c.write true v mask)
    else if 0x200 ≤ off && off < 0x300 then d.updPmc .hub ((off - 0x200) / 8) (fun c => c.write false v mask) else d

/-- A write of a PANELp block. -/
def Device.writePanel (d : Device) (p : PanelId) (off : Nat) (v mask : BitVec 64) : Device :=
  let put (locked : Bool) (old fields : BitVec 64) : BitVec 64 := if locked then old else mergeBits old v (mask &&& fields)
  match off with
  | 0x000 => d.panelCtlWrite p v mask
  | 0x400 =>
    let d := d.updPanel p (fun q =>
      let ctl := put q.enabled q.arrayCtl 0x0FFF0001
      { q with arrayCtl := ctl, array := if q.enabled then q.array else q.array.withChain (bitOf ctl 0) })
    if bitOf (v &&& mask) 1 then d.certRun p else d
  | 0x700 => d.updPanel p (fun q => { q with schedCfg := put q.enabled q.schedCfg 0xFFFF007F })
  | 0x800 => d.memCtlWrite p v mask
  | 0x810 => d.updPanel p (fun q => { q with memScrub := put q.memOn q.memScrub 0xFF })
  | 0x818 => d.updPanel p (fun q => { q with memRetireBase := put q.memOn q.memRetireBase addrMask })
  | 0x820 => d.retireCtlWrite p v mask
  | 0x828 => if bitOf mask 0 then d.retireAdd p (v.toNat % 2 ^ 23) else d
  | 0x840 => d.updPanel p (fun q => { q with memEccThresh := put false q.memEccThresh 0xFFFFFFFF })
  | 0x848 => if bitOf (v &&& mask) 31 then d.updPMem p (fun m => { m with uePage := none }) else d
  | 0x850 => d.updPanel p (fun q => { q with spoolCfg := put q.memOn q.spoolCfg 0x1F })
  | 0xA00 => d.panelResetWrite p (v &&& mask)
  | 0xB00 => d.pmcCtlWrite (.panel p) v mask
  | 0xB08 => d.updPanel p (fun q => { q with tagCtl := put false q.tagCtl 0xFFFF00F1 })
  | _ =>
    if 0xC00 ≤ off && off < 0xE00 then d.updPmc (.panel p) ((off - 0xC00) / 8) (fun c => c.write true v mask)
    else if 0xE00 ≤ off && off < 0x1000 then d.updPmc (.panel p) ((off - 0xE00) / 8) (fun c => c.write false v mask)
    else d

/-- A write of a PORTn block. -/
def Device.writePort (d : Device) (n : PortId) (off : Nat) (v mask : BitVec 64) : Device :=
  let put (old fields : BitVec 64) : BitVec 64 := if (d.port n).enabled then old else mergeBits old v (mask &&& fields)
  match off with
  | 0x00 => d.portCtlWrite n v mask
  | 0x08 => d.updPort n (fun q => { q with creditRes := put q.creditRes 0x7FFFFFFFFFFFFF })
  | 0x10 => d.updPort n (fun q => { q with creditShr := put q.creditShr 0x7FF })
  | 0x18 => d.updPort n (fun q => { q with arb := put q.arb 0xFFF })
  | 0x20 => d.updPort n (fun q => { q with peerExpect := put q.peerExpect 0x80007FFF })
  | _ => d

/-- A write of the register at a BAR0 offset that is a multiple of 8, under the mask of the bytes written. -/
def State.regWrite (s : State) (o : Nat) (v mask : BitVec 64) : State :=
  match regPlace o with
  | .hub 0 0x00 => s.devCtlWrite v mask
  | .hub 0 0x10 => s.onDev (fun d => d.hostFaultClear (v &&& mask))
  | .hub 0 0x20 => s.onDev (fun d => d.updRegs (fun r => { r with hostIrq := mergeBits r.hostIrq v (mask &&& 0xFFF) }))
  | .hub 1 off => s.onDev (fun d => d.writeNeedle off v mask)
  | .hub 2 off => s.onDev (fun d => d.writeAdmission off v mask)
  | .hub 4 off => s.onDev (fun d => d.writeFabric off v mask)
  | .hub 5 off => s.onDev (fun d => d.writeGuard off v mask)
  | .hub 6 0x00 => s.resetCtlWrite (v &&& mask) true true
  | .hub 6 off => s.onDev (fun d => d.writeReset off v mask)
  | .hub 7 off => s.onDev (fun d => d.powerWrite off v mask)
  | .hub 8 0x00 => s.onDev (fun d => d.updRegs (fun r => { r with secMboxAddr := mergeBits r.secMboxAddr v (mask &&& addrMask) }))
  | .hub 8 0x08 => s.onDev (fun d => d.mboxGo (v &&& mask))
  | .hub 10 off => s.onDev (fun d => d.writePmc off v mask)
  | .panel p off => s.onDev (fun d => d.writePanel p off v mask)
  | .port n off => s.onDev (fun d => d.writePort n off v mask)
  | _ => s

/-- An access of 4 bytes to the low or the high half (R878). -/
def State.write32 (s : State) (o : Nat) (v : BitVec 32) : State :=
  if o % 8 = 0 then s.regWrite o (v.setWidth 64) 0xFFFFFFFF
  else s.regWrite (o / 8 * 8) (v.setWidth 64 <<< 32) 0xFFFFFFFF00000000

/-- A host write of BAR0 (R805, R878): any other size or alignment completes with Unsupported Request. -/
def State.barWrite (s : State) (o size : Nat) (v : BitVec 64) : State :=
  if !s.pins.railsOn then s
  else if size = 4 && o % 4 = 0 then s.write32 o (v.setWidth 32)
  else if size = 8 && o % 8 = 0 then s.regWrite o v (BitVec.allOnes 64) else s

/-! ## Configuration parity and shadows (R624) -/

/-- The BAR0 base of a register's block, and its panel or 0xFF. -/
def blockOf (o : Nat) : Nat × Nat := match regPlace o with
  | .hub b _ => (b * 0x10000, 0xFF)
  | .panel p _ => (0x1000000 + p.val * 0x100000, p.val)
  | .port n _ => (0x2000000 + n.val * 0x10000, 0xFF)
  | .reserved => (o, 0xFF)

/-- The record of a register that read wrong: value read, shadow value (R638). -/
def State.configFault (s : State) (o : Nat) (flipped : BitVec 64) (reason : Code) (outcome : Nat) : ErrRec :=
  let shadow := if o % 8 = 0 then s.regValue o else (s.regValue (o / 8 * 8)) >>> 32
  let lo (x : BitVec 64) : Nat := x.toNat % 2 ^ 32
  { reason := reason, mech := 0x0A, outcome := outcome, panel := (blockOf o).2
    unit := (Config.blockNumber (blockOf o).1).toNat, sub := (o - (blockOf o).1) / 8, addr := o
    detail := BitVec.ofNat 128 (lo (shadow ^^^ flipped) + 2 ^ 32 * lo shadow) }

/-- CFG_SHADOW_CHECK (R624): the block of a register that disagrees with its shadow behaves as for a lockstep mismatch of
its controller. -/
def State.shadowCheck (s : State) (bad : Option (Nat × BitVec 64)) : State :=
  match bad with
  | none => s
  | some (o, flipped) =>
    if !s.pins.railsOn then s
    else match regPlace o with
      | .panel p _ => s.onDev (fun d => d.panelReset p (s.configFault o flipped 0x0129 3) 0)
      | .reserved => s
      | _ => s.warmReset (s.configFault o flipped 0x0129 3) true false true true

/-! ## The commands -/

/-- LOW_HALF_READ_LATCH (R878). -/
def execLowHalfReadLatch (offset : Nat) (s : State) : Out :=
  .next (if s.pins.railsOn && offset % 8 = 0 then (s.read32 offset).1 else s)
/-- REGISTER_WRITE (R879). -/
def execRegisterWrite (offset size : Nat) (value : BitVec 64) (s : State) : Out := .next (s.barWrite offset size value)
/-- PANEL_ENABLE (R885). -/
def execPanelEnable (panel : PanelId) (value : BitVec 32) (s : State) : Out :=
  s.run (fun d => d.panelCtlWrite panel (value.setWidth 64) 0xFFFFFFFF)
/-- PANEL_DISABLE (R886). -/
def execPanelDisable (panel : PanelId) (value : BitVec 32) (s : State) : Out :=
  s.run (fun d => d.panelCtlWrite panel (value.setWidth 64) 0xFFFFFFFF)
/-- CFG_PARITY_ERROR (R624): the register is reloaded from its shadow, and keeps its value. -/
def execCfgParityError (offset : Nat) (flipped : BitVec 64) (s : State) : Out :=
  s.run (fun d => d.raiseCoalesced (s.configFault offset flipped 0x0128 0))
/-- CFG_SHADOW_CHECK (R624). -/
def execCfgShadowCheck (bad : Option (Nat × BitVec 64)) (s : State) : Out := .next (s.shadowCheck bad)

end Sys2Proof.Machine
end

