-- ==== Sys2Proof/Machine/Bodkin.lean ====
section
/-! DEFINITION. The Bodkin port (16_counters_and_debug.md R859 to R872): the TAP, the debug access protocol, unlock, halt
and step. -/

namespace Sys2Proof.Machine

/-- Change the Bodkin port. -/
def Device.updBodkin (d : Device) (f : Bodkin → Bodkin) : Device := { d with bodkin := f d.bodkin }

/-! ## The TAP (R859, R860) -/

/-- An instruction is selected. -/
def Device.tapSelect (d : Device) (code : BitVec 8) : Device := d.updBodkin (fun b => { b with ir := code })

/-- SAMPLE/PRELOAD: what the boundary-scan register then holds comes from the pins and the tester, and is a free value. -/
def Device.tapSample (d : Device) : Device :=
  (d.tapSelect 0x02).updBodkin (fun b => { b with scan := Config.freeNat d.fresh }) |> fun d => { d with fresh := d.fresh + 1 }

/-- EXTEST drives the sideband pins from the boundary-scan register; while the device enable is set it acts as BYPASS. -/
def Device.extestDrives (d : Device) : Bool := d.bodkin.ir = 0x03 && !d.enabled

/-- The identification register. -/
def idcodeValue : BitVec 32 := if Config.steppingA1 then 0x1A28E04D else 0x0A28E04D

/-! ## DAP answers (R861 to R863) -/

/-- The scope BODKIN is unlocked (R786, R863). -/
def Device.dapOpen (d : Device) : Bool := d.thimble.scopes.getLsbD 0

/-- A request completes: its status, its address, the data it read. -/
def Device.dapDone (d : Device) (op status : Nat) (addr : BitVec 48) (data : BitVec 32) : Device :=
  d.updBodkin (fun b => { b with op := op, status := status, addr := addr, data := data })

/-- What a request leaves: state, status and data. -/
abbrev DapResult := State × Nat × BitVec 32

/-- The four bytes of a word. -/
def wordBytes (v : BitVec 32) : List Byte := leBytes 4 v.toNat

/-- Bytes as a word. -/
def bytesWord (bs : List Byte) : BitVec 32 := BitVec.ofNat 32 (leNat bs)

/-! ## Module memory and host memory (R864) -/

/-- A debug access to module memory, read or write, at Indigo class with the stream-through hint. -/
def State.dapMemory (s : State) (a : Nat) (write : Option (BitVec 32)) : DapResult :=
  let d := s.dev
  if mpaEnd ≤ a then (s, 2, 0)
  else
    let q := d.panel (panelOf a)
    if q.fenced then (s, 4, 0)
    else if q.retires (ppaOf a) then (s, 2, 0)
    else match write with
      | some v => ({ s with dev := d.storeMpa a (wordBytes v) .stream .indigo .nobody {} }, 0, 0)
      | none =>
        let (d, bs, bad) := d.loadMpa a 4 .stream (fun _ => false) .indigo .nobody {}
        ({ s with dev := d }, if bad then 3 else 0, bytesWord bs)

/-- A debug access to host memory (R806). -/
def State.dapHost (s : State) (a : Nat) (write : Option (BitVec 32)) : DapResult :=
  if !s.dev.hostUp then (s, 2, 0)
  else match write with
    | some v => (s.onDev (fun d => d.hostWrite a (wordBytes v)), 0, 0)
    | none =>
      let (d, bs) := s.dev.hostFetch a 4
      ({ s with dev := d }, 0, bytesWord bs)

/-! ## Panel sequencers (R867 to R872) -/

/-- Change the debug state of a panel's sequencer. -/
def Device.updDebug (d : Device) (p : PanelId) (f : SeqDebug → SeqDebug) : Device := d.updPanel p (fun q => { q with dbg := f q.dbg })

/-- The panel that a request names. -/
def dapPanel (addr : BitVec 48) : PanelId := Fin.ofNat 8 (addr.toNat / 2 ^ 45)

/-- The sequencer stops at an instruction boundary, whose address is the firmware's. -/
def Device.seqHalt (d : Device) (p : PanelId) (cause : Nat) : Device :=
  let (d, pc) := drawFree d 32
  d.updDebug p (fun g => { g with halted := true, cause := cause, index := 0, pc := BitVec.ofNat 32 pc, stepTack := 0 })

/-- The sequencer runs on. -/
def Device.seqResume (d : Device) (p : PanelId) (stepTack : Nat) : Device :=
  d.updDebug p (fun g => { g with halted := false, mem := [], stepTack := stepTack })

/-- HALT: a sequencer that is halted stays so. -/
def Device.dapHalt (d : Device) (p : PanelId) : Device := if (d.panel p).dbg.halted then d else d.seqHalt p 0

/-- STEP: a halted sequencer executes one instruction, which may change its private memory. -/
def Device.dapStep (d : Device) (p : PanelId) : Device :=
  if (d.panel p).dbg.halted then (d.updDebug p (fun g => { g with mem := [] })).seqHalt p 1 else d

/-- STEP_TACK (R870): the tack boundary after the tack halts the sequencer again. -/
def Device.dapStepTack (d : Device) (p : PanelId) : Device := if (d.panel p).dbg.halted then d.seqResume p 1 else d

/-- A read at a sequencer address; a free value where the firmware decides. -/
def Device.seqRead (d : Device) (p : PanelId) (a : Nat) : Device × Nat × BitVec 32 :=
  let g := (d.panel p).dbg
  let free : Device × Nat × BitVec 32 := let (d, v) := drawFree d 32; (d, 0, BitVec.ofNat 32 v)
  if a < 0xFF0000 then
    match g.mem.find? (fun w => w.1 = a) with
    | some w => (d, 0, w.2)
    | none => free
  else if a = 0xFF0000 then (d, 0, BitVec.ofNat 32 (g.index * 16 + g.cause * 2 + bitNat g.halted))
  else if a = 0xFF0008 then if g.halted then (d, 0, g.pc) else free
  else if 0xFF0100 ≤ a && a < 0xFF0140 && a % 8 = 0 then (d, 0, (g.bps.toList[(a - 0xFF0100) / 8]?).getD 0)
  else if 0xFF0200 ≤ a && a < 0xFF0240 && a % 16 < 8 then
    let w := (g.wps.toList[(a - 0xFF0200) / 16]?).getD 0
    (d, 0, if a % 16 = 0 then w.setWidth 32 else (w >>> 32).setWidth 32)
  else (d, 2, 0)

/-- A write at a sequencer address, to both cores. DBG_PC is writable while the sequencer is halted. -/
def Device.seqWrite (d : Device) (p : PanelId) (a : Nat) (v : BitVec 32) : Device × Nat :=
  let g := (d.panel p).dbg
  if a < 0xFF0000 then
    (if g.halted then d.updDebug p (fun g => { g with mem := (a, v) :: g.mem.filter (fun w => w.1 != a) }) else d, 0)
  else if a = 0xFF0000 then (d, 0)
  else if a = 0xFF0008 then (if g.halted then d.updDebug p (fun g => { g with pc := v }) else d, 0)
  else if 0xFF0100 ≤ a && a < 0xFF0140 && a % 8 = 0 then
    let n : Fin 8 := Fin.ofNat 8 ((a - 0xFF0100) / 8)
    (d.updDebug p (fun g => { g with bps := g.bps.set n.val (v &&& 0xFFFFFFFD) n.isLt }), 0)
  else if 0xFF0200 ≤ a && a < 0xFF0240 && a % 16 < 8 then
    let n : Fin 4 := Fin.ofNat 4 ((a - 0xFF0200) / 16)
    let old := g.wps[n.val]
    let new := if a % 16 = 0 then mergeBits old (v.setWidth 64) 0xFFFFFFFF else mergeBits old (v.setWidth 64 <<< 32) 0xFFFFFFFF00000000
    (d.updDebug p (fun g => { g with wps := g.wps.set n.val new n.isLt }), 0)
  else (d, 2)

/-- BREAKPOINT_HIT (R871): an enabled breakpoint at the instruction halts the sequencer before it executes. -/
def Device.breakpointHit (d : Device) (p : PanelId) (n : Fin 8) (pc : BitVec 32) : Device :=
  let g := (d.panel p).dbg
  let b := g.bps[n.val]
  if !g.halted && b.getLsbD 0 && b >>> 2 = pc >>> 2 then
    d.updDebug p (fun g => { g with halted := true, cause := 3, index := n.val, pc := pc, stepTack := 0 })
  else d

/-- WATCHPOINT_HIT (R871): a matching access halts the sequencer after it completes. -/
def Device.watchpointHit (d : Device) (p : PanelId) (n : Fin 4) (pc addr : BitVec 32) (write : Bool) : Device :=
  let g := (d.panel p).dbg
  let w := g.wps[n.val]
  let mask : BitVec 32 := (w >>> 32).setWidth 32
  let place : BitVec 32 := w.setWidth 32
  let matched := ((place ^^^ addr) &&& ~~~mask) >>> 3 = 0
  if !g.halted && w.getLsbD 0 && (if write then w.getLsbD 2 else w.getLsbD 1) && matched then
    d.updDebug p (fun g => { g with halted := true, cause := 4, index := n.val, pc := pc, stepTack := 0 })
  else d

/-! ## Registers and the token buffer (R862 to R866) -/

/-- A debug write of BAR0 space. With scope GUARANTEE_OFF, 0 written to GUARANTEE turns guarantee mode off (R866). -/
def State.dapRegWrite (s : State) (a : Nat) (v : BitVec 32) : State :=
  let s := s.write32 a v
  if a = 0x50000 && !v.getLsbD 0 && s.dev.thimble.scopes.getLsbD 1 && s.dev.guarantee then
    s.onDev (fun d => ((d.updRegs (fun r => { r with guardCtl := setBit r.guardCtl 0 false })).updThimble
      (fun t => { t with fromBoot := false })).updateGuard)
  else s

/-- A read or write of a word, whatever the lock. -/
def State.dapAccess (s : State) (space a : Nat) (p : PanelId) (write : Option (BitVec 32)) : DapResult :=
  match space with
  | 0 =>
    if 2 ^ 26 ≤ a then (s, 2, 0)
    else match write with
      | some v => (s.dapRegWrite a v, 0, 0)
      | none => let r := s.read32 a; (r.1, 0, r.2)
  | 1 => s.dapMemory a write
  | 2 => s.dapHost a write
  | 3 => match write with
    | some v => let r := s.dev.seqWrite p (a % 2 ^ 24) v; ({ s with dev := r.1 }, r.2, 0)
    | none => let r := s.dev.seqRead p (a % 2 ^ 24); ({ s with dev := r.1 }, r.2)
  | _ => match write with
    | some v => if a < 4800 then (s.onDev (fun d => d.updBodkin (fun b => { b with token := memWrite b.token a (wordBytes v) })), 0, 0) else (s, 2, 0)
    | none => if a < 4800 || (0x1400 ≤ a && a < 0x1420) then (s, 0, bytesWord (memRead s.dev.bodkin.token a 4)) else (s, 2, 0)

/-- Requests permitted before the unlock: writes of the token buffer and reads of the challenge (R863). -/
def dapLockedOk (space a : Nat) (write : Bool) : Bool := space = 4 && (if write then a < 4800 else 0x1400 ≤ a && a < 0x1420)

/-- READ32, WRITE32, READ_INC and WRITE_INC. -/
def State.dapWord (s : State) (op : Nat) (space : BitVec 4) (addr : BitVec 48) (write : Option (BitVec 32)) (inc : Bool) : State :=
  if s.dev.bodkin.ir != 0x10 || s.dev.bodkin.waiting.isSome then s
  else
    let a := addr.toNat
    let back (s : State) (status : Nat) (data : BitVec 32) : State :=
      s.onDev (fun d => d.dapDone op status (if inc then addr + 4 else addr) data)
    if !s.dev.dapOpen && !dapLockedOk space.toNat a write.isSome then back s 1 0
    else if 5 ≤ space.toNat || a % 4 != 0 then back s 5 0
    else
      let r := s.dapAccess space.toNat a (dapPanel addr) write
      back r.1 r.2.1 r.2.2

/-- A request on a panel's sequencer. -/
def State.dapSeq (s : State) (op : Nat) (space : BitVec 4) (addr : BitVec 48) (f : Device → PanelId → Device) : State :=
  if s.dev.bodkin.ir != 0x10 || s.dev.bodkin.waiting.isSome then s
  else if !s.dev.dapOpen then s.onDev (fun d => d.dapDone op 1 addr 0)
  else if 5 ≤ space.toNat then s.onDev (fun d => d.dapDone op 5 addr 0)
  else s.onDev (fun d => (f d (dapPanel addr)).dapDone op 0 addr 0)

/-- Thimble takes the CHALLENGE or UNLOCK that waits, once it serves and is free (R787, R788, R791, R865). -/
def State.dapThimble (s : State) : State :=
  match s.dev.bodkin.waiting with
  | none => s
  | some op =>
    if !s.dev.thimble.serves || s.dev.thimble.busy then s
    else
      let s := s.onDev (fun d => d.updBodkin (fun b => { b with waiting := none }))
      if op = 5 then
        let r := s.dev.newChallenge
        { s with dev := (r.1.updBodkin (fun b => { b with token := memWrite b.token 0x1400 r.2 })).dapDone 5 0 0 0 }
      else
        let r := s.unlock (memRead s.dev.bodkin.token 0 4800)
        r.1.onDev (fun d => (d.updThimble (fun t => { t with reason := r.2 })).dapDone 6 (if r.2 = 0 then 0 else 6) 0 0)

/-- CHALLENGE or UNLOCK is submitted. -/
def State.dapSubmit (s : State) (op : Nat) : State :=
  if s.dev.bodkin.ir != 0x10 || s.dev.bodkin.waiting.isSome then s
  else (s.onDev (fun d => d.updBodkin (fun b => { b with waiting := some op }))).dapThimble

/-- A state-level command of a powered package. -/
def State.powered (s : State) (f : State → State) : Out := .next (if s.pins.railsOn then f s else s)

/-! ## The commands -/

/-- TAP_RESET (R859). -/
def execTapReset (s : State) : Out := s.run (fun d => d.tapSelect 0x01)
/-- IDCODE (R859). -/
def execIdcode (s : State) : Out := s.run (fun d => d.tapSelect 0x01)
/-- SAMPLE_PRELOAD (R859). -/
def execSamplePreload (s : State) : Out := s.run Device.tapSample
/-- EXTEST (R860). -/
def execExtest (s : State) : Out := s.run (fun d => d.tapSelect 0x03)
/-- DAP (R861). -/
def execDap (s : State) : Out := s.run (fun d => d.tapSelect 0x10)
/-- BYPASS (R859). -/
def execBypass (s : State) : Out := s.run (fun d => d.tapSelect 0xFF)
/-- DAP_NOP (R862): the response to the last completed request stands; a waiting one may complete. -/
def execDapNop (s : State) : Out := s.powered State.dapThimble
/-- DAP_READ32 (R864). -/
def execDapRead32 (space : BitVec 4) (addr : BitVec 48) (s : State) : Out := s.powered (fun s => s.dapWord 1 space addr none false)
/-- DAP_WRITE32 (R864). -/
def execDapWrite32 (space : BitVec 4) (addr : BitVec 48) (data : BitVec 32) (s : State) : Out :=
  s.powered (fun s => s.dapWord 2 space addr (some data) false)
/-- DAP_READ_INC (R862). -/
def execDapReadInc (space : BitVec 4) (addr : BitVec 48) (s : State) : Out := s.powered (fun s => s.dapWord 3 space addr none true)
/-- DAP_WRITE_INC (R862). -/
def execDapWriteInc (space : BitVec 4) (addr : BitVec 48) (data : BitVec 32) (s : State) : Out :=
  s.powered (fun s => s.dapWord 4 space addr (some data) true)
/-- DAP_CHALLENGE (R865). -/
def execDapChallenge (s : State) : Out := s.powered (fun s => s.dapSubmit 5)
/-- DAP_UNLOCK (R865). -/
def execDapUnlock (s : State) : Out := s.powered (fun s => s.dapSubmit 6)
/-- DAP_HALT (R867). -/
def execDapHalt (space : BitVec 4) (addr : BitVec 48) (s : State) : Out := s.powered (fun s => s.dapSeq 7 space addr Device.dapHalt)
/-- DAP_RESUME (R868). -/
def execDapResume (space : BitVec 4) (addr : BitVec 48) (s : State) : Out :=
  s.powered (fun s => s.dapSeq 8 space addr (fun d p => d.seqResume p 0))
/-- DAP_STEP (R862). -/
def execDapStep (space : BitVec 4) (addr : BitVec 48) (s : State) : Out := s.powered (fun s => s.dapSeq 9 space addr Device.dapStep)
/-- DAP_STEP_TACK (R870). -/
def execDapStepTack (space : BitVec 4) (addr : BitVec 48) (s : State) : Out :=
  s.powered (fun s => s.dapSeq 10 space addr Device.dapStepTack)
/-- BREAKPOINT_HIT (R871). -/
def execBreakpointHit (panel : PanelId) (index : Fin 8) (pc : BitVec 32) (s : State) : Out :=
  s.run (fun d => d.breakpointHit panel index pc)
/-- WATCHPOINT_HIT (R871). -/
def execWatchpointHit (panel : PanelId) (index : Fin 4) (pc addr : BitVec 32) (write : Bool) (s : State) : Out :=
  s.run (fun d => d.watchpointHit panel index pc addr write)

end Sys2Proof.Machine
end

