-- ==== Sys2Proof/Machine/Module.lean ====
section
/-! DEFINITION. Power-up, power-down and the sideband pins (18_module_hardware.md), with the temperature samples that
decide both (13_power_and_thermal.md). -/

namespace Sys2Proof.Machine

/-! ## Power-down (R920 to R922) -/

/-- The device without input power: DOWN with cause MODULE has left every UP port, and everything but the host's memory,
the cartridges is gone (R18, R921). No completion or record is written (R920). -/
def Device.powerLost (d : Device) : Device :=
  let host := d.hostMem
  let d := d.portsDown
  { now := d.now, fresh := d.fresh, hostMem := host
    panels := d.panels.map (fun q => { mem := { present := q.mem.present } })
    ports := d.ports.map (fun q => { lastSent := q.lastSent })
    fabric := { carts := d.fabric.carts.map (fun c => { present := c.present, genuine := c.genuine }) } }

/-- The module powers down: it takes precedence over every reset and trip. -/
def State.powerDown (s : State) : State :=
  { s with
    dev := s.dev.powerLost
    pins := { s.pins with inputSwitch := false, railsOn := false, pwrGood := false, thermtrip := false, sensorWait := false } }

/-! ## Power-up (R916 to R919) -/

/-- The rails come on: the host link is held while PERST_N is low, Thimble's reset is released, and the boot is due. -/
def State.railsUp (s : State) : State :=
  { s with
    dev := { s.dev with
      host := { s.dev.host with link := if s.pins.perstN then .detect else .heldInReset }
      reset := { s.dev.reset with trip := none } }
    pins := { s.pins with railsOn := true, pwrGood := true, sensorWait := false, thermtrip := false } }

/-- The sequence from t0: it waits at the sensor check while any sensor reads 85 °C or more. A trip that has not been
acknowledged keeps the package off (R742), and so does RESET_N (R917). -/
def State.startUp (s : State) : State :=
  if !s.pins.inputSwitch || s.pins.railsOn || !s.pins.resetN || s.dev.reset.trip.isSome then s
  else if s.pins.cool then s.railsUp
  else { s with pins := { s.pins with sensorWait := true } }

/-- The input switch closes while PSENSE is mated, PWR_EN is high and the input lies above 38.5 V, or below 57.0 V after
an overvoltage (R898, R899); then the sequence starts. An open switch of a current trip stays open (R743). -/
def State.closeSwitch (s : State) : State :=
  let p := s.pins
  if p.psense && p.pwrEn && 38500 < p.inputMv && !p.overvoltage && s.dev.reset.trip.isNone then
    State.startUp { s with pins := { p with inputSwitch := true } }
  else s

/-- PWR_EN rises. -/
def State.pwrEnRise (s : State) : State :=
  if s.pins.pwrEn then s else State.closeSwitch { s with pins := { s.pins with pwrEn := true } }

/-- PWR_EN falls. -/
def State.pwrEnFall (s : State) : State :=
  if !s.pins.pwrEn then s else State.powerDown { s with pins := { s.pins with pwrEn := false } }

/-- PSENSE mates. -/
def State.psenseMate (s : State) : State :=
  if s.pins.psense then s else State.closeSwitch { s with pins := { s.pins with psense := true } }

/-- PSENSE breaks. -/
def State.psenseBreak (s : State) : State :=
  if !s.pins.psense then s else State.powerDown { s with pins := { s.pins with psense := false } }

/-- The input falls below 38.0 V. -/
def State.undervoltage (s : State) (mV : Nat) : State :=
  if 38000 ≤ mV then s else State.powerDown { s with pins := { s.pins with inputMv := mV } }

/-- The input rises above 58.0 V (R899, R900). -/
def State.overvoltage (s : State) (mV : Nat) : State :=
  if mV ≤ 58000 then s else State.powerDown { s with pins := { s.pins with inputMv := mV, overvoltage := true } }

/-- The input returns between its limits. -/
def State.inputReturn (s : State) (mV : Nat) : State :=
  if mV ≤ 38500 || 58000 < mV || (s.pins.overvoltage && 57000 ≤ mV) then s
  else State.closeSwitch { s with pins := { s.pins with inputMv := mV, overvoltage := false } }

/-! ## RESET_N (R742, R901, R917, R922) -/

/-- RESET_N is low while every sensor reads below 85 °C: a trip no longer keeps the package off (R742). -/
def State.acknowledge (s : State) : State :=
  if s.pins.pwrEn && s.pins.cool then s.onDev (fun d => { d with reset := { d.reset with trip := none } }) else s

/-- The power-up sequence stops before its boot has completed: the rails go off, and no reset is counted (R917). -/
def State.sequenceStopped (s : State) : State :=
  { s with
    dev := { s.dev with thimble := {} }
    pins := { s.pins with railsOn := false, pwrGood := false } }

/-- RESET_N goes low for 10 µs or more: a cold reset of a powered package, the end of a sequence in progress, and the
acknowledgement of a trip while every sensor reads below 85 °C. -/
def State.resetNAssert (s : State) : State :=
  let low := { s with pins := { s.pins with resetN := false, sensorWait := false } }
  if !s.pins.pwrEn then { s with pins := { s.pins with resetN := false } }
  else if s.pins.railsOn then (if s.dev.thimble.cold then low.sequenceStopped else low.coldReset 0 none)
  else low.acknowledge

/-- RESET_N is released: the sequence starts from t0; a switch that a current trip has opened closes again. -/
def State.resetNRelease (s : State) : State :=
  if s.pins.resetN then s else State.closeSwitch { s with pins := { s.pins with resetN := true } }

/-! ## Stack training (R402, R665, R666, R916) -/

/-- The stacks of a panel finish training after a boot. A stack that failed to retrain after a warm reset is suspect. -/
def Device.stacksTrained (d : Device) (p : PanelId) (trained : BitVec 4) : Device :=
  let q := d.panel p
  if !d.thimble.booted || (q.state != .idle && q.state != .outOfService) || q.memOn || q.mem.trained != 0 then d
  else
    let d := d.updPMem p (fun m => { m with trained := trained })
    if d.reset.lastKind != 1 then d
    else
      let failed := maskStacks (~~~trained)
      let d := d.updPanel p (fun q => { q with suspects := q.suspects ||| ~~~trained })
      failed.foldl (fun (d : Device) n => (d.raise (suspectRecord p n)).loseStack p n) d

/-! ## Temperature samples (R736 to R738, R742, R916) -/

/-- A sample is kept. Without input power nothing is kept of it but whether the module is cool. -/
def State.keepSample (s : State) (dies : Vector (BitVec 8) 4) (hub : BitVec 8) (stackTemps : Vector (BitVec 8) 32) : State :=
  let read := s.dev.keepTemps dies hub stackTemps
  { s with dev := if s.pins.inputSwitch then read else s.dev, pins := { s.pins with cool := read.power.allCool } }

/-- A kept sample's readings throttle, hold, release or trip a powered package; a sequence that waits goes on once every
sensor reads below 85 °C. -/
def State.judgeSample (s : State) : State :=
  if s.pins.railsOn then
    if s.dev.power.tooHot then s.trip 0x070B true else s.onDev Device.judgeTemps
  else if !s.pins.cool then s
  else if !s.pins.resetN then s.acknowledge
  else if s.pins.sensorWait then s.startUp
  else s

/-- TEMP_SAMPLE. -/
def State.tempSample (s : State) (dies : Vector (BitVec 8) 4) (hub : BitVec 8) (stackTemps : Vector (BitVec 8) 32) : State :=
  (s.keepSample dies hub stackTemps).judgeSample

/-! ## The pins that the module drives (R902 to R904) -/

/-- ALERT_N is asserted: a rating exceeded, a thermal emergency, or a device out of service (R903). -/
def State.alert (s : State) : Bool :=
  s.dev.err.ratingsExceeded || s.dev.power.panels.toList.any (fun q => q.emergency) || s.dev.escalationCode.isSome

/-! ## The commands -/

/-- TEMP_SAMPLE (R736). -/
def execTempSample (dies : Vector (BitVec 8) 4) (hub : BitVec 8) (stackTemps : Vector (BitVec 8) 32) (s : State) : Out :=
  .next (s.tempSample dies hub stackTemps)
/-- PWR_EN_RISE (R916). -/
def execPwrEnRise (s : State) : Out := .next s.pwrEnRise
/-- STACK_TRAINING_DONE (R916). -/
def execStackTrainingDone (panel : PanelId) (trained : BitVec 4) (s : State) : Out := s.run (fun d => d.stacksTrained panel trained)
/-- PWR_EN_FALL (R920). -/
def execPwrEnFall (s : State) : Out := .next s.pwrEnFall
/-- INPUT_UNDERVOLTAGE (R920). -/
def execInputUndervoltage (mV : Nat) (s : State) : Out := .next (s.undervoltage mV)
/-- INPUT_OVERVOLTAGE (R900). -/
def execInputOvervoltage (mV : Nat) (s : State) : Out := .next (s.overvoltage mV)
/-- PSENSE_BREAK (R920). -/
def execPsenseBreak (s : State) : Out := .next s.psenseBreak
/-- RESET_N_ASSERT (R901). -/
def execResetNAssert (s : State) : Out := .next s.resetNAssert
/-- RESET_N_RELEASE (R917). -/
def execResetNRelease (s : State) : Out := .next s.resetNRelease
/-- INPUT_RETURN (R898). -/
def execInputReturn (mV : Nat) (s : State) : Out := .next (s.inputReturn mV)
/-- PSENSE_MATE (R898). -/
def execPsenseMate (s : State) : Out := .next s.psenseMate

end Sys2Proof.Machine
end

