-- ==== Sys2Proof/Machine/Clock.lean ====
section
/-! DEFINITION. The passage of time: a tick of NCLK, the stitch edge, and what takes place at Needle positions
(02_needle_time.md). A tick also carries on what the device does of itself. -/

namespace Sys2Proof.Machine

/-! ## Cycles (R839, R840) -/

/-- The cycles of a clock that end at a time of `now` ns, for a frequency of `mhz`. -/
def cyclesAt (now mhz : Nat) : Nat := now * mhz / 1000 - (now - 1) * mhz / 1000

/-- What blocks the result path of a panel's array, the first cause of R843 that applies: no free half of the commit region,
or a write that waits for a credit. -/
def Device.backCause (d : Device) (p : PanelId) : Option Nat :=
  let q := d.panel p
  if q.array.freeHalf.isNone then some 0x01B
  else if q.mem.stalled.any (fun r => r.write) then some 0x01A
  else none

/-- What starves the array's input, the first cause of R843 that applies. -/
def Device.frontCause (d : Device) (p : PanelId) : Nat :=
  let q := d.panel p
  let a := q.array
  if q.dbg.halted then 0x017
  else if a.shadow.tile.isSome && !a.shadowReady && a.run.isNone then 0x010
  else if !q.mem.stalled.isEmpty then 0x011
  else if a.idle then 0x015
  else if (a.chain && a.run.isSome) || !(d.readyRings p Op.onArray).isEmpty then 0x016
  else 0x017

/-- Array cycles without an entry give their slots to a cause and its class, and to the page of the context whose ring holds
the grant (R843, R847). -/
def Device.starve (d : Device) (p : PanelId) (n : Nat) : Device :=
  if n = 0 then d
  else
    let owner := (((d.panel p).array.grant).map (fun g => g.1)).getD 0
    let (cause, total, k) : Nat × Nat × Fin 16 := match d.backCause p with
      | some c => (c, 0x007, 3)
      | none => (d.frontCause p, 0x006, 2)
    let d := (d.count p { code := cause, ctx := owner } (1024 * n)).count p { code := total, ctx := owner } (1024 * n)
    d.updCtx owner (fun c => { c with pageCounts := c.pageCounts.set k (c.pageCounts[k] + 1024 * n) })

/-- Array cycles of a panel: those that enter vectors of the tacks begun are spent first, the rest are starved (R841 to
R843). -/
def Device.arrayCycles (d : Device) (p : PanelId) (n : Nat) : Device :=
  let m := min n (d.panel p).entryDue
  (d.updPanel p (fun q => { q with entryDue := q.entryDue - m })).starve p (n - m)

/-- Count the cycles of a panel that a tick ends. -/
def Device.panelCycles (d : Device) (p : PanelId) : Device :=
  let w := d.power.panels[p.val]
  let n := cyclesAt d.now (if w.stretched then w.freq * 32 else w.freq * 40)
  if n = 0 || !(d.panel p).enabled then d
  else
    let d := if (d.panel p).stateCode = 1 then (d.count p { code := 0x001 } n).arrayCycles p n else d
    let d := if (d.panel p).array.chain then d.count p { code := 0x025 } n else d
    if w.stretched then d.count p { code := 0x026 } n else d

/-- Count the cycles of SCLK, 1.2 GHz, and of every panel. -/
def Device.countCycles (d : Device) : Device :=
  (List.finRange 8).foldl (fun (d : Device) p => d.panelCycles p) (d.countHub { code := 0x100 } (cyclesAt d.now 1200))

/-! ## Packets that have reached this module (R512) -/

/-- Hand a packet to the unit that its TYPE names. -/
def Device.handPacket (d : Device) (ingress : Fin 25) (p : Packet) : Device :=
  let h := p.head
  let port : Option PortId := if hp : ingress.val < 24 then some ⟨ingress.val, hp⟩ else none
  match p.body with
  | .readRequest n => d.remoteRead h n
  | .writeRequest bs => d.remoteWrite h bs
  | .readData _ => d.response h
  | .writeAck => d.response h
  | .refusal c => d.refused h c
  | .lossNotice => d.refused h 0x0420
  | .relayGrant g => d.takeGrant h g
  | .relayBlock b => d.takeBlock h b
  | .relayAck a => d.takeAck h a
  | .joinNotice n => d.joinNotice h n
  | .exponentPair q => d.exponentPair h q
  | .exponentResult q => d.exponentResult h q
  | .tally w => d.tallyWords h w
  | .noise n => d.noiseStatistic h n
  | .returnData r => d.returnData h r
  | .collGrant g => d.collGrant h g
  | .collData m => d.collData h m
  | .ready r => d.takeReady r
  | .decide q => d.takeDecide port q
  | .abort a => d.abortPacket port a

/-- Hand over every packet that has reached this module, in the order of arrival. -/
def Device.handInbox (d : Device) : Device :=
  d.fabric.inbox.foldl (fun (d : Device) p => d.handPacket p.1 p.2) { d with fabric := { d.fabric with inbox := [] } }

/-! ## Lost modules at a stitch boundary (R558, R590, R690) -/

/-- Every collective of a communicator that includes a lost module ends, in ring order, and it is broken. -/
def Device.peerLost (d : Device) (ctx : Code) (k : Comm) : Device :=
  let mine (x : Desc) : Bool := x.underWay && BitVec.ofNat 32 (x.f 36 4) = k.commId
    && x.op?.any (fun o => o.neverSkips && o != .relay && o != .fitting)
  let d := (List.finRange 4).foldl (fun (d : Device) n =>
    (((d.ring? ctx n).map (fun r => r.queue.filter mine)).getD []).foldl (fun (d : Device) x => d.finish ctx n x 0x0A01 0 none) d) d
  d.updComm ctx k.commId (fun q => { q with broken := true })

/-- The communicators that have learned of a loss since the last boundary. -/
def Device.losers (d : Device) : List (Code × Comm) :=
  d.contexts.flatMap (fun c => (c.comms.filter (fun k => !k.broken && k.lostMods.any (fun m => d.hasModule c.id k m))).map
    (fun k => (c.id, k)))

/-- Losses act at a stitch boundary: an abort for the commit communicator's step, unless one is held, and 0x0A01. -/
def Device.lossBoundary (d : Device) : Device :=
  let ls := d.losers
  let t := d.preparing
  let lost := (ls.filter (fun ck => ck.2.commitComm)).head?.bind
    (fun ck => ck.2.lostMods.find? (fun m => d.hasModule ck.1 ck.2 m))
  let d := match lost with
    | some m => if d.abortHeld t then d else d.issueAbort t 0x0A01 (BitVec.ofNat 16 m)
    | none => if d.commit.lostSelf && !d.abortHeld t then d.issueAbort t 0x0A01 (d.modNum.setWidth 16) else d
  ls.foldl (fun (d : Device) ck => d.peerLost ck.1 ck.2) { d with commit := { d.commit with lostSelf := false } }

/-! ## Positions (R29, R31, R58, R59) -/

/-- The events that take place at stitch edges only: losses, Fitting snapshots, the power ramp step. -/
def Device.edgeEvents (d : Device) : Device :=
  let d := d.lossBoundary
  let d := d.fabric.fittings.foldl (fun (d : Device) f => d.snapshot f.ctx f.ring) d
  if d.rampDue then d.rampStep else d

/-- The events of the position that the counter has reached, in the order of R59. -/
def Device.positionEvents (d : Device) : Device :=
  let d := d.voteDeadline.updateCommit
  let d := if d.needle.tick = 0 then d.edgeEvents else d
  let d := d.allRings.foldl (fun (d : Device) r => d.collPhase r.1 r.2) d
  let d := d.fabric.relays.foldl (fun (d : Device) r => d.relaySend r.ctx r.ring) d
  let d := d.allRings.foldl (fun (d : Device) r => d.descStart r.1 r.2) d
  let d := if d.snapshotDue then d.takeSnapshot else d
  (List.finRange 8).foldl (fun (d : Device) p => d.heartbeat p) d

/-- The events of a position that the counter has been loaded with (R31): they take place before it counts on. -/
def Device.arrivalEvents (d : Device) : Device :=
  if !d.needle.arrived then d
  else
    let d := d.updNeedle (fun n => { n with arrived := false })
    if d.needle.state.runs then d.positionEvents else d

/-- What goes on while the counter is stopped in LISTEN: counter dumps and heartbeats (R54, R853). -/
def Device.stoppedEvents (d : Device) : Device :=
  let d := if d.snapshotDue then d.takeSnapshot else d
  (List.finRange 8).foldl (fun (d : Device) p => d.heartbeat p) d

/-- The counter of a running Needle after one more tick (R29); the edge of a stitch whose number is a multiple of 65,536
starts a pulse on STITCH_OUT (R905). -/
def Needle.count (n : Needle) (ns now : Nat) : Needle :=
  if n.tick + 1 < ns then { n with tick := n.tick + 1 }
  else
    let s := (n.stitch + 1) % 2 ^ 48
    { n with stitch := s, tick := 0, stitchOut := if s % 65536 = 0 then some now else n.stitchOut }

/-- The counter counts one tick; records held for coalescing are placed at a stitch edge (R640). -/
def Device.countNeedle (d : Device) : Device :=
  if !d.needle.state.runs then d
  else
    let d := d.updNeedle (fun n => n.count d.stitchNs d.now)
    if d.needle.tick = 0 then d.flushCoalesced else d

/-- The timers of the Needle: pulses, election, takeover, holdover and lock limits, markers (R36, R37, R40, R50, R905). -/
def Device.needleTimers (d : Device) : Device :=
  let d := match d.needle.stitchOut with
    | some t => if 500 ≤ d.now - t then d.updNeedle (fun n => { n with stitchOut := none }) else d
    | none => d
  d.election.takeover.holdoverEntry.holdoverLimit.lockTimeout.reacquireTimeout.markerEmit

/-- What goes on of itself: packets, memory requests, collectives and relays, a vote that has become due, readiness, records and
dumps that wait. -/
def Device.carryOn (d : Device) : Device :=
  let d := d.handInbox.issueRequests
  (d.settle.relaySettle.tryVote.noteReady.writeRecord.resetsGoOn).writeDump

/-- One NCLK tick of a powered package. -/
def Device.tick (d : Device) : Device :=
  let d := { d.arrivalEvents with now := d.now + 1 }.countCycles.countNeedle.needleTimers
  (if d.needle.state.runs then d.positionEvents else if d.needle.state = .listen then d.stoppedEvents else d).carryOn

/-- The counter of a powered package comes to its next stitch edge: `n` ticks pass. -/
def Device.ticks : Nat → Device → Device
  | 0, d => d
  | n + 1, d => Device.ticks n d.tick

/-- STITCH_EDGE (R29): the ticks up to the next edge pass; a counter that is stopped has no edge. -/
def Device.stitchEdge (d : Device) : Device :=
  if d.needle.state.runs then Device.ticks (d.stitchNs - d.needle.tick) d else d

/-- One tick with no command waiting (assumption log 10): a package without rails only grows older. -/
def State.tick (s : State) : State :=
  if s.pins.railsOn then (s.onDev Device.tick).dapThimble
  else s.onDev (fun d => { d with now := d.now + 1 })

/-- STITCH_EDGE (R29). -/
def execStitchEdge (s : State) : Out := s.run Device.stitchEdge

end Sys2Proof.Machine
end

