-- ==== Sys2Proof/Machine/Dispatch.lean ====
section
/-! DEFINITION. The dispatcher: one arm for each command. -/

namespace Sys2Proof.Machine

/-- The effect of a command on everything but the queue of waiting commands. -/
def exec (i : Instr) (s : State) : Host.Outcome State Fault Refusal :=
  match i with
  | .needleEnable value => Sys2Proof.Machine.execNeedleEnable value s
  | .needleDisable value => Sys2Proof.Machine.execNeedleDisable value s
  | .markerReceive port m phase100ps => Sys2Proof.Machine.execMarkerReceive port m phase100ps s
  | .markerEmit => Sys2Proof.Machine.execMarkerEmit s
  | .stitchEdge => Sys2Proof.Machine.execStitchEdge s
  | .stitchOutEnd => Sys2Proof.Machine.execStitchOutEnd s
  | .election => Sys2Proof.Machine.execElection s
  | .takeover => Sys2Proof.Machine.execTakeover s
  | .holdoverEntry => Sys2Proof.Machine.execHoldoverEntry s
  | .holdoverLimit => Sys2Proof.Machine.execHoldoverLimit s
  | .lockTimeout => Sys2Proof.Machine.execLockTimeout s
  | .reacquireTimeout => Sys2Proof.Machine.execReacquireTimeout s
  | .needleCounterFault => Sys2Proof.Machine.execNeedleCounterFault s
  | .lowHalfReadLatch offset => Sys2Proof.Machine.execLowHalfReadLatch offset s
  | .pmcChainedRead scope n => Sys2Proof.Machine.execPmcChainedRead scope n s
  | .descriptorStart ctx ring => Sys2Proof.Machine.execDescriptorStart ctx ring s
  | .heartbeat panel => Sys2Proof.Machine.execHeartbeat panel s
  | .stepAbortApply => Sys2Proof.Machine.execStepAbortApply s
  | .updateCommit => Sys2Proof.Machine.execUpdateCommit s
  | .fittingSnapshot ctx ring => Sys2Proof.Machine.execFittingSnapshot ctx ring s
  | .powerRampStep => Sys2Proof.Machine.execPowerRampStep s
  | .collectivePhase ctx ring => Sys2Proof.Machine.execCollectivePhase ctx ring s
  | .counterDumpSnapshot => Sys2Proof.Machine.execCounterDumpSnapshot s
  | .dumpRecordWrite => Sys2Proof.Machine.execDumpRecordWrite s
  | .relayStepStart ctx ring => Sys2Proof.Machine.execRelayStepStart ctx ring s
  | .tackBoundary panel => Sys2Proof.Machine.execTackBoundary panel s
  | .tackCommit panel => Sys2Proof.Machine.execTackCommit panel s
  | .tackCheckFail panel column entry diff parity => Sys2Proof.Machine.execTackCheckFail panel column entry diff parity s
  | .shadowLoadDone panel => Sys2Proof.Machine.execShadowLoadDone panel s
  | .certRun panel => Sys2Proof.Machine.execCertRun panel s
  | .certComplete panel pass => Sys2Proof.Machine.execCertComplete panel pass s
  | .matmul ctx ring => Sys2Proof.Machine.execMatmul ctx ring s
  | .seam ctx ring => Sys2Proof.Machine.execSeam ctx ring s
  | .seamCtlChainReg ctx ring => Sys2Proof.Machine.execSeamCtlChainReg ctx ring s
  | .seamCtlTableLoad ctx ring => Sys2Proof.Machine.execSeamCtlTableLoad ctx ring s
  | .storeCtlConfig ctx ring => Sys2Proof.Machine.execStoreCtlConfig ctx ring s
  | .storeCtlRecomp ctx ring => Sys2Proof.Machine.execStoreCtlRecomp ctx ring s
  | .storeCtlRelease ctx ring => Sys2Proof.Machine.execStoreCtlRelease ctx ring s
  | .gussetOpen ctx ring => Sys2Proof.Machine.execGussetOpen ctx ring s
  | .gussetAcc ctx ring => Sys2Proof.Machine.execGussetAcc ctx ring s
  | .gussetFlush ctx ring => Sys2Proof.Machine.execGussetFlush ctx ring s
  | .copy ctx ring => Sys2Proof.Machine.execCopy ctx ring s
  | .fill ctx ring => Sys2Proof.Machine.execFill ctx ring s
  | .memWindowOpen ctx ring => Sys2Proof.Machine.execMemWindowOpen ctx ring s
  | .memWindowClose ctx ring => Sys2Proof.Machine.execMemWindowClose ctx ring s
  | .sync ctx ring => Sys2Proof.Machine.execSync ctx ring s
  | .commJoin ctx ring => Sys2Proof.Machine.execCommJoin ctx ring s
  | .commLeave ctx ring => Sys2Proof.Machine.execCommLeave ctx ring s
  | .reduce ctx ring => Sys2Proof.Machine.execReduce ctx ring s
  | .allreduce ctx ring => Sys2Proof.Machine.execAllreduce ctx ring s
  | .broadcast ctx ring => Sys2Proof.Machine.execBroadcast ctx ring s
  | .collReturn ctx ring => Sys2Proof.Machine.execCollReturn ctx ring s
  | .collSend ctx ring => Sys2Proof.Machine.execCollSend ctx ring s
  | .collRecv ctx ring => Sys2Proof.Machine.execCollRecv ctx ring s
  | .relay ctx ring => Sys2Proof.Machine.execRelay ctx ring s
  | .fitting ctx ring => Sys2Proof.Machine.execFitting ctx ring s
  | .stepCommitDefine ctx ring => Sys2Proof.Machine.execStepCommitDefine ctx ring s
  | .stepCommitCommit ctx ring => Sys2Proof.Machine.execStepCommitCommit ctx ring s
  | .stepCommitAbort ctx ring => Sys2Proof.Machine.execStepCommitAbort ctx ring s
  | .descriptorFetch ctx ring => Sys2Proof.Machine.execDescriptorFetch ctx ring s
  | .descriptorComplete ctx ring => Sys2Proof.Machine.execDescriptorComplete ctx ring s
  | .admitContext => Sys2Proof.Machine.execAdmitContext s
  | .leave => Sys2Proof.Machine.execLeave s
  | .resume => Sys2Proof.Machine.execResume s
  | .flush => Sys2Proof.Machine.execFlush s
  | .remap => Sys2Proof.Machine.execRemap s
  | .admitEnable value => Sys2Proof.Machine.execAdmitEnable value s
  | .admitDisable value => Sys2Proof.Machine.execAdmitDisable value s
  | .doorbellPoll => Sys2Proof.Machine.execDoorbellPoll s
  | .snpinv addr line => Sys2Proof.Machine.execSnpinv addr line s
  | .snpdata addr => Sys2Proof.Machine.execSnpdata addr s
  | .snpcur addr => Sys2Proof.Machine.execSnpcur addr s
  | .swapOut ctx => Sys2Proof.Machine.execSwapOut ctx s
  | .swapIn ctx => Sys2Proof.Machine.execSwapIn ctx s
  | .bobbinPrefetch ctx => Sys2Proof.Machine.execBobbinPrefetch ctx s
  | .memEnable panel value => Sys2Proof.Machine.execMemEnable panel value s
  | .memDisable panel value => Sys2Proof.Machine.execMemDisable panel value s
  | .retireLoad panel value => Sys2Proof.Machine.execRetireLoad panel value s
  | .retireLoadDone panel => Sys2Proof.Machine.execRetireLoadDone panel s
  | .memRetireAdd panel value => Sys2Proof.Machine.execMemRetireAdd panel value s
  | .memoryReadReturn mpa error by_ => Sys2Proof.Machine.execMemoryReadReturn mpa error by_ s
  | .rateWindowEnd panel => Sys2Proof.Machine.execRateWindowEnd panel s
  | .scrubRead panel access error => Sys2Proof.Machine.execScrubRead panel access error s
  | .refresh panel stack channel => Sys2Proof.Machine.execRefresh panel stack channel s
  | .interfaceMaintenance panel stack channel => Sys2Proof.Machine.execInterfaceMaintenance panel stack channel s
  | .stackSensorSample panel stack hottest => Sys2Proof.Machine.execStackSensorSample panel stack hottest s
  | .requestPromotion panel channel => Sys2Proof.Machine.execRequestPromotion panel channel s
  | .memrd offset => Sys2Proof.Machine.execMemrd offset s
  | .memrddata offset => Sys2Proof.Machine.execMemrddata offset s
  | .memwr offset data poison => Sys2Proof.Machine.execMemwr offset data poison s
  | .memwrptl offset data mask poison => Sys2Proof.Machine.execMemwrptl offset data mask poison s
  | .meminv offset => Sys2Proof.Machine.execMeminv offset s
  | .portEnable port value => Sys2Proof.Machine.execPortEnable port value s
  | .portDisable port value => Sys2Proof.Machine.execPortDisable port value s
  | .portDrain port value => Sys2Proof.Machine.execPortDrain port value s
  | .portUndrain port value => Sys2Proof.Machine.execPortUndrain port value s
  | .drainComplete port => Sys2Proof.Machine.execDrainComplete port s
  | .lcRemoveRequest value => Sys2Proof.Machine.execLcRemoveRequest value s
  | .lcRemoveRelease value genuine => Sys2Proof.Machine.execLcRemoveRelease value genuine s
  | .lcLasersLocked cart => Sys2Proof.Machine.execLcLasersLocked cart s
  | .lcLockTimeout cart => Sys2Proof.Machine.execLcLockTimeout cart s
  | .lcLatchOpen cart => Sys2Proof.Machine.execLcLatchOpen cart s
  | .linkCtlIdentity port peer => Sys2Proof.Machine.execLinkCtlIdentity port peer s
  | .keyExchangeDone port ok => Sys2Proof.Machine.execKeyExchangeDone port ok s
  | .linkTrainingComplete port credits => Sys2Proof.Machine.execLinkTrainingComplete port credits s
  | .portTrainTimeout port => Sys2Proof.Machine.execPortTrainTimeout port s
  | .codewordReceive port cw => Sys2Proof.Machine.execCodewordReceive port cw s
  | .replayTimeout port => Sys2Proof.Machine.execReplayTimeout port s
  | .linkCtlDown port moduleCause => Sys2Proof.Machine.execLinkCtlDown port moduleCause s
  | .peerSilence port => Sys2Proof.Machine.execPeerSilence port s
  | .laneSignalLost port lane => Sys2Proof.Machine.execLaneSignalLost port lane s
  | .codewordLockLost port => Sys2Proof.Machine.execCodewordLockLost port s
  | .routeHoldExpiry dst => Sys2Proof.Machine.execRouteHoldExpiry dst s
  | .autoRetrain port => Sys2Proof.Machine.execAutoRetrain port s
  | .packetForward ingress pkt => Sys2Proof.Machine.execPacketForward ingress pkt s
  | .remoteRead head bytes => Sys2Proof.Machine.execRemoteRead head bytes s
  | .remoteWrite head data => Sys2Proof.Machine.execRemoteWrite head data s
  | .remoteResponse head data => Sys2Proof.Machine.execRemoteResponse head data s
  | .refusal head code => Sys2Proof.Machine.execRefusal head code s
  | .lossNotice head => Sys2Proof.Machine.execLossNotice head s
  | .responseTimeout xtag => Sys2Proof.Machine.execResponseTimeout xtag s
  | .routeLoad value => Sys2Proof.Machine.execRouteLoad value s
  | .routeLoadDone => Sys2Proof.Machine.execRouteLoadDone s
  | .routeSwap value => Sys2Proof.Machine.execRouteSwap value s
  | .relayGrant head grant => Sys2Proof.Machine.execRelayGrant head grant s
  | .relayBlock head block => Sys2Proof.Machine.execRelayBlock head block s
  | .relayAck head ack => Sys2Proof.Machine.execRelayAck head ack s
  | .joinNotice head notice => Sys2Proof.Machine.execJoinNotice head notice s
  | .exponentPair head pair => Sys2Proof.Machine.execExponentPair head pair s
  | .exponentResult head pair => Sys2Proof.Machine.execExponentResult head pair s
  | .tallyWords head words => Sys2Proof.Machine.execTallyWords head words s
  | .noiseStatistic head stat => Sys2Proof.Machine.execNoiseStatistic head stat s
  | .returnData head slice => Sys2Proof.Machine.execReturnData head slice s
  | .collGrant head grant => Sys2Proof.Machine.execCollGrant head grant s
  | .collData head data => Sys2Proof.Machine.execCollData head data s
  | .commitReady head ready => Sys2Proof.Machine.execCommitReady head ready s
  | .commitDecide port decide_ => Sys2Proof.Machine.execCommitDecide port decide_ s
  | .commitVoteDeadline => Sys2Proof.Machine.execCommitVoteDeadline s
  | .stepAbortPacket port abort => Sys2Proof.Machine.execStepAbortPacket port abort s
  | .seamResidueFail panel stage lane => Sys2Proof.Machine.execSeamResidueFail panel stage lane s
  | .reduceResidueFail panel wordAddr again => Sys2Proof.Machine.execReduceResidueFail panel wordAddr again s
  | .nearmemResidueFail panel elementAddr again => Sys2Proof.Machine.execNearmemResidueFail panel elementAddr again s
  | .seqLockstepMismatch panel output fwPc => Sys2Proof.Machine.execSeqLockstepMismatch panel output fwPc s
  | .hubLockstepMismatch output fwPc => Sys2Proof.Machine.execHubLockstepMismatch output fwPc s
  | .cfgParityError offset flipped => Sys2Proof.Machine.execCfgParityError offset flipped s
  | .cfgShadowCheck bad => Sys2Proof.Machine.execCfgShadowCheck bad s
  | .clockFault domain kHz => Sys2Proof.Machine.execClockFault domain kHz s
  | .railFault rail mV => Sys2Proof.Machine.execRailFault rail mV s
  | .thimbleSelfCheckFail engine => Sys2Proof.Machine.execThimbleSelfCheckFail engine s
  | .sramCorrected panel where_ bank addr bit => Sys2Proof.Machine.execSramCorrected panel where_ bank addr bit s
  | .sramUncorrectable panel place bank addr => Sys2Proof.Machine.execSramUncorrectable panel place bank addr s
  | .yokeRetryLimit yokePort => Sys2Proof.Machine.execYokeRetryLimit yokePort s
  | .hostLinkError lane replays => Sys2Proof.Machine.execHostLinkError lane replays s
  | .checkerSelftest checker seen => Sys2Proof.Machine.execCheckerSelftest checker seen s
  | .errorRecordWrite => Sys2Proof.Machine.execErrorRecordWrite s
  | .irqModerationExpiry panel => Sys2Proof.Machine.execIrqModerationExpiry panel s
  | .panelReset panel value => Sys2Proof.Machine.execPanelReset panel value s
  | .panelResetDone panel retrained => Sys2Proof.Machine.execPanelResetDone panel retrained s
  | .deviceWarmReset value zeroised imageSame => Sys2Proof.Machine.execDeviceWarmReset value zeroised imageSame s
  | .deviceColdReset value => Sys2Proof.Machine.execDeviceColdReset value s
  | .escalationWindowExpiry device => Sys2Proof.Machine.execEscalationWindowExpiry device s
  | .powerSample watts millivolts => Sys2Proof.Machine.execPowerSample watts millivolts s
  | .droopTrip panel detector mV => Sys2Proof.Machine.execDroopTrip panel detector mV s
  | .droopStretchEnd panel => Sys2Proof.Machine.execDroopStretchEnd panel s
  | .freqStepDeferred panel => Sys2Proof.Machine.execFreqStepDeferred panel s
  | .tempSample dies hub stackTemps => Sys2Proof.Machine.execTempSample dies hub stackTemps s
  | .currentTrip => Sys2Proof.Machine.execCurrentTrip s
  | .admitHoldTimer => Sys2Proof.Machine.execAdmitHoldTimer s
  | .sprintLimit => Sys2Proof.Machine.execSprintLimit s
  | .lifetimeUpdate => Sys2Proof.Machine.execLifetimeUpdate s
  | .pwrRegWrite offset size value => Sys2Proof.Machine.execPwrRegWrite offset size value s
  | .certChain => Sys2Proof.Machine.execCertChain s
  | .attest => Sys2Proof.Machine.execAttest s
  | .keyOpen => Sys2Proof.Machine.execKeyOpen s
  | .keyInstall => Sys2Proof.Machine.execKeyInstall s
  | .authRegister => Sys2Proof.Machine.execAuthRegister s
  | .authRemove => Sys2Proof.Machine.execAuthRemove s
  | .debugChallenge => Sys2Proof.Machine.execDebugChallenge s
  | .debugUnlock => Sys2Proof.Machine.execDebugUnlock s
  | .fwStage => Sys2Proof.Machine.execFwStage s
  | .kemPairExpiry slot => Sys2Proof.Machine.execKemPairExpiry slot s
  | .thimbleBoot storeSound => Sys2Proof.Machine.execThimbleBoot storeSound s
  | .frameZeroed frame => Sys2Proof.Machine.execFrameZeroed frame s
  | .deviceEnable value => Sys2Proof.Machine.execDeviceEnable value s
  | .deviceDisable value => Sys2Proof.Machine.execDeviceDisable value s
  | .configRequest offset write => Sys2Proof.Machine.execConfigRequest offset write s
  | .hdmCommit commit base size ways lock => Sys2Proof.Machine.execHdmCommit commit base size ways lock s
  | .atsInvalidate addr size => Sys2Proof.Machine.execAtsInvalidate addr size s
  | .hostAccessFault use addr refused => Sys2Proof.Machine.execHostAccessFault use addr refused s
  | .hostFaultClear value => Sys2Proof.Machine.execHostFaultClear value s
  | .doeRequest obj => Sys2Proof.Machine.execDoeRequest obj s
  | .perstAssert => Sys2Proof.Machine.execPerstAssert s
  | .hotReset => Sys2Proof.Machine.execHotReset s
  | .linkDisable => Sys2Proof.Machine.execLinkDisable s
  | .d3hotEntry => Sys2Proof.Machine.execD3hotEntry s
  | .hostLinkLoss => Sys2Proof.Machine.execHostLinkLoss s
  | .linkRecovery enter => Sys2Proof.Machine.execLinkRecovery enter s
  | .pmcClear scope value => Sys2Proof.Machine.execPmcClear scope value s
  | .pmcFreeze scope value => Sys2Proof.Machine.execPmcFreeze scope value s
  | .dumpEnable value => Sys2Proof.Machine.execDumpEnable value s
  | .tapReset => Sys2Proof.Machine.execTapReset s
  | .idcode => Sys2Proof.Machine.execIdcode s
  | .samplePreload => Sys2Proof.Machine.execSamplePreload s
  | .extest => Sys2Proof.Machine.execExtest s
  | .dap => Sys2Proof.Machine.execDap s
  | .bypass => Sys2Proof.Machine.execBypass s
  | .dapNop => Sys2Proof.Machine.execDapNop s
  | .dapRead32 space addr => Sys2Proof.Machine.execDapRead32 space addr s
  | .dapWrite32 space addr data => Sys2Proof.Machine.execDapWrite32 space addr data s
  | .dapReadInc space addr => Sys2Proof.Machine.execDapReadInc space addr s
  | .dapWriteInc space addr data => Sys2Proof.Machine.execDapWriteInc space addr data s
  | .dapChallenge => Sys2Proof.Machine.execDapChallenge s
  | .dapUnlock => Sys2Proof.Machine.execDapUnlock s
  | .dapHalt space addr => Sys2Proof.Machine.execDapHalt space addr s
  | .dapResume space addr => Sys2Proof.Machine.execDapResume space addr s
  | .dapStep space addr => Sys2Proof.Machine.execDapStep space addr s
  | .dapStepTack space addr => Sys2Proof.Machine.execDapStepTack space addr s
  | .breakpointHit panel index pc => Sys2Proof.Machine.execBreakpointHit panel index pc s
  | .watchpointHit panel index pc addr write => Sys2Proof.Machine.execWatchpointHit panel index pc addr write s
  | .panelEnable panel value => Sys2Proof.Machine.execPanelEnable panel value s
  | .panelDisable panel value => Sys2Proof.Machine.execPanelDisable panel value s
  | .registerWrite offset size value => Sys2Proof.Machine.execRegisterWrite offset size value s
  | .pwrEnRise => Sys2Proof.Machine.execPwrEnRise s
  | .stackTrainingDone panel trained => Sys2Proof.Machine.execStackTrainingDone panel trained s
  | .pwrEnFall => Sys2Proof.Machine.execPwrEnFall s
  | .inputUndervoltage mV => Sys2Proof.Machine.execInputUndervoltage mV s
  | .inputOvervoltage mV => Sys2Proof.Machine.execInputOvervoltage mV s
  | .psenseBreak => Sys2Proof.Machine.execPsenseBreak s
  | .resetNAssert => Sys2Proof.Machine.execResetNAssert s
  | .resetNRelease => Sys2Proof.Machine.execResetNRelease s
  | .nextCodeword port => Sys2Proof.Machine.execNextCodeword port s
  | .codewordLock port => Sys2Proof.Machine.execCodewordLock port s
  | .railReturn rail => Sys2Proof.Machine.execRailReturn rail s
  | .railWindowTimeout rail => Sys2Proof.Machine.execRailWindowTimeout rail s
  | .clockReturn domain => Sys2Proof.Machine.execClockReturn domain s
  | .hostLinkUp cxl width speed => Sys2Proof.Machine.execHostLinkUp cxl width speed s
  | .perstRelease => Sys2Proof.Machine.execPerstRelease s
  | .inputReturn mV => Sys2Proof.Machine.execInputReturn mV s
  | .psenseMate => Sys2Proof.Machine.execPsenseMate s
  | .lcLatchClose cart => Sys2Proof.Machine.execLcLatchClose cart s

end Sys2Proof.Machine
end

