-- ==== Sys2Proof/Safety.lean ====
section
/-! DEFINITION. The terms in which statements speak of runs. -/

namespace Sys2Proof.Machine

/-- The command answers a next state, and that state has a property. -/
def Completes (c : Instr) (s : State) (P : State → Prop) : Prop :=
  ∃ t, exec c s = .next t ∧ P t

/-- The pins agree with one another: rails only with the switch closed, power good, RESET_N high and no trip shown; a closed
switch only with PWR_EN high, PSENSE mated and the input between its limits (R898 to R904, R916, R920). -/
def State.PinsAgree (s : State) : Prop :=
  let p := s.pins
  (p.railsOn = true → p.inputSwitch = true ∧ p.resetN = true ∧ p.thermtrip = false ∧ p.sensorWait = false) ∧
  p.pwrGood = p.railsOn ∧
  (p.inputSwitch = true → p.pwrEn = true ∧ p.psense = true ∧ p.overvoltage = false ∧ 38000 ≤ p.inputMv) ∧
  (p.sensorWait = true → p.inputSwitch = true) ∧
  (p.overvoltage = false → p.inputMv ≤ 58000)

/-- The fuse counters lie within their fuses, and the lifetime counters within their registers (R741, R761, R790). -/
def State.FusesLegal (s : State) : Prop :=
  s.vault.debugCount ≤ 32 ∧ s.vault.thimbleSvn ≤ 64 ∧ s.vault.mainSvn ≤ 64 ∧ s.vault.poweredMin < 2 ^ 32 ∧
  s.vault.sprintSeconds < 2 ^ 32

/-- No fuse counter and no lifetime record of `t` has gone back from `s`. -/
def State.KeepsFuses (s t : State) : Prop :=
  s.vault.debugCount ≤ t.vault.debugCount ∧ s.vault.thimbleSvn ≤ t.vault.thimbleSvn ∧ s.vault.mainSvn ≤ t.vault.mainSvn ∧
  s.vault.poweredMin ≤ t.vault.poweredMin ∧ s.vault.sprintSeconds ≤ t.vault.sprintSeconds ∧
  (s.vault.serviceRequired = true → t.vault.serviceRequired = true)

/-- A command that acts on a package without rails: the supplies and pins of the module, its sensors, and the timers of the
housekeeping domain. -/
def isModuleCommand : Instr → Bool
  | .pwrEnRise | .pwrEnFall | .psenseMate | .psenseBreak | .resetNAssert | .resetNRelease | .perstAssert | .perstRelease => true
  | .inputUndervoltage _ | .inputOvervoltage _ | .inputReturn _ | .tempSample _ _ _ | .escalationWindowExpiry _ => true
  | _ => false

/-- Nothing of the device but panel `p` has changed. -/
def Device.OnlyPanel (d e : Device) (p : PanelId) : Prop :=
  e = { d with panels := e.panels } ∧ ∀ q, q ≠ p → e.panel q = d.panel q

/-- Nothing of the device but port `n` has changed. -/
def Device.OnlyPort (d e : Device) (n : PortId) : Prop :=
  e = { d with ports := e.ports } ∧ ∀ m, m ≠ n → e.port m = d.port m

/-- The step changed nothing outside the device: queue, pins and fuses stay. -/
def State.OnlyDevice (s t : State) : Prop := t = { s with dev := t.dev }

/-! ## A ring with one descriptor -/

/-- A ring's one descriptor: checked, without a start position, and its context served by its panel, so that its operation
may run. -/
structure Device.Lone (d : Device) (ctx : Code) (ring : RingId) (o : Op) (c : Context) (r : Ring) (x : Desc) : Prop where
  context : d.ctx? ctx = some c
  ring : c.ring? ring = some r
  queue : r.queue = [x]
  runs : r.halted = false
  checked : x.phase = .checked
  notBegun : x.begun = false
  operation : x.op? = some o
  noStart : x.startEn = false
  noFill : x.work.stash = none
  served : d.serves c = true

/-- A descriptor of a context as it is when it has begun in time (R580). -/
def Desc.started (x : Desc) (c : Context) : Desc :=
  { x with begun := true, phase := .running, work := {}, inner := none, views := c.sets.map (fun s => (s.index, s.active)), keyEpoch := (c.keys.head?.map (fun k => k.epoch)).getD 0 }

/-- The device once a ring's descriptor has begun. -/
def Device.begun (d : Device) (ctx : Code) (ring : RingId) (c : Context) (x : Desc) : Device :=
  d.updDesc ctx ring x.seq (fun _ => x.started c)

/-- The device once a ring's descriptor has finished with a status that needs no record: its reads have been answered. -/
def Device.ended (d : Device) (ctx : Code) (ring : RingId) (x : Desc) (status : Code) : Device :=
  (d.answered (.descriptor ctx ring)).updDesc ctx ring x.seq (fun z => { z with phase := .finished status, ticket := none })

/-- A descriptor's tacks in turn: each begins under the cap of its context, runs on its panel's array or DMA engine, and commits,
until the descriptor has finished. -/
inductive Device.Tacks (ctx : Code) (ring : RingId) (seq : Nat) : Nat → Device → Device → Prop
  | done (d : Device) (y : Desc) : d.desc? ctx ring seq = some y → y.isFinished = true → Tacks ctx ring seq 0 d d
  | array (n : Nat) (d e : Device) (c : Context) (y : Desc) (cap : Option Nat) (t : TackRun) :
      d.ctx? ctx = some c → d.desc? ctx ring seq = some y → y.isFinished = false → d.capFor c y = some cap →
      ((d.tackBegin ctx ring seq cap none).panel c.panel).array.run = some t → t.ref = ⟨ctx, ring, seq⟩ →
      Tacks ctx ring seq n ((d.tackBegin ctx ring seq cap none).commitArray c.panel) e → Tacks ctx ring seq (n + 1) d e
  | dma (n : Nat) (d e : Device) (c : Context) (y : Desc) (cap : Option Nat) (t : TackRun) :
      d.ctx? ctx = some c → d.desc? ctx ring seq = some y → y.isFinished = false → d.capFor c y = some cap →
      ((d.tackBegin ctx ring seq cap none).panel c.panel).array.run = none →
      ((d.tackBegin ctx ring seq cap none).panel c.panel).array.dma = some t → t.ref = ⟨ctx, ring, seq⟩ →
      Tacks ctx ring seq n ((d.tackBegin ctx ring seq cap none).commitDma c.panel) e → Tacks ctx ring seq (n + 1) d e

end Sys2Proof.Machine
end

