-- ==== Sys2Proof/Certificates/Slice0/Obligations.lean ====
section
/-! DEFINITION. The statements for the provers, from the rules of the manual. -/

open Sys2Proof Sys2Proof.Machine

/-! ## The queue of commands and the whole machine -/

/-- A step with a command waiting runs the command at the front of the queue on the state with the queue's rest. -/
def Obligations.StepRunsFrontCommand : Prop :=
  ∀ (c : Instr) (s : State), step { s with pending := c :: s.pending } = exec c s

/-- Every command is answered with a next state, in every state, and leaves the commands that wait behind it as they
are (the model stops on none; log 5 and log 10 say what a package without rails does). -/
def Obligations.EveryCommandAnswers : Prop :=
  ∀ (c : Instr) (s : State), ∃ t, exec c s = .next t ∧ t.pending = s.pending

/-! ## Needle time -/

/-- NEEDLE_ENABLE with EN clear, the written value's EN set and every check of R887 and R70 passed: EN is set, REASON
and BAD_REG are cleared, and the counter starts: in FREE from HUB.NEEDLE_LOAD when MODE is FREE, in LISTEN at the stitch and
tick where it stands when MODE is JOB. A NEEDLE_ENABLE that fails a check leaves EN clear and the counter as it is,
and reports the failed check's reason code in REASON and the field's register in BAD_REG. NEEDLE_DISABLE: with EN set
and the written EN clear the counter stops where it stands, in DISABLED, EN is clear, and the contexts' only change is
that every descriptor held for its start position finishes with 0x0607. The tick of a loaded angle (log 30) and the 0 that
an enable writes to REASON (log 135) are the model's choices. -/
def Obligations.NeedleEnableAndDisable : Prop :=
  (∀ (s : State) (v : BitVec 32), s.pins.railsOn = true → s.dev.needleOn = false → v.getLsbD 0 = true →
     (s.dev.needleCtlFields v).needleChecks = none →
     Completes (.needleEnable v) s (fun t =>
       t.dev.needleOn = true ∧ t.dev.needle.reason = 0 ∧ t.dev.needle.badReg = 0 ∧
       (v.getLsbD 1 = false → t.dev.needle.state = .free ∧
         (t.dev.needle.stitch, t.dev.needle.tick) =
           landing s.dev.stitchNs (fieldOf s.dev.regs.needleLoad 59 12) (fieldOf s.dev.regs.needleLoad 11 0)) ∧
       (v.getLsbD 1 = true → t.dev.needle.state = .listen ∧ t.dev.needle.stitch = s.dev.needle.stitch ∧
         t.dev.needle.tick = s.dev.needle.tick))) ∧
  (∀ (s : State) (v : BitVec 32) (c : Code) (b : Nat), s.pins.railsOn = true → s.dev.needleOn = false →
     v.getLsbD 0 = true → (s.dev.needleCtlFields v).needleChecks = some (c, b) →
     Completes (.needleEnable v) s (fun t =>
       t.dev.needleOn = false ∧ t.dev.needle = { s.dev.needle with reason := c, badReg := b })) ∧
  (∀ (s : State) (v : BitVec 32), s.pins.railsOn = true → s.dev.needleOn = true → v.getLsbD 0 = false →
     Completes (.needleDisable v) s (fun t =>
       t.dev.needleOn = false ∧ t.dev.needle.state = .disabled ∧ t.dev.needle.stitch = s.dev.needle.stitch ∧
       t.dev.needle.tick = s.dev.needle.tick ∧ t.dev.contexts = (s.dev.failHeld 0x0607).contexts))

/-- MARKER_RECEIVE of a marker that is not valid (its port is no source in HUB.NEEDLE_SRC, its settings differ from the
receiver's, it has come more than 8 hops, or its source is in holdover) leaves the counter's state and position, its source and
its phase as they are; only the hub's event counters and the counter's REASON may change. MARKER_RECEIVE of a valid marker
on a port that is UP, on a JOB-mode module that follows its source. In LISTEN it loads the counter with the marker's arrival
position and enters ACQUIRING; in ACQUIRING and REACQUIRING the 64th consecutive marker within 5 ns enters LOCKED, an earlier one
stays; in LOCKED the counter follows it; in HOLDOVER it enters REACQUIRING. Each of these follows the marker's source,
at its hop count, without moving the position outside LISTEN. A Treadle that hears a better source within 8 marker intervals of a
takeover enters REACQUIRING, at any other time it stays with 0x060D, and a worse source leaves it as it is. The rounding of an
arrival position (log 30), when a better source is followed no longer (log 138), and that the 64 markers are those after the
entry (log 137) are the model's choices. -/
def Obligations.MarkersDiscipline : Prop :=
  (∀ (s : State) (port : PortId) (m : Marker) (phase : BitVec 16), s.pins.railsOn = true →
     (bitOf s.dev.regs.needleSrc port.val = false ∨ s.dev.markerMatches m = false ∨ 8 < m.hop.toNat ∨ m.srcHoldover = true) →
     Completes (.markerReceive port m phase) s (fun t =>
       t.dev.needle = { s.dev.needle with reason := t.dev.needle.reason } ∧
       t = { s with dev := { s.dev with needle := t.dev.needle, counters := { s.dev.counters with hub := t.dev.counters.hub } } })) ∧
  (∀ (s : State) (port : PortId) (m : Marker) (phase : BitVec 16), s.pins.railsOn = true → s.dev.needleOn = true →
     bitOf s.dev.regs.needleCtl 1 = true → bitOf s.dev.regs.needleSrc port.val = true →
     (s.dev.port port).state = .up → s.dev.markerMatches m = true → m.hop.toNat ≤ 8 → m.srcHoldover = false →
     s.dev.follows (m.rank.toNat, m.sourceId) = true →
     Completes (.markerReceive port m phase) s (fun t =>
       let n := s.dev.needle
       let good : Prop := -50 ≤ phase.toInt ∧ phase.toInt ≤ 50
       let better := betterSource (m.rank.toNat, m.sourceId) (s.dev.rank, ownIdentity)
       let early := n.takenOver.any (fun b => !s.dev.intervalsPassed b 8)
       t.dev.needle.lastValid = s.dev.now ∧
       (n.state = .listen → t.dev.needle.state = .acquiring ∧
         t.dev.needle.stitch = (s.dev.loadArrival port m).needle.stitch ∧
         t.dev.needle.tick = (s.dev.loadArrival port m).needle.tick) ∧
       (n.state = .acquiring ∨ n.state = .reacquiring → good → 63 ≤ n.inLock → t.dev.needle.state = .locked) ∧
       (n.state = .acquiring ∨ n.state = .reacquiring → ¬ (good ∧ 63 ≤ n.inLock) → t.dev.needle.state = n.state) ∧
       (n.state = .locked → t.dev.needle.state = .locked) ∧
       (n.state = .holdover ∨ n.state = .treadle ∧ better = true ∧ early = true → t.dev.needle.state = .reacquiring) ∧
       (n.state = .treadle → better = true → early = false → t.dev.needle.state = .treadle ∧ t.dev.needle.reason = 0x060D) ∧
       (n.state = .treadle → better = false → t.dev.needle.state = .treadle ∧ t.dev.needle.reason = n.reason) ∧
       (n.state = .listen ∨ n.state = .acquiring ∨ n.state = .reacquiring ∨ n.state = .locked ∨ n.state = .holdover →
         t.dev.needle.source = some ⟨m.rank.toNat, m.sourceId, m.ext, port, m.hop.toNat⟩ ∧
         t.dev.needle.hop = m.hop.toNat ∧ t.dev.needle.phase = phase) ∧
       (n.state ≠ .listen → t.dev.needle.stitch = n.stitch ∧ t.dev.needle.tick = n.tick)))

/-- The timed transitions of the counter. ELECTION: a candidate 8 marker intervals in LISTEN loads its counter from
HUB.NEEDLE_LOAD and becomes the Treadle. TAKEOVER: a candidate in HOLDOVER whose source has been silent for 8 + (rank - 1) marker
intervals, with no valid marker from a better source than itself in that time, becomes the Treadle at its own count.
HOLDOVER_ENTRY: 4 marker intervals without a valid marker take LOCKED to HOLDOVER
and REACQUIRING to LOST. HOLDOVER_LIMIT: 2 s without a valid marker take HOLDOVER to LOST. LOCK_TIMEOUT: 50 ms in
ACQUIRING end in LOST with 0x060C. REACQUIRE_TIMEOUT: 2 s in REACQUIRING end in LOST. The tick of a loaded angle (log
30) and the moment that HOLDOVER counts from (log 33) are the model's choices. -/
def Obligations.NeedleTimedTransitions : Prop :=
  ∀ (s : State), s.pins.railsOn = true →
    (s.dev.needle.state = .listen → 1 ≤ s.dev.rank → s.dev.rank ≤ 254 →
      s.dev.intervalsPassed s.dev.needle.entered 8 = true →
      Completes .election s (fun t => t.dev.needle.state = .treadle ∧
        (t.dev.needle.stitch, t.dev.needle.tick) =
          landing s.dev.stitchNs (fieldOf s.dev.regs.needleLoad 59 12) (fieldOf s.dev.regs.needleLoad 11 0))) ∧
    (s.dev.needle.state = .holdover → 1 ≤ s.dev.rank → s.dev.rank ≤ 254 →
      s.dev.intervalsPassed s.dev.needle.lastSource (8 + (s.dev.rank - 1)) = true →
      s.dev.intervalsPassed s.dev.needle.lastBetter (8 + (s.dev.rank - 1)) = true →
      Completes .takeover s (fun t => t.dev.needle.state = .treadle ∧ t.dev.needle.stitch = s.dev.needle.stitch ∧
        t.dev.needle.tick = s.dev.needle.tick)) ∧
    (s.dev.needle.state = .locked → s.dev.intervalsPassed s.dev.needle.lastValid 4 = true →
      Completes .holdoverEntry s (fun t => t.dev.needle.state = .holdover)) ∧
    (s.dev.needle.state = .reacquiring → s.dev.intervalsPassed s.dev.needle.lastValid 4 = true →
      Completes .holdoverEntry s (fun t => t.dev.needle.state = .lost)) ∧
    (s.dev.needle.state = .holdover → 2000000000 ≤ s.dev.now - s.dev.needle.lastValid →
      Completes .holdoverLimit s (fun t => t.dev.needle.state = .lost)) ∧
    (s.dev.needle.state = .acquiring → 50000000 ≤ s.dev.now - s.dev.needle.entered →
      Completes .lockTimeout s (fun t => t.dev.needle.state = .lost ∧ t.dev.needle.reason = 0x060C)) ∧
    (s.dev.needle.state = .reacquiring → 2000000000 ≤ s.dev.now - s.dev.needle.entered →
      Completes .reacquireTimeout s (fun t => t.dev.needle.state = .lost))

/-- NEEDLE_COUNTER_FAULT: in every state but DISABLED and LOST the counter enters LOST with reason 0x012C; in those two
it stays where it is, with that reason. Losing the counter fails every ring's held descriptor: after HOLDOVER_LIMIT,
LOCK_TIMEOUT, REACQUIRE_TIMEOUT or NEEDLE_COUNTER_FAULT has changed the state to LOST, a descriptor that was held for
its start position at the front of its ring has finished with 0x0608, and a descriptor that was not is as it was. Which
descriptors count as held when the counter is lost is the model's choice (log 21). -/
def Obligations.LostNeedle : Prop :=
  (∀ (s : State), s.pins.railsOn = true →
     Completes .needleCounterFault s (fun t => t.dev.needle.reason = 0x012C ∧
       t.dev.needle.state = (if s.dev.needle.state = .disabled then .disabled else .lost) ∧
       t.dev.needle.stitch = s.dev.needle.stitch ∧ t.dev.needle.tick = s.dev.needle.tick)) ∧
  (∀ (c : Instr) (s t : State), c ∈ [Instr.holdoverLimit, .lockTimeout, .reacquireTimeout, .needleCounterFault] →
     exec c s = .next t → s.dev.needle.state ≠ .lost → t.dev.needle.state = .lost →
     t.dev.contexts = s.dev.contexts.map (fun k => { k with rings := k.rings.map (fun r =>
       match r.head? with
       | none => r
       | some h => if h.heldForStart s.dev.position then
           { r with queue := r.queue.map (fun x => if x.seq = h.seq then { x with phase := .finished 0x0608 } else x) }
         else r) }))

/-- The Needle's outputs, and what its commands leave alone. MARKER_EMIT at a marker position not yet served, in JOB mode, with a running counter: every
UP port of HUB.NEEDLE_OUT has a marker to send, which carries the current position, the job, the stitch length and the port's next
marker number, hop 0 from the Treadle and one more than the followed source's elsewhere; that number then counts one. Every other port is as it was, and nothing else of
the state changes but the position served and a draw. At any other time it changes nothing. STITCH_OUT_END 500 ns after a pulse began: STITCH_OUT is low again, and nothing else
changes. An enable or a disable, a marker received, an election, a takeover, the timed transitions, a counter fault and the end of a pulse change nothing but
HUB.NEEDLE_CTL among the setup registers, the counter, the queue of error records with GUARD_STATUS, the draws of free values, the hub's event counters and the
descriptors held for their start position, which may finish: no byte of memory, no panel, no port, no accumulator. -/
def Obligations.NeedleOutputsAndFrame : Prop :=
  (∀ (s : State), s.pins.railsOn = true →
     let n := s.dev.needle
     let due := bitOf s.dev.regs.needleCtl 1 = true ∧ n.state.runs = true ∧ s.dev.atMarkerPosition = true ∧ n.emitted ≠ some (n.stitch, n.tick)
     (due → Completes .markerEmit s (fun t =>
       t = { s with dev := { s.dev with ports := t.dev.ports, fresh := t.dev.fresh, needle := { n with outSeq := t.dev.needle.outSeq, emitted := some (n.stitch, n.tick) } } } ∧
       ∀ p : PortId,
         if bitOf s.dev.regs.needleOut p.val = true ∧ (s.dev.port p).state = .up then
           ∃ m : Marker, t.dev.port p = { s.dev.port p with markerOut := some m } ∧ m.seq = n.outSeq[p.val] ∧
             m.stitch = BitVec.ofNat 48 n.stitch ∧ m.angle = BitVec.ofNat 12 (angleOf s.dev.stitchNs n.tick) ∧
             m.jobId = s.dev.regs.needleJob.setWidth 32 ∧ m.stitchNs = BitVec.ofNat 20 s.dev.stitchNs ∧
             m.hop = (if n.state = .treadle then 0 else BitVec.ofNat 8 (n.hop + 1)) ∧
             t.dev.needle.outSeq[p.val] = n.outSeq[p.val] + 1
         else t.dev.port p = s.dev.port p ∧ t.dev.needle.outSeq[p.val] = n.outSeq[p.val])) ∧
     (¬ due → exec .markerEmit s = .next s)) ∧
  (∀ (s : State) (b : Nat), s.pins.railsOn = true → s.dev.needle.stitchOut = some b → 500 ≤ s.dev.now - b →
     exec .stitchOutEnd s = .next { s with dev := { s.dev with needle := { s.dev.needle with stitchOut := none } } }) ∧
  (∀ (c : Instr) (s t : State),
    (c ∈ [Instr.election, .takeover, .holdoverEntry, .holdoverLimit, .lockTimeout, .reacquireTimeout, .needleCounterFault, .stitchOutEnd] ∨
      (∃ v, c = .needleEnable v) ∨ (∃ v, c = .needleDisable v) ∨ (∃ p m f, c = .markerReceive p m f)) →
    exec c s = .next t →
    (t.dev.contexts = s.dev.contexts ∨ t.dev.contexts = (s.dev.failHeld 0x0607).contexts ∨ t.dev.contexts = (s.dev.failHeld 0x0608).contexts) ∧
    t = { s with dev := { s.dev with regs := { s.dev.regs with needleCtl := t.dev.regs.needleCtl }, needle := t.dev.needle, err := t.dev.err, contexts := t.dev.contexts, fresh := t.dev.fresh, counters := { s.dev.counters with hub := t.dev.counters.hub } } })

/-! ## Power, pins and what outlives a loss of power -/

/-- Every step keeps the pins in agreement: the rails are on only with the input switch closed, power good, RESET_N high
and no trip shown, and the switch is closed only with PWR_EN high, PSENSE mated and the input within its limits. -/
def Obligations.PinsStayInAgreement : Prop :=
  ∀ (s t : State), s.PinsAgree → step s = .next t → t.PinsAgree

/-- No step takes back a fuse counter, the lifetime records or the service record, and every step keeps them within their
sizes: DEBUG_COUNT at most 32, THIMBLE_SVN and MAIN_SVN at most 64. -/
def Obligations.FusesNeverGoBack : Prop :=
  ∀ (s t : State), s.FusesLegal → step s = .next t → t.FusesLegal ∧ s.KeepsFuses t

/-- The state right after reset has the pins in agreement, its fuses legal and both memories in canonical form. -/
def Obligations.ResetMeetsInvariants : Prop :=
  State.reset.PinsAgree ∧ State.reset.FusesLegal ∧ memWf State.reset.dev.mem = true ∧ memWf State.reset.dev.hostMem = true

/-- A package without rails does not answer a command but for the module's own pins, sensors and timers: the state is
unchanged (the model's choice, log 5). -/
def Obligations.UnpoweredPackageIgnoresCommands : Prop :=
  ∀ (c : Instr) (s : State), s.pins.railsOn = false → isModuleCommand c = false → exec c s = .next s

/-- Power-up. PWR_EN_RISE, PSENSE_MATE, INPUT_RETURN and RESET_N_RELEASE each start the sequence when they are the last
of its conditions to hold (input between 38.5 V and its overvoltage limit, PSENSE mated, PWR_EN high, RESET_N high, no
trip unacknowledged): with every sensor below 85 °C the rails come on and PWRGOOD is released; otherwise the sequence
waits at the sensor check with the rails off. Power-down. PWR_EN_FALL, PSENSE_BREAK, an input below 38.0 V and an input
above 58.0 V open the input switch, take the rails off and assert PWRGOOD low; the vault and the host's memory keep
their contents, and device memory, the contexts, the sensors and every panel's, port's and block's setup registers return to their
reset values, with no trip and no reset left in progress. While PWR_EN is low, RESET_N has no effect but on its pin. That the module knows whether its sensors read below 85 °C while the package is off is the model's choice (log 14). -/
def Obligations.PowerUpAndPowerDown : Prop :=
  (∀ (s : State) (c : Instr) (mV : Nat), s.pins.railsOn = false → s.dev.reset.trip = none →
     (c = .pwrEnRise ∧ s.pins.pwrEn = false ∧ s.pins.psense = true ∧ s.pins.resetN = true ∧ s.pins.overvoltage = false ∧ 38500 < s.pins.inputMv ∨
      c = .psenseMate ∧ s.pins.psense = false ∧ s.pins.pwrEn = true ∧ s.pins.resetN = true ∧ s.pins.overvoltage = false ∧ 38500 < s.pins.inputMv ∨
      c = .resetNRelease ∧ s.pins.resetN = false ∧ s.pins.psense = true ∧ s.pins.pwrEn = true ∧ s.pins.overvoltage = false ∧ 38500 < s.pins.inputMv ∨
      c = .inputReturn mV ∧ 38500 < mV ∧ mV ≤ 58000 ∧ (s.pins.overvoltage = true → mV < 57000) ∧ s.pins.psense = true ∧
        s.pins.pwrEn = true ∧ s.pins.resetN = true) →
     Completes c s (fun t => t.pins.inputSwitch = true ∧
       (s.pins.cool = true → t.pins.railsOn = true ∧ t.pins.pwrGood = true ∧ t.pins.thermtrip = false) ∧
       (s.pins.cool = false → t.pins.railsOn = false ∧ t.pins.sensorWait = true))) ∧
  (∀ (s : State) (c : Instr) (mV : Nat),
     (c = .pwrEnFall ∧ s.pins.pwrEn = true ∨ c = .psenseBreak ∧ s.pins.psense = true ∨
      c = .inputUndervoltage mV ∧ mV < 38000 ∨ c = .inputOvervoltage mV ∧ 58000 < mV) →
     Completes c s (fun t =>
       t.pins.railsOn = false ∧ t.pins.inputSwitch = false ∧ t.pins.pwrGood = false ∧ t.pins.thermtrip = false ∧
       t.vault = s.vault ∧ t.dev.hostMem = s.dev.hostMem ∧ t.dev.mem = [] ∧ t.dev.contexts = [] ∧ t.dev.regs = {} ∧
       t.dev.thimble = {} ∧ t.dev.reset = {} ∧ t.dev.power = {} ∧ (∀ p : PanelId, (t.dev.panel p).ctl = 0 ∧ (t.dev.panel p).array = {}) ∧
       (∀ n : PortId, (t.dev.port n).ctl = ({} : Port).ctl ∧ (t.dev.port n).state = .disabled))) ∧
  (∀ (s : State), s.pins.pwrEn = false → exec .resetNAssert s = .next { s with pins := { s.pins with resetN := false } })

/-- RESET_N. Low on a powered package whose boot has been done, it is a cold reset: the rails are off until its release,
the memory is lost, and LAST_KIND shows a cold reset. While PWR_EN is low it has no effect but on the pin. Trips and
sensors of a powered package. A TEMP_SAMPLE with a junction at 104 °C or a stack at 105 °C takes the rails off with
cause 0x070B and THERMTRIP_N asserted, and a CURRENT_TRIP does so with cause 0x070C and opens the input switch; the trip
then stands. Any other sample leaves every pin as it is. That a sample ends no trip, and RESET_N's LAST_KIND, are the
model's choices (log 16, log 91). -/
def Obligations.ResetPinAndTrips : Prop :=
  (∀ (s : State),
     (s.pins.pwrEn = true → s.pins.railsOn = true → s.dev.thimble.cold = false →
       Completes .resetNAssert s (fun t => t.pins.resetN = false ∧ t.pins.railsOn = false ∧ t.dev.mem = [] ∧
         t.dev.reset.lastKind = 2)) ∧
     (s.pins.pwrEn = false →
       exec .resetNAssert s = .next { s with pins := { s.pins with resetN := false } })) ∧
  (∀ (s : State) (dies : Vector (BitVec 8) 4) (hub : BitVec 8) (stks : Vector (BitVec 8) 32), s.PinsAgree → s.pins.railsOn = true →
     ((s.dev.keepTemps dies hub stks).power.tooHot = true → Completes (.tempSample dies hub stks) s (fun t =>
       t.pins.railsOn = false ∧ t.pins.thermtrip = true ∧ t.dev.reset.trip = some 0x070B ∧ t.dev.reset.lastCause = 0x070B)) ∧
     ((s.dev.keepTemps dies hub stks).power.tooHot = false → Completes (.tempSample dies hub stks) s (fun t =>
       t.pins = { s.pins with cool := (s.dev.keepTemps dies hub stks).power.allCool })) ∧
     Completes .currentTrip s (fun t => t.pins.railsOn = false ∧ t.pins.thermtrip = true ∧ t.pins.inputSwitch = false ∧
       t.dev.reset.trip = some 0x070C ∧ t.dev.reset.lastCause = 0x070C))

/-! ## Registers and counters -/

/-- A 4-byte read of the low half of a register latches its high half, and nothing but the latch changes; the next read
of the high half, whatever has happened to the register since, returns the latched value and drops the latch. The read
of hub counter n - 1 latches a chained counter n: the next read of counter n returns the value that it had then, however
many events are counted in between. No other counter is touched. PMC_FREEZE and PMC_CLEAR of the hub, and of a panel.
FREEZE takes the written bit; while it stands no event changes a counter of its scope. CLEAR puts every counter of its
scope to 0, and leaves the selectors. That the hub's CLEAR clears the panels' counters too is the model's choice (log
115). -/
def Obligations.CounterReadsAndControls : Prop :=
  (∀ (s : State) (o : Nat), s.pins.railsOn = true → o % 8 = 0 → (o < 0xA0000 ∨ 0x2000000 ≤ o) →
     Completes (.lowHalfReadLatch o) s (fun t =>
       t.OnlyDevice s ∧ t.dev = { s.dev with latches := t.dev.latches } ∧
       ∀ u : State, u.dev.latches = t.dev.latches →
         (u.read32 (o + 4)).2 = ((s.regValue o) >>> 32).setWidth 32 ∧
         (u.read32 (o + 4)).1.dev.latches.find? (fun l => l.1 = o) = none)) ∧
  (∀ (s : State) (n : Nat) (h : n < 32), s.pins.railsOn = true → n % 2 = 1 → bitOf s.dev.counters.hub[n].sel 62 = true →
     Completes (.pmcChainedRead .hub n) s (fun t =>
       t.dev = { s.dev with counters := { s.dev.counters with hub := t.dev.counters.hub } } ∧
       (∀ (e : PmcEvent) (k : Nat), (t.dev.countHub e k).pmcValue .hub n = BitVec.ofNat 64 s.dev.counters.hub[n].word) ∧
       ∀ (m : Nat) (hm : m < 32), m ≠ n → t.dev.counters.hub[m] = s.dev.counters.hub[m])) ∧
  (∀ (s : State) (v : BitVec 32) (p : PanelId) (c : Instr), s.pins.railsOn = true →
     (c = .pmcFreeze .hub v ∨ c = .pmcClear .hub v → Completes c s (fun t =>
       t.dev.frozen = v.getLsbD 0 ∧
       (v.getLsbD 0 = true → ∀ (e : PmcEvent) (k : Nat) (q : PanelId), t.dev.countHub e k = t.dev ∧ t.dev.count q e k = t.dev) ∧
       (v.getLsbD 1 = true → (∀ (m : Nat) (h : m < 32), t.dev.counters.hub[m] = s.dev.counters.hub[m].cleared) ∧
         ∀ (q : PanelId) (m : Nat) (h : m < 64), (t.dev.panel q).pmc[m] = (s.dev.panel q).pmc[m].cleared) ∧
       (v.getLsbD 1 = false → t.dev = { s.dev with regs := t.dev.regs }))) ∧
     (c = .pmcFreeze (.panel p) v ∨ c = .pmcClear (.panel p) v → Completes c s (fun t =>
       s.dev.OnlyPanel t.dev p ∧ bitOf (t.dev.panel p).pmcCtl 0 = v.getLsbD 0 ∧
       (v.getLsbD 0 = true → ∀ (e : PmcEvent) (k : Nat), t.dev.count p e k = t.dev) ∧
       (v.getLsbD 1 = true → ∀ (m : Nat) (h : m < 64), (t.dev.panel p).pmc[m] = (s.dev.panel p).pmc[m].cleared) ∧
       (v.getLsbD 1 = false → (t.dev.panel p).pmc = (s.dev.panel p).pmc))))

/-- REGISTER_WRITE of the Needle's setup registers: while the Needle is enabled, and at any size or alignment but 4 or 8
bytes on their own boundary, nothing changes; otherwise each bit of the addressed half that is a field takes the
written value, and every other bit, every other register and everything else keeps its value. -/
def Obligations.NeedleSetupWrites : Prop :=
  ∀ (s : State) (size half : Nat) (v : BitVec 64), s.pins.railsOn = true →
    (size = 4 ∧ (half = 0 ∨ half = 4) ∨ size = 8 ∧ half = 0) →
    (s.dev.needleOn = true → ∀ o ∈ [0x10008, 0x10010, 0x10018, 0x10020, 0x10028],
      exec (.registerWrite (o + half) size v) s = .next s) ∧
    (s.dev.needleOn = false → Completes (.registerWrite (0x10028 + half) size v) s (fun t =>
      t.OnlyDevice s ∧ t.dev = { s.dev with regs := { s.dev.regs with needleLoad := t.dev.regs.needleLoad } } ∧
      ∀ i < 64, bitOf t.dev.regs.needleLoad i =
        if i < 60 ∧ 8 * half ≤ i ∧ i < 8 * half + 8 * size then bitOf v (i - 8 * half) else bitOf s.dev.regs.needleLoad i)) ∧
    ∀ o n, (n ≠ 4 ∧ n ≠ 8 ∨ o % n ≠ 0) → exec (.registerWrite o n v) s = .next s

/-- PANEL_ENABLE with every check of its list passed sets EN, clears REASON and BAD_REG, makes the panel idle and starts
certification when none has ended since the panel's reset; with a failed one, REASON and BAD_REG name the first failed
check in the list's order and EN stays clear. Nothing else of the module changes. PANEL_DISABLE is ignored with REASON
0x0208 while a context is admitted on the panel, and clears EN otherwise. What a disable leaves of certification is the
model's choice (log 12). -/
def Obligations.PanelEnableAndDisable : Prop :=
  (∀ (s : State) (p : PanelId) (v : BitVec 32), s.pins.railsOn = true → (s.dev.panel p).enabled = false → v.getLsbD 0 = true →
     Completes (.panelEnable p v) s (fun t =>
       let q := s.dev.panel p
       let r := t.dev.panel p
       let tack := fieldOf q.arrayCtl 27 16
       let quantum := fieldOf q.schedCfg 6 0
       t.OnlyDevice s ∧ s.dev.OnlyPanel t.dev p ∧
       if s.dev.reset.escalation ≠ .inService then
         r = { q with reason := if s.dev.reset.escalation = .outOfService then 0x0140 else 0x0142, badReg := 0xFF }
       else if q.memOn = false then r = { q with reason := 0x0213, badReg := 0xFF }
       else if tack < 1000 ∨ 4000 < tack then r = { q with reason := 0x0204, badReg := 0x80 }
       else if quantum < 1 ∨ 64 < quantum then r = { q with reason := 0x0206, badReg := 0xE0 }
       else r = { q with ctl := r.ctl, reason := 0, badReg := 0, state := .idle, array := r.array } ∧
         r.enabled = true ∧ (∀ i < 64, i ≠ 0 → bitOf r.ctl i = bitOf q.ctl i) ∧
         (q.array.certDone = false → q.array.certFail = false → r.array.certRunning = true) ∧
         r.array.chain = (!q.array.certDone || bitOf q.arrayCtl 0))) ∧
  (∀ (s : State) (p : PanelId) (v : BitVec 32), s.pins.railsOn = true → (s.dev.panel p).enabled = true → v.getLsbD 0 = false →
     Completes (.panelDisable p v) s (fun t =>
       t.OnlyDevice s ∧ s.dev.OnlyPanel t.dev p ∧
       ((∃ c ∈ s.dev.contexts, c.panel = p) → t.dev.panel p = { s.dev.panel p with reason := 0x0208 }) ∧
       ((¬ ∃ c ∈ s.dev.contexts, c.panel = p) → (t.dev.panel p).enabled = false ∧ (t.dev.panel p).reason = (s.dev.panel p).reason ∧
         (t.dev.panel p).array.certRunning = false)))

/-! ## Operations -/

/-- A control operation that may run begins, takes its effect, and finishes. SYNC, CONFIG, RELEASE and DEFINE always finish with
SUCCESS; so do an OPEN and a CLOSE that pass their checks as they take effect, while the context's window is not busy, and
CHAIN_REG, TABLE_LOAD and RECOMP with address 0. CHAIN_REG, TABLE_LOAD and RECOMP with an address and GUSSET_OPEN
finish with SUCCESS where their reads and writes succeed, and with the failed one's status elsewhere: the device is the
one that the effect has left, and the ring's descriptor carries that status. What the effects of the control operations
leave: one context's records, and nothing else of the module. CONFIG gives the quotas and the spill area; RELEASE ends the entries
of its tags and keeps the others; DEFINE replaces the set of its index; CHAIN_REG, TABLE_LOAD and RECOMP with address 0 take the
record of their number away and keep the others; GUSSET_OPEN without LOAD appends an entry, whose front holds as many of
its lines as the context's share has room for, and none with HOME_ONLY; a window opens at the end of the list and closes by
its context and offset. That such a row runs the whole effect of its ring's head descriptor is the model's choice (log 133). -/
def Obligations.ControlOperations : Prop :=
  (∀ (s : State) (ctx : Code) (ring : RingId) (o : Op) (c : Context) (r : Ring) (x : Desc),
     s.pins.railsOn = true → s.dev.Lone ctx ring o c r x →
     let d := s.dev.begun ctx ring c x
     let y := x.started c
     let a := y.plainAccess ctx ring
     (o = .sync → exec (.sync ctx ring) s = .next { s with dev := d.ended ctx ring x 0 }) ∧
     (o = .storeConfig → exec (.storeCtlConfig ctx ring) s = .next { s with dev := (d.storeConfig ctx y).ended ctx ring x 0 }) ∧
     (o = .release → exec (.storeCtlRelease ctx ring) s = .next { s with dev := (d.storeRelease ctx y).ended ctx ring x 0 }) ∧
     (o = .setDefine → exec (.stepCommitDefine ctx ring) s = .next { s with dev := (d.defineSet ctx y).ended ctx ring x 0 }) ∧
     (o = .windowOpen → s.dev.windowOpenCheck c x = none →
       exec (.memWindowOpen ctx ring) s = .next { s with dev := (d.windowOpen ctx y).ended ctx ring x 0 }) ∧
     (o = .windowClose → s.dev.windowCloseCheck c x = none → s.dev.windowBusy ctx = false →
       exec (.memWindowClose ctx ring) s = .next { s with dev := (d.windowClose ctx (x.f 56 8)).ended ctx ring x 0 }) ∧
     (o = .chainReg →
       exec (.seamCtlChainReg ctx ring) s = .next { s with dev := Device.conclude (d.chainReg a y) ctx ring x.seq } ∧
       (x.f 40 8 = 0 → exec (.seamCtlChainReg ctx ring) s = .next { s with dev := (d.chainReg a y).1.ended ctx ring x 0 })) ∧
     (o = .tableLoad →
       exec (.seamCtlTableLoad ctx ring) s = .next { s with dev := Device.conclude (d.tableLoad a y) ctx ring x.seq } ∧
       (x.f 40 8 = 0 → exec (.seamCtlTableLoad ctx ring) s = .next { s with dev := (d.tableLoad a y).1.ended ctx ring x 0 })) ∧
     (o = .recomp →
       exec (.storeCtlRecomp ctx ring) s = .next { s with dev := Device.conclude (d.storeRecomp a y) ctx ring x.seq } ∧
       (x.f 48 8 = 0 → exec (.storeCtlRecomp ctx ring) s = .next { s with dev := (d.storeRecomp a y).1.ended ctx ring x 0 })) ∧
     (o = .gussetOpen → exec (.gussetOpen ctx ring) s = .next { s with dev := Device.conclude (d.gussetOpen a y) ctx ring x.seq })) ∧
  (∀ (e : Device) (ctx : Code) (ring : RingId) (r : Ring) (z : Desc), e.ring? ctx ring = some r → r.queue = [z] →
     Device.conclude (e, .ok ()) ctx ring z.seq = e.ended ctx ring z 0 ∧
     ∀ st, Device.conclude (e, .error st) ctx ring z.seq = e.failSeq ctx ring z.seq st) ∧
  (∀ (d : Device) (ctx : Code) (c : Context) (x : Desc) (a : Access), d.ctx? ctx = some c → a.ctx = ctx →
     (∀ f ∈ [fun d : Device => d.storeConfig ctx x, fun d => d.storeRelease ctx x, fun d => d.defineSet ctx x],
       f d = { d with contexts := (f d).contexts } ∧ ∀ id, id ≠ ctx → (f d).ctx? id = d.ctx? id) ∧
     (d.storeConfig ctx x).ctx? ctx = some { c with bobbinPages := x.f 36 4, gussetLines := x.f 40 4, spillAddr := x.f 48 8, spillBytes := x.f 56 8 } ∧
     (∃ c', (d.storeRelease ctx x).ctx? ctx = some c' ∧
       ∀ e, e ∈ c'.stash ↔ e ∈ c.stash ∧ ¬ (x.f 36 2 ≤ e.tag ∧ e.tag ≤ x.f 38 2)) ∧
     (∃ c', (d.defineSet ctx x).ctx? ctx = some c' ∧ ∀ k : CommitSet, k ∈ c'.sets ↔
       (k ∈ c.sets ∧ k.index ≠ x.f 33 1) ∨ (x.f 40 8 ≠ 0 ∧ k = CommitSet.mk (x.f 33 1) (x.f 40 8) (x.f 48 8) (x.f 56 8) (x.f 64 8) 0)) ∧
     (x.f 40 8 = 0 → (d.chainReg a x).2 = .ok () ∧ ∃ c', (d.chainReg a x).1.ctx? ctx = some c' ∧
       (∀ k, k ∈ c'.chains ↔ k ∈ c.chains ∧ k.1 ≠ x.f 33 1) ∧ c'.tables = c.tables) ∧
     (x.f 40 8 = 0 → (d.tableLoad a x).2 = .ok () ∧ ∃ c', (d.tableLoad a x).1.ctx? ctx = some c' ∧
       (∀ k, k ∈ c'.tables ↔ k ∈ c.tables ∧ k.1 ≠ x.f 33 1) ∧ c'.chains = c.chains) ∧
     (x.f 48 8 = 0 → (d.storeRecomp a x).2 = .ok () ∧ ∃ c', (d.storeRecomp a x).1.ctx? ctx = some c' ∧
       ∀ k, k ∈ c'.recomps ↔ k ∈ c.recomps ∧ k.tag ≠ x.f 36 2) ∧
     (x.bit 65 1 0 = false → (d.gussetOpen a x).2 = .ok () ∧ ∃ c' e, (d.gussetOpen a x).1.ctx? ctx = some c' ∧
       c'.gusset = c.gusset ++ [e] ∧ e.param = BitVec.ofNat 32 (x.f 32 4) ∧ e.rows = x.f 36 4 ∧ e.cols = x.f 40 4 ∧ e.ld = x.f 44 4 ∧
       e.home = x.f 48 8 ∧ e.lin = x.f 56 8 ∧ e.fmt = x.f 64 1 ∧
       e.frontLines = if x.bit 65 1 1 then 0 else min e.lines (c.gussetLines - c.linesUsed)) ∧
     (d.windowOpen ctx x).openRegions = d.openRegions ++ [⟨ctx, x.f 40 8, x.f 48 8, x.f 56 8, x.bit 33 1 0, x.bit 33 1 1⟩] ∧
     (∀ o w, w ∈ (d.windowClose ctx o).openRegions ↔ w ∈ d.openRegions ∧ ¬ (w.ctx = ctx ∧ w.offset = o)))

/-- A tack operation that may run, on an idle engine, runs its descriptor whole: its tacks begin and commit in turn
until it has finished. That such a row runs the whole effect of its ring's head descriptor is the model's choice (log
133). -/
def Obligations.TackOperationsRun : Prop :=
  ∀ (s : State) (ctx : Code) (ring : RingId) (o : Op) (c : Context) (r : Ring) (x : Desc) (cmd : Instr),
    s.pins.railsOn = true → s.dev.Lone ctx ring o c r x →
    (s.dev.panel c.panel).array.run = none → (s.dev.panel c.panel).array.drain = none → (s.dev.panel c.panel).array.dma = none →
    (s.dev.panel c.panel).array.failedTack = none → (s.dev.panel c.panel).array.failedDma = none →
    (o = .matmul ∧ cmd = .matmul ctx ring ∨ o = .seam ∧ cmd = .seam ctx ring ∨ o = .gussetAcc ∧ cmd = .gussetAcc ctx ring ∨
     o = .copy ∧ cmd = .copy ctx ring ∨ o = .fill ∧ cmd = .fill ctx ring) →
    exec cmd s = .next { s with dev := s.dev.runTacks (2 ^ 40) ctx ring x.seq } ∧
    ∀ (n : Nat) (e : Device), n < 2 ^ 40 → s.dev.Tacks ctx ring x.seq n e → exec cmd s = .next { s with dev := e }

/-- A collective, RELAY, FITTING or STEP_COMMIT operation that may run begins, and its first effect is made: a COMM_JOIN
reads its tables, joins its record and sends a notice to each neighbour, or fails with the failed check's status; a COMM_LEAVE removes the communicator and what
it awaits, and finishes; a transfer takes its number, enters the transfers under way and goes as far as it can; a RELAY
enters the relays; a FITTING waits for its snapshot; a COMMIT is prepared and voted for where the vote is due; an ABORT
is issued with the abort stitch two stitches ahead, and finishes. That such a row runs its ring's head descriptor is the
model's choice (log 133). -/
def Obligations.CollectiveOperationsBegin : Prop :=
  ∀ (s : State) (ctx : Code) (ring : RingId) (o : Op) (c : Context) (r : Ring) (x : Desc), s.pins.railsOn = true →
    s.dev.Lone ctx ring o c r x →
    let d := s.dev.begun ctx ring c x
    let y := x.started c
    let id := BitVec.ofNat 32 (x.f 36 4)
    ∀ c', d.ctx? ctx = some c' → c'.id = ctx ∧ c'.comms = c.comms ∧
    (o = .commJoin → exec (.commJoin ctx ring) s = .next { s with dev := d.joinBegin c' ring y } ∧
      (∀ e st, d.joinCheckTables c' ring y = (e, .error st) → d.joinBegin c' ring y = e.failSeq ctx ring x.seq st) ∧
      ∀ e table bs, d.joinCheckTables c' ring y = (e, .ok (table, bs)) →
      let k : Comm := { y.joinComm ring with digest := (Config.sha3 table).setWidth 256, buckets := (List.range (x.f 74 2)).map (fun i => bucketEntry ((bs.drop (64 * i)).take 64)) }
      d.joinBegin c' ring y = ((neighbours k.size k.rank).foldl (fun d q => d.sendRank c' k q .indigo (.joinNotice k.notice)) (e.updCtx ctx (fun q => { q with comms := q.comms ++ [k] }))).joinCheck ctx k.commId) ∧
    (o = .commLeave → ∀ k, c.comm? id = some k → Completes (.commLeave ctx ring) s (fun t =>
      (∀ q, t.dev.ctx? ctx = some q → ∀ k' ∈ q.comms, k'.commId ≠ k.commId) ∧
      (t.dev.desc? ctx ring x.seq).map (fun z => z.phase) = some (.finished 0) ∧
      ∀ w ∈ t.dev.fabric.outstanding, ¬ (w.ctx = ctx ∧ w.comm = some k.commId))) ∧
    (∀ cmd, (o = .reduce ∧ cmd = .reduce ctx ring ∨ o = .allreduce ∧ cmd = .allreduce ctx ring ∨ o = .broadcast ∧ cmd = .broadcast ctx ring ∨
        o = .returnSlice ∧ cmd = .collReturn ctx ring ∨ o = .send ∧ cmd = .collSend ctx ring ∨ o = .recv ∧ cmd = .collRecv ctx ring) →
      ∀ k, c.comm? id = some k → exec cmd s = .next { s with dev :=
        let (n, k') := k.issue y.issueKey.1 y.issueKey.2
        let e := d.updComm ctx k.commId (fun q => { q with issued := k'.issued })
        let e := { e with fabric := { e.fabric with colls := e.fabric.colls ++ [({ ctx := ctx, ring := ring, seq := x.seq, commId := k.commId, nth := n, startOk := true } : CollRun)] } }
        (e.settle.replayEarly ctx k.commId).settle }) ∧
    (o = .relay → exec (.relay ctx ring) s = .next { s with dev := d.relayBegin ctx ring y }) ∧
    (o = .fitting → d.fabric.fittings.all (fun f => !(f.ctx = ctx && f.ring = ring && f.seq = x.seq)) = true →
      (x.bit 34 1 0 = false → exec (.fitting ctx ring) s = .next { s with dev :=
        { d with fabric := { d.fabric with fittings := d.fabric.fittings ++ [({ ctx := ctx, ring := ring, seq := x.seq, nth := 0 } : FittingRun)] } } }) ∧
      (x.bit 34 1 0 = true → ∀ k, c.comm? (BitVec.ofNat 32 (x.f 40 4)) = some k → exec (.fitting ctx ring) s = .next { s with dev :=
        let (n, k') := k.issue .send (x.f 44 4)
        let e := d.updComm ctx (BitVec.ofNat 32 (x.f 40 4)) (fun q => { q with issued := k'.issued })
        { e with fabric := { e.fabric with fittings := e.fabric.fittings ++ [({ ctx := ctx, ring := ring, seq := x.seq, nth := n } : FittingRun)] } } })) ∧
    (o = .stepCommit → exec (.stepCommitCommit ctx ring) s = .next { s with dev := d.tryVote }) ∧
    (o = .stepAbort → s.dev.commit.state = .idle → Completes (.stepCommitAbort ctx ring) s (fun t =>
      t.dev.commit.pendingAbort = some ⟨d.jobId, BitVec.ofNat 32 (x.f 124 4), BitVec.ofNat 48 (d.needle.stitch + 2), 0x0A0C, 0xFFFF⟩ ∧
      (t.dev.desc? ctx ring x.seq).map (fun z => z.phase) = some (.finished 0)))

/-! ## Arrays, tacks and rings -/

/-- SHADOW_LOAD_DONE with no load under way changes nothing. With one, the tile is read now: its values fill the shadow plane's
registers and the plane is ready, and every other panel is as it was; a read that fails fails the descriptor that has begun, and
gives up a tile loaded ahead, as does a tile whose context or descriptor is gone. CERT_RUN starts certification on a panel
without resident contexts, in chain mode, and only shows 0x0205 on any other; a certification that passes is shown
done, one that fails is shown with 0x0203 and a record, and the array stays in chain mode. A tack boundary of a panel that runs,
whose engine is free: the panel's descriptors are checked, a step of frequency is taken, chain mode is set, the array takes the first
applicable action and the DMA engine its next tack. With no resident context: the issued step of frequency takes effect unless droop
defers it, and the array is out of chain mode when it is certified and CHAIN_FORCE is clear. The share of slots during certification is the
model's choice (log 56). -/
def Obligations.ArrayAndTackBoundary : Prop :=
  (∀ (s : State) (p : PanelId), s.pins.railsOn = true →
     let q := s.dev.panel p
     (q.array.shadow.tile = none ∨ q.array.shadowReady = true → exec (.shadowLoadDone p) s = .next s) ∧
     (∀ (n : TileRef), q.array.shadow.tile = some n → q.array.shadowReady = false →
       (s.dev.ctx? n.ref.ctx = none ∨ s.dev.desc? n.ref.ctx n.ref.ring n.ref.seq = none →
         exec (.shadowLoadDone p) s = .next { s with dev := s.dev.startShadow p none }) ∧
       (∀ (c : Context) (x : Desc), s.dev.ctx? n.ref.ctx = some c → s.dev.desc? n.ref.ctx n.ref.ring n.ref.seq = some x →
         let failed (e : Code) : Device := if x.begun then s.dev.failSeq c.id n.ref.ring x.seq e else s.dev.startShadow p none
         exec (.shadowLoadDone p) s = .next { s with dev := match s.dev.upcoming c n.ref.ring x with
           | (_, .error e) => failed e
           | (e, .ok (y, site)) =>
             if y.restFmt.fmt ≠ n.fmt ∨ site.inner ≠ n.inner then s.dev.startShadow p none
             else match e.tileRead y site y.shape n q.array.shadow.pass with
               | (_, .error z) => failed z
               | (f, .ok cols) => f.fillShadow p y.restFmt cols })) ∧
     (∀ (d : Device) (o : OperandFmt) (cols : List (List Stored)),
       d.OnlyPanel (d.fillShadow p o cols) p ∧ ((d.fillShadow p o cols).panel p).array.shadowReady = true ∧
       ((d.fillShadow p o cols).panel p).array.shadow = (d.panel p).array.shadow.load o cols ∧
       ((d.fillShadow p o cols).panel p).array.active = (d.panel p).array.active) ∧
     ((¬ ∃ c ∈ s.dev.contexts, c.panel = p ∧ c.resident = true) → Completes (.certRun p) s (fun t => t.OnlyDevice s ∧ s.dev.OnlyPanel t.dev p ∧
       t.dev.panel p = { q with array := { q.array with certRunning := true, certTurn := 0, certified := false, chain := true } })) ∧
     ((∃ c ∈ s.dev.contexts, c.panel = p ∧ c.resident = true) → Completes (.certRun p) s (fun t => t.OnlyDevice s ∧ s.dev.OnlyPanel t.dev p ∧
       t.dev.panel p = { q with array := { q.array with reason := 0x0205 } })) ∧
     (q.array.certRunning = false → ∀ ok, exec (.certComplete p ok) s = .next s) ∧
     (q.array.certRunning = true → Completes (.certComplete p true) s (fun t => t.OnlyDevice s ∧ s.dev.OnlyPanel t.dev p ∧
       t.dev.panel p = { q with array := { q.array with certRunning := false, certDone := true, certified := true } })) ∧
     (q.array.certRunning = true → s.dev.err.general < 64 → Completes (.certComplete p false) s (fun t => t.OnlyDevice s ∧
       t.dev.panel p = { q with array := { q.array with certRunning := false, certFail := true, reason := 0x0203 } } ∧
       (∀ o, o ≠ p → t.dev.panel o = s.dev.panel o) ∧ t.dev.contexts = s.dev.contexts ∧ t.dev.mem = s.dev.mem ∧
       ∃ e, t.dev.err.queue = s.dev.err.queue ++ [⟨e, false, none⟩] ∧ e.reason = 0x0203 ∧ e.mech = 1 ∧ e.panel = p.val))) ∧
  (∀ (s : State) (p : PanelId), s.pins.railsOn = true →
     (s.dev.panel p).enabled = true → (s.dev.panel p).fenced = false → (s.dev.panel p).dbg.halted = false → (s.dev.panel p).stepped = false →
     s.dev.waitsSupply p = false →
     let d := (s.dev.residents p).foldl (fun d c => (List.finRange 4).foldl (fun d n => d.bringUp c.id n) d) s.dev
     ((d.panel p).array.run = none → (d.panel p).array.drain = none → exec (.tackBoundary p) s = .next { s with dev :=
       ((((((d.takeFreqStep p).setChain p).nextAction p).nextDma p).preload p).updPanel p Panel.noteStep) }) ∧
     ((d.panel p).array.run.isSome = true → (d.panel p).array.chain = false → exec (.tackBoundary p) s = .next { s with dev :=
       (((d.nextDma p).preload p).updPanel p Panel.noteStep) })) ∧
  (∀ (s : State) (p : PanelId) (f : Nat), s.pins.railsOn = true →
     (s.dev.panel p).enabled = true → (s.dev.panel p).fenced = false → (s.dev.panel p).dbg.halted = false → (s.dev.panel p).stepped = false →
     s.dev.waitsSupply p = false → (¬ ∃ c ∈ s.dev.contexts, c.panel = p ∧ c.resident = true) →
     (s.dev.panel p).array.run = none → (s.dev.panel p).array.drain = none → (s.dev.panel p).array.dma = none →
     (s.dev.panel p).array.failedTack = none → (s.dev.panel p).array.failedDma = none → (s.dev.panel p).array.certRunning = false →
     s.dev.power.panels[p.val].issued = some f →
     Completes (.tackBoundary p) s (fun t => t.OnlyDevice s ∧
       (t.dev.panel p).array.chain = (!(s.dev.panel p).array.certified || bitOf (s.dev.panel p).arrayCtl 0) ∧
       (t.dev.panel p).array.run = none ∧ t.dev.contexts = s.dev.contexts ∧ t.dev.mem = s.dev.mem ∧ t.dev.hostMem = s.dev.hostMem ∧
       (s.dev.power.panels[p.val].drooped s.dev.now = true → t.dev.power.panels[p.val].freq = s.dev.power.panels[p.val].freq ∧
         t.dev.power.panels[p.val].issued = some f) ∧
       (s.dev.power.panels[p.val].drooped s.dev.now = false → t.dev.power.panels[p.val].freq = f ∧ t.dev.power.panels[p.val].issued = none)))

/-- TACK_COMMIT with no tack running changes nothing; the oldest uncommitted tack of the array or the Seam (the one that drains, else the
running one), and the one of the DMA engine, leave their engines and commit, with what the tack's half of the commit region held,
and one that replays settles its record. TACK_CHECK_FAIL: without a product tack, and for a difference that the
comparison passes, nothing changes. A failed row parity, or a difference beyond what passes, discards the tack and counts the
mismatch: a first failure waits for its replay with its record, a failed replay is persistent. The
discarded tack holds no engine, the shadow plane gives up its load, the accumulator rows that the tack touched keep their committed words,
and no memory and no other panel changes. The moment of reads and writes within a tack (log 54), what a
tack beside the discarded one does (log 157) and the grid of a shown difference (log 158) are the model's choices. -/
def Obligations.TacksCommitOrReplay : Prop :=
  (∀ (s : State) (p : PanelId), s.pins.railsOn = true →
     let a := (s.dev.panel p).array
     (a.drain = none → a.run = none → a.dma = none → exec (.tackCommit p) s = .next s) ∧
     (∀ t, a.drain.or a.run = some t → a.dma = none → exec (.tackCommit p) s =
       let r := (s.dev.updPanel p (fun q => { q with array := { q.array with
         drain := none, run := if a.drain.isSome then a.run else none,
         failedTack := if t.replay then none else a.failedTack } })).drainHalf p t
       .next { s with dev := (r.1.commitRun p r.2 a.failedTack).commitDma p }) ∧
     (∀ t, a.drain = none → a.run = none → a.dma = some t → exec (.tackCommit p) s =
       .next { s with dev := (s.dev.updPanel p (fun q => { q with array := { q.array with
         dma := none, failedDma := if t.replay then none else a.failedDma } })).commitRun p t a.failedDma }) ∧
     (∀ (d : Device) (t : TackRun) (f : Option TackRun), t.replay = false →
       d.commitRun p t f = (d.tackDone t).answered (.descriptor t.ref.ctx t.ref.ring)) ∧
     (∀ (d : Device) (t : TackRun), (d.drainHalf p t).2.held.writes = (d.panel p).array.region[t.half].writes ∧
       (d.drainHalf p t).2.held.sources = (d.panel p).array.region[t.half].sources ∧
       ((d.drainHalf p t).1.panel p).array.region[t.half] = {} ∧ d.OnlyPanel (d.drainHalf p t).1 p)) ∧
  (∀ (s : State) (p : PanelId) (column entry : Nat) (diff : BitVec 64) (parity : Bool), s.pins.railsOn = true →
     let a := (s.dev.panel p).array
     let product (t : TackRun) : Prop := ∃ x, s.dev.desc? t.ref.ctx t.ref.ring t.ref.seq = some x ∧ (x.form t.inner).op? = some .matmul
     let counted := s.dev.updPanel p (fun q => { q with array := { q.array with mismatches := satTo 24 (q.array.mismatches + 1) } })
     (a.run = none → a.drain = none → exec (.tackCheckFail p column entry diff parity) s = .next s) ∧
     (∀ t, (if parity then a.run.or a.drain else a.drain.or a.run) = some t → product t → (parity = true ∨ t.checkFails column entry diff = true) →
       exec (.tackCheckFail p column entry diff parity) s = .next { s with dev := (counted.tackFailed p false t
         { reason := 0x0201, mech := 0x01, outcome := 0, sub := column,
           detail := BitVec.ofNat 128 (diff.toNat + 2 ^ 64 * (entry % 2 ^ 32) + (if parity then 2 ^ 96 else 0)) } 0x0202) } ∧
       (a.drain = none → t.replay = false → (s.dev.panel p).replayTacks.length + 1 ≤ fieldOf s.dev.regs.guardCtl 15 8 →
         Completes (.tackCheckFail p column entry diff parity) s (fun u => u.OnlyDevice s ∧
           (u.dev.panel p).array.run = none ∧ (u.dev.panel p).array.mismatches = satTo 24 (a.mismatches + 1) ∧
           (u.dev.panel p).array.region[t.half] = {} ∧ (u.dev.panel p).array.shadow.tile = none ∧
           (u.dev.panel p).array.slots = a.slots.map (fun b =>
             if b.pass.any (fun k => k.ref = t.ref && k.pass = t.pass && k.inner.isSome = t.inner) then { b with rows := discardRows b.rows } else b) ∧
           (∃ w, (u.dev.panel p).array.failedTack = some w ∧ w.ref = t.ref ∧ w.len = t.len ∧
             ∃ r, w.fault = some r ∧ r.reason = 0x0201 ∧ r.mech = 1 ∧ r.panel = p.val ∧ r.sub = column) ∧
           (∀ o, o ≠ p → u.dev.panel o = s.dev.panel o) ∧ u.dev.mem = s.dev.mem ∧ u.dev.hostMem = s.dev.hostMem ∧ u.dev.err = s.dev.err))) ∧
     (parity = false → (∀ t, a.drain.or a.run = some t → t.checkFails column entry diff = false) →
       exec (.tackCheckFail p column entry diff parity) s = .next s))

/-- DESCRIPTOR_FETCH reads the slot of the next sequence number and queues its descriptor. A wrong SEQ gives it 0x0513, a
header check that fails gives its status; otherwise its operation checks follow. What it leaves of the ring: NEXT is
one further, and the descriptor holds the slot's 128 bytes. DESCRIPTOR_START of a ring whose head descriptor is
checked and whose start position is reached: it may begin, unless it is late and SKIP_IF_LATE stands for an operation
that may be skipped: then it finishes with 0x0610. Nothing else of the module changes. DESCRIPTOR_COMPLETE of a
context's only queued descriptor, finished with a status and without a record to wait for, on a link in L0: the 32
bytes of its completion stand at its slot of the completion ring, the completion ring goes on by one, its device
counter goes up when it signals, and the ring halts when the status fails it. -/
def Obligations.DescriptorsPassTheRing : Prop :=
  (∀ (s : State) (ctx : Code) (ring : RingId) (c : Context) (r : Ring), s.pins.railsOn = true →
     s.dev.ctx? ctx = some c → c.ring? ring = some r → s.dev.fetchable r = true →
     let slot := s.dev.hostRead (r.sqAddr + 128 * (r.next % 2 ^ r.sizeLog2)) 128
     let d := (s.dev.hostFetch (r.sqAddr + 128 * (r.next % 2 ^ r.sizeLog2)) 128).1
     let x : Desc := { seq := r.next, raw := BitVec.ofNat 1024 (leNat slot), fetchPos := d.position, fetchedAt := d.now }
     let put (z : Desc) : Device := d.updRing ctx ring (fun r => { r with queue := r.queue ++ [z], next := r.next + 1 })
     (x.f 8 4 ≠ r.next % 2 ^ 32 → exec (.descriptorFetch ctx ring) s =
       .next { s with dev := (put { x with phase := .finished 0x0513 }).bringUp ctx ring }) ∧
     (∀ e, x.f 8 4 = r.next % 2 ^ 32 → x.headerCheck = some e → exec (.descriptorFetch ctx ring) s =
       .next { s with dev := (put { x with phase := .finished e }).bringUp ctx ring }) ∧
     (x.f 8 4 = r.next % 2 ^ 32 → x.headerCheck = none → (x.waitEn = true → x.waitEc ≤ 31) → exec (.descriptorFetch ctx ring) s =
       .next { s with dev := (put x).bringUp ctx ring }) ∧
     (x.f 8 4 = r.next % 2 ^ 32 → x.headerCheck = none → x.waitEn = true → 31 < x.waitEc → ∃ c', (put x).ctx? ctx = some c' ∧
       exec (.descriptorFetch ctx ring) s =
         .next { s with dev := (((put x).holdLine (c'.ecAddr + 64 * x.waitEc)).readCounter ctx x.waitEc).bringUp ctx ring })) ∧
  (∀ (s : State) (ctx : Code) (ring : RingId) (c : Context) (r : Ring) (x : Desc), s.pins.railsOn = true →
     s.dev.ctx? ctx = some c → c.ring? ring = some r → r.queue = [x] → r.halted = false → x.phase = .checked → x.startEn = true →
     s.dev.startRefusal x = none → s.dev.reached x.startAt = true →
     Completes (.descriptorStart ctx ring) s (fun t => t.OnlyDevice s ∧ t.dev = { s.dev with contexts := t.dev.contexts } ∧
       (t.dev.desc? ctx ring x.seq) = some (if s.dev.isLate x.startAt && x.skipIfLate && !x.op?.any Op.neverSkips then
         { x with phase := .finished 0x0610, ticket := none } else { x with phase := .started }))) ∧
  (∀ (s : State) (ctx : Code) (ring : RingId) (c : Context) (r : Ring) (x : Desc) (status : Code), s.pins.railsOn = true →
     s.dev.ctx? ctx = some c → c.ring? ring = some r → r.queue = [x] → r.halted = false → x.phase = .finished status → x.ticket = none →
     (∀ n r', n ≠ ring → c.ring? n = some r' → r'.queue = []) → s.dev.host.link = .l0 →
     Completes (.descriptorComplete ctx ring) s (fun t => t.OnlyDevice s ∧ t.dev.mem = s.dev.mem ∧
       memRead t.dev.hostMem (r.cqAddr + 32 * (x.seq % 2 ^ r.sizeLog2)) 32 = x.completion status none r.sizeLog2 ∧
       ∃ c' r', t.dev.ctx? ctx = some c' ∧ c'.ring? ring = some r' ∧ r'.queue = [] ∧ r'.complNext = x.seq + 1 ∧ r'.halted = fails status ∧
         (∀ (h : x.signalEc < 64), c'.events[x.signalEc] =
           if x.signalEn && signals status then c.events[x.signalEc] + BitVec.ofNat 64 x.signalInc else c.events[x.signalEc])))

/-- GUSSET_FLUSH that may run: into memory (MODE 1, once its writes need not wait for a bank that is sampled or a region
that a Fitting holds) or only clearing or closing (MODE 2), it makes its effect and
finishes, with SUCCESS or with the effect's status; into a bucket (MODE 0), it waits while the bucket agrees or reduces,
and else delivers the entry's values and lets the reduction go on. That GUSSET_FLUSH is one tack is the model's choice
(log 52). -/
def Obligations.GussetFlushRuns : Prop :=
  ∀ (s : State) (ctx : Code) (ring : RingId) (c : Context) (r : Ring) (x : Desc) (g : GussetEntry), s.pins.railsOn = true →
    s.dev.Lone ctx ring .gussetFlush c r x → c.gusset? (BitVec.ofNat 32 (x.f 32 4)) = some g →
    let d := s.dev.begun ctx ring c x
    let y := x.started c
    let a := y.access ctx ring 0 (x.bits 76 1 1 0)
    (2 ≤ x.f 36 1 → exec (.gussetFlush ctx ring) s = .next { s with dev := Device.conclude (d.flushTail a y) ctx ring x.seq }) ∧
    (x.f 36 1 = 1 → ∀ c', d.ctx? ctx = some c' →
      let ranges := [(x.f 56 8, 2 * boundBytes g.rows g.cols (x.f 72 4)), (x.f 64 8, if x.f 64 8 = 0 then 0 else boundBytes g.rows g.cols (x.f 72 4))]
      let e := ranges.foldl (fun d r => d.copyBefore ctx r.1 r.2) d
      (e.writesWait c' x.seq ranges = true → exec (.gussetFlush ctx ring) s = .next { s with dev := e }) ∧
      (e.writesWait c' x.seq ranges = false → exec (.gussetFlush ctx ring) s =
        .next { s with dev := Device.conclude (bindD (e.gussetToMemory a g y) (fun d _ => d.flushTail a y)) ctx ring x.seq })) ∧
    (x.f 36 1 = 0 → c.deliveryCheck (x.f 40 4) (x.f 48 8) (g.rows * g.cols) (BitVec.ofNat 32 (x.f 124 4)) = .ok true →
      exec (.gussetFlush ctx ring) s = .next { s with dev := d }) ∧
    (x.f 36 1 = 0 → c.deliveryCheck (x.f 40 4) (x.f 48 8) (g.rows * g.cols) (BitVec.ofNat 32 (x.f 124 4)) = .ok false →
      exec (.gussetFlush ctx ring) s = .next { s with dev :=
        (Device.conclude (bindD (foldD (List.range g.lines) d [] (fun d out line => bindD (d.lineRead a g line) (fun d ps => (d, .ok (out ++ ps)))))
          (fun d vs => bindD (d.deliver a (x.f 40 4) (x.f 48 8) g.fmt (BitVec.ofNat 32 (x.f 124 4)) vs) (fun d _ => d.flushTail a y))) ctx ring x.seq).settle })
/-! ## Admission and the lines of the host -/

/-- The admission ring runs with a command waiting in its next slot. A wrong SEQ completes with 0x0513, set reserved
bits with 0x0516; the effect of the row's own command is carried out and completes with its status; a command of another
opcode, a LEAVE, RESUME or FLUSH that waits for window accesses or error records, and an ADMIT that waits for a slot are left, with nothing
but their fetch done. An admission completion is written at its slot, on a link in L0, and
the ring goes on by one; nothing of the contexts or of device memory changes. That a refused command does not halt the
admission ring is the model's choice (log 70). -/
def Obligations.AdmissionCommandsRun : Prop :=
  (∀ (s : State) (k : Nat) (row : Instr), s.pins.railsOn = true →
     s.dev.admitOn = true → s.dev.admitRing.halted = false → s.dev.host.link = .l0 → s.dev.areaOn 1 = true →
     tailAhead s.dev.admitRing.tail s.dev.admitRing.next ≠ 0 →
     (k = 1 ∧ row = .admitContext ∨ k = 2 ∧ row = .leave ∨ k = 3 ∧ row = .resume ∨ k = 4 ∧ row = .flush ∨ k = 5 ∧ row = .remap) →
     let slot := fieldOf s.dev.regs.admitBase 63 6 * 64 + 128 * (s.dev.admitRing.next % 2 ^ s.dev.admissionSize)
     let cmd := s.dev.hostRead slot 128
     let d := (s.dev.hostFetch slot 128).1
     let tag := bytesField cmd 4 2
     (bytesField cmd 8 4 ≠ s.dev.admitRing.next % 2 ^ 32 → exec row s = .next { s with dev := d.admissionDone 0x0513 tag }) ∧
     (bytesField cmd 8 4 = s.dev.admitRing.next % 2 ^ 32 → cmdReserved cmd = true → exec row s = .next { s with dev := d.admissionDone 0x0516 tag }) ∧
     (bytesField cmd 8 4 = s.dev.admitRing.next % 2 ^ 32 → cmdReserved cmd = false → bytesField cmd 0 1 = k → d.cmdWaits cmd = false →
       (k = 1 → d.admitWaits cmd true = false) → exec row s = .next { s with dev := (d.cmdEffect cmd true).1.admissionDone (d.cmdEffect cmd true).2 tag }) ∧
     (bytesField cmd 8 4 = s.dev.admitRing.next % 2 ^ 32 → cmdReserved cmd = false →
       (bytesField cmd 0 1 ≠ k ∨ d.cmdWaits cmd = true ∨ k = 1 ∧ d.admitWaits cmd true = true) → exec row s = .next { s with dev := d })) ∧
  (∀ (d : Device) (status : Code) (tag : Nat), d.host.link = .l0 →
     let e := d.admissionDone status tag
     let n := d.admitRing.next
     memRead e.hostMem (fieldOf d.regs.admitCplBase 63 6 * 64 + 32 * (n % 2 ^ d.admissionSize)) 32 =
       completionBytes status tag 0 (n % 2 ^ 32) 0 0 0 (phaseBit n d.admissionSize) ∧
     e.admitRing = { d.admitRing with next := n + 1 } ∧ e.contexts = d.contexts ∧ e.mem = d.mem ∧ e.panels = d.panels ∧ e.regs = d.regs)

/-- What the admission commands do to the contexts: a refused ADMIT admits none and says why; the enrolment of the
context of its record and setup block, with none admitted before, leaves that one context; LEAVE without FORCE of a context whose doorbell lines show descriptors left is refused with 0x050B,
and otherwise ends the context and with it its transfers and windows; with FORCE it flushes the rings first; a REMAP answers 0x0312 for a
poisoned map, 0x0512 for a frame that the context cannot claim, else SUCCESS, and drops every translation; RESUME of no halted ring is refused with 0x050C,
and RETRY of a descriptor with effects with 0x050D; a command for an unknown context answers 0x050A. -/
def Obligations.AdmissionEffects : Prop :=
  ∀ (d : Device) (cmd : List Byte) (c : Context) (mask : Nat) (force : Bool),
    let rec_ := d.hostRead (bytesField cmd 16 8) 4755
    let setup := d.hostRead (bytesField cmd 24 8) 256
    (d.escalationCode = some 0x0140 → (d.admitCmd cmd true).2 = 0x0140 ∧ (d.admitCmd cmd true).1.contexts = d.contexts) ∧
    (bytesField rec_ 0 2 ≠ 1 → d.escalationCode = none → (d.admitCmd cmd true).2 = 0x0502 ∧ (d.admitCmd cmd true).1.contexts = d.contexts) ∧
    (bytesField setup 0 1 < 8 → d.contexts = [] → (d.enroll rec_ setup).contexts.map (fun k => k.id) = [BitVec.ofNat 16 (bytesField rec_ 2 2)]) ∧
    (let e := d.readDoorbells c.id
     let busy := ((e.ctx? c.id).getD c).rings.any (fun r => tailAhead r.tail r.complNext != 0)
     (busy = true → d.leaveCmd c false = (e, 0x050B)) ∧ (busy = false → d.leaveCmd c false = (e.endContext c.id, 0))) ∧
    d.leaveCmd c true = ((d.flushCmd c 15 false).1.endContext c.id, 0) ∧
    (d.remapCmd c).2 = (if d.mapPoisoned c.mapAddr c.mapEntries then 0x0312
      else if (d.namedFrames c.mapAddr c.mapEntries c.saveAddr c.saveBytes).any (fun f => !d.claimable c.id c.confidential f) then 0x0512 else 0) ∧
    (d.ctx? c.id = some c → ((d.remapCmd c).1.ctx? c.id).map (fun k => k.tlb) = some []) ∧
    (d.ctx? c.id = some c → (d.endContext c.id).ctx? c.id = none ∧ (∀ w ∈ (d.endContext c.id).openRegions, w.ctx ≠ c.id) ∧
      ∀ o ∈ (d.endContext c.id).fabric.outstanding, o.ctx ≠ c.id) ∧
    ((c.masked mask).all (fun n => !(c.ring? n).any (fun r => r.halted)) = true → d.resumeCmd c mask force = (d, 0x050C)) ∧
    (∀ n ∈ c.masked mask, (c.ring? n).any (fun r => r.halted && r.failed.any (fun f => f.effect)) = true → d.resumeCmd c mask true = (d, 0x050D)) ∧
    (bytesField cmd 0 1 ≠ 1 → d.ctx? (BitVec.ofNat 16 (bytesField cmd 2 2)) = none → d.cmdEffect cmd true = (d, 0x050A))

/-- Setting HUB.ADMIT_CTL.EN first writes the other fields (a POLLED that goes from 1 to 0 holds and reads the kept lines again) and then
runs the enable's checks in order: the first that fails shows its reason and register and leaves EN
clear; with all passed EN is set, REASON and BAD_REG read 0 and both ring indices start at 0. Clearing EN leaves the
admitted contexts. The register that BAD_REG names is the model's choice (log 117). -/
def Obligations.AdmissionEnableChecks : Prop :=
  ∀ (s : State) (v : BitVec 32), s.pins.railsOn = true →
    let f : Device := { s.dev with regs := { s.dev.regs with admitCtl := mergeBits s.dev.regs.admitCtl (v.setWidth 64) 0x0FFF0F02 } }
    let d := if s.dev.heldMode then f else f.holdAgain
    let base := fieldOf d.regs.admitBase 63 6 * 64
    let cpl := fieldOf d.regs.admitCplBase 63 6 * 64
    let db := fieldOf d.regs.admitDb 63 6 * 64
    let size := fieldOf d.regs.admitCtl 11 8
    let poll := fieldOf d.regs.admitCtl 27 16
    let lines := fieldOf d.regs.admitPoll 6 0
    (s.dev.heldMode = true ∨ v.getLsbD 1 = true → d = f) ∧
    (s.dev.admitOn = false → v.getLsbD 0 = true → d.escalationCode = none → Completes (.admitEnable v) s (fun t => t.OnlyDevice s ∧
      t.dev.contexts = d.contexts ∧ t.dev.mem = d.mem ∧
      let bad (reason : Code) (reg : BitVec 8) : Prop := t.dev = { d with admitRing := { d.admitRing with reason := reason, badReg := reg.toNat } }
      if d.enabled = false then bad 0x0509 0xFF
      else if size < 6 ∨ 12 < size ∨ poll = 0 then bad 0x0508 0x00
      else if lines < 1 ∨ 64 < lines then bad 0x0508 0x05
      else if base = 0 then bad 0x0508 0x01
      else if cpl = 0 then bad 0x0508 0x02
      else if db = 0 then bad 0x0508 0x03
      else if rangesOverlap base (128 * 2 ^ size) cpl (32 * 2 ^ size) then bad 0x0508 0x02
      else if rangesOverlap base (128 * 2 ^ size) db 64 ∨ rangesOverlap cpl (32 * 2 ^ size) db 64 then bad 0x0508 0x03
      else t.dev.admitOn = true ∧ t.dev.admitRing.reason = 0 ∧ t.dev.admitRing.badReg = 0)) ∧
    (∀ e, s.dev.admitOn = false → v.getLsbD 0 = true → d.escalationCode = some e →
      exec (.admitEnable v) s = .next { s with dev := { d with admitRing := { d.admitRing with reason := e, badReg := 0xFF } } }) ∧
    (s.dev.admitOn = true → v.getLsbD 0 = false → Completes (.admitDisable v) s (fun t => t.OnlyDevice s ∧
      t.dev.admitOn = false ∧ t.dev.contexts = s.dev.contexts ∧ t.dev.admitRing = s.dev.admitRing ∧ t.dev.mem = s.dev.mem))

/-- Snoops while CXL.cache works. SNPDATA and SNPCUR answer RspSHitSE for a held line, which stays held, and RspIHitI
for any other, and change nothing else; SNPINV carries the host's new bytes of the line into host memory and, for a line
that is not held, answers RspIHitI and changes nothing else; for a held line it answers RspIHitSE. A DOORBELL_POLL
before the interval's end changes nothing. At its end, in the polled mode and with no context admitted, the admission
TAIL is what the doorbell line holds, unless it lies further ahead than the ring is long. That the device keeps a held
line that SnpInv took is the model's choice (log 71). -/
def Obligations.SnoopsAndPolls : Prop :=
  (∀ (s : State) (addr : Nat) (line : List Byte) (cmd : Instr), s.pins.railsOn = true → s.dev.host.link = .l0 → s.dev.host.cacheEnabled = true →
     let held := s.dev.host.lines.contains (addr / 64 * 64)
     let after (mem : Memory) (answer : Nat) : Host.Outcome State Fault Refusal :=
       .next { s with dev := { s.dev with hostMem := mem, host := { s.dev.host with snoopAnswer := answer } } }
     (cmd = .snpdata addr ∨ cmd = .snpcur addr → exec cmd s = after s.dev.hostMem (if held then 2 else 3)) ∧
     (held = false → exec (.snpinv addr line) s = after (memWrite s.dev.hostMem (addr / 64 * 64) (line.take 64)) 3) ∧
     (held = true → Completes (.snpinv addr line) s (fun t => t.OnlyDevice s ∧ t.dev.host.snoopAnswer = 1))) ∧
  (∀ (s : State), s.pins.railsOn = true → s.dev.host.link = .l0 →
     (s.dev.now < s.dev.admitRing.lastPoll + s.dev.pollNs → exec .doorbellPoll s = .next s) ∧
     (s.dev.admitRing.lastPoll + s.dev.pollNs ≤ s.dev.now → s.dev.contexts = [] → s.dev.heldMode = false → s.dev.admitOn = true →
       s.dev.admitRing.halted = false → s.dev.areaOn 1 = true →
       let tail := leNat (s.dev.hostRead (fieldOf s.dev.regs.admitDb 63 6 * 64) 4)
       tailAhead tail s.dev.admitRing.next ≤ 2 ^ s.dev.admissionSize →
       Completes .doorbellPoll s (fun t => t.OnlyDevice s ∧ t.dev.admitRing = { s.dev.admitRing with tail := tail, lastPoll := s.dev.now } ∧
         t.dev.contexts = [] ∧ t.dev.mem = s.dev.mem ∧ t.dev.hostMem = s.dev.hostMem ∧ t.dev.regs = s.dev.regs)))

/-- SWAP_OUT and SWAP_IN move a context between its slot and the swapped ones when the rules of R409 choose it, and only
then; a swap-in passes over a context whose shares or entries do not fit (the model's choice, log 147). BOBBIN_PREFETCH brings the spilled
entry with the highest stash sequence number back into the Bobbin and counts its pages, when the share holds it and an entry has been released since the
last eviction; otherwise it changes nothing, as without an entry to bring back. -/
def Obligations.ContextsAreSwapped : Prop :=
  ∀ (s : State) (id : Code) (c : Context), s.pins.railsOn = true → s.dev.noteReady.ctx? id = some c →
    let d := s.dev.noteReady
    (d.slotsFull c.panel = true → (d.firstReady c.panel).isSome = true → (d.swapVictim c.panel).map (fun v => v.id) = some id →
      exec (.swapOut id) s = .next { s with dev := d.swapOutCtx c } ∧ ((d.swapOutCtx c).ctx? id).map (fun k => k.resident) = some false) ∧
    (d.slotsFull c.panel = false ∨ (d.firstReady c.panel).isSome = false ∨ (d.swapVictim c.panel).map (fun v => v.id) ≠ some id →
      exec (.swapOut id) s = .next { s with dev := d }) ∧
    (c.resident = false → d.slotsFull c.panel = false → (d.panel c.panel).memOn = true → (d.firstFitting c.panel).map (fun v => v.id) = some id →
      exec (.swapIn id) s = .next { s with dev := d.swapInCtx c } ∧ ((d.swapInCtx c).ctx? id).map (fun k => k.resident) = some true) ∧
    (c.resident = true ∨ d.slotsFull c.panel = true ∨ (d.panel c.panel).memOn = false ∨ (d.firstFitting c.panel).map (fun v => v.id) ≠ some id →
      exec (.swapIn id) s = .next { s with dev := d }) ∧
    (∀ k, s.dev.ctx? id = some k →
      let spilled (e : StashEntry) : Prop := e ∈ k.stash ∧ e.bobbin = false ∧ e.spill.isEmpty = false ∧ e.readable = true
      ((∀ e, ¬ spilled e) → exec (.bobbinPrefetch id) s = .next s) ∧
      ∀ e, spilled e → (∀ x, spilled x → x ≠ e → x.seq < e.seq) →
        (k.resident = false ∨ k.releasedSince = false ∨ k.shareFree < e.pages → exec (.bobbinPrefetch id) s = .next s) ∧
        (k.resident = true → k.releasedSince = true → e.pages ≤ k.shareFree → exec (.bobbinPrefetch id) s = .next { s with dev :=
          (match foldD (List.range e.pages) s.dev ([] : List Byte) (fun d bs i =>
            bindD (d.stashRead { ctx := id, cls := .slate } e.tag (65536 * i) 65536) (fun d x => (d, .ok (bs ++ x)))) with
          | (f, .ok bs) => (f.updStash id e.tag (fun e => { e with bobbin := true, data := memWrite [] 0 bs })).countCtx id 0x04A e.pages
          | (f, .error _) => f) }))
/-! ## Device memory -/

/-- Reads after writes. What has been stored at an address reads back byte for byte, from device memory and from host
memory, every byte outside the stored range reads as before, and the canonical form of the memory is kept; a range set
to 0 reads 0. That a byte never written reads as 0 is the model's choice (log 2). -/
def Obligations.MemoryReadsBack : Prop :=
  ∀ (m : Memory) (a n : Nat) (bs : List Byte), memWf m = true →
    memWf (memWrite m a bs) = true ∧ memRead (memWrite m a bs) a bs.length = bs ∧
    (∀ b, b < a ∨ a + bs.length ≤ b → memGet (memWrite m a bs) b = memGet m b) ∧
    memWf (memZero m a n) = true ∧ (∀ b, memGet (memZero m a n) b = if a ≤ b ∧ b < a + n then 0 else memGet m b)

/-- Setting PANELp.MEM_CTL.EN runs its checks in order, each with its reason and register; with all passed EN is set,
REASON and BAD_REG read 0, the Spool is empty and a rate window and a scrub pass begin. Clearing EN is ignored while PANELp.CTL.EN is
set. No other panel changes, and no byte of memory. The retire table. A LOAD while the memory is enabled only shows
0x0308, and otherwise begins with the address and the count written; a second LOAD leaves it as it is. Its end takes the host's list when it
rises strictly within the pages of a panel, waits for a link in Recovery, and else leaves no table and 0x0308. An added page enters
in order, once; a page out of range or a disabled memory shows 0x0308, a full table 0x0315. That no table counts as loaded
while a load is in progress is the model's choice (log 154). -/
def Obligations.MemoryEnableAndRetireTable : Prop :=
  (∀ (s : State) (p : PanelId) (v : BitVec 32), s.pins.railsOn = true → s.dev.escalationCode = none →
     let q := s.dev.panel p
     let ctl := mergeBits q.memCtl (v.setWidth 64) 0xF02
     (q.memOn = false → v.getLsbD 0 = true → Completes (.memEnable p v) s (fun t => t.OnlyDevice s ∧
       (∀ o, o ≠ p → t.dev.panel o = s.dev.panel o) ∧ t.dev.mem = s.dev.mem ∧ t.dev.contexts = s.dev.contexts ∧
       let bad (reason : Code) (reg : Nat) : Prop := t.dev.panel p = { q with memCtl := ctl, mem := { q.mem with reason := reason, badReg := reg } }
       if q.mem.present = false then bad 0x0301 0xFF
       else if q.mem.trained ≠ 0xF then bad 0x0302 0x01
       else if q.mem.loaded = false ∨ q.mem.loadBusy = true then bad 0x0307 0x04
       else if fieldOf q.memScrub 7 0 < 1 ∨ 168 < fieldOf q.memScrub 7 0 then bad 0x0303 0x02
       else if s.dev.guarantee = true ∧ bitOf ctl 1 = false then bad 0x0303 0x00
       else if fieldOf ctl 11 8 < 1 ∨ 8 < fieldOf ctl 11 8 then bad 0x0304 0x00
       else if fieldOf q.spoolCfg 4 0 < 4 ∨ 16 < fieldOf q.spoolCfg 4 0 then bad 0x0304 0x0A
       else (t.dev.panel p).memOn = true ∧ (t.dev.panel p).mem = { q.mem with reason := 0, badReg := 0, spool := [], windowSince := s.dev.now, rateCount := 0, rateRecorded := false, scrubbed := [] })) ∧
     (q.memOn = true → q.enabled = true → v.getLsbD 0 = false → exec (.memDisable p v) s = .next s) ∧
     (q.memOn = true → q.enabled = false → v.getLsbD 0 = false → Completes (.memDisable p v) s (fun t => t.OnlyDevice s ∧
       (t.dev.panel p).memOn = false ∧ (∀ o, o ≠ p → t.dev.panel o = s.dev.panel o) ∧ t.dev.mem = s.dev.mem))) ∧
  (∀ (s : State) (p : PanelId) (v : BitVec 32), s.pins.railsOn = true →
     let q := s.dev.panel p
     let list := (List.range q.mem.loading.2).map (fun i => leNat (s.dev.hostRead (q.mem.loading.1 + 4 * i) 4))
     let good := s.dev.host.link = .l0 ∧ q.mem.loading.2 ≤ 4096 ∧ (∀ e ∈ list, e < 5242880) ∧ list.Pairwise (fun a b => a < b)
     let page := v.toNat % 2 ^ 23
     let only (cmd : Instr) (P : Panel → Prop) : Prop := Completes cmd s (fun t => t.OnlyDevice s ∧ s.dev.OnlyPanel t.dev p ∧ P (t.dev.panel p))
     (q.memOn = true → v.getLsbD 31 = true → only (.retireLoad p v) (fun r => r = { q with mem := { q.mem with reason := 0x0308 } })) ∧
     (q.memOn = false → only (.retireLoad p v) (fun r =>
       r.mem = (if v.getLsbD 31 = true ∧ q.mem.loadBusy = false then
         { q.mem with loadBusy := true, loading := (q.memRetireBase.toNat / 64 * 64, v.toNat % 2 ^ 13) } else q.mem) ∧
       ∀ i < 64, bitOf r.memRetireCtl i = if i < 13 then v.getLsbD i else bitOf q.memRetireCtl i)) ∧
     (q.mem.loadBusy = false ∨ s.dev.host.link = .recovery → exec (.retireLoadDone p) s = .next s) ∧
     (q.mem.loadBusy = true → good → only (.retireLoadDone p) (fun r =>
       r = { q with mem := { q.mem with loadBusy := false, loaded := true, retired := list } })) ∧
     (q.mem.loadBusy = true → s.dev.host.link ≠ .recovery → ¬ good → only (.retireLoadDone p) (fun r =>
       r = { q with mem := { q.mem with loadBusy := false, loaded := false, retired := [], reason := 0x0308 } })) ∧
     (q.memOn = false ∨ 5242880 ≤ page → only (.memRetireAdd p v) (fun r => r = { q with mem := { q.mem with reason := 0x0308 } })) ∧
     (q.memOn = true → page < 5242880 → page ∈ q.mem.retired → exec (.memRetireAdd p v) s = .next s) ∧
     (q.memOn = true → page < 5242880 → page ∉ q.mem.retired → 4096 ≤ q.mem.retired.length →
       only (.memRetireAdd p v) (fun r => r = { q with mem := { q.mem with reason := 0x0315 } })) ∧
     (q.memOn = true → page < 5242880 → page ∉ q.mem.retired → q.mem.retired.length < 4096 → q.mem.retired.Pairwise (fun a b => a < b) →
       only (.memRetireAdd p v) (fun r => r.mem.retired.Pairwise (fun a b => a < b) ∧ ∀ e, e ∈ r.mem.retired ↔ e = page ∨ e ∈ q.mem.retired)))

/-- ECC and scrubbing of an enabled memory. A read or a scrub with bits in error in one symbol is corrected: it counts in the
corrected errors and in their window, and every byte stands as it stood. A read or a scrub of an access that ECC cannot correct (one that
is known to be so, or whose errors the decoder calls uncorrectable) counts, latches its page and writes its
record, 0x0311 for a read and 0x0314 for a scrub, and a scrubbed access is left with the poison code. An access is scrubbed once in a
period, a retired one never. The end of a window starts the next one, and the next scrub pass. Stacks. A
refresh that is due is kept with its time and takes over the sampled interval; interface maintenance that is due keeps its time, and stays 400 ns away
from a refresh; a sensor sample stores the temperature, throttles above 92 °C, ends throttling at 89 °C and below, and selects the
refresh interval; a promotion promotes the oldest request that has outlived its class's limit, a read when one of 8 places is free. No stored byte
changes. -/
def Obligations.EccAndStackEvents : Prop :=
  (∀ (s : State) (p : PanelId) (mpa : Nat) (by_ : Requester) (e : ReadError), s.pins.railsOn = true → mpa < mpaEnd →
     s.dev.err.general < 63 → p = panelOf mpa → (s.dev.panel p).memOn = true → memWf s.dev.mem = true →
     let m := (s.dev.panel p).mem
     let access := ppaOf mpa / 64
     let one : Prop := e.from_ = none ∧ ∃ sy v, v ≠ 0 ∧ e.flips = [(sy, v)]
     let lost : Prop := mpa / 64 ∈ s.dev.faulty ∨ (s.dev.decodeRead mpa e).uncorrectable = true
     let scrubs : Prop := bitOf (s.dev.panel p).memCtl 1 = true ∧ (s.dev.panel p).retires (access * 64) = false ∧ access ∉ m.scrubbed
     let corrected (t : State) : Prop := (t.dev.panel p).mem.corr = satTo 48 (m.corr + 1) ∧ (t.dev.panel p).mem.rateCount = m.rateCount + 1 ∧
       t.dev.mem = s.dev.mem ∧ t.dev.contexts = s.dev.contexts
     let recorded (t : State) (reason : Code) : Prop := (t.dev.panel p).mem.uncorr = satTo 16 (m.uncorr + 1) ∧
       (t.dev.panel p).mem.uePage = some (pageOf (ppaOf mpa)) ∧ t.dev.mem = s.dev.mem ∧
       ∃ r, t.dev.err.queue = s.dev.err.queue ++ [⟨r, false, none⟩] ∧ r.reason = reason ∧ r.panel = p.val
     (s.dev.isPoison (mpa / 64) = false → mpa / 64 ∉ s.dev.faulty → one → Completes (.memoryReadReturn mpa e by_) s corrected) ∧
     (s.dev.isPoison (mpa / 64) = false → lost → Completes (.memoryReadReturn mpa e .nobody) s (fun t =>
       recorded t 0x0311 ∧ mpa / 64 ∈ t.dev.faulty)) ∧
     (scrubs → s.dev.isPoison (mpa / 64) = false → mpa / 64 ∉ s.dev.faulty → one → Completes (.scrubRead p access e) s (fun t =>
       corrected t ∧ (t.dev.panel p).mem.scrubbed = access :: m.scrubbed)) ∧
     (scrubs → s.dev.isPoison (mpa / 64) = false → lost → Completes (.scrubRead p access e) s (fun t =>
       recorded t 0x0314 ∧ t.dev.isPoison (mpa / 64) = true ∧ (t.dev.panel p).mem.scrubbed = access :: m.scrubbed)) ∧
     (¬ scrubs → exec (.scrubRead p access e) s = .next s) ∧
     ((s.dev.panel p).windowNs ≤ s.dev.now - m.windowSince → Completes (.rateWindowEnd p) s (fun t => t.OnlyDevice s ∧ s.dev.OnlyPanel t.dev p ∧
       (t.dev.panel p).mem = { m with windowSince := m.windowSince + (s.dev.panel p).windowNs, rateCount := 0, rateRecorded := false, scrubbed := [] })) ∧
     (s.dev.now - m.windowSince < (s.dev.panel p).windowNs → exec (.rateWindowEnd p) s = .next s)) ∧
  (∀ (s : State) (p : PanelId) (k : Fin 4) (ch : Fin 128) (c : Fin 512) (temp : BitVec 8), s.pins.railsOn = true →
     let m := (s.dev.panel p).mem
     let st := m.stackStates[k.val]
     let n := 128 * k.val + ch.val
     let takes (r : MemRequest) : Bool := s.dev.mayPromote m c.val r && (r.write || decide (((m.queueOf c.val).filter (fun r => r.promoted && !r.write)).length < 8))
     (m.trained.getLsbD k.val = true → dueSince m.refreshed n s.dev.now (refreshNs st.refresh) = true → Completes (.refresh p k ch) s (fun t => t.OnlyDevice s ∧
       timeOf (t.dev.panel p).mem.refreshed n = some s.dev.now ∧ (t.dev.panel p).mem.stackStates[k.val].refresh = st.refreshNext ∧
       (∀ o, o ≠ p → t.dev.panel o = s.dev.panel o) ∧ t.dev.mem = s.dev.mem)) ∧
     (m.trained.getLsbD k.val = true → dueSince m.maintained n s.dev.now 2000 = true →
       (∀ r, timeOf m.refreshed n = some r → r + 400 ≤ s.dev.now ∧ s.dev.now + 400 ≤ r + refreshNs st.refresh) → Completes (.interfaceMaintenance p k ch) s (fun t =>
       t.OnlyDevice s ∧ s.dev.OnlyPanel t.dev p ∧ (t.dev.panel p).mem = { m with maintained := (t.dev.panel p).mem.maintained } ∧
       timeOf (t.dev.panel p).mem.maintained n = some s.dev.now)) ∧
     (m.trained.getLsbD k.val = false ∨ dueSince m.refreshed n s.dev.now (refreshNs st.refresh) = false → exec (.refresh p k ch) s = .next s) ∧
     (m.trained.getLsbD k.val = false ∨ dueSince m.maintained n s.dev.now 2000 = false → exec (.interfaceMaintenance p k ch) s = .next s) ∧
     Completes (.stackSensorSample p k temp) s (fun t => t.OnlyDevice s ∧ (∀ o, o ≠ p → t.dev.panel o = s.dev.panel o) ∧ t.dev.mem = s.dev.mem ∧
       (t.dev.panel p).mem.stackStates[k.val].temp = temp.toNat ∧
       ((t.dev.panel p).mem.stackStates[k.val].throttled = true ↔ 92 < temp.toNat ∨ st.throttled = true ∧ 89 < temp.toNat) ∧
       (95 < temp.toNat → (t.dev.panel p).mem.stackStates[k.val].refreshNext = 2) ∧
       (85 < temp.toNat → temp.toNat ≤ 92 → (t.dev.panel p).mem.stackStates[k.val].refreshNext = 1) ∧
       (temp.toNat ≤ 82 → (t.dev.panel p).mem.stackStates[k.val].refreshNext = 0)) ∧
     (∀ pre r rest, m.queueOf c.val = pre ++ r :: rest → (∀ x ∈ pre, takes x = false) → takes r = true →
       Completes (.requestPromotion p c) s (fun t => t.OnlyDevice s ∧ s.dev.OnlyPanel t.dev p ∧
         (t.dev.panel p).mem.queueOf c.val = pre ++ { r with promoted := true } :: rest)) ∧
     ((∀ x ∈ m.queueOf c.val, takes x = false) → Completes (.requestPromotion p c) s (fun t => t.OnlyDevice s ∧ s.dev.OnlyPanel t.dev p ∧
         (t.dev.panel p).mem.queueOf c.val = m.queueOf c.val)))

/-- The host window. MEMRD and MEMRDDATA of an open place, once the map entry that places it has been read, answer the 64 bytes that
stand there, with poison when the place or a Spool line of it holds poison; an access that no entry takes is counted, a read of it and of a place
that cannot be reached is answered as poison, a write dropped; MEMWR stores the 64 bytes there and nowhere else, and poison with them when
the host says so; MEMWRPTL stores only those that its mask enables; MEMINV is answered and changes no memory.
Which accesses without an entry are counted is the model's choice (log 58). -/
def Obligations.WindowAccesses : Prop :=
  ∀ (s : State) (o : Nat) (data : List Byte) (mask : BitVec 64) (cmd : Instr), s.pins.railsOn = true → s.dev.windowOn = true → o % 64 = 0 →
    memWf s.dev.mem = true →
    let d (write : Bool) : Device := (s.dev.countHub { code := 0x103 } 1).windowMap o write
    (cmd = .memrd o ∨ cmd = .memrddata o → ∀ id mpa, s.dev.windowPlace o false = .at_ id mpa → Completes cmd s (fun t =>
      t.OnlyDevice s ∧ t.dev.host.winAnswer = some (memRead s.dev.mem mpa 64, (d false).badIn mpa 64) ∧ t.dev.contexts = (d false).contexts)) ∧
    (cmd = .memrd o ∨ cmd = .memrddata o → s.dev.windowPlace o false = .unmapped → Completes cmd s (fun t => t.OnlyDevice s ∧
      t.dev.unmapped = satTo 32 (s.dev.unmapped + 1) ∧ t.dev.host.winAnswer.map (fun a => a.2) = some true ∧ t.dev.mem = s.dev.mem)) ∧
    (cmd = .memrd o ∨ cmd = .memrddata o → s.dev.windowPlace o false = .bad → Completes cmd s (fun t => t.OnlyDevice s ∧
      t.dev.host.winAnswer.map (fun a => a.2) = some true ∧ t.dev.mem = s.dev.mem)) ∧
    (∀ id mpa poison, s.dev.windowPlace o true = .at_ id mpa → data.length = 64 → Completes (.memwr o data poison) s (fun t => t.OnlyDevice s ∧
      memRead t.dev.mem mpa 64 = data ∧ (∀ b, b < mpa ∨ mpa + 64 ≤ b → memGet t.dev.mem b = memGet s.dev.mem b) ∧
      (poison = true → t.dev.isPoison (mpa / 64) = true))) ∧
    (∀ id mpa poison, s.dev.windowPlace o true = .at_ id mpa → data.length = 64 → mask ≠ BitVec.allOnes 64 → Completes (.memwrptl o data mask poison) s (fun t =>
      (∀ i < 64, memGet t.dev.mem (mpa + i) = if mask.getLsbD i then data.getD i 0 else memGet s.dev.mem (mpa + i)) ∧
      (∀ b, b < mpa ∨ mpa + 64 ≤ b → memGet t.dev.mem b = memGet s.dev.mem b))) ∧
    (∀ poison, s.dev.windowPlace o true = .unmapped → Completes (.memwr o data poison) s (fun t => t.OnlyDevice s ∧
      t.dev.unmapped = satTo 32 (s.dev.unmapped + 1) ∧ t.dev.mem = s.dev.mem ∧ t.dev.contexts = s.dev.contexts)) ∧
    Completes (.meminv o) s (fun t => t.OnlyDevice s ∧ t.dev = { s.dev with host := t.dev.host } ∧ t.dev.host = { s.dev.host with winAnswer := some ([], false) })
/-! ## The optical fabric -/

/-- Setting PORTn.CTL.EN runs its checks in order: with all passed EN is set, REASON and BAD_REG read 0 and the port waits
for its laser, or trains when the laser is locked; a failed one shows its reason and register. Nothing but that port
changes. Ports stop and drain. A disable empties an UP port without packets and leaves it DISABLED; DRAIN moves an UP
port to DRAINING and its withdrawal moves it back; a drained port of a cartridge with a removal request becomes SAFE.
No other port, no context and no memory changes. -/
def Obligations.PortsEnableAndDrain : Prop :=
  (∀ (s : State) (n : PortId) (v : BitVec 32), s.pins.railsOn = true → s.dev.reset.escalation = .inService → (s.dev.port n).enabled = false → v.getLsbD 0 = true →
     Completes (.portEnable n v) s (fun t =>
       let q := s.dev.port n
       let r := t.dev.port n
       let res (k : Nat) : Nat := fieldOf q.creditRes (11 * k + 10) (11 * k)
       let w (k : Nat) : Nat := fieldOf q.arb (4 * k + 3) (4 * k)
       let age := fieldOf s.dev.regs.fabCfg 27 16
       let cart := s.dev.cart (cartOf n)
       let bad (reason : Code) (reg : Nat) : Prop := r.reason = reason ∧ r.badReg = reg ∧ r.enabled = false ∧ r.state = q.state
       t.OnlyDevice s ∧ s.dev.OnlyPort t.dev n ∧
       if s.dev.enabled = false then bad 0x0405 0xFF
       else if 1024 < res 0 + res 1 + res 2 + res 3 + res 4 + fieldOf q.creditShr 10 0 then bad 0x0401 0x01
       else if res 0 < 4 ∨ res 1 < 17 ∨ res 2 < 17 ∨ res 3 < 17 ∨ res 4 < 17 then bad 0x0402 0x01
       else if w 0 < 1 ∨ w 1 < 1 ∨ w 2 < 1 then bad 0x0406 0x03
       else if s.dev.fabric.active = none then bad 0x0403 0xFF
       else if age < 50 ∨ 4000 < age ∨ fieldOf s.dev.regs.fabCfg 45 32 < 2 * age + 10 then bad 0x0407 0xFF
       else if cart.present = false ∨ cart.fault = true ∨ s.dev.removeAsked (cartOf n) = true then bad 0x0404 0xFF
       else r.enabled = true ∧ r.reason = 0 ∧ r.badReg = 0 ∧ r.state = if cart.ready then .training else .waitLaser)) ∧
  (∀ (s : State) (n : PortId) (v : BitVec 32), s.pins.railsOn = true → (s.dev.port n).enabled = true →
     let q := s.dev.port n
     let same (t : State) : Prop := t.OnlyDevice s ∧ (∀ m, m ≠ n → t.dev.port m = s.dev.port m) ∧ t.dev.contexts = s.dev.contexts ∧ t.dev.mem = s.dev.mem ∧ t.dev.panels = s.dev.panels
     (q.packets = [] → v.getLsbD 0 = false → Completes (.portDisable n v) s (fun t => same t ∧ (t.dev.port n).enabled = false ∧
       (t.dev.port n).state = .disabled ∧ (t.dev.port n).replayBuf = [])) ∧
     (q.state = .up → v.getLsbD 0 = true → v.getLsbD 1 = true → Completes (.portDrain n v) s (fun t => same t ∧ (t.dev.port n).state = .draining ∧ bitOf (t.dev.port n).ctl 1 = true)) ∧
     (q.state = .draining → v.getLsbD 0 = true → v.getLsbD 1 = false → s.dev.removeAsked (cartOf n) = false →
       Completes (.portUndrain n v) s (fun t => same t ∧ (t.dev.port n).state = .up ∧ bitOf (t.dev.port n).ctl 1 = false)) ∧
     (q.state = .draining → q.drained = true → s.dev.removeAsked (cartOf n) = true → Completes (.drainComplete n) s (fun t => same t ∧ (t.dev.port n).state = .safe)) ∧
     (q.state ≠ .draining → exec (.drainComplete n) s = .next s))

/-- Cartridges. A removal request of a cartridge whose ports carry no light turns its lasers off; its end takes the
identity: a genuine one lights, another shows a fault; lasers that lock make the cartridge ready, and its waiting ports train; 2 s
without a lock show a fault; an open latch takes the cartridge out, and without a removal request its ports that wait for it go DOWN
with 0x0418; a closed one puts it in. Other cartridges stay. When a newly latched cartridge's lasers come up without a request is the
model's choice (log 64). -/
def Obligations.CartridgeEvents : Prop :=
  ∀ (s : State) (k : CartId) (v : BitVec 32) (g : BitVec 8), s.pins.railsOn = true →
    (∀ n, cartOf n = k → ((s.dev.port n).state = .waitLaser ∨ (s.dev.port n).state = .disabled) ∧ (s.dev.port n).packets = []) →
    let c := s.dev.cart k
    let rest (t : State) : Prop := t.OnlyDevice s ∧ (∀ j, j ≠ k → t.dev.cart j = s.dev.cart j) ∧ (∀ n, cartOf n ≠ k → t.dev.port n = s.dev.port n) ∧
      t.dev.contexts = s.dev.contexts ∧ t.dev.mem = s.dev.mem
    let out : Cartridge := { c with present := false, lasers := false, ready := false, fault := false }
    ((∀ j : CartId, v.getLsbD j.val = (bitOf s.dev.regs.lcCtl j.val || j = k)) → bitOf s.dev.regs.lcCtl k.val = false →
      Completes (.lcRemoveRequest v) s (fun t => rest t ∧ t.dev.removeAsked k = true ∧ t.dev.cart k = { c with lasers := false, ready := false })) ∧
    ((∀ j : CartId, v.getLsbD j.val = (bitOf s.dev.regs.lcCtl j.val && j != k)) → bitOf s.dev.regs.lcCtl k.val = true →
      Completes (.lcRemoveRelease v g) s (fun t => rest t ∧ t.dev.removeAsked k = false ∧ (t.dev.cart k).genuine = g.getLsbD k.val ∧
        (t.dev.cart k).lasers = (c.present && g.getLsbD k.val) ∧ (t.dev.cart k).fault = (c.present && !g.getLsbD k.val))) ∧
    (c.present = true → c.genuine = true → c.lasers = true → c.fault = false → c.ready = false → s.dev.removeAsked k = false →
      Completes (.lcLasersLocked k) s (fun t => rest t ∧ t.dev.cart k = { c with ready := true } ∧
        ∀ n, cartOf n = k → (t.dev.port n).state = if (s.dev.port n).state = .waitLaser then .training else (s.dev.port n).state)) ∧
    (c.present = true → c.lasers = true → c.ready = false → 2000000000 ≤ s.dev.now - c.since →
      Completes (.lcLockTimeout k) s (fun t => rest t ∧ t.dev.ports = s.dev.ports ∧ t.dev.cart k = { c with fault := true })) ∧
    (c.present = true → s.dev.removeAsked k = true → Completes (.lcLatchOpen k) s (fun t => rest t ∧ t.dev.ports = s.dev.ports ∧ t.dev.cart k = out)) ∧
    (c.present = true → s.dev.removeAsked k = false → Completes (.lcLatchOpen k) s (fun t => rest t ∧ t.dev.cart k = out ∧
      ∀ n, cartOf n = k → ((s.dev.port n).state = .disabled → t.dev.port n = s.dev.port n) ∧
        ((s.dev.port n).state = .waitLaser → (t.dev.port n).state = .down ∧ (t.dev.port n).reason = 0x0418))) ∧
    (c.present = false → Completes (.lcLatchClose k) s (fun t => rest t ∧ t.dev.ports = s.dev.ports ∧ (t.dev.cart k).present = true))

/-- Link-up. A locked receiver sends its identity; the peer's identity is taken, or the port goes DOWN: with 0x0412 for a peer that
is not trusted, and between a debug-open and a production module, with 0x0411 for one that PEER_EXPECT does not name and for this
module itself; with keys agreed the link is secured with the keys and salts of epoch 0 and both indexes at 0, and this module's
credits are sent, without them DOWN with 0x0413; the peer's credits bring the port UP, and to DRAINING while DRAIN stands; 100 ms
without an end take the port DOWN with 0x0410. No other port, context, panel or error record changes. That a debug-open module
exempts timing units from its refusal is the model's choice (log 165). -/
def Obligations.LinkTraining : Prop :=
  ∀ (s : State) (n : PortId) (peer : PeerIdentity) (credits : PeerCredits), s.pins.railsOn = true → (s.dev.port n).packets = [] →
    let q := s.dev.port n
    let same (t : State) : Prop := t.OnlyDevice s ∧ (∀ m, m ≠ n → t.dev.port m = s.dev.port m) ∧ t.dev.contexts = s.dev.contexts ∧ t.dev.err = s.dev.err ∧ t.dev.panels = s.dev.panels
    let downWith (t : State) (code : Code) : Prop := same t ∧ (t.dev.port n).state = .down ∧ (t.dev.port n).reason = code ∧ (t.dev.port n).downCount = satTo 8 (q.downCount + 1)
    let refused : Prop := peer.trusted = false ∨ (peer.debugOpen = true ∧ s.dev.thimble.debugOpen = false) ∨
      (s.dev.thimble.debugOpen = true ∧ peer.debugOpen = false ∧ peer.ext = false)
    let wrong : Prop := (bitOf q.peerExpect 31 = true ∧ fieldOf q.peerExpect 14 0 ≠ peer.modNum.toNat) ∨ peer.identity = ownIdentity
    let digest (dir : Nat) : List Byte := linkDigest s.dev.fresh dir 0
    (q.state = .training → q.locked = false → Completes (.codewordLock n) s (fun t => same t ∧ (t.dev.port n).locked = true ∧
      (t.dev.port n).linkCtlOut = q.linkCtlOut ++ [.identity (s.dev.ownPeer n)])) ∧
    (q.state = .training → q.locked = true → q.identified = false →
      (refused → Completes (.linkCtlIdentity n peer) s (fun t => downWith t 0x0412)) ∧
      (¬ refused → wrong → Completes (.linkCtlIdentity n peer) s (fun t => downWith t 0x0411)) ∧
      (¬ refused → ¬ wrong → Completes (.linkCtlIdentity n peer) s (fun t => same t ∧
        t.dev.port n = { q with peer := some peer, identified := true, rtt := peer.rtt100ps }))) ∧
    (q.state = .training → q.identified = true → Completes (.keyExchangeDone n false) s (fun t => downWith t 0x0413) ∧
      Completes (.keyExchangeDone n true) s (fun t => same t ∧ (t.dev.port n).state = .securing ∧ (t.dev.port n).keyed = true ∧ (t.dev.port n).txIndex = 0 ∧ (t.dev.port n).rxIndex = 0 ∧
        (t.dev.port n).txKey = (digest q.direction).take 32 ∧ (t.dev.port n).rxKey = (digest (1 - q.direction)).take 32 ∧
        (t.dev.port n).txSalt = ((digest q.direction).drop 32).take 4 ∧ (t.dev.port n).rxSalt = ((digest (1 - q.direction)).drop 32).take 4 ∧
        (t.dev.port n).linkCtlOut = q.linkCtlOut ++ [.credits q.ownCredits])) ∧
    (q.state = .securing → q.keyed = true → bitOf q.ctl 1 = false → s.dev.removeAsked (cartOf n) = false →
      Completes (.linkTrainingComplete n credits) s (fun t => same t ∧ (t.dev.port n).state = .up ∧ (t.dev.port n).credits = credits.reserved ∧
        (t.dev.port n).creditsShared = credits.shared ∧ (t.dev.port n).txSeq = 0 ∧ (t.dev.port n).rxSeq = 0)) ∧
    (q.state = .securing → q.keyed = true → bitOf q.ctl 1 = true ∨ s.dev.removeAsked (cartOf n) = true →
      Completes (.linkTrainingComplete n credits) s (fun t => same t ∧ (t.dev.port n).state = .draining)) ∧
    ((q.state = .training ∨ q.state = .securing) → 100000000 ≤ s.dev.now - q.since → Completes (.portTrainTimeout n) s (fun t => downWith t 0x0410)) ∧
    ((q.state = .training ∨ q.state = .securing) → s.dev.now - q.since < 100000000 → exec (.portTrainTimeout n) s = .next s)

/-- Codewords of a port that carries traffic. Every received codeword counts once and advances the index, and the key with it; one of
more than 8 symbols in error counts and lengthens the run of such; another ends the run and counts its corrected symbols; a flit in
sequence enters the receive buffer and will be acknowledged; a flit out of sequence asks for a NAK and changes nothing else of the
module. Every sent codeword counts once; a waiting marker goes before everything, then LINK_CTL, and with nothing to send the codeword
is idle and carries the acknowledgement, the NAK and a credit. A replay begins when an unacknowledged flit has waited 2 µs, from the
oldest one. A port goes DOWN with its reason, its count and one error record on a DOWN codeword of its peer and 500 ns of silence
(0x0417), on a lost lane and the loss of codeword lock by 8 consecutive uncorrectable codewords (0x0414); a failed tag takes it DOWN
with 0x0416. A DOWN codeword with cause MODULE marks its sender as lost. A port that is DOWN, enabled and retraining by itself waits
for its laser again after 1 s. That 9 symbols in error are always uncorrectable is the model's choice (log 164). -/
def Obligations.CodewordsAndPortsDown : Prop :=
  (∀ (s : State) (n : PortId) (cw : Codeword), s.pins.railsOn = true → (s.dev.port n).state = .up →
     let q := s.dev.port n
     let got : Port := { q.gotOne with corrSymbols := satTo 40 (q.corrSymbols + cw.symbols), uncorrRun := 0 }
     let only (cmd : Instr) (P : Port → Prop) : Prop := Completes cmd s (fun t => t.OnlyDevice s ∧ s.dev.OnlyPort t.dev n ∧ P (t.dev.port n))
     let counted (cmd : Instr) (P : Port → Prop) : Prop :=
       Completes cmd s (fun t => t.OnlyDevice s ∧ s.dev.OnlyPort { t.dev with counters := s.dev.counters } n ∧ P (t.dev.port n))
     let plain : Prop := cw.symbols ≤ 8 ∧ cw.crcOk = true ∧ cw.tagOk = true ∧ cw.ackSeq = none ∧ cw.credit = none ∧ cw.nak = false
     let empty : Prop := ∀ v : Fin 5, q.queues[v.val] = []
     (8 < cw.symbols → q.uncorrRun < 7 → only (.codewordReceive n cw) (fun r => r = { q.gotOne with uncorrCw := satTo 32 (q.uncorrCw + 1), uncorrRun := q.uncorrRun + 1 })) ∧
     (cw.symbols ≤ 8 → cw.crcOk = false → only (.codewordReceive n cw) (fun r => r = got)) ∧
     (plain → cw.body = .idle → only (.codewordReceive n cw) (fun r => r = { got with lastGood := s.dev.now })) ∧
     (∀ pkt i, plain → cw.body = .flit pkt i → cw.txSeq ≠ q.rxSeq →
       only (.codewordReceive n cw) (fun r => r = { got with lastGood := s.dev.now, nakOut := true })) ∧
     (∀ pkt, plain → cw.body = .flit pkt 0 → cw.txSeq = q.rxSeq → q.peer.any (fun p => p.ext) = false → 1 < pkt.flits →
       counted (.codewordReceive n cw) (fun r => r.rxSeq = q.rxSeq + 1 ∧ r.lastAck = q.rxSeq ∧ (pkt, 1) ∈ r.recv ∧
         r.occupied[pkt.body.vc.val] = q.occupied[pkt.body.vc.val] + 1 ∧ r.queues = q.queues)) ∧
     ((s.dev.cart (cartOf n)).ready = true → (∀ v : Fin 5, ∀ e ∈ q.queues[v.val], e.sent = 0 → s.dev.tooOld (e.age s.dev.now) = false) →
       Completes (.nextCodeword n) s (fun t => t.OnlyDevice s ∧ t.dev.contexts = s.dev.contexts ∧ t.dev.mem = s.dev.mem ∧
         (t.dev.port n).txIndex = q.txIndex + 1 ∧ (t.dev.port n).nakOut = false ∧ (t.dev.port n).state = .up ∧ (t.dev.port n).rxIndex = q.rxIndex ∧
         (∀ m, q.markerOut = some m → (t.dev.port n).markerOut = none ∧ (t.dev.port n).lastSent.map (fun w => w.1) = some (.marker m)) ∧
         (∀ l ls, q.markerOut = none → q.linkCtlOut = l :: ls → (t.dev.port n).linkCtlOut = ls ∧ (t.dev.port n).lastSent.map (fun w => w.1) = some (.linkCtl l)))) ∧
     ((s.dev.cart (cartOf n)).ready = true → q.markerOut = none → q.linkCtlOut = [] → q.replayCursor = none → empty →
       counted (.nextCodeword n) (fun r => r.lastSent = some (.idle, ⟨0, q.lastAck, q.nakOut, q.toReturn.head?⟩) ∧ r.toReturn = q.toReturn.drop 1 ∧ r.replayBuf = q.replayBuf)) ∧
     ((s.dev.cart (cartOf n)).ready = false → empty → exec (.nextCodeword n) s = .next s) ∧
     (∀ f fs, q.replayBuf = f :: fs → (∀ g ∈ f :: fs, g.resends < 8) → 2000 ≤ s.dev.now - q.ackSince →
       only (.replayTimeout n) (fun r => r = { q with replayCursor := some 0, replays := satTo 24 (q.replays + 1), ackSince := s.dev.now })) ∧
     (s.dev.now - q.ackSince < 2000 → exec (.replayTimeout n) s = .next s)) ∧
  (∀ (s : State) (n : PortId) (lane : Fin 16) (cw : Codeword), s.pins.railsOn = true → s.dev.err.general < 64 → (s.dev.port n).packets = [] →
     let q := s.dev.port n
     let down (cmd : Instr) (code : Code) : Prop := Completes cmd s (fun t => t.OnlyDevice s ∧ (∀ m, m ≠ n → t.dev.port m = s.dev.port m) ∧
       (t.dev.port n).state = .down ∧ (t.dev.port n).reason = code ∧ (t.dev.port n).downCount = satTo 8 (q.downCount + 1) ∧ (t.dev.port n).queues = Vector.replicate 5 [] ∧
       t.dev.contexts = s.dev.contexts ∧ t.dev.mem = s.dev.mem ∧ ∃ e, t.dev.err.queue = s.dev.err.queue ++ [⟨e, false, none⟩] ∧ e.reason = code ∧ e.mech = 7 ∧ e.unit = n.val)
     (q.state = .up → down (.linkCtlDown n false) 0x0417) ∧
     (∀ p, q.state = .up → q.peer = some p → Completes (.linkCtlDown n true) s (fun t => t.OnlyDevice s ∧ (t.dev.port n).state = .down ∧
       (∀ m, m ∈ t.dev.fabric.deadMods ↔ m = p.modNum ∨ m ∈ s.dev.fabric.deadMods) ∧ t.dev.mem = s.dev.mem)) ∧
     (q.state = .up → 500 ≤ s.dev.now - q.lastGood → down (.peerSilence n) 0x0417) ∧
     (q.state = .up → s.dev.now - q.lastGood < 500 → exec (.peerSilence n) s = .next s) ∧
     (q.state = .up → down (.laneSignalLost n lane) 0x0414) ∧
     (q.state = .up → down (.codewordLockLost n) 0x0414) ∧
     (q.state ≠ .up → q.state ≠ .draining → exec (.codewordLockLost n) s = .next s) ∧
     (q.state = .up → 8 < cw.symbols → 7 ≤ q.uncorrRun → down (.codewordReceive n cw) 0x0414) ∧
     (q.state = .up → cw.symbols ≤ 8 → cw.crcOk = true → cw.tagOk = false → down (.codewordReceive n cw) 0x0416) ∧
     (q.state = .down → q.enabled = true → bitOf q.ctl 2 = true → 1000000000 ≤ s.dev.now - q.since → Completes (.autoRetrain n) s (fun t =>
       t.OnlyDevice s ∧ s.dev.OnlyPort t.dev n ∧ (t.dev.port n).state = if (s.dev.cart (cartOf n)).ready then .training else .waitLaser)))

/-- Routes and packets. A route load becomes busy and drops the standby table; its end takes the host's image as the
standby table when every check passes, and else shows the reason; a SWAP makes the standby table the active one. A
packet for this module enters the inbox, older by the delay of the link that it came by; a packet too old is counted as discarded; a
flooded packet enters the inbox at every module; a packet for another module whose egress is usable and whose turn is permitted waits
at that egress, by the layer that its route's UP bit asks for; one whose turn is not permitted is counted at its ingress. A hold that
has not expired stands. That the standby table is invalid after a SWAP is the model's choice (log 63). -/
def Obligations.RoutesAndPackets : Prop :=
  ∀ (s : State) (v : BitVec 32) (tab : RouteTable) (ing : Fin 25) (pkt : Packet) (dst : BitVec 15) (u : RouteUse) (until_ : Nat), s.pins.railsOn = true →
    let f := s.dev.fabric
    let only (cmd : Instr) (P : Fabric → Prop) : Prop := Completes cmd s (fun t => t.OnlyDevice s ∧ t.dev = { s.dev with fabric := t.dev.fabric } ∧ P t.dev.fabric)
    let image (o n : Nat) : Nat := leNat (s.dev.hostRead (s.dev.regs.fabRouteBase.toNat / 64 * 64 + o) n)
    let turns : List (BitVec 32) := (List.range 50).map (fun i => BitVec.ofNat 32 (image (16 + 4 * i) 4))
    let routes : List (BitVec 32) := (List.range (image 4 4)).map (fun i => BitVec.ofNat 32 (image (256 + 4 * i) 4))
    let injects (port : Nat) : Bool := (turns.getD 48 0).getLsbD port
    let good : Prop := image 0 2 = 1 ∧ image 2 2 = s.dev.modNum.toNat ∧ 1 ≤ image 4 4 ∧ image 4 4 ≤ 32768 ∧
      image 8 8 = 0 ∧ (∀ i < 5, image (216 + 8 * i) 8 = 0) ∧ (∀ m ∈ turns, m.toNat < 2 ^ 24) ∧
      s.dev.modNum.toNat < image 4 4 ∧
      (∀ i < 24, (turns.getD (2 * i) 0).getLsbD i = false ∧ (turns.getD (2 * i + 1) 0).getLsbD i = false) ∧
      (∀ w ∈ routes, w &&& 0x07FF83E0 = 0 ∧ fieldOf (w.setWidth 64) 4 0 ≤ 23 ∧ fieldOf (w.setWidth 64) 14 10 ≤ 23) ∧
      (∀ i < image 4 4, (routes.getD i 0).getLsbD 30 = true ↔ i = s.dev.modNum.toNat) ∧ (routes.getD s.dev.modNum.toNat 0).getLsbD 31 = true ∧
      (∀ w ∈ routes, w.getLsbD 31 = true → w.getLsbD 30 = false →
        injects (fieldOf (w.setWidth 64) 4 0) = true ∧ (w.getLsbD 28 = true → injects (fieldOf (w.setWidth 64) 14 10) = true))
    let late : BitVec 16 := addAge pkt.head.age (if h : ing.val < 24 then (s.dev.port ⟨ing.val, h⟩).rtt.toNat / 20 else 0)
    let arrived : Packet := { pkt with head := { pkt.head with age := late } }
    let others (t : State) (n : Nat) : Prop := ∀ m : PortId, m.val ≠ n → t.dev.port m = s.dev.port m
    (v.getLsbD 31 = true → v.getLsbD 30 = false → f.loadBusy = false → only (.routeLoad v) (fun g => g = { f with loadBusy := true, standby := none })) ∧
    (f.loadBusy = true → s.dev.host.link ≠ .l0 → only .routeLoadDone (fun g => g = { f with loadBusy := false, reason := 0x0408, standby := none })) ∧
    (f.loadBusy = true → s.dev.host.link = .l0 → image 0 2 ≠ 1 →
      only .routeLoadDone (fun g => g = { f with loadBusy := false, reason := 0x0408, standby := none })) ∧
    (f.loadBusy = true → s.dev.host.link = .l0 → good →
      only .routeLoadDone (fun g => g = { f with loadBusy := false, reason := 0, standby := some ⟨turns, routes⟩ })) ∧
    (v.getLsbD 30 = true → v.getLsbD 31 = false → f.standby = some tab → only (.routeSwap v) (fun g => g = { f with active := some tab, standby := none })) ∧
    (pkt.head.dstMod = s.dev.modNum → (ing.val = 24 ∨ (s.dev.routeWord s.dev.modNum).any (fun w => w.getLsbD 30) = true) → isFlood pkt.body = false → s.dev.tooOld late = false →
      Completes (.packetForward ing pkt) s (fun t => t.OnlyDevice s ∧ others t ing.val ∧ t.dev.fabric = { f with inbox := f.inbox ++ [(ing, arrived)] } ∧
        t.dev.contexts = s.dev.contexts ∧ t.dev.mem = s.dev.mem)) ∧
    (isFlood pkt.body = false → s.dev.tooOld late = true → Completes (.packetForward ing pkt) s (fun t => t.OnlyDevice s ∧ others t ing.val ∧
      t.dev.fabric = { f with ageDiscards := satTo 24 (f.ageDiscards + 1) } ∧ t.dev.contexts = s.dev.contexts ∧ t.dev.mem = s.dev.mem)) ∧
    (isFlood pkt.body = true → Completes (.packetForward ing pkt) s (fun t => t.OnlyDevice s ∧ others t ing.val ∧
      t.dev.fabric = { f with inbox := f.inbox ++ [(ing, arrived)] } ∧ t.dev.contexts = s.dev.contexts ∧ t.dev.mem = s.dev.mem)) ∧
    (∀ w : BitVec 32, isFlood pkt.body = false → s.dev.tooOld late = false → pkt.head.dstMod ≠ s.dev.modNum → pkt.head.dstMod ∉ f.deadMods →
      s.dev.routeWord pkt.head.dstMod = some w → w.getLsbD 30 = false → s.dev.portUsable (portOf (w.toNat % 32)) pkt.body.vc = true →
      (s.dev.turnAllows ing pkt.head.layer (portOf (w.toNat % 32)) = true → f.uses.find? (fun x => x.dst = pkt.head.dstMod) = none →
        Completes (.packetForward ing pkt) s (fun t => t.OnlyDevice s ∧ others t (portOf (w.toNat % 32)).val ∧ t.dev.contexts = s.dev.contexts ∧ t.dev.mem = s.dev.mem ∧
          (t.dev.port (portOf (w.toNat % 32))).queues[pkt.body.vc.val] = (s.dev.port (portOf (w.toNat % 32))).queues[pkt.body.vc.val] ++
            [{ input := ing, pkt := { arrived with head := { arrived.head with layer := pkt.head.layer || w.getLsbD 29 } }, sent := 0, since := s.dev.now }])) ∧
      (∀ h : ing.val < 24, s.dev.turnAllows ing pkt.head.layer (portOf (w.toNat % 32)) = false → pkt.head.srcMod ≠ s.dev.modNum → pkt.body.isRequest = false →
        Completes (.packetForward ing pkt) s (fun t => t.OnlyDevice s ∧ others t ing.val ∧ t.dev.fabric = f ∧ t.dev.contexts = s.dev.contexts ∧ t.dev.mem = s.dev.mem ∧
          (t.dev.port ⟨ing.val, h⟩).turnDrops = satTo 16 ((s.dev.port ⟨ing.val, h⟩).turnDrops + 1)))) ∧
    (f.uses.find? (fun x => x.dst = dst) = some u → u.holdUntil = some until_ → s.dev.now < until_ → exec (.routeHoldExpiry dst) s = .next s) ∧
    (f.uses.find? (fun x => x.dst = dst) = some u → u.holdUntil = some until_ → until_ ≤ s.dev.now → u.held = [] →
      only (.routeHoldExpiry dst) (fun g => g = { f with uses := f.uses.filter (fun x => x.dst != dst) }))

/-- Remote accesses. A write that its target accepts, at a place in module memory outside a denied bank and of pages not retired, stores
its bytes there and nowhere else; a read is answered with the bytes that stand at its place, and no poison bit where nothing there is
poisoned; one for a fenced panel, an unknown context or another tenant counts as refused and changes no memory. The fields that the
acceptance compares (log 60) and the tenant of a non-confidential context (log 132) are the model's choices. -/
def Obligations.RemoteAccesses : Prop :=
  ∀ (s : State) (h : PktHead) (data : List Byte) (bytes : Nat) (c : Context) (mpa : Nat), s.pins.railsOn = true → memWf s.dev.mem = true →
    let ca := viewTarget c.sets [] h.addr.toNat
    (s.dev.remoteTarget h = .ok c → s.dev.translate c h.addr.toNat true = .ok (.dev mpa) → bankWriteDenied c.sets h.addr.toNat = false → h.poisonMask = 0 →
      (∀ b, mpa ≤ b → b < mpa + data.length → (s.dev.panel (panelOf b)).retires (ppaOf b) = false) →
      s.dev.fabric.active = none → s.dev.fabric.outstanding = [] → h.srcMod ≠ s.dev.modNum → Completes (.remoteWrite h data) s (fun t => t.OnlyDevice s ∧
        memRead t.dev.mem mpa data.length = data ∧ ∀ b, b < mpa ∨ mpa + data.length ≤ b → memGet t.dev.mem b = memGet s.dev.mem b)) ∧
    (s.dev.remoteTarget h = .ok c → s.dev.translate c ca false = .ok (.dev mpa) → h.srcMod = s.dev.modNum →
      Completes (.remoteRead h bytes) s (fun t => t.OnlyDevice s ∧ t.dev.contexts = (s.dev.cacheEntry c (ca / 2 ^ 21) .fabric { ctx := c.id }).contexts ∧
        ∃ w, t.dev.fabric.inbox = s.dev.fabric.inbox ++ [(24, w)] ∧ w.body = .readData (memRead s.dev.mem mpa bytes) ∧ w.head.dstMod = h.srcMod ∧ w.head.xtag = h.xtag)) ∧
    (∀ e, s.dev.remoteTarget h = .error e → s.dev.fabric.active = none → s.dev.fabric.outstanding = [] → h.srcMod ≠ s.dev.modNum →
      (∀ cmd, cmd = .remoteRead h bytes ∨ cmd = .remoteWrite h data → Completes cmd s (fun t => t.OnlyDevice s ∧
        t.dev.fabric.refused = satTo 8 (s.dev.fabric.refused + 1) ∧ t.dev.mem = s.dev.mem ∧ t.dev.contexts = s.dev.contexts)))
/-! ## Exchanges between modules -/

/-- The tree and the slices of a communicator. The parent of a rank other than 0 is the rank with its lowest non-zero base-64
digit set to zero; a rank is a child of its parent and of no other, and no rank lies more than 3 levels below rank 0. The slices
of the ranks share out the elements of a bucket: each element lies in exactly one. -/
def Obligations.TreeAndSlices : Prop :=
  (∀ n r : Nat, n ≤ 32768 → 0 < r → r < n →
    (∃ k < 3, r % 64 ^ k = 0 ∧ r / 64 ^ k % 64 ≠ 0 ∧ parentOf r = r - r / 64 ^ k % 64 * 64 ^ k) ∧
    (∀ q, r ∈ childrenOf n q ↔ q = parentOf r) ∧ parentOf r < r ∧ parentOf (parentOf (parentOf r)) = 0) ∧
  ∀ n elements i : Nat, 0 < n → i < elements →
    let owns (r : Nat) : Prop := (sliceOf elements n r).1 ≤ i ∧ i < (sliceOf elements n r).1 + (sliceOf elements n r).2
    sliceLen elements n = 64 * ((elements + 64 * n - 1) / (64 * n)) ∧
    ∃ r < n, owns r ∧ ∀ q, owns q → q = r

/-- Packets of a communicator. The table is read for the sender's rank, and the acceptance rule (R557) is applied: a join notice of a
neighbour is noted and answered, one that disagrees fails the join with 0x0A07, one of another tenant with 0x0810, a repeated one
changes nothing; an exponent message of a child joins its reduction, one of no elements ends it; an exponent result, tally words,
norms, slices, grants and data go to their exchange, which then goes on, and a write that memory refuses fails the exchange. A packet
that the rule refuses is counted in REFUSED, and a reduction or bulk packet for a fenced panel is answered with 0x0221. That early packets of an
exchange are kept (log 68), and that packets for a swapped context wait (log 156), is the model's choice. -/
def Obligations.CommunicatorPackets : Prop :=
  ∀ (s : State) (h : PktHead) (c : Context) (k : Comm) (jn : JoinNotice) (p : ExponentPair) (w : TallyPacket) (n : NoisePacket)
    (r : ReturnPacket) (g : CollGrant) (m : CollData), s.pins.railsOn = true →
    let next (cmd : Instr) (e : Device) : Prop := exec cmd s = .next { s with dev := e }
    let rd (id : BitVec 32) (rank : Nat) : Device := s.dev.commRead h id rank
    let ok (id : BitVec 32) (rank : Nat) : Prop := (rd id rank).commFor h id rank = .ok (c, k)
    let waits (b : PktBody) : Device := { s.dev with fabric := { s.dev.fabric with inbox := s.dev.fabric.inbox ++ [(24, ⟨h, b⟩)] } }
    let before (pre : List CollRun) (post : List CollRun) (q : CollRun) (d : Device) (takes : CollRun → Desc → Prop) : Prop :=
      d.fabric.colls = pre ++ q :: post ∧ q.ctx = c.id ∧ q.commId = k.commId ∧
      ∀ y ∈ pre, y.ctx ≠ c.id ∨ y.commId ≠ k.commId ∨ ∀ x, d.collDesc? y = some x → ¬ takes y x
    (∀ q, s.dev.ctx? h.dstCtx = some q → q.panel = h.dstPanel → q.resident = false →
      next (.joinNotice h jn) (waits (.joinNotice jn)) ∧ next (.exponentPair h p) (waits (.exponentPair p)) ∧ next (.exponentResult h p) (waits (.exponentResult p)) ∧
      next (.tallyWords h w) (waits (.tally w)) ∧ next (.noiseStatistic h n) (waits (.noise n)) ∧ next (.returnData h r) (waits (.returnData r)) ∧
      next (.collGrant h g) (waits (.collGrant g)) ∧ next (.collData h m) (waits (.collData m))) ∧
    ((∀ q, s.dev.ctx? h.dstCtx = some q → q.resident = true) →
    (∀ e,
      let refused (id : BitVec 32) (rank : Nat) : Prop := (rd id rank).commFor h id rank = .error e
      let counted (id : BitVec 32) (rank : Nat) : Device := (rd id rank).countRefused
      let bulk (id : BitVec 32) (rank : Nat) (b : PktBody) : Device :=
        if e = 0x0221 then (counted id rank).emit ((⟨h, b⟩ : Packet).reply (.refusal 0x0221)) else counted id rank
      (e ≠ 0x0810 → refused jn.commId jn.rank → next (.joinNotice h jn) (counted jn.commId jn.rank)) ∧
      (refused p.commId p.rank → next (.exponentPair h p) (counted p.commId p.rank) ∧ next (.exponentResult h p) (counted p.commId p.rank)) ∧
      (refused w.commId w.rank → next (.tallyWords h w) (bulk w.commId w.rank (.tally w))) ∧
      (refused n.commId n.rank → next (.noiseStatistic h n) (counted n.commId n.rank)) ∧
      (refused r.commId r.rank → next (.returnData h r) (bulk r.commId r.rank (.returnData r))) ∧
      (refused g.commId g.rank → next (.collGrant h g) (counted g.commId g.rank)) ∧
      (refused m.commId m.rank → next (.collData h m) (bulk m.commId m.rank (.collData m)))) ∧
    (let d := rd jn.commId jn.rank
     let failed (e : Device) (code : Code) : Device :=
       (e.failSeq h.dstCtx k.ring k.joinSeq code).updCtx h.dstCtx (fun q => { q with comms := q.comms.filter (fun x => x.commId != k.commId) })
     (d.commFor h jn.commId jn.rank = .error 0x0810 → (d.ctx? h.dstCtx).bind (fun q => q.comm? jn.commId) = some k →
       next (.joinNotice h jn) (if k.joined then d.countRefused else failed d.countRefused 0x0810)) ∧
     (ok jn.commId jn.rank → jn.rank ∈ neighbours k.size k.rank → c.id = h.dstCtx →
      (jn.rank ∈ k.notices → next (.joinNotice h jn) d) ∧
      (jn.rank ∉ k.notices → noticesAgree k.notice jn = true → next (.joinNotice h jn)
        (((d.updComm c.id k.commId (fun q => { q with notices := q.notices ++ [jn.rank] })).sendRank c k jn.rank .indigo (.joinNotice k.notice)).joinCheck c.id k.commId)) ∧
      (jn.rank ∉ k.notices → noticesAgree k.notice jn = false → next (.joinNotice h jn) (if k.joined then d.countRefused else failed d 0x0A07)))) ∧
    (∀ j, let d := rd p.commId p.rank
      let none_ : ExponentPair := j.pair 0 false 0
      ok p.commId p.rank → d.rjob? c.id k.commId p.exch = some j →
      (k.joined = true → p.rank ∈ childrenOf k.size k.rank →
        (p.elements ≠ 0 → j.agrees p = true → next (.exponentPair h p)
          (d.updRed j (fun q => { q with pairs := (p.rank, p.eLoc, p.nonFinite) :: q.pairs.filter (fun x => x.1 != p.rank) })).settle) ∧
        (p.elements = 0 ∨ p.elements ≠ j.elements → next (.exponentPair h p)
          (((if j.comm.rank = 0 then d else d.sendParent j (.exponentPair none_)).sendChildren j (.exponentResult none_)).reductionFailed j 0x0A07))) ∧
      (k.rank ≠ 0 → p.rank = parentOf k.rank → j.red.sentUp = true → j.red.agreed = none →
        (j.agrees p = true → next (.exponentResult h p)
          ((d.sendChildren j (.exponentResult (j.pair p.eLoc p.nonFinite j.elements))).updRed j (fun q => { q with agreed := some (p.eLoc, p.nonFinite) })).settle) ∧
        (j.agrees p = false → next (.exponentResult h p) ((d.sendChildren j (.exponentResult none_)).reductionFailed j 0x0A07)))) ∧
    (∀ j, let d := rd w.commId w.rank
      ok w.commId w.rank → d.rjob? c.id k.commId w.exch = some j → k.joined = true →
      d.exchangeOn c.id k.commId w.exch = true → j.step = w.step.toNat → j.red.sumQ = none →
      let wb := k.width / 8
      let cnt := w.words.length / wb
      let own := sliceOf j.elements k.size k.rank
      let ack : Packet := (⟨h, .tally w⟩ : Packet).reply .writeAck
      own.1 ≤ w.first → w.first + cnt ≤ own.1 + own.2 → next (.tallyWords h w)
        (match d.addTallies j (w.first - own.1) ((List.range cnt).map (fun i => signedOf (8 * wb) (bytesField w.words (wb * i) wb))) with
         | (e, .ok _) => ((e.updRed j (fun q => { q with received := countIn q.received w.rank cnt })).emit ack).settle
         | (e, .error code) => ((e.emit ack).reductionFailed j code).settle)) ∧
    (∀ j, let d := rd n.commId n.rank
      ok n.commId n.rank → d.rjob? c.id k.commId (.bucket n.bucket) = some j → k.joined = true →
      (n.down = false → n.rank ∈ j.children → next (.noiseStatistic h n)
        (d.updRed j (fun q => { q with noise := (n.rank, n.a.toNat, n.q.toNat) :: q.noise.filter (fun x => x.1 != n.rank) })).settle) ∧
      (n.down = true → k.rank ≠ 0 → n.rank = parentOf k.rank → j.step = n.step.toNat → j.red.noiseUp = true → next (.noiseStatistic h n)
        (((d.updRed j (fun q => { q with totals := some (n.a.toNat, n.q.toNat) })).sendChildren j
          (.noise (j.noiseMsg n.bucket true n.a.toNat n.q.toNat))).settle))) ∧
    (∀ pre post q x at_ b, let d := rd r.commId r.rank
      ok r.commId r.rank → r.exch = .bucket b →
      before pre post q d (fun y z => z.op? = some .returnSlice ∧ z.f 72 2 = b ∧ r.rank ∈ y.grantsOut) →
      d.collDesc? q = some x → x.op? = some .returnSlice → x.f 72 2 = b → r.rank ∈ q.grantsOut → c.returnAt x r.first = some at_ →
      next (.returnData h r) (if x.f 124 4 ≠ r.step.toNat then d.failSeq c.id q.ring q.seq 0x0A07 else
        match d.writeCa (x.collWrite c.id q.ring) at_ r.data with
        | (e, .ok _) => ((e.landBytes c.id q.ring q.seq r.rank r.data.length).emit ((⟨h, .returnData r⟩ : Packet).reply .writeAck)).settle
        | (e, .error code) => e.failSeq c.id q.ring q.seq code)) ∧
    (let d := rd g.commId g.rank
     let tell : Packet := { (⟨h, .collGrant g⟩ : Packet).reply (.collGrant g) with body := .collGrant { g with rank := k.rank, bytes := 0 } }
     ok g.commId g.rank → k.joined = true →
      (∀ q x, d.grantedRun? c k g true = some (q, x) →
        let bytes := if x.op? = some .returnSlice then ((k.returnSlice x).map (fun l => 2 * l.2)).getD 0 else x.f 64 8
        (bytes = g.bytes → g.step.toNat = x.f 124 4 → next (.collGrant h g)
          ((d.updRun q.ctx q.ring q.seq (fun y => { y with grantsIn := y.grantsIn ++ [g.rank] })).settle)) ∧
        (bytes ≠ g.bytes ∨ g.step.toNat ≠ x.f 124 4 → next (.collGrant h g) ((d.emit tell).failSeq c.id q.ring q.seq 0x0A07))) ∧
      (d.grantedRun? c k g true = none → d.grantedFitting? c k g = none → d.grantedRun? c k g false = none →
        next (.collGrant h g) (d.updComm c.id k.commId (fun y => { y with early := y.early ++ [⟨h, .collGrant g⟩] })))) ∧
    (∀ pre post q x, let d := rd m.commId m.rank
      let lands (y : CollRun) (z : Desc) : Prop := y.nth = m.nth ∧ z.f 44 4 = m.rank ∧
        (z.op? = some .recv ∧ m.kind = .send ∨ z.op? = some .broadcast ∧ m.kind = .broadcast ∧ k.rank ≠ m.rank)
      ok m.commId m.rank → before pre post q d lands → d.collDesc? q = some x → lands q x → m.offset + m.data.length ≤ x.f 64 8 →
      next (.collData h m) (match d.writeCa (x.collWrite c.id q.ring) (x.f 56 8 + m.offset) m.data with
        | (e, .ok _) => ((e.landBytes c.id q.ring q.seq m.rank m.data.length).emit ((⟨h, .collData m⟩ : Packet).reply .writeAck)).settle
        | (e, .error code) => e.failSeq c.id q.ring q.seq code)))

/-- Answers and relays. A response to a transfer of this module takes it out of those outstanding; a refusal fails it with the
refusal's code, a loss notice with 0x0420, and 0x0422 when nothing has come by its deadline; a communicator learns of a module that is
lost. The send of a relay's next step goes as bulk packets of at most 4 KiB under one transaction tag, with its late flag, or fails when
its bytes cannot be read; a grant is noted, kept early when its RELAY has not begun; a block lands in its slot, and the
last one of a step counts the step, raises RECV_EC and is acknowledged; an acknowledgement counts for its step. -/
def Obligations.AnswersAndRelays : Prop :=
  ∀ (s : State) (h : PktHead) (o : Outstanding) (code : Code) (tag : BitVec 32) (data : Option (List Byte)) (g : RelayGrant) (b : RelayBlock)
    (a : RelayAck) (ctx : Code) (ring : RingId) (c : Context) (r : RelayRun) (x : Desc), s.pins.railsOn = true →
    let d := s.dev
    let next (cmd : Instr) (e : Device) : Prop := exec cmd s = .next { s with dev := e }
    let answered (t : BitVec 32) : Device := { d with fabric := { d.fabric with outstanding := d.fabric.outstanding.filter (fun y => y.xtag != t) } }
    let lostCode (e : Code) : Prop := e = 0x0420 ∨ e = 0x0421 ∨ e = 0x0422
    (h.dstMod ≠ d.modNum → next (.remoteResponse h data) d ∧ next (.refusal h code) d ∧ next (.lossNotice h) d) ∧
    (h.dstMod = d.modNum → d.fabric.outstanding.find? (fun y => y.xtag = h.xtag) = some o → o.xtag = h.xtag →
      next (.remoteResponse h data) (answered h.xtag).settle ∧
      (o.comm = none ∨ ¬ lostCode code → next (.refusal h code) ((answered h.xtag).failSeq o.ctx o.ring o.seq code).settle) ∧
      (o.comm = none → next (.lossNotice h) ((answered h.xtag).failSeq o.ctx o.ring o.seq 0x0420).settle) ∧
      (∀ k, o.comm = some k → next (.lossNotice h) ((answered h.xtag).learnLost o.ctx k o.dstMod).settle)) ∧
    (h.dstMod = d.modNum → d.fabric.outstanding.find? (fun y => y.xtag = h.xtag) = none →
      next (.remoteResponse h data) d.settle ∧ next (.refusal h code) d ∧ next (.lossNotice h) d) ∧
    (d.fabric.outstanding.find? (fun y => y.xtag = tag) = some o → o.xtag = tag →
      (d.now < o.deadline → next (.responseTimeout tag) d) ∧
      (o.deadline ≤ d.now → o.comm = none → next (.responseTimeout tag) ((answered tag).failSeq o.ctx o.ring o.seq 0x0422).settle) ∧
      (∀ k, o.deadline ≤ d.now → o.comm = some k → next (.responseTimeout tag) ((answered tag).learnLost o.ctx k o.dstMod).settle)) ∧
    (d.fabric.relays.find? (fun y => y.ctx = ctx && y.ring = ring) = some r → d.relayDesc? r = some x → d.ctx? ctx = some c →
      (c.resident = false ∨ d.relayReady r x = false → next (.relayStepStart ctx ring) d) ∧
      (c.resident = true → d.relayReady r x = true →
        let late := x.startEn && d.isLate (x.startAt + r.sent * x.f 72 4)
        let sent := (if late then d.addFlags ctx ring r.seq flagLate else d).updRelay ctx ring r.seq (fun q => { q with sent := r.sent + 1 })
        next (.relayStepStart ctx ring)
          (match sent.readCa (x.access ctx ring 0 (x.bits 39 1 1 0)) (if r.sent = 0 then x.f 48 8 else x.slotAddr (r.sent - 1)) x.slotBytes with
           | (e, .error code) => e.failSeq ctx ring r.seq code
           | (e, .ok bs) => (piecesOf 4096 bs).foldl (fun (e' : Device) q =>
               e'.emit ⟨{ e.headTo c x.relayNext (classOf (x.bits 39 1 1 0)) with xtag := e.fabric.nextXtag },
                 .relayBlock ⟨BitVec.ofNat 32 (x.f 32 4), r.sent, q.1, q.2⟩⟩)
               (e.track x.relayNext.mod { xtag := 0, ctx := ctx, ring := ring, seq := r.seq, step := some r.sent, dstMod := 0, deadline := 0 })))) ∧
    ((∀ q, d.ctx? h.dstCtx = some q → q.resident = true) →
     (d.relayTarget h = false → next (.relayGrant h g) d.countRefused) ∧
     (d.relayTarget h = true → d.relayOf? h.dstCtx g.relayId = none → next (.relayGrant h g)
       { d with fabric := { d.fabric with relayEarly := d.fabric.relayEarly ++ [⟨h, .relayGrant g⟩] } }) ∧
     (d.relayTarget h = true → d.relayOf? h.dstCtx g.relayId = some (r, x) → PktHeadFrom h x.relayNext = true →
       (g.steps = x.relaySteps → g.slotBytes = x.slotBytes → next (.relayGrant h g)
         (d.updRelay r.ctx r.ring r.seq (fun q => { q with grantsIn := if q.grantsIn.contains g.step then q.grantsIn else q.grantsIn ++ [g.step] }))) ∧
       (g.steps ≠ x.relaySteps ∨ g.slotBytes ≠ x.slotBytes → next (.relayGrant h g) (d.failSeq r.ctx r.ring r.seq 0x0431))) ∧
     (d.relayTarget h = true → d.relayOf? h.dstCtx b.relayId = some (r, x) → PktHeadFrom h x.relayPrev = true → b.step ∈ r.grantsOut → b.step = r.received →
       b.offset + b.data.length ≤ x.slotBytes →
       let got := ((r.recvBytes.find? (fun q => q.1 = b.step)).map (fun q => q.2)).getD 0 + b.data.length
       let landed (e : Device) : Device :=
         (e.updDesc r.ctx r.ring r.seq (fun y => { y with effect := true })).updRelay r.ctx r.ring r.seq (fun q => { q with recvBytes := countIn q.recvBytes b.step b.data.length })
       let full (e : Device) : Device :=
         ((((e.updRelay r.ctx r.ring r.seq (fun q => { q with received := q.received + 1 })).countCtx r.ctx 0x04F 1).signalEc r.ctx (x.f 76 1) 1).emit
           ((⟨h, .relayBlock b⟩ : Packet).reply (.relayAck ⟨b.relayId, b.step⟩))).relaySettle
       next (.relayBlock h b) (match d.writeCa (x.access r.ctx r.ring 0 (x.bits 39 1 3 2)) (x.slotAddr b.step + b.offset) b.data with
         | (e, .error code) => e.failSeq r.ctx r.ring r.seq code
         | (e, .ok _) => if got < x.slotBytes then landed e else full (landed e))) ∧
     (d.relayTarget h = true → d.relayOf? h.dstCtx b.relayId = some (r, x) → PktHeadFrom h x.relayPrev = false ∨ b.step ∉ r.grantsOut ∨ b.step ≠ r.received →
       next (.relayBlock h b) d.countRefused) ∧
     (d.relayTarget h = false → next (.relayBlock h b)
       (if (d.panel h.dstPanel).fenced then d.countRefused.emit ((⟨h, .relayBlock b⟩ : Packet).reply (.refusal 0x0221)) else d.countRefused))) ∧
    (d.fabric.outstanding.find? (fun y => y.xtag = h.xtag) = some o →
      (o.step = some a.step → next (.relayAck h a)
        (((answered h.xtag).updRelay o.ctx o.ring o.seq (fun q => { q with acked := if q.acked.contains a.step then q.acked else q.acked ++ [a.step] })).relaySettle)) ∧
      (o.step ≠ some a.step → next (.relayAck h a) (answered h.xtag)))
/-! ## Step commits and the positions of Needle time -/

/-- Step commits. A READY that the root does not expect is refused; while any READY for the step names another update stitch the step
is aborted with 0x0A0D, and the last one that was missing decides it; a DECIDE is taken once; a root whose deadline passes aborts with
0x0A12, also for a step of which it has prepared nothing itself. At the update stitch a decided step is applied: the banks of every
member's commit sets exchange their parts, and the module is idle; one that is not decided leaves the module UNCERTAIN with 0x0A0E, and
breaks the communicator. An abort is taken once, and names what is lost to the communicators; it waits for its stitch, and then leaves
no stash and no filled bucket; one that comes after its stitch acts at once and writes its record marked late; an abort of an applied
step leaves the module SPLIT with 0x0A0F. When a learned loss acts (log 19), and the form of the late record (log 139), are the model's
choices. -/
def Obligations.StepCommits : Prop :=
  ∀ (s : State) (h : PktHead) (rp : ReadyPacket) (dp : DecidePacket) (ap : AbortPacket) (port : Option PortId), s.pins.railsOn = true →
    let d := s.dev
    let k := d.commit
    let now := d.needle.stitch + 2
    let same (t : State) : Prop := t.dev.contexts = d.contexts ∧ t.dev.mem = d.mem ∧ t.dev.hostMem = d.hostMem ∧ t.dev.panels = d.panels
    let broken (t : State) : Prop := ∀ c ∈ t.dev.contexts, ∀ q ∈ c.comms, q.commitComm = true → q.broken = true
    let preparing : Prop := k.state = .preparing ∨ k.state = .voted
    let entry := (rp.modNum, rp.step, rp.update.toNat)
    let differs : Prop := ∃ q ∈ entry :: k.ready, q.2.1 = k.step ∧ q.2.2 ≠ k.update
    let members := (d.commitMembers.map (fun m => m.1.id)).eraseDups
    (d.isRoot = false ∨ rp.modNum ∉ d.commitModules → exec (.commitReady h rp) s = .next { s with dev := d.countRefused }) ∧
    (d.isRoot = true → rp.modNum ∈ d.commitModules →
      (preparing → differs → d.abortHeld k.step = false → Completes (.commitReady h rp) s (fun t => same t ∧
        t.dev.commit.pendingAbort = some ⟨d.jobId, if k.update < now then k.step + 1 else k.step, BitVec.ofNat 48 now, 0x0A0D, 0xFFFF⟩)) ∧
      (k.state = .voted → ¬ differs → d.abortHeld k.step = false →
        (∀ m ∈ d.commitModules, (m, k.step, k.update) ∈ entry :: k.ready) → Completes (.commitReady h rp) s (fun t => same t ∧
          t.dev.commit.state = .decided ∧ t.dev.commit.decided = k.step :: k.decided ∧ ∀ q, q ∈ t.dev.commit.ready ↔ q = entry ∨ q ∈ k.ready)) ∧
      (k.state = .voted → ¬ differs → (∃ m ∈ d.commitModules, (m, k.step, k.update) ∉ entry :: k.ready) → Completes (.commitReady h rp) s (fun t => same t ∧
          t.dev.commit.state = .voted ∧ t.dev.commit.pendingAbort = k.pendingAbort))) ∧
    (dp.jobId ≠ d.jobId ∨ (dp.jobId, false, dp.step) ∈ k.flooded → exec (.commitDecide port dp) s = .next s) ∧
    (dp.jobId = d.jobId → (dp.jobId, false, dp.step) ∉ k.flooded → Completes (.commitDecide port dp) s (fun t => same t ∧
      t.dev.commit.decided = dp.step :: k.decided ∧ (preparing → k.step = dp.step → t.dev.commit.state = .decided) ∧
      (¬ (preparing ∧ k.step = dp.step) → t.dev.commit.state = k.state))) ∧
    (d.isRoot = false ∨ (k.state ≠ .idle ∧ (¬ preparing ∨ d.reached ((k.update - 2) * 4096) = false)) ∨ (k.state = .idle ∧ k.ready = []) →
      exec .commitVoteDeadline s = .next s) ∧
    (∀ q, k.state = .idle → d.isRoot = true → k.ready = [q] → d.reached ((q.2.2 - 2) * 4096) = true → d.abortHeld q.2.1 = false → q.2.1 ∉ k.decided →
      Completes .commitVoteDeadline s (fun t => same t ∧ t.dev.commit.pendingAbort = some ⟨d.jobId, q.2.1, BitVec.ofNat 48 now, 0x0A12, 0xFFFF⟩)) ∧
    (preparing → d.isRoot = true → d.reached ((k.update - 2) * 4096) = true → d.abortHeld k.step = false → Completes .commitVoteDeadline s (fun t => same t ∧
      t.dev.commit.pendingAbort = some ⟨d.jobId, if k.update < now then k.step + 1 else k.step, BitVec.ofNat 48 now, 0x0A12, 0xFFFF⟩)) ∧
    (k.pendingAbort = none → d.reached (k.update * 4096) = false ∨ ¬ (preparing ∨ k.state = .decided) → exec .updateCommit s = .next s) ∧
    (k.pendingAbort = none → preparing ∨ k.state = .decided → d.reached (k.update * 4096) = true →
      (k.step ∈ k.decided → (d.commitMembers.map (fun m => m.1.id)).Nodup → Completes .updateCommit s (fun t => t.dev.mem = d.mem ∧
        t.dev.commit = { k with state := .idle, lastStep := k.step, applied := true, commits := satTo 32 (k.commits + 1), ready := k.ready.filter (fun r => r.2.1 != k.step) } ∧
        ∀ id c, d.ctx? id = some c → ∀ c', t.dev.ctx? id = some c' →
          c'.sets = if id ∈ d.commitMembers.map (fun m => m.1.id) then c.sets.map (fun q => { q with commits := q.commits + 1 }) else c.sets)) ∧
      (k.step ∉ k.decided → Completes .updateCommit s (fun t => t.dev.mem = d.mem ∧ broken t ∧
        t.dev.commit.state = .uncertain ∧ t.dev.commit.reason = 0x0A0E ∧ t.dev.commit.lastStep = k.lastStep))) ∧
    (ap.jobId ≠ d.jobId ∨ (ap.jobId, true, ap.step) ∈ k.flooded → exec (.stepAbortPacket port ap) s = .next s) ∧
    (ap.jobId = d.jobId → (ap.jobId, true, ap.step) ∉ k.flooded →
      let fl := d.flood port ap.jobId ap.step true (.abort ap)
      let learnt (t : State) : Prop := ap.lost ≠ 0xFFFF → ∀ c ∈ d.contexts, ∀ q ∈ c.comms, fl.hasModule c.id q ap.lost.toNat = true →
        ∃ c' ∈ t.dev.contexts, ∃ q' ∈ c'.comms, q'.commId = q.commId ∧ ap.lost.toNat ∈ q'.lostMods
      (k.applied = true → ap.step.toNat ≤ k.lastStep.toNat → Completes (.stepAbortPacket port ap) s (fun t => t.dev.mem = d.mem ∧ broken t ∧ learnt t ∧
        t.dev.commit.state = .split ∧ t.dev.commit.reason = 0x0A0F ∧ t.dev.commit.pendingAbort = none)) ∧
      (k.applied = false ∨ k.lastStep.toNat < ap.step.toNat →
        (d.reached (ap.stitch.toNat * 4096) = false → Completes (.stepAbortPacket port ap) s (fun t => (ap.lost = 0xFFFF → same t) ∧ learnt t ∧
          t.dev.commit.pendingAbort = some ap ∧ t.dev.commit.state = k.state ∧ t.dev.commit.abortReason = ap.reason)) ∧
        (d.reached (ap.stitch.toNat * 4096) = true → Completes (.stepAbortPacket port ap) s (fun t => t.dev.commit.pendingAbort = none ∧
          (members = [] → t.dev.commit.aborts = satTo 32 (k.aborts + 1)) ∧
          (members = [] → d.err.general < 64 → ap.stitch.toNat * 4096 < d.position → ∃ e, t.dev.err.queue = d.err.queue ++ [⟨e, false, none⟩] ∧
            e.reason = ap.reason ∧ e.mech = 0x11 ∧ e.detail = (lateAbortRecord ap).detail))))) ∧
    (∀ a, k.pendingAbort = some a →
      (d.reached (a.stitch.toNat * 4096) = false → exec .stepAbortApply s = .next s) ∧
      (d.reached (a.stitch.toNat * 4096) = true → Completes .stepAbortApply s (fun t => t.dev.commit.pendingAbort = none ∧
        (members = [] → t.dev.commit.aborts = satTo 32 (k.aborts + 1)) ∧
        (t.dev.commit.state = .idle ∨ t.dev.commit.state = .uncertain ∨ t.dev.commit.state = .split) ∧
        ∀ id, members.getLast? = some id → ∀ c', t.dev.ctx? id = some c' →
          c'.stash = [] ∧ ∀ q ∈ c'.comms, ∀ b ∈ q.buckets, b.state = .idle ∧ b.staged = []))) ∧
    (k.pendingAbort = none → exec .stepAbortApply s = .next s)

/-- Positions. A running counter comes to its next stitch edge after the ticks that are left of the stitch, and a stopped one has no
edge. A heartbeat that is due goes to its line with the next number, once in its stitch; a Fitting waits for an edge of the counter and
then holds the active banks, with its late flag after the stitch of its start position; a collective of a context that has its slot goes
on when its start position is reached. -/
def Obligations.PositionEvents : Prop :=
  ∀ (s : State) (p : PanelId) (ctx : Code) (ring : RingId) (c : Context) (x : Desc), s.pins.railsOn = true →
    let d := s.dev
    let n := d.needle
    let q := d.panel p
    let stitch := d.position / 4096
    let due : Prop := d.enabled = true ∧ n.state ≠ .disabled ∧ stitch % 16 = 0 ∧ 512 * p.val ≤ d.position % 4096
    (∀ (m : Needle) (ns t : Nat), m.tick < ns → (m.count ns t).tick < ns ∧
      (m.stitch < 2 ^ 48 → ((m.count ns t).stitch * ns + (m.count ns t).tick) % (2 ^ 48 * ns) = (m.stitch * ns + m.tick + 1) % (2 ^ 48 * ns))) ∧
    (n.state.runs = false → exec .stitchEdge s = .next s) ∧
    (n.state.runs = true → exec .stitchEdge s = .next { s with dev := Device.ticks (d.stitchNs - n.tick) d }) ∧
    (due → d.areaOn 2 = true → d.host.link = .l0 → memWf d.hostMem = true → q.hbStitch ≠ some stitch →
      Completes (.heartbeat p) s (fun t => t.OnlyDevice s ∧ t.dev.mem = d.mem ∧ t.dev.contexts = d.contexts ∧
        t.dev.panel p = { q with hbSeq := q.hbSeq + 1, hbStitch := some stitch } ∧ (∀ o, o ≠ p → t.dev.panel o = d.panel o) ∧
        memRead t.dev.hostMem (fieldOf d.regs.hbBase 63 12 * 4096 + 64 * p.val) 64 =
          (d.updPanel p (fun r => { r with hbSeq := q.hbSeq + 1, hbStitch := some stitch })).heartbeatLine p (q.hbSeq + 1))) ∧
    (due → d.areaOn 2 = false → q.hbStitch ≠ some stitch → Completes (.heartbeat p) s (fun t => t.OnlyDevice s ∧ s.dev.OnlyPanel t.dev p ∧
        t.dev.panel p = { q with hbSeq := q.hbSeq + 1, hbStitch := some stitch })) ∧
    (¬ due ∨ q.hbStitch = some stitch → exec (.heartbeat p) s = .next s) ∧
    (d.ctx? ctx = some c → d.underWay? ctx ring (fun o => o = .fitting) = some x →
      (∃ f ∈ d.fabric.fittings, f.ctx = ctx ∧ f.ring = ring ∧ f.seq = x.seq ∧ f.snapped = false) →
      let starts : Prop := n.state.runs = true ∧ n.tick = 0 ∧ (x.startEn = true → n.state.schedules = true ∧ x.startAt / 4096 ≤ n.stitch)
      let held : Device := d.updFit ctx ring x.seq (fun f =>
        { f with snapped := true, stitch := n.stitch, committed := d.commit.lastStep, held := (x.fitSets c).map (fun q => (q.bank q.active, q.bytes)) })
      let marked : Device := if x.startEn && decide (x.startAt / 4096 < n.stitch) then held.addFlags ctx ring x.seq flagLate else held
      (¬ starts → exec (.fittingSnapshot ctx ring) s = .next s) ∧
      (starts → exec (.fittingSnapshot ctx ring) s = .next { s with dev :=
        (if x.bit 34 1 0 then marked.replayEarly ctx (BitVec.ofNat 32 (x.f 40 4)) else marked) })) ∧
    (d.underWay? ctx ring (fun o => o.neverSkips) = some x →
      (d.reached x.startAt = false ∨ d.awake ctx = false → exec (.collectivePhase ctx ring) s = .next s) ∧
      (d.reached x.startAt = true → d.awake ctx = true → (∃ r ∈ d.fabric.colls, r.ctx = ctx ∧ r.ring = ring ∧ r.seq = x.seq ∧ r.startOk = false) →
        let e := d.updRun ctx ring x.seq (fun r => { r with startOk := true })
        exec (.collectivePhase ctx ring) s = .next { s with dev := (if e.isLate x.startAt then e.addFlags ctx ring x.seq flagLate else e).settle }))
/-! ## Faults and the error ring -/

/-- Faults of one panel's logic. A residue failure of the Seam discards the running tack, keeps its record with reason
0x0122 until its replay's outcome, and drops its uncommitted rows; in a replay it is persistent, and the panel is fenced
for a reset. A lockstep mismatch of a sequencer is counted and resets its panel, and so does a shadow disagreement of a
panel register and a self-test that does not see its failure; a failed residue of a near-memory addition poisons its
access when its repetition fails too; a failed residue of a reduction is recorded, and ends the reduction with 0x0312 when its repetition
fails too; without its operation it changes nothing. No other panel changes.
How a replay's outcome reaches its records is the model's choice (log 93, log 94). -/
def Obligations.PanelFaults : Prop :=
  ∀ (s : State) (p : PanelId) (t : TackRun) (stage lane output : Nat) (pc flipped : BitVec 64) (off : Nat), s.pins.railsOn = true →
    s.dev.reset.warm = none → (s.dev.panel p).state = .idle → s.dev.err.general < 60 →
    let d := s.dev
    let q := d.panel p
    let others (u : State) : Prop := u.OnlyDevice s ∧ ∀ o, o ≠ p → u.dev.panel o = d.panel o
    let fenced (u : State) (cause : Code) : Prop := others u ∧ (u.dev.panel p).lastCause = cause ∧ (u.dev.panel p).resets = satTo 16 (q.resets + 1) ∧
      (u.dev.panel p).array.run = none ∧ (u.dev.panel p).array.dma = none ∧ u.dev.reset.panelWindow = windowOf d.now 15 d.reset.panelWindow ++ [d.now] ∧
      (d.enabled = false → ∃ rest e k, u.dev.err.queue = d.err.queue ++ rest ∧ ⟨e, false, some k⟩ ∈ rest ∧ e.reason = cause ∧ e.panel = p.val ∧ e.outcome = 3)
    let alone : Prop := (∀ c ∈ d.contexts, c.panel ≠ p) ∧ q.mem.queues = [] ∧ q.mem.stalled = [] ∧ (∀ l ∈ q.mem.spool, panelOf (l.unit * 256) = p) ∧ d.reset.crashValid.getLsbD p.val = false ∧ fieldOf d.regs.crashBase 63 21 ≠ 0 ∧ d.areaOn 3 = false
    (q.array.oldest = some t → t.replay = false → q.replayTacks.length + 1 ≤ fieldOf d.regs.guardCtl 15 8 →
      Completes (.seamResidueFail p stage lane) s (fun u => others u ∧ (u.dev.panel p).array.run = none ∧ u.dev.mem = d.mem ∧ u.dev.err = d.err ∧
        ∃ w, (u.dev.panel p).array.failedTack = some w ∧ w.ref = t.ref ∧ ∃ r, w.fault = some r ∧ r.reason = 0x0122 ∧ r.mech = 3 ∧ r.unit = stage ∧ r.sub = lane)) ∧
    (q.array.oldest = some t → t.replay = true → alone → Completes (.seamResidueFail p stage lane) s (fun u => fenced u 0x0122)) ∧
    (q.array.oldest = none → exec (.seamResidueFail p stage lane) s = .next s) ∧
    (alone →
      Completes (.seqLockstepMismatch p output pc) s (fun u => fenced u 0x0126 ∧ (u.dev.panel p).lockstep = satTo 8 (q.lockstep + 1)) ∧
      Completes (.cfgShadowCheck (some (0x1000000 + p.val * 0x100000 + 8 * (off % 0x20000), flipped))) s (fun u => fenced u 0x0129) ∧
      Completes (.checkerSelftest (.seamResidue p) false) s (fun u => fenced u 0x012E) ∧
      Completes (.yokeRetryLimit ⟨p.val, by omega⟩) s (fun u => fenced u 0x0125)) ∧
    exec (.checkerSelftest (.seamResidue p) true) s = .next s ∧ exec (.cfgShadowCheck none) s = .next s ∧
    (∀ mpa again, Completes (.nearmemResidueFail p mpa again) s (fun u => u.OnlyDevice s ∧ u.dev.contexts = d.contexts ∧ u.dev.mem = d.mem ∧
      (∀ o, o ≠ panelOf (mpa / 64 * 64) → u.dev.panel o = d.panel o) ∧
      (again = true → u.dev.isPoison (mpa / 64) = true) ∧ (again = false → u.dev.poison = d.poison ∧ u.dev.panels = d.panels) ∧
      ∃ e, u.dev.err.queue = d.err.queue ++ [⟨e, false, none⟩] ∧ e.reason = 0x0132 ∧ e.addr = mpa)) ∧
    (∀ a again, let job := match d.bucketAt p a with
        | some b => d.rjob? b.1.id b.2.1.commId (.bucket b.2.2)
        | none => d.allreduceAt p a
      (job = none → exec (.reduceResidueFail p a again) s = .next s) ∧
      (∀ j, job = some j → ∃ e : Device, e = { d with err := e.err } ∧
        (∃ r, e.err.queue = d.err.queue ++ [⟨r, false, none⟩] ∧ r.reason = 0x0124 ∧ r.mech = 4 ∧ r.outcome = (if again then 1 else 0) ∧ r.addr = a ∧ r.sub = j.comm.slot) ∧
        exec (.reduceResidueFail p a again) s = .next { s with dev := if again then (e.reductionFailed j 0x0312).settle else e }))

/-- Words that ECC finds wrong. A corrected word is counted and coalesced. An uncorrectable one is counted, and its structure handles it: a
clean Spool line is dropped, a dirty one leaves poison in memory; an uncommitted accumulator word or a word of a DMA buffer discards the
running tack; a committed one fails its descriptor with 0x0312; a Bobbin page of a spilled entry goes back to its spill, another turns
bad, and so do a Gusset line, a chain and a table; a packet of a fabric buffer is lost; a word of the sequencer's memory resets the panel.
Which word of a Bobbin page is meant is the model's choice (log 145). -/
def Obligations.WordFaults : Prop :=
  ∀ (s : State) (p : PanelId) (w : SramStructure) (bank addr bit : Nat), s.pins.railsOn = true → s.dev.err.general < 60 →
    let d := s.dev
    let q := d.panel p
    let counted (u : State) : Prop := u.OnlyDevice s ∧ (u.dev.panel p).sramUncorr = satTo 8 (q.sramUncorr + 1) ∧ u.dev.mem = d.mem ∧ (∀ o, o ≠ p → u.dev.panel o = d.panel o)
    let told (u : State) (outcome : Nat) : Prop := ∃ e, u.dev.err.queue = d.err.queue ++ [⟨e, false, none⟩] ∧ e.reason = 0x0121 ∧ e.outcome = outcome ∧ e.sub = bank ∧ e.addr = addr
    let few : Prop := q.replayTacks.length + 1 ≤ fieldOf d.regs.guardCtl 15 8
    Completes (.sramCorrected p w bank addr bit) s (fun u => u.OnlyDevice s ∧ u.dev.panel p = { q with sramCorr := satTo 32 (q.sramCorr + 1) } ∧ u.dev.err.queue = d.err.queue ∧
      u.dev.mem = d.mem ∧ u.dev.contexts = d.contexts ∧ ∃ e ∈ u.dev.err.coalesced, e.reason = 0x0120 ∧ e.panel = p.val ∧ e.unit = w.code) ∧
    (∀ l, q.mem.spool = [l] → panelOf (l.unit * 256) = p → Completes (.sramUncorrectable p (.spoolLine l.unit) bank addr) s (fun u => counted u ∧ (u.dev.panel p).mem.spool = [] ∧
      (l.dirty = false → told u 0 ∧ u.dev.poison = d.poison) ∧ (l.dirty = true → told u 1 ∧ ∀ a ∈ accessesOf (l.unit * 256) 256, u.dev.isPoison a = true))) ∧
    (q.array.oldest = none → Completes (.sramUncorrectable p .accUncommitted bank addr) s (fun u => counted u ∧ told u 1) ∧
      Completes (.sramUncorrectable p .seamCommit bank addr) s (fun u => counted u ∧ told u 1)) ∧
    (q.array.dma = none → Completes (.sramUncorrectable p .dmaBuffer bank addr) s (fun u => counted u ∧ told u 1)) ∧
    (∀ t : TackRun, t.replay = false → few →
      (q.array.oldest = some t → ∀ place, place = .accUncommitted ∨ place = .seamCommit → Completes (.sramUncorrectable p place bank addr) s (fun u => counted u ∧
        (u.dev.panel p).array.run = none ∧ ∃ y, (u.dev.panel p).array.failedTack = some y ∧ y.ref = t.ref)) ∧
      (q.array.dma = some t → Completes (.sramUncorrectable p .dmaBuffer bank addr) s (fun u => counted u ∧ (u.dev.panel p).array.dma = none ∧
        ∃ y, (u.dev.panel p).array.failedDma = some y ∧ y.ref = t.ref))) ∧
    (((q.array.slots[0].pass).or q.array.slots[1].pass = none → Completes (.sramUncorrectable p .accCommitted bank addr) s (fun u => counted u ∧ told u 1)) ∧
     (∀ v x, (q.array.slots[0].pass).or q.array.slots[1].pass = some v → d.desc? v.ref.ctx v.ref.ring v.ref.seq = some x → Completes (.sramUncorrectable p .accCommitted bank addr) s (fun u =>
       u.OnlyDevice s ∧ ∃ y, u.dev.desc? v.ref.ctx v.ref.ring v.ref.seq = some y ∧ y.phase = .finished 0x0312 ∧ y.ticket = some d.err.nextTicket))) ∧
    (∀ (ctx tag : Code) (page : Nat) (c : Context) (e : StashEntry), d.ctx? ctx = some c → c.resident = true → c.stash? tag.toNat = some e →
      Completes (.sramUncorrectable p (.bobbinPage ctx tag page) bank addr) s (fun u => counted u ∧
        (e.spill = [] → told u 1 ∧ u.dev.contexts = (d.updStash ctx tag.toNat (fun y => { y with bad := 65536 * page :: y.bad })).contexts) ∧
        (e.spill ≠ [] → told u 0 ∧ u.dev.contexts = (d.updStash ctx tag.toNat (fun y => { y with bobbin := false, data := [], bad := [] })).contexts))) ∧
    (∀ (ctx : Code) (n : Nat) (param : BitVec 32),
      Completes (.sramUncorrectable p (.gussetLine ctx param n) bank addr) s (fun u => counted u ∧ told u 1 ∧
        u.dev.contexts = (d.updGusset ctx param (fun e => if n < e.frontLines then { e with bad := n :: e.bad } else e)).contexts) ∧
      Completes (.sramUncorrectable p (.chainStore ctx n) bank addr) s (fun u => counted u ∧ told u 1 ∧
        u.dev.contexts = (d.updCtx ctx (fun c => if c.resident && c.chains.any (fun k => k.1 = n) then { c with badChains := n :: c.badChains } else c)).contexts) ∧
      Completes (.sramUncorrectable p (.tableStore ctx n) bank addr) s (fun u => counted u ∧ told u 1 ∧
        u.dev.contexts = (d.updCtx ctx (fun c => if c.resident && c.tables.any (fun k => k.1 = n) then { c with badTables := n :: c.badTables } else c)).contexts)) ∧
    (∀ (n : PortId) (vc : Fin 5) x rest, (d.port n).queues[vc.val] = x :: rest → x.pkt.head.srcMod ≠ d.modNum → x.pkt.body.vc = 2 →
      Completes (.sramUncorrectable p (.fabricBuffer n vc) bank addr) s (fun u => counted u ∧ told u 1 ∧ (u.dev.port n).queues[vc.val] = rest ∧
        ∀ m, m ≠ n → u.dev.port m = d.port m)) ∧
    (∀ x rest, d.fabric.inbox.find? (fun y => crossesYoke p y.1 y.2) = some x → d.fabric.inbox.erase x = rest → x.2.head.srcMod ≠ d.modNum → x.2.body.vc = 2 →
      Completes (.sramUncorrectable p .yokeBuffer bank addr) s (fun u => counted u ∧ told u 1 ∧ u.dev.fabric = { d.fabric with inbox := rest })) ∧
    (q.state = .idle → d.reset.warm = none → (∀ c ∈ d.contexts, c.panel ≠ p) → q.mem.queues = [] → q.mem.stalled = [] → Completes (.sramUncorrectable p .seqMemory bank addr) s (fun u =>
      u.OnlyDevice s ∧ (u.dev.panel p).lastCause = 0x0126 ∧ (u.dev.panel p).resets = satTo 16 (q.resets + 1) ∧ (u.dev.panel p).lockstep = satTo 8 (q.lockstep + 1) ∧
      (u.dev.panel p).array.run = none))

/-- Clocks, rails and the hub's faults. A domain or rail that leaves its limits is noted with its record, once, until it returns; its
panels' running tacks are discarded and wait. A rail outside for less than 100 µs resets nothing. The hub's lockstep mismatch, a shadow disagreement of a hub
register and a failed self-test of the hub start a warm reset without completions, and a stopped Thimble takes the memory with it; a yoke
retry limit of the hub is only recorded; a host link error and a parity error that a shadow repairs are counted and coalesced. -/
def Obligations.SupplyAndHubFaults : Prop :=
  ∀ (s : State) (dom : Fin 18) (rail output lane o : Nat) (kHz replays : BitVec 32) (mV : BitVec 16) (pc flipped : BitVec 64), s.pins.railsOn = true → s.dev.err.general < 64 →
    let d := s.dev
    let idle : Prop := ∀ p : PanelId, (d.panel p).array.oldest = none ∧ (d.panel p).array.dma = none
    let holds (p : PanelId) (t : TackRun) (u : State) : Prop := u.OnlyDevice s ∧ (u.dev.panel p).array.run = none ∧ u.dev.mem = d.mem ∧
      (∃ w, (u.dev.panel p).array.failedTack = some w ∧ w.ref = t.ref) ∧ ∀ o, o ≠ p → u.dev.panel o = d.panel o
    let works (p : PanelId) (t : TackRun) : Prop := (d.panel p).array.oldest = some t ∧ t.replay = false ∧ (d.panel p).array.dma = none ∧
      (d.panel p).replayTacks.length + 1 ≤ fieldOf d.regs.guardCtl 15 8
    let only (u : State) : Prop := u.OnlyDevice s ∧ u.dev.panels = d.panels ∧ u.dev.contexts = d.contexts ∧ u.dev.mem = d.mem
    let told (u : State) (reason : Code) (unit : Nat) : Prop := ∃ e, u.dev.err.queue = d.err.queue ++ [⟨e, false, none⟩] ∧ e.reason = reason ∧ e.unit = unit
    (dom.val < 16 → dom.val ∉ d.clocksOut → idle → Completes (.clockFault dom kHz) s (fun u => only u ∧ u.dev.clocksOut = dom.val :: d.clocksOut ∧ told u 0x012B dom.val)) ∧
    (∀ p t, dom.val < 16 → dom.val ∉ d.clocksOut → clockPanels dom.val = [p] → works p t → Completes (.clockFault dom kHz) s (fun u => holds p t u ∧ told u 0x012B dom.val)) ∧
    (16 ≤ dom.val ∨ dom.val ∈ d.clocksOut → exec (.clockFault dom kHz) s = .next s) ∧
    Completes (.clockReturn dom) s (fun u => only u ∧ u.dev.err = d.err ∧ dom.val ∉ u.dev.clocksOut ∧ ∀ k ∈ d.clocksOut, k ≠ dom.val → k ∈ u.dev.clocksOut) ∧
    (rail < 16 → (∀ r ∈ d.railsOut, r.1 ≠ rail) → idle → Completes (.railFault rail mV) s (fun u => only u ∧ u.dev.railsOut = (rail, d.now) :: d.railsOut ∧ told u 0x012A rail)) ∧
    (∀ p t, rail < 16 → (∀ r ∈ d.railsOut, r.1 ≠ rail) → railPanels rail = [p] → works p t → Completes (.railFault rail mV) s (fun u => holds p t u ∧ told u 0x012A rail)) ∧
    (16 ≤ rail → exec (.railFault rail mV) s = .next s) ∧
    Completes (.railReturn rail) s (fun u => only u ∧ u.dev.err = d.err ∧ ∀ r, r ∈ u.dev.railsOut ↔ r ∈ d.railsOut ∧ r.1 ≠ rail) ∧
    ((∀ r ∈ d.railsOut, r.1 = rail → d.now - r.2 < 100000) → exec (.railWindowTimeout rail) s = .next s) ∧
    (∀ since, (rail, since) ∈ d.railsOut → 100000 ≤ d.now - since → exec (.railWindowTimeout rail) s = .next { s with dev := (railPanels rail).foldl (fun d p => d.panelReset p { reason := 0x012A, mech := 0x0C, outcome := 3, unit := rail } (if rail = 13 then 15 else 0)) d }) ∧
    (d.reset.warm = none → d.contexts = [] → d.reset.escalation = .inService → d.reset.deviceWindow = [] → (∀ p : PanelId, (d.panel p).enabled = false) →
      (∀ n : PortId, (d.port n).packets = []) → (∀ p : PanelId, (d.panel p).array.failedTack = none ∧ (d.panel p).array.failedDma = none ∧ (d.panel p).mem.queues = [] ∧ (d.panel p).mem.stalled = []) →
      let down (u : State) (cause : Code) (kind : Nat) : Prop := u.dev.reset.lastKind = kind ∧ u.dev.reset.lastCause = cause ∧ u.dev.reset.deviceResets = satTo 16 (d.reset.deviceResets + 1) ∧
        u.dev.contexts = [] ∧ u.dev.enabled = false ∧ (∀ n : PortId, (u.dev.port n).state = .disabled) ∧ u.dev.thimble.booted = false
      Completes (.hubLockstepMismatch output pc) s (fun u => down u 0x0127 1 ∧ u.dev.mem = d.mem) ∧
      Completes (.cfgShadowCheck (some (0x50000, flipped))) s (fun u => down u 0x0129 1 ∧ u.dev.mem = d.mem) ∧
      Completes (.checkerSelftest .hubLockstep false) s (fun u => down u 0x012E 1 ∧ u.dev.mem = d.mem) ∧
      (d.thimble.stopped = false → Completes (.thimbleSelfCheckFail lane) s (fun u => down u 0x0144 2 ∧ u.dev.mem = []))) ∧
    Completes (.yokeRetryLimit 8) s (fun u => only u ∧ told u 0x0125 8) ∧
    Completes (.hostLinkError lane replays) s (fun u => only u ∧ u.dev.host = { d.host with linkReplays := satTo 32 (d.host.linkReplays + 1) } ∧ u.dev.err.queue = d.err.queue ∧
      ∃ e ∈ u.dev.err.coalesced, e.reason = 0x012F) ∧
    Completes (.cfgParityError o flipped) s (fun u => only u ∧ u.dev.regs = d.regs ∧ u.dev.err.queue = d.err.queue ∧ ∃ e ∈ u.dev.err.coalesced, e.reason = 0x0128)

/-- Records and messages. The oldest queued error record is written, when the ring is open and not full, at its place in
the ring, and its message goes out; otherwise nothing changes. The end of a moderation interval sends the held message
of a panel's vector, once. What becomes of a record that no completion needs is the model's choice (log 29). -/
def Obligations.RecordsAndMessages : Prop :=
  ∀ (s : State) (p : PanelId) (q : QueuedRec) (rest : List QueuedRec), s.pins.railsOn = true →
    (∀ o : PanelId, (s.dev.panel o).resetRun = none) → s.dev.reset.outEnter = none → s.dev.reset.warm = none →
    let d := s.dev
    let e := d.err
    let h := d.host
    (e.queue = [] ∨ d.errOpen = false ∨ d.errFull = true → exec .errorRecordWrite s = .next s) ∧
    (e.queue = q :: rest → d.enabled = true → d.areaOn 0 = true → h.link = .l0 → d.errFull = false → e.lostUnreported = 0 → memWf d.hostMem = true →
      Completes .errorRecordWrite s (fun t => t.OnlyDevice s ∧ t.dev.panels = d.panels ∧ t.dev.contexts = d.contexts ∧ t.dev.mem = d.mem ∧ t.dev.regs = d.regs ∧
        t.dev.err.queue = rest ∧ t.dev.err.nextSeq = e.nextSeq + 1 ∧ t.dev.host.messages[0] = h.messages[0] + 1 ∧
        memRead t.dev.hostMem (d.errBase + 64 * (e.nextSeq % 2 ^ d.errSize)) 64 = q.content.bytes (e.nextSeq % 2 ^ 32) (phaseBit e.nextSeq d.errSize) ∧
        ∀ b, b < d.errBase + 64 * (e.nextSeq % 2 ^ d.errSize) ∨ d.errBase + 64 * (e.nextSeq % 2 ^ d.errSize) + 64 ≤ b → memGet t.dev.hostMem b = memGet d.hostMem b)) ∧
    (h.moderated[p.val] = false ∨ d.messageDue p = false → exec (.irqModerationExpiry p) s = .next s) ∧
    (h.moderated[p.val] = true → d.messageDue p = true → h.link = .l0 → Completes (.irqModerationExpiry p) s (fun t => t.OnlyDevice s ∧ t.dev = { d with host := t.dev.host } ∧
      t.dev.host.messages[3 + p.val]? = h.messages[3 + p.val]?.map (fun n => n + 1) ∧ t.dev.host.moderated[p.val] = false ∧ t.dev.host.lastMessage[p.val] = some d.now))

/-- Counter dumps. DUMP_ENABLE with the enable clear runs its checks in order; with all passed dumps are on, numbered
from 0, and with the enable set nothing changes; clearing it stops them. A snapshot is taken once at its position, and
waits; one that finds two waiting is not taken and counted. A waiting record goes to its place in the ring when there is
room. The register that BAD_REG names is the model's choice (log 117). -/
def Obligations.CounterDumps : Prop :=
  ∀ (s : State) (v : BitVec 32) (bytes : List Byte) (tags : BitVec 8) (rest : List (List Byte × BitVec 8)), s.pins.railsOn = true →
    let d := s.dev
    let k := d.counters
    let ctl := mergeBits d.regs.dumpCtl (v.setWidth 64) 0xFFFF0F00
    let size := fieldOf ctl 11 8
    let base := d.dumpBase
    let head := fieldOf d.regs.dumpHeadLine 63 6 * 64
    let crash := fieldOf d.regs.crashBase 63 21 * 2 ^ 21
    let meets (a n : Nat) : Prop := rangesOverlap a n d.errBase (64 * 2 ^ d.errSize) = true ∨ rangesOverlap a n (fieldOf d.regs.hbBase 63 12 * 4096) 8192 = true ∨ crash ≠ 0 ∧ rangesOverlap a n crash (2 ^ 21) = true
    let same (t : State) : Prop := t.OnlyDevice s ∧ t.dev.contexts = d.contexts ∧ t.dev.mem = d.mem
    (d.dumpOn = false → v.getLsbD 0 = true → d.reset.escalation = .inService → Completes (.dumpEnable v) s (fun t => same t ∧ t.dev.panels = d.panels ∧
      let bad (reason : Code) (reg : Nat) : Prop := t.dev.dumpOn = false ∧ t.dev.counters = { k with reason := reason, badReg := reg }
      if d.enabled = false then bad 0x0162 0xFF
      else if base = 0 then bad 0x0160 0x02
      else if head = 0 then bad 0x0160 0x03
      else if size < 4 ∨ 12 < size then bad 0x0160 0x01
      else if rangesOverlap base (5504 * 2 ^ size) head 64 = true then bad 0x0160 0x03
      else if meets base (5504 * 2 ^ size) then bad 0x0160 0x02
      else if meets head 64 then bad 0x0160 0x03
      else if fieldOf ctl 31 16 < 1 then bad 0x0161 0x01
      else t.dev.dumpOn = true ∧ t.dev.counters = { k with reason := 0, badReg := 0, next := 0, head := 0, waiting := [], skippedSince := 0, lastDump := none })) ∧
    (d.dumpOn = true → v.getLsbD 0 = true → exec (.dumpEnable v) s = .next s) ∧
    (d.dumpOn = true → v.getLsbD 0 = false → Completes (.dumpEnable v) s (fun t => same t ∧ t.dev.dumpOn = false ∧ t.dev.counters = k)) ∧
    (d.snapshotDue = false → exec .counterDumpSnapshot s = .next s) ∧
    (d.snapshotDue = true → (∀ c ∈ d.contexts, c.rights.getLsbD 0 = false) →
      (k.waiting = [] → Completes .counterDumpSnapshot s (fun t => same t ∧ t.dev.hostMem = d.hostMem ∧ t.dev.counters.lastDump = some (d.position / 4096) ∧
        t.dev.counters.waiting.map (fun w => w.1) = [d.dumpBytes] ∧ t.dev.counters.hub = k.hub ∧ t.dev.counters.skipped = k.skipped)) ∧
      (2 ≤ k.waiting.length → d.areaOn 4 = false → Completes .counterDumpSnapshot s (fun t => same t ∧ t.dev.hostMem = d.hostMem ∧ t.dev.counters.lastDump = some (d.position / 4096) ∧
        t.dev.counters.waiting = k.waiting ∧ t.dev.counters.skipped = satTo 32 (k.skipped + 1) ∧ t.dev.counters.skippedSince = k.skippedSince + 1))) ∧
    (k.waiting = [] ∨ d.dumpOn = false ∨ d.areaOn 4 = false ∨ d.mayComplete = false ∨ 2 ^ d.dumpSize ≤ k.next - k.head → exec .dumpRecordWrite s = .next s) ∧
    (k.waiting = (bytes, tags) :: rest → d.dumpOn = true → d.areaOn 4 = true → d.host.link = .l0 → k.next - k.head < 2 ^ d.dumpSize → memWf d.hostMem = true →
      Completes .dumpRecordWrite s (fun t => same t ∧ t.dev.counters.waiting = rest ∧ t.dev.counters.next = k.next + 1 ∧ t.dev.counters.skippedSince = 0 ∧
        let record := bytes.take 3 ++ leBytes 1 (phaseBit k.next d.dumpSize) ++ leBytes 4 (k.next % 2 ^ 32) ++ (bytes.drop 8).take 8 ++ leBytes 4 (satTo 32 k.skippedSince) ++ bytes.drop 20
        memRead t.dev.hostMem (base + 5504 * (k.next % 2 ^ d.dumpSize)) record.length = record))

/-! ## Resets -/

/-- Panel resets. A write without the bit, or out of service, resets nothing. A reset fences an idle panel, counts, and
notes the cause 0x0220; a panel without contexts is reset at once and retrains; one with contexts waits for its record,
unless no completion can be written: then its context ends at once. Its end makes the panel ready with the stacks that
retrained, and raises its message; a stack that did not retrain holds poison. -/
def Obligations.PanelResets : Prop :=
  ∀ (s : State) (p : PanelId) (v : BitVec 32) (retrained : BitVec 4) (c : Context), s.pins.railsOn = true → s.dev.reset.warm = none →
    let d := s.dev
    let q := d.panel p
    let others (t : State) : Prop := t.OnlyDevice s ∧ ∀ o, o ≠ p → t.dev.panel o = d.panel o
    let counted (t : State) : Prop := (t.dev.panel p).resets = satTo 16 (q.resets + 1) ∧ (t.dev.panel p).lastCause = 0x0220 ∧ t.dev.reset.panelWindow = windowOf d.now 15 d.reset.panelWindow ++ [d.now]
    (v.getLsbD 0 = false ∨ d.reset.escalation ≠ .inService → exec (.panelReset p v) s = .next s) ∧
    (v.getLsbD 0 = true → d.reset.escalation = .inService → q.state = .idle → q.mem.queues = [] → q.mem.stalled = [] → (∀ l ∈ q.mem.spool, panelOf (l.unit * 256) = p) → d.areaOn 3 = false → fieldOf d.regs.crashBase 63 21 ≠ 0 → d.reset.crashValid.getLsbD p.val = false →
      ((∀ k ∈ d.contexts, k.panel ≠ p) → Completes (.panelReset p v) s (fun t => others t ∧ counted t ∧ t.dev.contexts = d.contexts ∧ t.dev.mem = d.mem ∧
        (t.dev.panel p).state = .retraining ∧ (t.dev.panel p).enabled = false ∧ (t.dev.panel p).memOn = false ∧ (t.dev.panel p).array.run = none)) ∧
      ((∃ k ∈ d.contexts, k.panel = p) → d.host.link = .l0 → d.enabled = false → (∀ w ∈ d.err.written, w.1 < d.err.nextTicket) →
        Completes (.panelReset p v) s (fun t => others t ∧ counted t ∧ t.dev.contexts = d.contexts ∧ (t.dev.panel p).state = .fenced ∧ (t.dev.panel p).resetRun ≠ none)) ∧
      (d.contexts = [c] → c.panel = p → d.host.link = .detect → Completes (.panelReset p v) s (fun t => t.OnlyDevice s ∧ (∀ k ∈ t.dev.contexts, k.id ≠ c.id) ∧ (t.dev.panel p).state = .retraining))) ∧
    (q.state ≠ .retraining → exec (.panelResetDone p retrained) s = .next s) ∧
    (q.state = .retraining → d.reset.outDue ≠ some p → d.reset.outEnter = none → d.host.link = .l0 → Completes (.panelResetDone p retrained) s (fun t => others t ∧ t.dev.mem = d.mem ∧ t.dev.contexts = d.contexts ∧
      t.dev.panel p = { q with state := .ready, suspects := q.suspects ||| ~~~retrained, mem := { q.mem with trained := retrained } } ∧
      t.dev.host.messages[3 + p.val]? = d.host.messages[3 + p.val]?.map (fun n => n + 1) ∧
      ∀ k < 4, retrained.getLsbD k = false → (4 * p.val + k) ∈ t.dev.lostStacks.map (fun l => l.1)))

/-- Device resets and windows. A write of RESET_CTL without its bit, or in SERVICE_REQUIRED, resets nothing. A warm
reset of a module without contexts keeps the stacks' memory and closes every enable; where the memory of Thimble cannot
be zeroised, or the image of the power controller has changed, it becomes a cold one. A cold reset loses the memory. A
second device reset within 60 minutes requires service, which is recorded for good. Old resets leave their windows.
Training ends once for a panel without trained stacks. -/
def Obligations.DeviceResets : Prop :=
  ∀ (s : State) (p : PanelId) (v : BitVec 32) (zeroised imageSame : Bool) (trained : BitVec 4), s.pins.railsOn = true →
    let d := s.dev
    let down (t : State) (cause : Code) (kind : Nat) : Prop := t.dev.reset.lastKind = kind ∧ t.dev.reset.lastCause = cause ∧ t.dev.reset.deviceResets = satTo 16 (d.reset.deviceResets + 1) ∧
      t.dev.contexts = [] ∧ t.dev.enabled = false ∧ t.dev.hostMem = d.hostMem ∧ t.dev.thimble.booted = false ∧
      (∀ n : PortId, (t.dev.port n).state = .disabled) ∧ (∀ q : PanelId, (t.dev.panel q).enabled = false ∧ (t.dev.panel q).memOn = false) ∧
      (windowOf d.now 60 d.reset.deviceWindow ≠ [] → t.dev.reset.escalation = .serviceRequired ∧ t.vault.serviceRequired = true) ∧
      (windowOf d.now 60 d.reset.deviceWindow = [] → t.dev.reset.escalation = .inService ∧ t.vault = s.vault)
    (d.reset.escalation = .serviceRequired ∨ v.getLsbD 0 = false → exec (.deviceWarmReset v zeroised imageSame) s = .next s) ∧
    (d.reset.escalation = .serviceRequired ∨ v.getLsbD 1 = false → exec (.deviceColdReset v) s = .next s) ∧
    (d.reset.escalation = .inService → (∀ n : PortId, (d.port n).packets = []) →
      (v.getLsbD 1 = true → Completes (.deviceColdReset v) s (fun t => down t 0x0143 2 ∧ t.dev.mem = [] ∧ t.pins.railsOn = s.pins.resetN ∧ t.pins.pwrGood = s.pins.resetN)) ∧
      (v.getLsbD 0 = true → d.reset.warm = none → d.contexts = [] → d.enabled = false → (∀ q : PanelId, (d.panel q).enabled = false ∧ (d.panel q).mem.queues = [] ∧ (d.panel q).mem.stalled = []) →
        (zeroised = true → imageSame = true → Completes (.deviceWarmReset v zeroised imageSame) s (fun t => down t 0x0143 1 ∧ t.dev.mem = d.mem ∧ t.pins = s.pins)) ∧
        (zeroised = false → Completes (.deviceWarmReset v zeroised imageSame) s (fun t => down t 0x0144 2 ∧ t.dev.mem = [] ∧ t.pins = s.pins)) ∧
        (zeroised = true → imageSame = false → Completes (.deviceWarmReset v zeroised imageSame) s (fun t => down t 0x0143 2 ∧ t.dev.mem = [] ∧ t.pins = s.pins)))) ∧
    Completes (.escalationWindowExpiry false) s (fun t => t = { s with dev := { d with reset := { d.reset with panelWindow := t.dev.reset.panelWindow } } } ∧
      ∀ x, x ∈ t.dev.reset.panelWindow ↔ x ∈ d.reset.panelWindow ∧ d.now - x < 900000000000) ∧
    Completes (.escalationWindowExpiry true) s (fun t => t = { s with dev := { d with reset := { d.reset with deviceWindow := t.dev.reset.deviceWindow } } } ∧
      ∀ x, x ∈ t.dev.reset.deviceWindow ↔ x ∈ d.reset.deviceWindow ∧ d.now - x < 3600000000000) ∧
    (d.thimble.booted = false ∨ (d.panel p).memOn = true ∨ (d.panel p).mem.trained ≠ 0 → exec (.stackTrainingDone p trained) s = .next s) ∧
    (d.thimble.booted = true → (d.panel p).state = .idle → (d.panel p).memOn = false → (d.panel p).mem.trained = 0 →
      (d.reset.lastKind ≠ 1 → exec (.stackTrainingDone p trained) s = .next { s with dev := d.updPMem p (fun m => { m with trained := trained }) }) ∧
      (d.reset.lastKind = 1 → Completes (.stackTrainingDone p trained) s (fun t => t.OnlyDevice s ∧ (t.dev.panel p).mem.trained = trained ∧
        (t.dev.panel p).suspects = (d.panel p).suspects ||| ~~~trained ∧ (∀ o, o ≠ p → t.dev.panel o = d.panel o) ∧ t.dev.mem = d.mem ∧
        ∀ k < 4, trained.getLsbD k = false → (4 * p.val + k) ∈ t.dev.lostStacks.map (fun l => l.1))))

/-! ## Power -/

/-- The power setup and the ramp. A write of PWR_CTL or PWR_CAP takes its fields when all of them are in range, and else
only shows 0x0702 or 0x0701; a write of PWR_RAMP takes its fields. A ramp step that is not due changes nothing; one that
is due puts the setup into effect and changes no panel by more than one step of allowance or of frequency, and only one
of the two. That a write with a field out of range is ignored whole is the model's choice (log 97). -/
def Obligations.PowerSetupAndRamp : Prop :=
  ∀ (s : State) (offset size : Nat) (value : BitVec 64), s.pins.railsOn = true → (size = 4 ∧ offset % 4 = 0 ∨ size = 8 ∧ offset % 8 = 0) →
    let d := s.dev
    let w := d.power
    let v := if offset % 8 = 4 then value <<< 32 else value
    let mask : BitVec 64 := if size = 8 then 0xFFFFFFFFFFFFFFFF else if offset % 8 = 4 then 0xFFFFFFFF00000000 else 0xFFFFFFFF
    let ctl := mergeBits w.ctl v (mask &&& 0x1FFF0007)
    let cap := mergeBits w.cap v (mask &&& 0xFF1FFF)
    let next (w' : Power) : Prop := exec (.pwrRegWrite offset size value) s = .next { s with dev := { d with power := w' } }
    (offset / 8 = 0 → next (if fieldOf ctl 19 16 ≤ 5 ∧ fieldOf ctl 23 20 ≤ 5 ∧ 1 ≤ fieldOf ctl 28 24 ∧ fieldOf ctl 28 24 ≤ 16 then { w with ctl := ctl } else { w with reason := 0x0702 })) ∧
    (offset / 8 = 1 → next (if 600 ≤ fieldOf cap 12 0 ∧ fieldOf cap 12 0 ≤ 4300 ∧ 1 ≤ fieldOf cap 23 16 ∧ fieldOf cap 23 16 ≤ 100 then { w with cap := cap } else { w with reason := 0x0701 })) ∧
    (offset / 8 = 2 → next { w with ramp := mergeBits w.ramp v (mask &&& 0x803FFFFFFFFFFFFF) }) ∧
    (2 < offset / 8 → exec (.pwrRegWrite offset size value) s = .next s) ∧
    (d.rampDue = false → exec .powerRampStep s = .next s) ∧
    (d.rampDue = true → Completes .powerRampStep s (fun t => t.OnlyDevice s ∧ t.dev = { d with power := t.dev.power, err := t.dev.err } ∧
      t.dev.power.actCtl = w.ctl ∧ t.dev.power.actCap = w.cap ∧ t.dev.power.actRamp = w.ramp ∧
      ∀ p : PanelId, let a := w.panels[p.val]; let b := t.dev.power.panels[p.val]
        b.freq = a.freq ∧
        (b.issued = a.issued ∧ b.allow ≤ a.allow + 1 ∧ a.allow ≤ b.allow + 1 ∨
         b.allow = a.allow ∧ a.issued = none ∧ (b.issued = some (a.freq + 1) ∨ b.issued = some (a.freq - 1)))))

/-- Measurements, droop and lifetime. A sample enters the window and moves the current integrator; an input outside 40 V
to 56 V is recorded when it begins. A trip of a droop detector stretches its panel's clock and is coalesced with the
lowest voltage; the stretch ends; a deferred step takes effect between tacks with its rail and its record. The cap hold begins and
ends after 50 ms with a record each; sprint ends when it is spent. A minute of life is stored, with the sprint time that has not been
stored yet, in whole seconds rounded up, and
the sprint budget sets and clears the lockout. The predicted power and the place of the ceiling's fall (log 98) are the
model's choices. -/
def Obligations.PowerEvents : Prop :=
  ∀ (s : State) (watts mV : Nat) (p : PanelId) (det : Fin 16) (volts : BitVec 16), s.pins.railsOn = true →
    let d := s.dev
    let w := d.power
    let q := w.panels[p.val]
    let only (t : State) : Prop := t.OnlyDevice s ∧ t.dev = { d with power := t.dev.power, err := t.dev.err }
    let others (t : State) : Prop := ∀ o : PanelId, o ≠ p → t.dev.power.panels[o.val] = w.panels[o.val]
    Completes (.powerSample watts mV) s (fun t => only t ∧ t.dev.power.watts = watts ∧ t.dev.power.millivolts = mV ∧
      t.dev.power.samples = (watts :: w.samples).take (fieldOf w.actCap 23 16 * 100) ∧
      t.dev.power.integ = (if 3600 < watts then w.integ + (watts - 3600) else if w.sprinting then w.integ else w.integ - 140) ∧
      t.dev.power.inputOut = (decide (mV < 40000) || decide (56000 < mV)) ∧
      (w.inputOut = false → mV < 40000 ∨ 56000 < mV → d.err.general < 60 → ∃ e, ⟨e, false, none⟩ ∈ t.dev.err.queue ∧ e.reason = 0x070D ∧ e.unit = 0xFFFF)) ∧
    Completes (.droopTrip p det volts) s (fun t => only t ∧ others t ∧ t.dev.power.panels[p.val] = { q with trips := q.trips ||| (1#16 <<< det.val), stretched := true, clearSince := none } ∧
      t.dev.err.queue = d.err.queue ∧ ∃ e ∈ t.dev.err.coalesced, e.reason = 0x0706 ∧ e.panel = p.val ∧ e.detail.toNat ≤ volts.toNat) ∧
    (q.stretched = false → exec (.droopStretchEnd p) s = .next s) ∧
    (q.stretched = true → Completes (.droopStretchEnd p) s (fun t => only t ∧ others t ∧
      t.dev.power.panels[p.val] = { q with trips := 0, stretched := false, clearSince := some (d.now - 2000 / q.freq) })) ∧
    (q.deferred = false ∨ (d.panel p).array.run ≠ none → exec (.freqStepDeferred p) s = .next s) ∧
    (q.deferred = true → (d.panel p).array.run = none → q.drooped d.now = true → (∃ f, q.issued = some f) → exec (.freqStepDeferred p) s = .next s) ∧
    (q.deferred = true → (d.panel p).array.run = none → q.drooped d.now = false → d.err.general < 64 → ∀ f, q.issued = some f → Completes (.freqStepDeferred p) s (fun t => only t ∧ others t ∧
      t.dev.power.panels[p.val] = { q with freq := f, railMv := railOf f, issued := none, deferred := false, allow := if q.emergency then 1 else q.allow } ∧
      ∃ e, t.dev.err.queue = d.err.queue ++ [⟨e, false, none⟩] ∧ e.reason = 0x0707 ∧ e.panel = p.val)) ∧
    (d.err.general < 64 → ∀ since, 50000000 ≤ d.now - since →
      (w.admitHold = false → w.aboveSince = some since → Completes .admitHoldTimer s (fun t => only t ∧ t.dev.power = { w with admitHold := true, reason := 0x0704 } ∧
        ∃ e, t.dev.err.queue = d.err.queue ++ [⟨e, false, none⟩] ∧ e.reason = 0x0704)) ∧
      (w.admitHold = true → w.belowSince = some since → Completes .admitHoldTimer s (fun t => only t ∧ t.dev.power = { w with admitHold := false, reason := 0x0704 } ∧
        ∃ e, t.dev.err.queue = d.err.queue ++ [⟨e, false, none⟩] ∧ e.reason = 0x0704))) ∧
    (w.admitHold = false → w.aboveSince = none → exec .admitHoldTimer s = .next s) ∧
    (w.sprinting = true → 140000000 ≤ w.integ ∨ 2000000000 ≤ d.now - w.sprintSince → Completes .sprintLimit s (fun t => only t ∧ t.dev.power.sprinting = false ∧
      t.dev.power.sprintMs = satTo 16 ((d.now - w.sprintSince) / 1000000))) ∧
    (w.sprinting = false ∨ w.integ < 140000000 ∧ d.now - w.sprintSince < 2000000000 → exec .sprintLimit s = .next s) ∧
    Completes .lifetimeUpdate s (fun t => t = { s with dev := t.dev, vault := t.vault } ∧ t.dev = { d with power := t.dev.power, err := t.dev.err } ∧
      let minutes := satTo 32 (s.vault.poweredMin + 1)
      let total := ceilDiv w.sprintUs 1000000
      let seconds := satTo 32 (s.vault.sprintSeconds + (total - w.sprintCounted))
      t.vault = { s.vault with poweredMin := minutes, sprintSeconds := seconds } ∧ t.dev.power.sprintUs = w.sprintUs ∧ t.dev.power.sprintCounted = total ∧
      t.dev.power.lockout = if w.lockout then decide (45 * (60 * minutes) < 1000 * seconds) else decide (5 * (60 * minutes) ≤ 100 * seconds))

/-! ## Security -/

/-- Booting. A package that has booted or whose boot has failed does not boot again. The boot takes the preferred slot
when its Thimble image is accepted, and else the other one; it fails without such a slot, with a store that reads wrong,
and with a set that lacks an image or holds one that is not accepted: the module then stays in reset, with what it has measured. A sound boot
shows the slot and its images, brings up the lasers of every genuine cartridge that is present without a removal
request, and stays in SERVICE_REQUIRED when that is recorded. A pair of keys older than 60 s goes; a fresh frame of an
enabled memory that nobody owns is zeroed once, but for its retired pages. Which slot boots first after staging is the model's choice (log 104). -/
def Obligations.BootAndFrames : Prop :=
  ∀ (s : State) (sound : Bool) (slot : Fin 16) (f : Nat), s.pins.railsOn = true →
    let d := s.dev
    let h := d.thimble
    let first : Fin 2 := if h.cold then s.vault.boots else h.slot
    let ok (k : Fin 2) : Bool := (s.vault.thimbleImage k).isSome
    let failed (k : Option (Fin 2)) : Prop := k = none ∨ sound = false ∨ ∃ j, k = some j ∧ ∃ c ∈ [1, 2, 3, 4, 5], (imageOf ((s.vault.slots[j.val]).getD []) c).any (fun i => s.vault.accepts i) = false
    let chosen : Option (Fin 2) := if ok first then some first else if ok (otherSlot first) then some (otherSlot first) else none
    (h.booted = true ∨ h.failed = true → exec (.thimbleBoot sound) s = .next s) ∧
    (h.booted = false → h.failed = false →
      (chosen = none → exec (.thimbleBoot sound) s = .next { s with dev := (d.measureRom s.vault).bootFailed }) ∧
      (∀ k, chosen = some k → failed chosen → Completes (.thimbleBoot sound) s (fun t => t.OnlyDevice s ∧ t.dev = { d with thimble := t.dev.thimble } ∧
        t.dev.thimble.failed = true ∧ t.dev.thimble.booted = false ∧ t.dev.thimble.meas[0] = (d.measureRom s.vault).thimble.meas[0] ∧
        t.dev.thimble.meas[1] = extendDigest h.meas[1] 0x02 k.val (((imageOf ((s.vault.slots[k.val]).getD []) 0).map (fun f => f.digest)).getD 0))) ∧
      (∀ k, chosen = some k → ¬ failed chosen → Completes (.thimbleBoot sound) s (fun t => t.OnlyDevice s ∧ t.dev.mem = d.mem ∧ t.dev.panels = d.panels ∧ t.dev.contexts = d.contexts ∧
        t.dev.thimble.booted = true ∧ t.dev.thimble.slot = k ∧ t.dev.thimble.images = (s.vault.slots[k.val]).getD [] ∧ t.dev.thimble.cold = false ∧
        t.dev.thimble.fallback = (if h.cold then k != s.vault.boots else h.fallback) ∧
        t.dev.reset.escalation = (if s.vault.serviceRequired then .serviceRequired else d.reset.escalation) ∧
        ∀ c : CartId, (t.dev.cart c).lasers = ((d.cart c).present && (d.cart c).genuine && !d.removeAsked c)))) ∧
    Completes (.kemPairExpiry slot) s (fun t => t = { s with dev := { d with thimble := { h with kem := t.dev.thimble.kem } } } ∧
      ((∃ k ∈ h.kem, k.slot = slot.val ∧ k.created + 60000000000 ≤ d.now) → t.dev.thimble.kem = h.kem.filter (fun k => k.slot != slot.val)) ∧
      ((∀ k ∈ h.kem, k.slot = slot.val → d.now < k.created + 60000000000) → t.dev.thimble.kem = h.kem)) ∧
    (let e := d.frames.get f
     (f * 2 ^ 21 < mpaEnd → (d.panel (panelOf (f * 2 ^ 21))).memOn = true → e.owners = [] → e.fresh = true → e.clean = false → isCrashFrame f = false →
       Completes (.frameZeroed f) s (fun t => t.OnlyDevice s ∧ t.dev.contexts = d.contexts ∧ (∀ b, f * 2 ^ 21 ≤ b → b < (f + 1) * 2 ^ 21 → memWf d.mem = true →
           let page := b / 65536 * 65536
           memGet t.dev.mem b = if (d.panel (panelOf page)).retires (ppaOf page) then memGet d.mem b else 0) ∧
         (∀ b, b < f * 2 ^ 21 ∨ (f + 1) * 2 ^ 21 ≤ b → memWf d.mem = true → memGet t.dev.mem b = memGet d.mem b) ∧ t.dev.frames = d.frames.put { e with clean := true })) ∧
     (e.owners ≠ [] ∨ e.fresh = false ∨ e.clean = true → exec (.frameZeroed f) s = .next s))

/-- Requests of the mailbox. The request in progress is read from host memory and takes its effect: its result is delivered, the mailbox is free
again with the result's reason code, and its vault is the result's. A malformed one ends with 0x0801 without any effect, and while no request is in
progress, or Thimble does not serve, nothing happens. -/
def Obligations.MailboxRequests : Prop :=
  ∀ (s : State) (row : Instr) (k : Nat), s.pins.railsOn = true →
    (row = .certChain ∧ k = 1 ∨ row = .attest ∧ k = 2 ∨ row = .keyOpen ∧ k = 3 ∨ row = .keyInstall ∧ k = 4 ∨ row = .authRegister ∧ k = 5 ∨
     row = .authRemove ∧ k = 6 ∨ row = .debugChallenge ∧ k = 7 ∨ row = .debugUnlock ∧ k = 8 ∨ row = .fwStage ∧ k = 9) →
    let d := s.dev
    let req := d.hostRead d.thimble.mboxAddr 128
    let d1 := (d.hostFetch d.thimble.mboxAddr 128).1
    let s1 : State := { s with dev := d1 }
    let n := reqField req 20 4
    let pay := if n = 0 then [] else d1.hostRead (reqField req 24 8) n
    let s2 : State := if n = 0 then s1 else { s1 with dev := (d1.hostFetch (reqField req 24 8) n).1 }
    (d.thimble.busy = false ∨ d.thimble.serves = false → exec row s = .next s) ∧
    (d.thimble.busy = true → d.thimble.serves = true →
      (reqWellFormed req = true → reqField req 0 1 ≠ k → exec row s = .next s1) ∧
      (reqWellFormed req = false ∨ reqField req 0 1 = k ∧ reqField req 16 4 < responseSize k → Completes row s (fun t => t.OnlyDevice s ∧
        t.dev.thimble = { d.thimble with busy := false, reason := 0x0801, respBytes := 0 } ∧ t.dev.hostMem = d.hostMem ∧ t.dev.mem = d.mem ∧ t.dev.contexts = d.contexts ∧ t.vault = s.vault)) ∧
      (reqWellFormed req = true → reqField req 0 1 = k → responseSize k ≤ reqField req 16 4 → Completes row s (fun t =>
        t = (s2.request req pay).deliver (reqField req 8 8) ∧ t.dev.thimble.busy = false ∧ t.dev.thimble.reason = (s2.request req pay).code ∧
        t.vault = (s2.request req pay).state.vault)))

/-- What each request does. Certificates and reports are returned, for a context that is not admitted 0x0809; an opened
pair of keys replaces the one of its slot; a key is installed as the current one when its pair is live, its wrapping
opens and its epoch is newer, and the key before it becomes the previous one; its pair is destroyed in every case; an
authority is registered in a free slot and removed from it; a challenge serves one unlock, and an accepted unlock counts
in the fuses, destroys every pair and shows in the reports; an accepted image set goes to the slot that did not boot and
is booted from then on, and a set that cannot be read is refused with 0x0803 and the slot that booted stays preferred.
The order of an image set's components is the model's choice (log 105). -/
def Obligations.MailboxWork : Prop :=
  ∀ (s : State) (req pay : List Byte), s.pins.railsOn = true →
    let d := s.dev
    let slot := reqField req 4 1
    let id := BitVec.ofNat 16 (reqField req 2 2)
    let nonce := (req.drop 32).take 64
    let formed : Prop := slot < 16 ∧ reqField req 20 4 = 1640 ∧ bytesField pay 1572 4 = 0 ∧ bytesField pay 1632 8 = 0 ∧ bytesField pay 1576 8 % 4096 = 0
    (reqField req 0 1 = 1 → s.request req pay = { state := s, bytes := Config.certChain }) ∧
    (reqField req 0 1 = 2 → (id = 0 → s.request req pay = { state := s, bytes := d.report s.vault 0 none nonce (leBytes 64 0) }) ∧
      (∀ c, id ≠ 0 → d.ctx? id = some c → s.request req pay = { state := s, bytes := d.report s.vault 1 (some c) nonce (leBytes 64 0) }) ∧
      (id ≠ 0 → d.ctx? id = none → s.request req pay = { state := s, code := 0x0809 })) ∧
    (reqField req 0 1 = 3 → (16 ≤ slot → s.request req pay = { state := s, code := 0x0801 }) ∧
      (slot < 16 → (s.request req pay).code = 0 ∧ (s.request req pay).state = { s with dev := { d with thimble := { d.thimble with kem := ⟨slot, d.fresh, d.now⟩ :: d.thimble.kem.filter (fun q => q.slot != slot) }, fresh := d.fresh + 1 } })) ∧
    (reqField req 0 1 = 4 → (¬ formed → s.request req pay = { state := s, code := 0x0801 }) ∧
      (formed → let r := s.request req pay
        r.state.dev.thimble.kem = d.thimble.kem.filter (fun q => q.slot != slot) ∧
        (d.ctx? id = none → r.code = 0x0809 ∧ r.state.dev.contexts = d.contexts) ∧
        (∀ c, d.ctx? id = some c → (c.confidential = false → r.code = 0x0809 ∧ r.state.dev.contexts = d.contexts) ∧
          (c.confidential = true → (d.kemPair? slot = none → r.code = 0x0806 ∧ r.state.dev.contexts = d.contexts) ∧
            (∀ q, d.kemPair? slot = some q → (unwrapKey c q pay = none → r.code = 0x0807 ∧ r.state.dev.contexts = d.contexts) ∧
              (∀ key, unwrapKey c q pay = some key → let old := (c.keys.head?.map (fun z => z.epoch)).getD 0
                (bytesField pay 1568 4 ≤ old → r.code = 0x0808 ∧ r.state.dev.contexts = d.contexts) ∧
                (old < bytesField pay 1568 4 → r.code = 0 ∧ ∃ c', r.state.dev.ctx? id = some c' ∧
                  (c'.keys.head?.map (fun z => (z.epoch, z.key, z.tagBase))) = some (bytesField pay 1568 4, key, bytesField pay 1576 8) ∧ c'.keys.tail = c.keys.take 1))))))) ∧
    (reqField req 0 1 = 5 → (reqField req 20 4 ≠ 2592 → s.request req pay = { state := s, code := 0x0801 }) ∧
      (reqField req 20 4 = 2592 → (32 ≤ slot ∨ (∃ q ∈ d.thimble.authorities, q.1 = slot) → s.request req pay = { state := s, code := 0x0805 }) ∧
        (slot < 32 → (∀ q ∈ d.thimble.authorities, q.1 ≠ slot) → (s.request req pay).code = 0 ∧ (s.request req pay).state.dev.thimble.authorities = d.thimble.authorities ++ [(slot, pay)]))) ∧
    (reqField req 0 1 = 6 → ((∀ q ∈ d.thimble.authorities, q.1 ≠ slot) → s.request req pay = { state := s, code := 0x0805 }) ∧
      ((∃ q ∈ d.thimble.authorities, q.1 = slot) → (s.request req pay).code = 0 ∧
        (s.request req pay).state.dev.thimble.authorities = d.thimble.authorities.filter (fun q => q.1 != slot))) ∧
    (reqField req 0 1 = 7 → (s.request req pay).code = 0 ∧ (s.request req pay).state.dev.thimble = { d.thimble with challenge := some (s.request req pay).bytes }) ∧
    (reqField req 0 1 = 8 → (reqField req 20 4 ≠ 4800 → s.request req pay = { state := s, code := 0x0801 }) ∧
      (reqField req 20 4 = 4800 → (d.thimble.challenge = none → s.request req pay = { state := s, code := 0x080B }) ∧
        (∀ ch, d.thimble.challenge = some ch → (tokenOk pay ch = false → s.request req pay = { state := { s with dev := { d with thimble := { d.thimble with challenge := none } } }, code := 0x080A }) ∧
          (tokenOk pay ch = true → let r := s.request req pay
            r.code = 0 ∧ r.state.vault = { s.vault with debugCount := min 32 (s.vault.debugCount + 1), debugFull := s.vault.debugFull || s.vault.debugCount = 32 } ∧ r.state.dev.thimble.debugOpen = true ∧ r.state.dev.thimble.kem = [])))) ∧
    (reqField req 0 1 = 9 → let other := otherSlot d.thimble.slot
      (∀ imgs, parseImages 6 pay = some imgs → completeSet imgs = true → (∀ i ∈ imgs, i.valid = true ∧ s.vault.svnOk i = true) →
        s.request req pay = { state := { s with vault := { s.vault with slots := s.vault.slots.set other.val (some imgs), boots := other } } }) ∧
      (∀ imgs, parseImages 6 pay = some imgs → completeSet imgs = true → (∀ i ∈ imgs, i.valid = true) → (∃ i ∈ imgs, s.vault.svnOk i = false) →
        (s.request req pay).code = 0x0804 ∧ (s.request req pay).state = { s with vault := { s.vault with slots := s.vault.slots.set other.val none, boots := d.thimble.slot } }) ∧
      (parseImages 6 pay = none → (s.request req pay).code = 0x0803 ∧ (s.request req pay).state = { s with vault := { s.vault with slots := s.vault.slots.set other.val none, boots := d.thimble.slot } }))
/-! ## The host link -/

/-- The device enable. A write that leaves the bit as it is does nothing. Setting it runs the checks in their order: the first that fails is shown in REASON with
its BAD_REG, and nothing else happens; when all pass the bit is set, REASON and BAD_REG read 0, records and heartbeats count from 0, the
configuration is measured, and the fuse counters rise once to the images' FUSE_SVN. Clearing it is ignored, with REASON 0x0107, while
admission, a port or a panel is enabled; else the bit is clear and the head line of the error ring is no longer held. -/
def Obligations.DeviceEnableAndDisable : Prop :=
  ∀ (s : State) (v : BitVec 32) (row : Instr), (row = .deviceEnable v ∨ row = .deviceDisable v) → s.pins.railsOn = true →
    let d := s.dev
    let r := d.regs
    let ring := fieldOf r.errBase 63 6 * 64
    let head := fieldOf r.errHeadLine 63 6 * 64
    let size := fieldOf r.errCtl 12 8
    let hb := fieldOf r.hbBase 63 12 * 4096
    let crash := fieldOf r.crashBase 63 21 * 2 ^ 21
    let checks : List (Prop × Code × Nat) := [
      (d.thimble.booted = true, 0x0101, 0),
      (d.reset.escalation ≠ .outOfService, 0x0140, 0xC001),
      (d.reset.escalation ≠ .serviceRequired, 0x0142, 0xC001),
      (d.host.link = .l0 ∧ (d.host.width = 16 ∨ d.host.width = 8), 0x0103, 0),
      (d.host.busMaster = true, 0x0104, 0),
      (d.host.cacheEnabled = true ∨ bitOf r.admitCtl 1 = true, 0x0105, 0x4000),
      (d.host.cacheEnabled = true → d.host.atsOn = true, 0x0106, 0),
      (ring ≠ 0, 0x0110, 0xA002),
      (head ≠ 0 ∧ rangesOverlap ring (64 * 2 ^ size) head 64 = false, 0x0110, 0xA003),
      (6 ≤ size ∧ size ≤ 16, 0x0110, 0xA004),
      (16 ≤ fieldOf r.guardCtl 15 8 ∧ fieldOf r.guardCtl 15 8 ≤ 255, 0x0110, 0xA000),
      (hb ≠ 0 ∧ rangesOverlap hb 8192 ring (64 * 2 ^ size) = false ∧ (crash ≠ 0 → rangesOverlap hb 8192 crash (2 ^ 21) = false), 0x0111, 0xC002)]
    let steady : Prop := (∀ p : PanelId, (d.panel p).resetRun = none) ∧ d.reset.outEnter = none ∧ d.reset.warm = none
    (v.getLsbD 0 = d.enabled → exec row s = .next s) ∧
    (v.getLsbD 0 = true → d.enabled = false →
      (∀ pre post check, checks = pre ++ check :: post → (∀ c ∈ pre, c.1) → ¬ check.1 →
        exec row s = .next { s with dev := { d with host := { d.host with reason := check.2.1, badReg := check.2.2 } } }) ∧
      ((∀ c ∈ checks, c.1) → steady → Completes row s (fun t => t.pending = s.pending ∧ t.pins = s.pins ∧ t.dev.enabled = true ∧ t.dev.host.reason = 0 ∧ t.dev.host.badReg = 0 ∧
        t.dev.mem = d.mem ∧ t.dev.contexts = d.contexts ∧ t.dev.needle = d.needle ∧ t.dev.ports = d.ports ∧
        t.dev.regs = { d.regs with devCtl := setBit d.regs.devCtl 0 true } ∧
        (d.err.queue = [] → t.dev.err = { d.err with nextSeq := 0, head := 0 } ∧ t.dev.hostMem = d.hostMem) ∧ (∀ p : PanelId, (t.dev.panel p).hbSeq = 0) ∧
        t.dev.thimble.meas[3] = extendDigest d.thimble.meas[3] 4 0 (Config.sha3 d.configRecord) ∧ t.dev.thimble.fusesRaised = true ∧
        (d.thimble.fusesRaised = true → t.vault = s.vault) ∧
        (d.thimble.fusesRaised = false → t.vault = { s.vault with thimbleSvn := t.vault.thimbleSvn, mainSvn := t.vault.mainSvn } ∧
          (∀ i ∈ d.thimble.images, i.fuseSvn.toNat ≤ 64 → i.fuseSvn.toNat ≤ if i.component = 0 then t.vault.thimbleSvn else t.vault.mainSvn))))) ∧
    (v.getLsbD 0 = false → d.enabled = true →
      (d.admitOn = true ∨ (∃ n : PortId, (d.port n).enabled = true) ∨ (∃ p : PanelId, (d.panel p).enabled = true) →
        exec row s = .next { s with dev := { d with host := { d.host with reason := 0x0107 } } }) ∧
      (d.admitOn = false → (∀ n : PortId, (d.port n).enabled = false) → (∀ p : PanelId, (d.panel p).enabled = false) →
        exec row s = .next { s with dev := { d with regs := { d.regs with devCtl := setBit d.regs.devCtl 0 false }, host := { d.host with lines := d.host.lines.filter (fun l => l != head) } } }))

/-- Requests of the host link, and failed accesses. A configuration request before the end of the boot is answered with
retry status; a read answers the dword, a write stores it, and takes away the translations without ATS and the held
lines without CXL.cache. A decoder commits a range of whole 256 MiB up to 256 GiB with one way, and else shows the
error. A host access of a descriptor, a completion, an admission record, a doorbell or a counter that fails counts, is recorded, and has
the effect of its place. With CXL.cache again the device holds its lines again. An invalidation removes the translations of its range, and the lines held there are read again. A data object is
answered, and IDE opens with it from 16 GT/s on. A failed access of an area in use counts, is recorded with 0x0152, and
stops the area until the host clears its bit; it does nothing to an area that is not in use or has stopped. The
configuration space's status bits (log 113) and the commit of a committed decoder (log 114) are the model's choices. -/
def Obligations.HostRequestsAndFaults : Prop :=
  ∀ (s : State) (offset : Nat) (v : BitVec 32) (base size ways : Nat) (lock : Bool) (addr len : Nat) (obj : DoeObject) (refused : Bool) (use : HostUse), s.pins.railsOn = true →
    let d := s.dev
    let h := d.host
    let k := h.hdm
    let o := offset / 4 * 4
    let gone := h.lines.filter (fun l => rangesOverlap (l / 4096 * 4096) 4096 addr len)
    let host (g : HostLink) : State := { s with dev := { d with host := g } }
    (h.link ≠ .l0 → ∀ row ∈ [Instr.configRequest offset none, .configRequest offset (some v), .hdmCommit true base size ways lock, .hdmCommit false base size ways lock, .atsInvalidate addr len, .doeRequest obj, .hostAccessFault use addr refused], exec row s = .next s) ∧
    (h.link = .l0 →
      (o < 4096 → d.thimble.booted = false → ∀ w, exec (.configRequest offset w) s = .next (host { h with retryStatus := true, lastAnswer := none })) ∧
      (o < 4096 → d.thimble.booted = true → exec (.configRequest offset none) s = .next (host { h with retryStatus := false, lastAnswer := some (d.configRead o) })) ∧
      (d.thimble.booted = false → exec (.hdmCommit true base size ways lock) s = .next s ∧ exec (.hdmCommit false base size ways lock) s = .next s ∧ exec (.doeRequest obj) s = .next s) ∧
      (4096 ≤ o → ∀ w, exec (.configRequest offset w) s = .next s) ∧
      (o < 4096 → d.thimble.booted = true → d.heldMode = false → (d.configWrite o v).heldMode = true → exec (.configRequest offset (some v)) s =
        .next { s with dev := (d.configWrite o v).holdAgain.updHost (fun g => { g with retryStatus := false, lastAnswer := none }) }) ∧
      (o < 4096 → d.thimble.booted = true → (d.heldMode = true ∨ (d.configWrite o v).heldMode = false) → Completes (.configRequest offset (some v)) s (fun t => t = host t.dev.host ∧ t.dev.host.stored o = v ∧ (∀ q, q ≠ o → t.dev.host.stored q = h.stored q) ∧
        t.dev.host.translations = (if t.dev.host.atsOn then h.translations else []) ∧ t.dev.host.lines = (if t.dev.host.cacheEnabled then h.lines else []) ∧ t.dev.host.retryStatus = false)) ∧
      (d.thimble.booted = true → k.committed = false → exec (.hdmCommit true base size ways lock) s =
        (let ok := decide (size % 2 ^ 28 = 0 ∧ 2 ^ 28 ≤ size ∧ size ≤ 2 ^ 38 ∧ ways = 1)
         .next (host { h with hdm := { base := base, size := size, ways := ways, lockOnCommit := lock, committed := ok, error := !ok } }))) ∧
      (d.thimble.booted = true → (k.committed = false ∨ k.lockOnCommit = false) → exec (.hdmCommit false base size ways lock) s = .next (host { h with hdm := { k with committed := false, error := false } })) ∧
      (k.committed = true → exec (.hdmCommit true base size ways lock) s = .next s ∧ (k.lockOnCommit = true → exec (.hdmCommit false base size ways lock) s = .next s)) ∧
      (gone = [] → exec (.atsInvalidate addr len) s = .next (host { h with translations := h.translations.filter (fun t => !rangesOverlap (t * 4096) 4096 addr len) })) ∧
      (exec (.atsInvalidate addr len) s = .next { s with dev := gone.foldl (fun (e : Device) l => (e.holdLine l).refreshLine l) (host { h with translations := h.translations.filter (fun t => !rangesOverlap (t * 4096) 4096 addr len), lines := h.lines.filter (fun l => !gone.contains l) }).dev }) ∧
      (d.thimble.booted = true →
        (∀ m opens, obj = .spdm m opens → exec (.doeRequest obj) s = .next (host { h with doeAnswer := Config.spdmAnswer m, ideActive := h.ideActive || (opens && decide (4 ≤ h.speed)) })) ∧
        (∀ e, obj = .cdat e → exec (.doeRequest obj) s = .next (host { h with doeAnswer := Config.cdat e })) ∧
        (∀ n, obj = .discovery n ∨ obj = .other → exec (.doeRequest obj) s = .next (host { h with doeAnswer := doeBytes obj }))) ∧
      (∀ bit used, (use = .errorRing ∧ bit = 0 ∧ used = d.enabled ∨ use = .admissionRing ∧ bit = 1 ∧ used = d.admitOn ∨ use = .heartbeat ∧ bit = 2 ∧ used = d.enabled ∨
          use = .crash ∧ bit = 3 ∧ used = (fieldOf d.regs.crashBase 63 21 != 0) ∨ use = .dumpRing ∧ bit = 4 ∧ used = d.dumpOn ∨
          (∃ c, use = .counterPage c ∧ bit = 4 ∧ used = (d.ctx? c).any (fun k => k.rights.getLsbD 0))) →
        (used = false ∨ h.fault.getLsbD bit = true → exec (.hostAccessFault use addr refused) s = .next s) ∧
        (used = true → h.fault.getLsbD bit = false → Completes (.hostAccessFault use addr refused) s (fun t => t = { s with dev := { d with host := t.dev.host, err := t.dev.err } } ∧
          t.dev.host = { h with fault := t.dev.host.fault, xlateFaults := t.dev.host.xlateFaults, accessFaults := t.dev.host.accessFaults } ∧
          (∀ b < 5, t.dev.host.fault.getLsbD b = (h.fault.getLsbD b || b == bit)) ∧
          t.dev.host.xlateFaults = (if refused then satTo 16 (h.xlateFaults + 1) else h.xlateFaults) ∧ t.dev.host.accessFaults = (if refused then h.accessFaults else satTo 16 (h.accessFaults + 1)) ∧
          (d.err.general < 64 → ∃ q, t.dev.err.queue = d.err.queue ++ [q] ∧ q.content.reason = 0x0152 ∧ q.content.mech = 0x10 ∧ q.content.outcome = 1) ∧
          (64 ≤ d.err.general → t.dev.err.queue = d.err.queue ∧ t.dev.err.lost = satTo 16 (d.err.lost + 1))))) ∧
      (∀ p, use = .retireTable p → ((d.panel p).mem.loadBusy = false → exec (.hostAccessFault use addr refused) s = .next s) ∧
        ((d.panel p).mem.loadBusy = true → Completes (.hostAccessFault use addr refused) s (fun t => (t.dev.panel p).mem = (d.panel p).mem.loadFailed ∧ t.dev.host.fault = h.fault))) ∧
      (use = .mailbox → (d.thimble.busy = false → exec (.hostAccessFault use addr refused) s = .next s) ∧
        (d.thimble.busy = true → Completes (.hostAccessFault use addr refused) s (fun t => t.dev.thimble.busy = false ∧ t.dev.thimble.reason = 0x0801 ∧ t.dev.thimble.respBytes = 0 ∧ t.dev.host.fault = h.fault))) ∧
      (let row : Instr := .hostAccessFault use addr refused
       let counted : HostLink := if refused then { h with xlateFaults := satTo 16 (h.xlateFaults + 1) } else { h with accessFaults := satTo 16 (h.accessFaults + 1) }
       let told (e : Device) (b : Blame) (needed : Bool) : Prop := e = { d with host := counted, err := e.err } ∧ (d.err.general < 64 →
         ∃ r, e.err.queue = d.err.queue ++ [⟨r, false, if needed then some d.err.nextTicket else none⟩] ∧ r.reason = 0x0152 ∧ r.mech = 0x10 ∧ r.ctx = b.ctx)
       (∀ c n, use = .operand c n → ((d.ring? c n).bind Ring.running? = none → exec row s = .next s) ∧
         (∀ x, (d.ring? c n).bind Ring.running? = some x → ∃ e, told e (blameDesc c n x.seq) true ∧ exec row s = .next { s with
           dev := ((e.dropFill c x).discardRuns (fun r => r.ctx = c && r.ring = n && r.seq = x.seq)).finish c n x 0x0511 addr (some d.err.nextTicket) })) ∧
       (∀ c n r, use = .fetch c n → d.ring? c n = some r → (d.fetchable r = false → exec row s = .next s) ∧
         (d.fetchable r = true → Completes row s (fun t => t.OnlyDevice s ∧ ∃ q x, t.dev.ring? c n = some q ∧ q.queue = r.queue ++ [x] ∧ q.next = r.next + 1 ∧
           x.seq = r.next ∧ x.phase = .finished 0x0511 ∧ x.ticket = some d.err.nextTicket))) ∧
       (∀ c n, use = .completion c n ∨ use = .eventLine c n → (d.completable c n = none → exec row s = .next s) ∧
         (∀ x status, d.completable c n = some (x, status) →
           (use = .eventLine c n → (x.signalEn && signals status) = false → exec row s = .next s) ∧
           (use = .completion c n ∨ (x.signalEn && signals status) = true → ∃ e, told e (blameDesc c n x.seq) false ∧ exec row s =
             .next { s with dev := e.completeHead c n false (if use = .eventLine c n then .eventLine else .record) }))) ∧
       (use = .admissionRecord → (d.readsRecord = false → exec row s = .next s) ∧
         (d.readsRecord = true → ∃ e, told e {} false ∧ exec row s = .next { s with dev := e.takeCommand 1 false })) ∧
       (∀ c n, use = .doorbell c n → (d.ring? c n = none → exec row s = .next s) ∧
         (∀ r, d.ring? c n = some r → (r.doorbellFault = true → exec row s = .next (host counted)) ∧
           (r.doorbellFault = false → ∃ e, told e (blameDesc c n r.next) false ∧ exec row s =
             .next { s with dev := e.updRing c n (fun q => { q with doorbellFault := true }) }))) ∧
       (∀ c (n : Fin 64), use = .hostCounter c n → ((c, n.val) ∉ d.waitedCounters → exec row s = .next s) ∧
         ((c, n.val) ∈ d.waitedCounters → ((c, n.val) ∈ h.counterFaults → exec row s = .next (host counted)) ∧
           ((c, n.val) ∉ h.counterFaults → ∃ e, told e { ctx := c } false ∧ exec row s =
             .next { s with dev := { e with host := { e.host with counterFaults := (c, n.val) :: h.counterFaults } } }))))) ∧
    Completes (.hostFaultClear v) s (fun t => t.OnlyDevice s ∧ (∀ b < 5, t.dev.host.fault.getLsbD b = (h.fault.getLsbD b && !v.getLsbD b)) ∧ (d.heldMode = false → t = host { h with fault := t.dev.host.fault }))

/-- Events of the host link. Conventional reset, hot reset, link disable and an entry to D3hot of an enabled device
start a warm reset with the cause 0x0151, a loss of the link one with 0x0150; without a link, and D3hot without the
enable, nothing happens. The link stays down from the assertion of conventional reset until its release, and comes up
out of Detect at the widths and speeds that the device has. Recovery holds what goes to the host, and the return to L0
sends it in order. PERST_N before the boot's end (log 108) and the link's widths (log 125) are the model's choices. That
a hot reset's conditions for staying warm are met is the model's choice (log 90). -/
def Obligations.HostLinkEvents : Prop :=
  ∀ (s : State) (cxl : Bool) (width speed : Nat),
    let d := s.dev
    let h := d.host
    let down (t : State) (cause : Code) (link : LinkState) : Prop := t.pending = s.pending ∧ t.dev.reset.lastKind = 1 ∧ t.dev.reset.lastCause = cause ∧ t.dev.host.link = link ∧
      t.dev.reset.deviceResets = satTo 16 (d.reset.deviceResets + 1) ∧ t.dev.contexts = [] ∧ t.dev.enabled = false ∧ t.dev.thimble.booted = false ∧
      (∀ n : PortId, (t.dev.port n).state = .disabled) ∧ (∀ p : PanelId, (t.dev.panel p).enabled = false ∧ (t.dev.panel p).memOn = false) ∧
      (windowOf d.now 60 d.reset.deviceWindow ≠ [] → t.dev.reset.escalation = .serviceRequired ∧ t.vault.serviceRequired = true) ∧
      (d.contexts = [] → (∀ n : PortId, (d.port n).packets = []) → (∀ p : PanelId, (d.panel p).enabled = false ∧ (d.panel p).mem.queues = [] ∧ (d.panel p).mem.stalled = []) → t.dev.mem = d.mem)
    let quiet : Prop := d.reset.warm = none
    let asserted : ModulePins := { s.pins with perstN := false }
    let released : ModulePins := { s.pins with perstN := true }
    (s.pins.perstN = false ∨ s.pins.railsOn = false → exec .perstAssert s = .next { s with pins := asserted }) ∧
    (h.link ≠ .heldInReset → exec .perstRelease s = .next { s with pins := released }) ∧
    (h.link = .heldInReset → exec .perstRelease s = .next { s with pins := released, dev := { d with host := { h with link := .detect } } }) ∧
    (s.pins.railsOn = true →
      (s.pins.perstN = true → (d.thimble.booted = false → Completes .perstAssert s (fun t => t = { s with pins := asserted, dev := { d with host := t.dev.host } } ∧ t.dev.host.link = .heldInReset ∧ t.dev.host.config = [])) ∧
        (d.thimble.booted = true → quiet → Completes .perstAssert s (fun t => t.pins = asserted ∧ down t 0x0151 .heldInReset))) ∧
      (h.link ≠ .l0 → h.link ≠ .recovery → ∀ row ∈ [Instr.hotReset, .linkDisable, .d3hotEntry, .hostLinkLoss, .linkRecovery true, .linkRecovery false], exec row s = .next s) ∧
      (d.enabled = false → exec .d3hotEntry s = .next s) ∧
      (h.link = .l0 ∨ h.link = .recovery → quiet →
        Completes .hotReset s (fun t => t.pins = s.pins ∧ down t 0x0151 .detect) ∧ Completes .linkDisable s (fun t => t.pins = s.pins ∧ down t 0x0151 .detect) ∧
        Completes .hostLinkLoss s (fun t => t.pins = s.pins ∧ down t 0x0150 .detect) ∧ (d.enabled = true → Completes .d3hotEntry s (fun t => t.pins = s.pins ∧ down t 0x0151 .detect))) ∧
      (h.link = .l0 → exec (.linkRecovery true) s = .next { s with dev := { d with host := { h with link := .recovery } } }) ∧
      (h.link = .l0 → exec (.linkRecovery false) s = .next s) ∧
      (h.link = .recovery → Completes (.linkRecovery false) s (fun t => t.OnlyDevice s ∧ t.dev.host.link = .l0 ∧ t.dev.host.heldWrites = [] ∧ t.dev.host.heldMessages = [] ∧ t.dev.mem = d.mem ∧
        t.dev.hostMem = h.heldWrites.foldl (fun m w => memWrite m w.1 w.2.1) d.hostMem ∧ ∀ k : Fin 11, t.dev.host.messages[k.val] = h.messages[k.val] + h.heldMessages.count k)) ∧
      (let trains : Prop := s.pins.perstN = true ∧ h.link = .detect ∧ d.thimble.failed = false ∧ quiet ∧ width ∈ [8, 16] ∧ 3 ≤ speed ∧ speed ≤ 5
       (¬ trains → exec (.hostLinkUp cxl width speed) s = .next s) ∧
       (trains → exec (.hostLinkUp cxl width speed) s = .next { s with dev := { d with host := { h with link := .l0, cxl := cxl, width := width, speed := speed } } })))

/-! ## The Bodkin port -/

/-- The TAP, and a panel's sequencer under the debugger. A TAP instruction is selected and nothing else changes;
SAMPLE/PRELOAD loads the boundary-scan register. With the debug access protocol selected, a request before the unlock
completes with LOCKED and one of a reserved space with INVALID; HALT stops a sequencer, RESUME lets it run, STEP and
STEP_TACK take one halted sequencer on, by an instruction or until the boundary after a tack. A breakpoint halts before
the instruction at its enabled address, a watchpoint after the access that it matches; others change nothing. Steps of a
running sequencer answering OK is the model's choice (log 123). -/
def Obligations.BodkinTapAndSequencers : Prop :=
  ∀ (s : State) (space : BitVec 4) (addr : BitVec 48) (p : PanelId) (i : Fin 8) (j : Fin 4) (pc at_ : BitVec 32) (write : Bool), s.pins.railsOn = true →
    let d := s.dev
    let b := d.bodkin
    let q : PanelId := Fin.ofNat 8 (addr.toNat / 2 ^ 45)
    let open_ : Prop := b.ir = 0x10 ∧ b.waiting = none
    let done (op status : Nat) : State := { s with dev := { d with bodkin := { b with op := op, status := status, addr := addr, data := 0 } } }
    let rows : List (Instr × Nat) := [(.dapHalt space addr, 7), (.dapResume space addr, 8), (.dapStep space addr, 9), (.dapStepTack space addr, 10)]
    let g := (d.panel q).dbg
    let after (t : State) (op : Nat) (e : SeqDebug) : Prop := t = { s with dev := { d.updPanel q (fun z => { z with dbg := e }) with fresh := t.dev.fresh, bodkin := { b with op := op, status := 0, addr := addr, data := 0 } } }
    let at_halt (e : SeqDebug) (cause : Nat) : Prop := e.halted = true ∧ e.cause = cause ∧ e.index = 0 ∧ e.bps = g.bps ∧ e.wps = g.wps
    let w := (d.panel p).dbg.wps[j.val]
    let y := (d.panel p).dbg.bps[i.val]
    let onPanel (f : SeqDebug → SeqDebug) : State := { s with dev := d.updPanel p (fun z => { z with dbg := f z.dbg }) }
    (∀ x ∈ [(Instr.tapReset, 0x01#8), (.idcode, 0x01#8), (.extest, 0x03#8), (.dap, 0x10#8), (.bypass, 0xFF#8)], exec x.1 s = .next { s with dev := { d with bodkin := { b with ir := x.2 } } }) ∧
    Completes .samplePreload s (fun t => t = { s with dev := { d with fresh := t.dev.fresh, bodkin := { b with ir := 0x02, scan := t.dev.bodkin.scan } } }) ∧
    (∀ x ∈ rows, (¬ open_ → exec x.1 s = .next s) ∧
      (open_ → (d.thimble.scopes.getLsbD 0 = false → exec x.1 s = .next (done x.2 1)) ∧ (d.thimble.scopes.getLsbD 0 = true → 5 ≤ space.toNat → exec x.1 s = .next (done x.2 5)))) ∧
    (open_ → d.thimble.scopes.getLsbD 0 = true → space.toNat < 5 →
      (g.halted = true → exec (.dapHalt space addr) s = .next (done 7 0) ∧ Completes (.dapStep space addr) s (fun t => ∃ e, after t 9 e ∧ at_halt e 1 ∧ e.mem = []) ∧
        Completes (.dapStepTack space addr) s (fun t => after t 10 { g with halted := false, mem := [], stepTack := 1 })) ∧
      (g.halted = false → exec (.dapStep space addr) s = .next (done 9 0) ∧ exec (.dapStepTack space addr) s = .next (done 10 0) ∧
        Completes (.dapHalt space addr) s (fun t => ∃ e, after t 7 e ∧ at_halt e 0 ∧ e.mem = g.mem)) ∧
      Completes (.dapResume space addr) s (fun t => after t 8 { g with halted := false, mem := [], stepTack := 0 })) ∧
    ((d.panel p).dbg.halted = true ∨ y.getLsbD 0 = false ∨ (∃ k < 32, 2 ≤ k ∧ y.getLsbD k ≠ pc.getLsbD k) → exec (.breakpointHit p i pc) s = .next s) ∧
    ((d.panel p).dbg.halted = false → y.getLsbD 0 = true → (∀ k < 32, 2 ≤ k → y.getLsbD k = pc.getLsbD k) →
      exec (.breakpointHit p i pc) s = .next (onPanel (fun e => { e with halted := true, cause := 3, index := i.val, pc := pc, stepTack := 0 }))) ∧
    (let kind := w.getLsbD (if write then 2 else 1)
     ((d.panel p).dbg.halted = true ∨ w.getLsbD 0 = false ∨ kind = false ∨ (∃ k < 32, 3 ≤ k ∧ w.getLsbD (32 + k) = false ∧ w.getLsbD k ≠ at_.getLsbD k) → exec (.watchpointHit p j pc at_ write) s = .next s) ∧
     ((d.panel p).dbg.halted = false → w.getLsbD 0 = true → kind = true → (∀ k < 32, 3 ≤ k → w.getLsbD (32 + k) = false → w.getLsbD k = at_.getLsbD k) →
       exec (.watchpointHit p j pc at_ write) s = .next (onPanel (fun e => { e with halted := true, cause := 4, index := j.val, pc := pc, stepTack := 0 }))))

/-- Requests of the debug access protocol. Without the protocol selected, or while one waits, a request is not taken.
Before the unlock all but writes of the token buffer and reads of the challenge complete with LOCKED; a reserved space
or a misaligned address is INVALID; the others read or write the word they name, with their status, and the increment
forms go on by four. CHALLENGE puts a fresh challenge into the buffer, and UNLOCK submits the token once: accepted, the
debug counter has counted and the status is OK; else REJECTED. Both wait while Thimble does not serve or has another
request, and NOP then takes them up. The order of the debugger's refusals is the model's choice (log 123). -/
def Obligations.BodkinRequests : Prop :=
  ∀ (s : State) (space : BitVec 4) (addr : BitVec 48) (data : BitVec 32), s.pins.railsOn = true →
    let d := s.dev
    let b := d.bodkin
    let a := addr.toNat
    let free : Prop := d.thimble.serves = true ∧ d.thimble.busy = false
    let words : List (Instr × Nat × Option (BitVec 32) × Bool) := [(.dapRead32 space addr, 1, none, false), (.dapWrite32 space addr data, 2, some data, false), (.dapReadInc space addr, 3, none, true), (.dapWriteInc space addr data, 4, some data, true)]
    (b.ir ≠ 0x10 ∨ b.waiting.isSome = true → (∀ x ∈ words, exec x.1 s = .next s) ∧ exec .dapChallenge s = .next s ∧ exec .dapUnlock s = .next s) ∧
    (b.ir = 0x10 → b.waiting = none →
      (∀ x ∈ words,
        let permitted : Prop := d.thimble.scopes.getLsbD 0 = true ∨ space = 4 ∧ (if x.2.2.1.isSome then a < 4800 else 0x1400 ≤ a ∧ a < 0x1420)
        let done (t : State) (status : Nat) (w : BitVec 32) : State := { t with dev := { t.dev with bodkin := { t.dev.bodkin with op := x.2.1, status := status, addr := (if x.2.2.2 then addr + 4 else addr), data := w } } }
        let read : Prop := x.2.2.1 = none
        let wrote : Prop := x.2.2.1 = some data
        (¬ permitted → exec x.1 s = .next (done s 1 0)) ∧
        (permitted → (5 ≤ space.toNat ∨ a % 4 ≠ 0) → exec x.1 s = .next (done s 5 0)) ∧
        (permitted → a % 4 = 0 →
          (space = 0 → (2 ^ 26 ≤ a → exec x.1 s = .next (done s 2 0)) ∧ (a < 2 ^ 26 → (read → exec x.1 s = .next (done (s.read32 a).1 0 (s.read32 a).2)) ∧
            (wrote → s.pins.resetN = true → (a ≠ 0x50000 → exec x.1 s = .next (done (s.write32 a data) 0 0)) ∧
              (a = 0x50000 → Completes x.1 s (fun t => t.dev.bodkin.status = 0 ∧ t.dev.bodkin.op = x.2.1 ∧ (data.getLsbD 0 = false → d.thimble.scopes.getLsbD 1 = true → t.dev.guarantee = false)))))) ∧
          (space = 1 → (mpaEnd ≤ a → exec x.1 s = .next (done s 2 0)) ∧
            (a < mpaEnd → (d.panel (panelOf a)).fenced = true → exec x.1 s = .next (done s 4 0)) ∧
            (a < mpaEnd → (d.panel (panelOf a)).fenced = false → (d.panel (panelOf a)).retires (ppaOf a) = true → exec x.1 s = .next (done s 2 0)) ∧
            (a < mpaEnd → (d.panel (panelOf a)).fenced = false → (d.panel (panelOf a)).retires (ppaOf a) = false → memWf d.mem = true →
              (read → d.badIn a 4 = false → Completes x.1 s (fun t => t.OnlyDevice s ∧ t.dev.bodkin.status = 0 ∧ t.dev.bodkin.data = bytesWord (memRead d.mem a 4) ∧ t.dev.mem = d.mem)) ∧
              (read → d.badIn a 4 = true → Completes x.1 s (fun t => t.OnlyDevice s ∧ t.dev.bodkin.status = 3 ∧ t.dev.mem = d.mem)) ∧
              (wrote → Completes x.1 s (fun t => t.OnlyDevice s ∧ t.dev.bodkin.status = 0 ∧ memRead t.dev.mem a 4 = leBytes 4 data.toNat ∧ ∀ o, o < a ∨ a + 4 ≤ o → memGet t.dev.mem o = memGet d.mem o)))) ∧
          (space = 2 → (d.host.link ≠ .l0 → exec x.1 s = .next (done s 2 0)) ∧
            (d.host.link = .l0 → (read → Completes x.1 s (fun t => t.OnlyDevice s ∧ t.dev.bodkin.status = 0 ∧ t.dev.bodkin.data = bytesWord (memRead d.hostMem a 4) ∧ t.dev.hostMem = d.hostMem)) ∧
              (wrote → Completes x.1 s (fun t => t.OnlyDevice s ∧ t.dev.bodkin.status = 0 ∧ t.dev.hostMem = memWrite d.hostMem a (leBytes 4 data.toNat))))) ∧
          (space = 3 → let q : PanelId := Fin.ofNat 8 (a / 2 ^ 45)
            let g := (d.panel q).dbg
            let m := a % 2 ^ 24
            (m < 0xFF0000 → Completes x.1 s (fun t => t.OnlyDevice s ∧ t.dev.bodkin.status = 0 ∧ t.dev.mem = d.mem)) ∧
            (m = 0xFF0000 → read → exec x.1 s = .next (done s 0 (BitVec.ofNat 32 (g.index * 16 + g.cause * 2 + if g.halted then 1 else 0)))) ∧
            (m = 0xFF0008 → g.halted = true → (read → exec x.1 s = .next (done s 0 g.pc)) ∧ (wrote → Completes x.1 s (fun t => t.OnlyDevice s ∧ (t.dev.panel q).dbg = { g with pc := data } ∧ t.dev.bodkin.status = 0))) ∧
            (∀ n : Fin 8, m = 0xFF0100 + 8 * n.val → (read → exec x.1 s = .next (done s 0 g.bps[n.val])) ∧
              (wrote → Completes x.1 s (fun t => t.OnlyDevice s ∧ (t.dev.panel q).dbg = { g with bps := g.bps.set n.val (data &&& 0xFFFFFFFD) n.isLt } ∧ t.dev.bodkin.status = 0)))) ∧
          (space = 4 → (read → ¬ (a < 4800 ∨ 0x1400 ≤ a ∧ a < 0x1420) → exec x.1 s = .next (done s 2 0)) ∧ (wrote → 4800 ≤ a → exec x.1 s = .next (done s 2 0)) ∧ (read → (a < 4800 ∨ 0x1400 ≤ a ∧ a < 0x1420) → exec x.1 s = .next (done s 0 (bytesWord (memRead b.token a 4)))) ∧
            (wrote → a < 4800 → exec x.1 s = .next { s with dev := { d with bodkin := { b with token := memWrite b.token a (leBytes 4 data.toNat), op := x.2.1, status := 0, addr := (if x.2.2.2 then addr + 4 else addr), data := 0 } } })))) ∧
      (¬ free → exec .dapChallenge s = .next { s with dev := { d with bodkin := { b with waiting := some 5 } } } ∧ exec .dapUnlock s = .next { s with dev := { d with bodkin := { b with waiting := some 6 } } }) ∧
      (free → Completes .dapChallenge s (fun t => t.OnlyDevice s ∧ t.dev.bodkin.waiting = none ∧ t.dev.bodkin.op = 5 ∧ t.dev.bodkin.status = 0 ∧ t.dev.thimble.challenge = some (freeBytes d.fresh 32) ∧ t.dev.bodkin.token = memWrite b.token 0x1400 (freeBytes d.fresh 32)) ∧
        (let token := memRead b.token 0 4800
         (d.thimble.challenge = none → Completes .dapUnlock s (fun t => t.OnlyDevice s ∧ t.dev.bodkin.status = 6 ∧ t.dev.thimble.reason = 0x080B)) ∧
         (∀ ch, d.thimble.challenge = some ch →
           (tokenOk token ch = false → Completes .dapUnlock s (fun t => t.OnlyDevice s ∧ t.dev.bodkin.status = 6 ∧ t.dev.thimble = { d.thimble with challenge := none, reason := 0x080A })) ∧
           (tokenOk token ch = true → Completes .dapUnlock s (fun t => t.dev.bodkin.status = 0 ∧ t.dev.bodkin.waiting = none ∧ t.dev.thimble.debugOpen = true ∧ t.dev.thimble.reason = 0 ∧ t.vault = { s.vault with debugCount := min 32 (s.vault.debugCount + 1), debugFull := s.vault.debugFull || decide (s.vault.debugCount = 32) })))))) ∧
    (b.waiting = none ∨ ¬ free → exec .dapNop s = .next s) ∧
    (free → b.waiting = some 5 → Completes .dapNop s (fun t => t.OnlyDevice s ∧ t.dev.bodkin.waiting = none ∧ t.dev.bodkin.op = 5 ∧ t.dev.thimble.challenge = some (freeBytes d.fresh 32)))
end

