-- ==== Sys2Proof/Laws/Memory.lean ====
section
/-! SUPPORT. Byte memory: the canonical form is kept by every operation; a read after a write. -/

namespace Sys2Proof.Machine

/-- The first listed address, if any, lies above `a`. -/
def memAbove (a : Nat) (m : Memory) : Bool := m.all (fun c => decide (a < c.1))

/-- The canonical form by its head. -/
theorem memWf_cons (a : Nat) (v : Byte) (m : Memory) :
    memWf ((a, v) :: m) = true ↔ v ≠ 0 ∧ memAbove a m = true ∧ memWf m = true := by
  induction m generalizing a v with
  | nil => simp [memWf, memAbove]
  | cons c m ih =>
    obtain ⟨b, w⟩ := c
    constructor
    · intro h
      simp only [memWf, Bool.and_eq_true, bne_iff_ne, decide_eq_true_eq] at h
      obtain ⟨⟨hv, hab⟩, hw⟩ := h
      refine ⟨hv, ?_, hw⟩
      have := ((ih b w).1 hw).2.1
      simp only [memAbove, List.all_cons, List.all_eq_true, decide_eq_true_eq, Bool.and_eq_true] at this ⊢
      exact ⟨hab, fun x hx => Nat.lt_trans hab (this x hx)⟩
    · intro ⟨hv, ha, hw⟩
      simp only [memAbove, List.all_cons, Bool.and_eq_true, decide_eq_true_eq] at ha
      simp only [memWf, ha.1, hw, Bool.and_true, decide_true, bne_iff_ne]; exact hv

/-- Storing a byte above a bound keeps everything above the bound. -/
theorem memAbove_put {a b : Nat} (h : a < b) (v : Byte) (m : Memory) (hm : memAbove a m = true) :
    memAbove a (memPut m b v) = true := by
  induction m with
  | nil => by_cases e : v = 0 <;> simp [memPut, memAbove, e, h]
  | cons c m ih =>
    obtain ⟨x, w⟩ := c
    simp only [memAbove, List.all_cons, Bool.and_eq_true, decide_eq_true_eq] at hm ih
    have hx : memAbove a m = true := hm.2
    have hp : memAbove a (memPut m b v) = true := ih hm.2
    simp only [memAbove] at hx hp
    unfold memPut
    repeat' split
    all_goals simp only [memAbove, List.all_cons, Bool.and_eq_true, decide_eq_true_eq, hm.1, h, hx, hp, and_self]

/-- Storing a byte keeps the canonical form. -/
theorem memPut_wf (m : Memory) (a : Nat) (v : Byte) (h : memWf m = true) : memWf (memPut m a v) = true := by
  induction m with
  | nil => by_cases e : v = 0#8 <;> simp [memPut, memWf, e]
  | cons c m ih =>
    obtain ⟨b, w⟩ := c
    obtain ⟨hw, hb, hm⟩ := (memWf_cons b w m).1 h
    unfold memPut
    by_cases hab : a < b
    · by_cases e : v = 0
      · simpa [hab, e] using h
      · simp only [hab, e, if_true, if_false]
        refine (memWf_cons a v _).2 ⟨e, ?_, h⟩
        simp only [memAbove, List.all_cons, List.all_eq_true, Bool.and_eq_true, decide_eq_true_eq] at hb ⊢
        exact ⟨hab, fun x hx => Nat.lt_trans hab (hb x hx)⟩
    · by_cases hq : a = b
      · by_cases e : v = 0
        · simpa [hq, e] using hm
        · simp only [hq, Nat.lt_irrefl, e, if_true, if_false]
          exact (memWf_cons b v m).2 ⟨e, hb, hm⟩
      · simp only [hab, hq, if_false]
        exact (memWf_cons b w _).2 ⟨hw, memAbove_put (by omega) v m hb, ih hm⟩

/-- Storing bytes keeps the canonical form. -/
theorem memWrite_wf (bs : List Byte) (m : Memory) (a : Nat) (h : memWf m = true) : memWf (memWrite m a bs) = true := by
  induction bs generalizing m a with
  | nil => exact h
  | cons v vs ih => exact ih _ _ (memPut_wf m a v h)

/-- Filtering a memory keeps the canonical form. -/
theorem memFilter_wf (f : Host.Cell → Bool) (m : Memory) (h : memWf m = true) : memWf (m.filter f) = true := by
  induction m with
  | nil => rfl
  | cons c m ih =>
    obtain ⟨b, w⟩ := c
    obtain ⟨hw, hb, hm⟩ := (memWf_cons b w m).1 h
    by_cases e : f (b, w) = true
    · rw [List.filter_cons_of_pos e]
      refine (memWf_cons b w _).2 ⟨hw, ?_, ih hm⟩
      simp only [memAbove, List.all_eq_true, decide_eq_true_eq] at hb ⊢
      exact fun x hx => hb x (List.mem_of_mem_filter hx)
    · rw [List.filter_cons_of_neg e]
      exact ih hm

/-- Zeroing bytes keeps the canonical form. -/
theorem memZero_wf (m : Memory) (a n : Nat) (h : memWf m = true) : memWf (memZero m a n) = true := memFilter_wf _ m h

/-- The memories of the state right after reset are canonical. -/
theorem reset_mem_wf : memWf State.reset.dev.mem = true ∧ memWf State.reset.dev.hostMem = true := ⟨rfl, rfl⟩

/-- Below every listed address a memory reads 0. -/
theorem memGet_below {a : Nat} {m : Memory} (h : memAbove a m = true) : memGet m a = 0 := by
  cases m with
  | nil => rfl
  | cons c m =>
    obtain ⟨b, w⟩ := c
    simp only [memAbove, List.all_cons, Bool.and_eq_true, decide_eq_true_eq] at h
    have : b ≠ a := by omega
    simp [memGet, this, h.1]

/-- Reading a byte after storing one, in a canonical memory. -/
theorem memGet_put (m : Memory) (a b : Nat) (v : Byte) (h : memWf m = true) :
    memGet (memPut m a v) b = if b = a then v else memGet m b := by
  induction m with
  | nil =>
    by_cases e : v = 0
    · simp [memPut, e, memGet]
    · simp only [memPut, e, if_false, memGet, @eq_comm _ b a]
      split
      · rfl
      · split <;> rfl
  | cons c m ih =>
    obtain ⟨x, w⟩ := c
    obtain ⟨hw, hx, hm⟩ := (memWf_cons x w m).1 h
    unfold memPut
    by_cases hax : a < x
    · by_cases e : v = 0
      · simp only [hax, e, if_true]
        by_cases hb : b = a
        · subst hb
          have : x ≠ b := by omega
          simp [memGet, this, hax]
        · simp [hb]
      · simp only [hax, e, if_true, if_false]
        by_cases hb : b = a
        · simp [memGet, hb]
        · simp only [memGet, Ne.symm hb, hb, if_false]
          by_cases hba : b < a
          · have : x ≠ b := by omega
            have hbx : b < x := by omega
            simp [hba, this, hbx]
          · have : ¬ b < a := hba
            have h2 : a < b := by omega
            by_cases hq : x = b
            · simp [hq, h2.not_gt]
            · simp [this, hq]
    · by_cases hq : a = x
      · subst hq
        by_cases e : v = 0
        · simp only [Nat.lt_irrefl, e, if_true, if_false]
          by_cases hb : b = a
          · simp [hb, memGet_below hx]
          · simp only [hb, if_false, memGet, Ne.symm hb]
            by_cases hba : b < a
            · simp only [hba, if_true]
              apply memGet_below
              simp only [memAbove, List.all_eq_true, decide_eq_true_eq] at hx ⊢
              exact fun y hy => Nat.lt_trans hba (hx y hy)
            · simp [hba]
        · simp only [Nat.lt_irrefl, e, if_true, if_false]
          by_cases hb : b = a
          · simp [hb, memGet]
          · simp [memGet, hb, Ne.symm hb]
      · simp only [hax, hq, if_false]
        by_cases hb : b = a
        · subst hb
          have h1 : x ≠ b := fun e => hq e.symm
          simp [memGet, h1, hax, ih hm]
        · simp only [memGet, hb, if_false, ih hm]

/-- Reading outside the bytes stored gives what was there. -/
theorem memGet_write_other (bs : List Byte) (m : Memory) (a b : Nat) (h : memWf m = true)
    (hb : b < a ∨ a + bs.length ≤ b) : memGet (memWrite m a bs) b = memGet m b := by
  induction bs generalizing m a with
  | nil => rfl
  | cons v vs ih =>
    simp only [List.length_cons] at hb
    rw [memWrite, ih _ _ (memPut_wf m a v h) (by omega), memGet_put m a b v h, if_neg (by omega)]

/-- Reading one of the bytes stored gives it. -/
theorem memGet_write (bs : List Byte) (m : Memory) (a : Nat) (h : memWf m = true) (i : Nat) (hi : i < bs.length) :
    memGet (memWrite m a bs) (a + i) = bs[i] := by
  induction bs generalizing m a i with
  | nil => exact absurd hi (Nat.not_lt_zero i)
  | cons v vs ih =>
    cases i with
    | zero =>
      rw [memWrite, memGet_write_other _ _ _ _ (memPut_wf m a v h) (by omega), memGet_put m a _ v h]
      simp
    | succ i =>
      have := ih (memPut m a v) (a + 1) (memPut_wf m a v h) i (by simpa using hi)
      rw [memWrite, show a + (i + 1) = a + 1 + i by omega, this]
      rfl

/-- Reading all the bytes stored gives them. -/
theorem memRead_write (bs : List Byte) (m : Memory) (a : Nat) (h : memWf m = true) :
    memRead (memWrite m a bs) a bs.length = bs := by
  apply List.ext_getElem
  · simp [memRead]
  · intro i h1 h2
    simp [memRead, memGet_write bs m a h i h2]

end Sys2Proof.Machine
end

