-- ==== Sys2Proof/Laws/State.lean ====
section
/-! SUPPORT. What each update of the device leaves as it was, field by field, and what the updated part reads as. -/

namespace Sys2Proof.Machine

/-! ## State -/

@[simp] theorem onDev_dev (s : State) (f : Device → Device) : (s.onDev f).dev = f s.dev := rfl
@[simp] theorem onDev_pins (s : State) (f : Device → Device) : (s.onDev f).pins = s.pins := rfl
@[simp] theorem onDev_vault (s : State) (f : Device → Device) : (s.onDev f).vault = s.vault := rfl
@[simp] theorem onDev_pending (s : State) (f : Device → Device) : (s.onDev f).pending = s.pending := rfl

/-- A package command answers a next state; with the rails on it is the device's own change. -/
theorem run_eq (s : State) (f : Device → Device) : s.run f = .next (if s.pins.railsOn then s.onDev f else s) := rfl

/-- With the rails on a package command changes the device. -/
theorem run_on {s : State} (h : s.pins.railsOn = true) (f : Device → Device) : s.run f = .next (s.onDev f) := by
  simp [State.run, h]

/-- With the rails on a package command changes the device alone. -/
theorem run_dev {s : State} (h : s.pins.railsOn = true) (f : Device → Device) :
    s.run f = .next { s with dev := f s.dev } := run_on h f

/-- Without the rails a package command changes nothing. -/
theorem run_off {s : State} (h : s.pins.railsOn = false) (f : Device → Device) : s.run f = .next s := by
  simp [State.run, h]

/-! ## The parts that updates leave alone -/

/-- A fold of queued records keeps whatever one of them keeps. -/
theorem foldl_enqueue {α β : Type} (g : Device → α) {f : Device → β → Device} (h : ∀ d r, g (f d r) = g d)
    (l : List β) (d : Device) : g (l.foldl f d) = g d := by
  induction l generalizing d with
  | nil => rfl
  | cons x xs ih => exact (ih (f d x)).trans (h d x)

@[simp] theorem updPanel_now (d : Device) (p : PanelId) (f : Panel → Panel) : (d.updPanel p f).now = d.now := rfl
@[simp] theorem updPanel_fresh (d : Device) (p : PanelId) (f : Panel → Panel) : (d.updPanel p f).fresh = d.fresh := rfl
@[simp] theorem updPanel_regs (d : Device) (p : PanelId) (f : Panel → Panel) : (d.updPanel p f).regs = d.regs := rfl
@[simp] theorem updPanel_needle (d : Device) (p : PanelId) (f : Panel → Panel) : (d.updPanel p f).needle = d.needle := rfl
@[simp] theorem updPanel_err (d : Device) (p : PanelId) (f : Panel → Panel) : (d.updPanel p f).err = d.err := rfl
@[simp] theorem updPanel_admitRing (d : Device) (p : PanelId) (f : Panel → Panel) : (d.updPanel p f).admitRing = d.admitRing := rfl
@[simp] theorem updPanel_contexts (d : Device) (p : PanelId) (f : Panel → Panel) : (d.updPanel p f).contexts = d.contexts := rfl
@[simp] theorem updPanel_openRegions (d : Device) (p : PanelId) (f : Panel → Panel) : (d.updPanel p f).openRegions = d.openRegions := rfl
@[simp] theorem updPanel_unmapped (d : Device) (p : PanelId) (f : Panel → Panel) : (d.updPanel p f).unmapped = d.unmapped := rfl
@[simp] theorem updPanel_mem (d : Device) (p : PanelId) (f : Panel → Panel) : (d.updPanel p f).mem = d.mem := rfl
@[simp] theorem updPanel_poison (d : Device) (p : PanelId) (f : Panel → Panel) : (d.updPanel p f).poison = d.poison := rfl
@[simp] theorem updPanel_faulty (d : Device) (p : PanelId) (f : Panel → Panel) : (d.updPanel p f).faulty = d.faulty := rfl
@[simp] theorem updPanel_lostStacks (d : Device) (p : PanelId) (f : Panel → Panel) : (d.updPanel p f).lostStacks = d.lostStacks := rfl
@[simp] theorem updPanel_hostMem (d : Device) (p : PanelId) (f : Panel → Panel) : (d.updPanel p f).hostMem = d.hostMem := rfl
@[simp] theorem updPanel_latches (d : Device) (p : PanelId) (f : Panel → Panel) : (d.updPanel p f).latches = d.latches := rfl
@[simp] theorem updPanel_railsOut (d : Device) (p : PanelId) (f : Panel → Panel) : (d.updPanel p f).railsOut = d.railsOut := rfl
@[simp] theorem updPanel_clocksOut (d : Device) (p : PanelId) (f : Panel → Panel) : (d.updPanel p f).clocksOut = d.clocksOut := rfl
@[simp] theorem updPanel_ports (d : Device) (p : PanelId) (f : Panel → Panel) : (d.updPanel p f).ports = d.ports := rfl
@[simp] theorem updPanel_fabric (d : Device) (p : PanelId) (f : Panel → Panel) : (d.updPanel p f).fabric = d.fabric := rfl
@[simp] theorem updPanel_commit (d : Device) (p : PanelId) (f : Panel → Panel) : (d.updPanel p f).commit = d.commit := rfl
@[simp] theorem updPanel_host (d : Device) (p : PanelId) (f : Panel → Panel) : (d.updPanel p f).host = d.host := rfl
@[simp] theorem updPanel_reset (d : Device) (p : PanelId) (f : Panel → Panel) : (d.updPanel p f).reset = d.reset := rfl
@[simp] theorem updPanel_frames (d : Device) (p : PanelId) (f : Panel → Panel) : (d.updPanel p f).frames = d.frames := rfl
@[simp] theorem updPanel_power (d : Device) (p : PanelId) (f : Panel → Panel) : (d.updPanel p f).power = d.power := rfl
@[simp] theorem updPanel_counters (d : Device) (p : PanelId) (f : Panel → Panel) : (d.updPanel p f).counters = d.counters := rfl
@[simp] theorem updPanel_bodkin (d : Device) (p : PanelId) (f : Panel → Panel) : (d.updPanel p f).bodkin = d.bodkin := rfl
@[simp] theorem updPanel_thimble (d : Device) (p : PanelId) (f : Panel → Panel) : (d.updPanel p f).thimble = d.thimble := rfl

@[simp] theorem updPMem_now (d : Device) (p : PanelId) (f : PanelMem → PanelMem) : (d.updPMem p f).now = d.now := rfl
@[simp] theorem updPMem_fresh (d : Device) (p : PanelId) (f : PanelMem → PanelMem) : (d.updPMem p f).fresh = d.fresh := rfl
@[simp] theorem updPMem_regs (d : Device) (p : PanelId) (f : PanelMem → PanelMem) : (d.updPMem p f).regs = d.regs := rfl
@[simp] theorem updPMem_needle (d : Device) (p : PanelId) (f : PanelMem → PanelMem) : (d.updPMem p f).needle = d.needle := rfl
@[simp] theorem updPMem_err (d : Device) (p : PanelId) (f : PanelMem → PanelMem) : (d.updPMem p f).err = d.err := rfl
@[simp] theorem updPMem_admitRing (d : Device) (p : PanelId) (f : PanelMem → PanelMem) : (d.updPMem p f).admitRing = d.admitRing := rfl
@[simp] theorem updPMem_contexts (d : Device) (p : PanelId) (f : PanelMem → PanelMem) : (d.updPMem p f).contexts = d.contexts := rfl
@[simp] theorem updPMem_openRegions (d : Device) (p : PanelId) (f : PanelMem → PanelMem) : (d.updPMem p f).openRegions = d.openRegions := rfl
@[simp] theorem updPMem_unmapped (d : Device) (p : PanelId) (f : PanelMem → PanelMem) : (d.updPMem p f).unmapped = d.unmapped := rfl
@[simp] theorem updPMem_mem (d : Device) (p : PanelId) (f : PanelMem → PanelMem) : (d.updPMem p f).mem = d.mem := rfl
@[simp] theorem updPMem_poison (d : Device) (p : PanelId) (f : PanelMem → PanelMem) : (d.updPMem p f).poison = d.poison := rfl
@[simp] theorem updPMem_faulty (d : Device) (p : PanelId) (f : PanelMem → PanelMem) : (d.updPMem p f).faulty = d.faulty := rfl
@[simp] theorem updPMem_lostStacks (d : Device) (p : PanelId) (f : PanelMem → PanelMem) : (d.updPMem p f).lostStacks = d.lostStacks := rfl
@[simp] theorem updPMem_hostMem (d : Device) (p : PanelId) (f : PanelMem → PanelMem) : (d.updPMem p f).hostMem = d.hostMem := rfl
@[simp] theorem updPMem_latches (d : Device) (p : PanelId) (f : PanelMem → PanelMem) : (d.updPMem p f).latches = d.latches := rfl
@[simp] theorem updPMem_railsOut (d : Device) (p : PanelId) (f : PanelMem → PanelMem) : (d.updPMem p f).railsOut = d.railsOut := rfl
@[simp] theorem updPMem_clocksOut (d : Device) (p : PanelId) (f : PanelMem → PanelMem) : (d.updPMem p f).clocksOut = d.clocksOut := rfl
@[simp] theorem updPMem_ports (d : Device) (p : PanelId) (f : PanelMem → PanelMem) : (d.updPMem p f).ports = d.ports := rfl
@[simp] theorem updPMem_fabric (d : Device) (p : PanelId) (f : PanelMem → PanelMem) : (d.updPMem p f).fabric = d.fabric := rfl
@[simp] theorem updPMem_commit (d : Device) (p : PanelId) (f : PanelMem → PanelMem) : (d.updPMem p f).commit = d.commit := rfl
@[simp] theorem updPMem_host (d : Device) (p : PanelId) (f : PanelMem → PanelMem) : (d.updPMem p f).host = d.host := rfl
@[simp] theorem updPMem_reset (d : Device) (p : PanelId) (f : PanelMem → PanelMem) : (d.updPMem p f).reset = d.reset := rfl
@[simp] theorem updPMem_frames (d : Device) (p : PanelId) (f : PanelMem → PanelMem) : (d.updPMem p f).frames = d.frames := rfl
@[simp] theorem updPMem_power (d : Device) (p : PanelId) (f : PanelMem → PanelMem) : (d.updPMem p f).power = d.power := rfl
@[simp] theorem updPMem_counters (d : Device) (p : PanelId) (f : PanelMem → PanelMem) : (d.updPMem p f).counters = d.counters := rfl
@[simp] theorem updPMem_bodkin (d : Device) (p : PanelId) (f : PanelMem → PanelMem) : (d.updPMem p f).bodkin = d.bodkin := rfl
@[simp] theorem updPMem_thimble (d : Device) (p : PanelId) (f : PanelMem → PanelMem) : (d.updPMem p f).thimble = d.thimble := rfl

@[simp] theorem mapPanels_now (d : Device) (f : PanelId → Panel → Panel) : (d.mapPanels f).now = d.now := rfl
@[simp] theorem mapPanels_fresh (d : Device) (f : PanelId → Panel → Panel) : (d.mapPanels f).fresh = d.fresh := rfl
@[simp] theorem mapPanels_regs (d : Device) (f : PanelId → Panel → Panel) : (d.mapPanels f).regs = d.regs := rfl
@[simp] theorem mapPanels_needle (d : Device) (f : PanelId → Panel → Panel) : (d.mapPanels f).needle = d.needle := rfl
@[simp] theorem mapPanels_err (d : Device) (f : PanelId → Panel → Panel) : (d.mapPanels f).err = d.err := rfl
@[simp] theorem mapPanels_admitRing (d : Device) (f : PanelId → Panel → Panel) : (d.mapPanels f).admitRing = d.admitRing := rfl
@[simp] theorem mapPanels_contexts (d : Device) (f : PanelId → Panel → Panel) : (d.mapPanels f).contexts = d.contexts := rfl
@[simp] theorem mapPanels_openRegions (d : Device) (f : PanelId → Panel → Panel) : (d.mapPanels f).openRegions = d.openRegions := rfl
@[simp] theorem mapPanels_unmapped (d : Device) (f : PanelId → Panel → Panel) : (d.mapPanels f).unmapped = d.unmapped := rfl
@[simp] theorem mapPanels_mem (d : Device) (f : PanelId → Panel → Panel) : (d.mapPanels f).mem = d.mem := rfl
@[simp] theorem mapPanels_poison (d : Device) (f : PanelId → Panel → Panel) : (d.mapPanels f).poison = d.poison := rfl
@[simp] theorem mapPanels_faulty (d : Device) (f : PanelId → Panel → Panel) : (d.mapPanels f).faulty = d.faulty := rfl
@[simp] theorem mapPanels_lostStacks (d : Device) (f : PanelId → Panel → Panel) : (d.mapPanels f).lostStacks = d.lostStacks := rfl
@[simp] theorem mapPanels_hostMem (d : Device) (f : PanelId → Panel → Panel) : (d.mapPanels f).hostMem = d.hostMem := rfl
@[simp] theorem mapPanels_latches (d : Device) (f : PanelId → Panel → Panel) : (d.mapPanels f).latches = d.latches := rfl
@[simp] theorem mapPanels_railsOut (d : Device) (f : PanelId → Panel → Panel) : (d.mapPanels f).railsOut = d.railsOut := rfl
@[simp] theorem mapPanels_clocksOut (d : Device) (f : PanelId → Panel → Panel) : (d.mapPanels f).clocksOut = d.clocksOut := rfl
@[simp] theorem mapPanels_ports (d : Device) (f : PanelId → Panel → Panel) : (d.mapPanels f).ports = d.ports := rfl
@[simp] theorem mapPanels_fabric (d : Device) (f : PanelId → Panel → Panel) : (d.mapPanels f).fabric = d.fabric := rfl
@[simp] theorem mapPanels_commit (d : Device) (f : PanelId → Panel → Panel) : (d.mapPanels f).commit = d.commit := rfl
@[simp] theorem mapPanels_host (d : Device) (f : PanelId → Panel → Panel) : (d.mapPanels f).host = d.host := rfl
@[simp] theorem mapPanels_reset (d : Device) (f : PanelId → Panel → Panel) : (d.mapPanels f).reset = d.reset := rfl
@[simp] theorem mapPanels_frames (d : Device) (f : PanelId → Panel → Panel) : (d.mapPanels f).frames = d.frames := rfl
@[simp] theorem mapPanels_power (d : Device) (f : PanelId → Panel → Panel) : (d.mapPanels f).power = d.power := rfl
@[simp] theorem mapPanels_counters (d : Device) (f : PanelId → Panel → Panel) : (d.mapPanels f).counters = d.counters := rfl
@[simp] theorem mapPanels_bodkin (d : Device) (f : PanelId → Panel → Panel) : (d.mapPanels f).bodkin = d.bodkin := rfl
@[simp] theorem mapPanels_thimble (d : Device) (f : PanelId → Panel → Panel) : (d.mapPanels f).thimble = d.thimble := rfl

@[simp] theorem updPort_now (d : Device) (n : PortId) (f : Port → Port) : (d.updPort n f).now = d.now := rfl
@[simp] theorem updPort_fresh (d : Device) (n : PortId) (f : Port → Port) : (d.updPort n f).fresh = d.fresh := rfl
@[simp] theorem updPort_regs (d : Device) (n : PortId) (f : Port → Port) : (d.updPort n f).regs = d.regs := rfl
@[simp] theorem updPort_needle (d : Device) (n : PortId) (f : Port → Port) : (d.updPort n f).needle = d.needle := rfl
@[simp] theorem updPort_err (d : Device) (n : PortId) (f : Port → Port) : (d.updPort n f).err = d.err := rfl
@[simp] theorem updPort_admitRing (d : Device) (n : PortId) (f : Port → Port) : (d.updPort n f).admitRing = d.admitRing := rfl
@[simp] theorem updPort_contexts (d : Device) (n : PortId) (f : Port → Port) : (d.updPort n f).contexts = d.contexts := rfl
@[simp] theorem updPort_panels (d : Device) (n : PortId) (f : Port → Port) : (d.updPort n f).panels = d.panels := rfl
@[simp] theorem updPort_openRegions (d : Device) (n : PortId) (f : Port → Port) : (d.updPort n f).openRegions = d.openRegions := rfl
@[simp] theorem updPort_unmapped (d : Device) (n : PortId) (f : Port → Port) : (d.updPort n f).unmapped = d.unmapped := rfl
@[simp] theorem updPort_mem (d : Device) (n : PortId) (f : Port → Port) : (d.updPort n f).mem = d.mem := rfl
@[simp] theorem updPort_poison (d : Device) (n : PortId) (f : Port → Port) : (d.updPort n f).poison = d.poison := rfl
@[simp] theorem updPort_faulty (d : Device) (n : PortId) (f : Port → Port) : (d.updPort n f).faulty = d.faulty := rfl
@[simp] theorem updPort_lostStacks (d : Device) (n : PortId) (f : Port → Port) : (d.updPort n f).lostStacks = d.lostStacks := rfl
@[simp] theorem updPort_hostMem (d : Device) (n : PortId) (f : Port → Port) : (d.updPort n f).hostMem = d.hostMem := rfl
@[simp] theorem updPort_latches (d : Device) (n : PortId) (f : Port → Port) : (d.updPort n f).latches = d.latches := rfl
@[simp] theorem updPort_railsOut (d : Device) (n : PortId) (f : Port → Port) : (d.updPort n f).railsOut = d.railsOut := rfl
@[simp] theorem updPort_clocksOut (d : Device) (n : PortId) (f : Port → Port) : (d.updPort n f).clocksOut = d.clocksOut := rfl
@[simp] theorem updPort_fabric (d : Device) (n : PortId) (f : Port → Port) : (d.updPort n f).fabric = d.fabric := rfl
@[simp] theorem updPort_commit (d : Device) (n : PortId) (f : Port → Port) : (d.updPort n f).commit = d.commit := rfl
@[simp] theorem updPort_host (d : Device) (n : PortId) (f : Port → Port) : (d.updPort n f).host = d.host := rfl
@[simp] theorem updPort_reset (d : Device) (n : PortId) (f : Port → Port) : (d.updPort n f).reset = d.reset := rfl
@[simp] theorem updPort_frames (d : Device) (n : PortId) (f : Port → Port) : (d.updPort n f).frames = d.frames := rfl
@[simp] theorem updPort_power (d : Device) (n : PortId) (f : Port → Port) : (d.updPort n f).power = d.power := rfl
@[simp] theorem updPort_counters (d : Device) (n : PortId) (f : Port → Port) : (d.updPort n f).counters = d.counters := rfl
@[simp] theorem updPort_bodkin (d : Device) (n : PortId) (f : Port → Port) : (d.updPort n f).bodkin = d.bodkin := rfl
@[simp] theorem updPort_thimble (d : Device) (n : PortId) (f : Port → Port) : (d.updPort n f).thimble = d.thimble := rfl

@[simp] theorem updCtx_now (d : Device) (c : Code) (f : Context → Context) : (d.updCtx c f).now = d.now := rfl
@[simp] theorem updCtx_fresh (d : Device) (c : Code) (f : Context → Context) : (d.updCtx c f).fresh = d.fresh := rfl
@[simp] theorem updCtx_regs (d : Device) (c : Code) (f : Context → Context) : (d.updCtx c f).regs = d.regs := rfl
@[simp] theorem updCtx_needle (d : Device) (c : Code) (f : Context → Context) : (d.updCtx c f).needle = d.needle := rfl
@[simp] theorem updCtx_err (d : Device) (c : Code) (f : Context → Context) : (d.updCtx c f).err = d.err := rfl
@[simp] theorem updCtx_admitRing (d : Device) (c : Code) (f : Context → Context) : (d.updCtx c f).admitRing = d.admitRing := rfl
@[simp] theorem updCtx_panels (d : Device) (c : Code) (f : Context → Context) : (d.updCtx c f).panels = d.panels := rfl
@[simp] theorem updCtx_openRegions (d : Device) (c : Code) (f : Context → Context) : (d.updCtx c f).openRegions = d.openRegions := rfl
@[simp] theorem updCtx_unmapped (d : Device) (c : Code) (f : Context → Context) : (d.updCtx c f).unmapped = d.unmapped := rfl
@[simp] theorem updCtx_mem (d : Device) (c : Code) (f : Context → Context) : (d.updCtx c f).mem = d.mem := rfl
@[simp] theorem updCtx_poison (d : Device) (c : Code) (f : Context → Context) : (d.updCtx c f).poison = d.poison := rfl
@[simp] theorem updCtx_faulty (d : Device) (c : Code) (f : Context → Context) : (d.updCtx c f).faulty = d.faulty := rfl
@[simp] theorem updCtx_lostStacks (d : Device) (c : Code) (f : Context → Context) : (d.updCtx c f).lostStacks = d.lostStacks := rfl
@[simp] theorem updCtx_hostMem (d : Device) (c : Code) (f : Context → Context) : (d.updCtx c f).hostMem = d.hostMem := rfl
@[simp] theorem updCtx_latches (d : Device) (c : Code) (f : Context → Context) : (d.updCtx c f).latches = d.latches := rfl
@[simp] theorem updCtx_railsOut (d : Device) (c : Code) (f : Context → Context) : (d.updCtx c f).railsOut = d.railsOut := rfl
@[simp] theorem updCtx_clocksOut (d : Device) (c : Code) (f : Context → Context) : (d.updCtx c f).clocksOut = d.clocksOut := rfl
@[simp] theorem updCtx_ports (d : Device) (c : Code) (f : Context → Context) : (d.updCtx c f).ports = d.ports := rfl
@[simp] theorem updCtx_fabric (d : Device) (c : Code) (f : Context → Context) : (d.updCtx c f).fabric = d.fabric := rfl
@[simp] theorem updCtx_commit (d : Device) (c : Code) (f : Context → Context) : (d.updCtx c f).commit = d.commit := rfl
@[simp] theorem updCtx_host (d : Device) (c : Code) (f : Context → Context) : (d.updCtx c f).host = d.host := rfl
@[simp] theorem updCtx_reset (d : Device) (c : Code) (f : Context → Context) : (d.updCtx c f).reset = d.reset := rfl
@[simp] theorem updCtx_frames (d : Device) (c : Code) (f : Context → Context) : (d.updCtx c f).frames = d.frames := rfl
@[simp] theorem updCtx_power (d : Device) (c : Code) (f : Context → Context) : (d.updCtx c f).power = d.power := rfl
@[simp] theorem updCtx_counters (d : Device) (c : Code) (f : Context → Context) : (d.updCtx c f).counters = d.counters := rfl
@[simp] theorem updCtx_bodkin (d : Device) (c : Code) (f : Context → Context) : (d.updCtx c f).bodkin = d.bodkin := rfl
@[simp] theorem updCtx_thimble (d : Device) (c : Code) (f : Context → Context) : (d.updCtx c f).thimble = d.thimble := rfl

@[simp] theorem updRing_now (d : Device) (c : Code) (n : RingId) (f : Ring → Ring) : (d.updRing c n f).now = d.now := rfl
@[simp] theorem updRing_fresh (d : Device) (c : Code) (n : RingId) (f : Ring → Ring) : (d.updRing c n f).fresh = d.fresh := rfl
@[simp] theorem updRing_regs (d : Device) (c : Code) (n : RingId) (f : Ring → Ring) : (d.updRing c n f).regs = d.regs := rfl
@[simp] theorem updRing_needle (d : Device) (c : Code) (n : RingId) (f : Ring → Ring) : (d.updRing c n f).needle = d.needle := rfl
@[simp] theorem updRing_err (d : Device) (c : Code) (n : RingId) (f : Ring → Ring) : (d.updRing c n f).err = d.err := rfl
@[simp] theorem updRing_admitRing (d : Device) (c : Code) (n : RingId) (f : Ring → Ring) : (d.updRing c n f).admitRing = d.admitRing := rfl
@[simp] theorem updRing_panels (d : Device) (c : Code) (n : RingId) (f : Ring → Ring) : (d.updRing c n f).panels = d.panels := rfl
@[simp] theorem updRing_openRegions (d : Device) (c : Code) (n : RingId) (f : Ring → Ring) : (d.updRing c n f).openRegions = d.openRegions := rfl
@[simp] theorem updRing_unmapped (d : Device) (c : Code) (n : RingId) (f : Ring → Ring) : (d.updRing c n f).unmapped = d.unmapped := rfl
@[simp] theorem updRing_mem (d : Device) (c : Code) (n : RingId) (f : Ring → Ring) : (d.updRing c n f).mem = d.mem := rfl
@[simp] theorem updRing_poison (d : Device) (c : Code) (n : RingId) (f : Ring → Ring) : (d.updRing c n f).poison = d.poison := rfl
@[simp] theorem updRing_faulty (d : Device) (c : Code) (n : RingId) (f : Ring → Ring) : (d.updRing c n f).faulty = d.faulty := rfl
@[simp] theorem updRing_lostStacks (d : Device) (c : Code) (n : RingId) (f : Ring → Ring) : (d.updRing c n f).lostStacks = d.lostStacks := rfl
@[simp] theorem updRing_hostMem (d : Device) (c : Code) (n : RingId) (f : Ring → Ring) : (d.updRing c n f).hostMem = d.hostMem := rfl
@[simp] theorem updRing_latches (d : Device) (c : Code) (n : RingId) (f : Ring → Ring) : (d.updRing c n f).latches = d.latches := rfl
@[simp] theorem updRing_railsOut (d : Device) (c : Code) (n : RingId) (f : Ring → Ring) : (d.updRing c n f).railsOut = d.railsOut := rfl
@[simp] theorem updRing_clocksOut (d : Device) (c : Code) (n : RingId) (f : Ring → Ring) : (d.updRing c n f).clocksOut = d.clocksOut := rfl
@[simp] theorem updRing_ports (d : Device) (c : Code) (n : RingId) (f : Ring → Ring) : (d.updRing c n f).ports = d.ports := rfl
@[simp] theorem updRing_fabric (d : Device) (c : Code) (n : RingId) (f : Ring → Ring) : (d.updRing c n f).fabric = d.fabric := rfl
@[simp] theorem updRing_commit (d : Device) (c : Code) (n : RingId) (f : Ring → Ring) : (d.updRing c n f).commit = d.commit := rfl
@[simp] theorem updRing_host (d : Device) (c : Code) (n : RingId) (f : Ring → Ring) : (d.updRing c n f).host = d.host := rfl
@[simp] theorem updRing_reset (d : Device) (c : Code) (n : RingId) (f : Ring → Ring) : (d.updRing c n f).reset = d.reset := rfl
@[simp] theorem updRing_frames (d : Device) (c : Code) (n : RingId) (f : Ring → Ring) : (d.updRing c n f).frames = d.frames := rfl
@[simp] theorem updRing_power (d : Device) (c : Code) (n : RingId) (f : Ring → Ring) : (d.updRing c n f).power = d.power := rfl
@[simp] theorem updRing_counters (d : Device) (c : Code) (n : RingId) (f : Ring → Ring) : (d.updRing c n f).counters = d.counters := rfl
@[simp] theorem updRing_bodkin (d : Device) (c : Code) (n : RingId) (f : Ring → Ring) : (d.updRing c n f).bodkin = d.bodkin := rfl
@[simp] theorem updRing_thimble (d : Device) (c : Code) (n : RingId) (f : Ring → Ring) : (d.updRing c n f).thimble = d.thimble := rfl

@[simp] theorem updDesc_now (d : Device) (c : Code) (n : RingId) (k : Nat) (f : Desc → Desc) : (d.updDesc c n k f).now = d.now := rfl
@[simp] theorem updDesc_fresh (d : Device) (c : Code) (n : RingId) (k : Nat) (f : Desc → Desc) : (d.updDesc c n k f).fresh = d.fresh := rfl
@[simp] theorem updDesc_regs (d : Device) (c : Code) (n : RingId) (k : Nat) (f : Desc → Desc) : (d.updDesc c n k f).regs = d.regs := rfl
@[simp] theorem updDesc_needle (d : Device) (c : Code) (n : RingId) (k : Nat) (f : Desc → Desc) : (d.updDesc c n k f).needle = d.needle := rfl
@[simp] theorem updDesc_err (d : Device) (c : Code) (n : RingId) (k : Nat) (f : Desc → Desc) : (d.updDesc c n k f).err = d.err := rfl
@[simp] theorem updDesc_admitRing (d : Device) (c : Code) (n : RingId) (k : Nat) (f : Desc → Desc) : (d.updDesc c n k f).admitRing = d.admitRing := rfl
@[simp] theorem updDesc_panels (d : Device) (c : Code) (n : RingId) (k : Nat) (f : Desc → Desc) : (d.updDesc c n k f).panels = d.panels := rfl
@[simp] theorem updDesc_openRegions (d : Device) (c : Code) (n : RingId) (k : Nat) (f : Desc → Desc) : (d.updDesc c n k f).openRegions = d.openRegions := rfl
@[simp] theorem updDesc_unmapped (d : Device) (c : Code) (n : RingId) (k : Nat) (f : Desc → Desc) : (d.updDesc c n k f).unmapped = d.unmapped := rfl
@[simp] theorem updDesc_mem (d : Device) (c : Code) (n : RingId) (k : Nat) (f : Desc → Desc) : (d.updDesc c n k f).mem = d.mem := rfl
@[simp] theorem updDesc_poison (d : Device) (c : Code) (n : RingId) (k : Nat) (f : Desc → Desc) : (d.updDesc c n k f).poison = d.poison := rfl
@[simp] theorem updDesc_faulty (d : Device) (c : Code) (n : RingId) (k : Nat) (f : Desc → Desc) : (d.updDesc c n k f).faulty = d.faulty := rfl
@[simp] theorem updDesc_lostStacks (d : Device) (c : Code) (n : RingId) (k : Nat) (f : Desc → Desc) : (d.updDesc c n k f).lostStacks = d.lostStacks := rfl
@[simp] theorem updDesc_hostMem (d : Device) (c : Code) (n : RingId) (k : Nat) (f : Desc → Desc) : (d.updDesc c n k f).hostMem = d.hostMem := rfl
@[simp] theorem updDesc_latches (d : Device) (c : Code) (n : RingId) (k : Nat) (f : Desc → Desc) : (d.updDesc c n k f).latches = d.latches := rfl
@[simp] theorem updDesc_railsOut (d : Device) (c : Code) (n : RingId) (k : Nat) (f : Desc → Desc) : (d.updDesc c n k f).railsOut = d.railsOut := rfl
@[simp] theorem updDesc_clocksOut (d : Device) (c : Code) (n : RingId) (k : Nat) (f : Desc → Desc) : (d.updDesc c n k f).clocksOut = d.clocksOut := rfl
@[simp] theorem updDesc_ports (d : Device) (c : Code) (n : RingId) (k : Nat) (f : Desc → Desc) : (d.updDesc c n k f).ports = d.ports := rfl
@[simp] theorem updDesc_fabric (d : Device) (c : Code) (n : RingId) (k : Nat) (f : Desc → Desc) : (d.updDesc c n k f).fabric = d.fabric := rfl
@[simp] theorem updDesc_commit (d : Device) (c : Code) (n : RingId) (k : Nat) (f : Desc → Desc) : (d.updDesc c n k f).commit = d.commit := rfl
@[simp] theorem updDesc_host (d : Device) (c : Code) (n : RingId) (k : Nat) (f : Desc → Desc) : (d.updDesc c n k f).host = d.host := rfl
@[simp] theorem updDesc_reset (d : Device) (c : Code) (n : RingId) (k : Nat) (f : Desc → Desc) : (d.updDesc c n k f).reset = d.reset := rfl
@[simp] theorem updDesc_frames (d : Device) (c : Code) (n : RingId) (k : Nat) (f : Desc → Desc) : (d.updDesc c n k f).frames = d.frames := rfl
@[simp] theorem updDesc_power (d : Device) (c : Code) (n : RingId) (k : Nat) (f : Desc → Desc) : (d.updDesc c n k f).power = d.power := rfl
@[simp] theorem updDesc_counters (d : Device) (c : Code) (n : RingId) (k : Nat) (f : Desc → Desc) : (d.updDesc c n k f).counters = d.counters := rfl
@[simp] theorem updDesc_bodkin (d : Device) (c : Code) (n : RingId) (k : Nat) (f : Desc → Desc) : (d.updDesc c n k f).bodkin = d.bodkin := rfl
@[simp] theorem updDesc_thimble (d : Device) (c : Code) (n : RingId) (k : Nat) (f : Desc → Desc) : (d.updDesc c n k f).thimble = d.thimble := rfl

@[simp] theorem drawFree_now (d : Device) (w : Nat) : ((drawFree d w).1).now = d.now := rfl
@[simp] theorem drawFree_regs (d : Device) (w : Nat) : ((drawFree d w).1).regs = d.regs := rfl
@[simp] theorem drawFree_needle (d : Device) (w : Nat) : ((drawFree d w).1).needle = d.needle := rfl
@[simp] theorem drawFree_err (d : Device) (w : Nat) : ((drawFree d w).1).err = d.err := rfl
@[simp] theorem drawFree_admitRing (d : Device) (w : Nat) : ((drawFree d w).1).admitRing = d.admitRing := rfl
@[simp] theorem drawFree_contexts (d : Device) (w : Nat) : ((drawFree d w).1).contexts = d.contexts := rfl
@[simp] theorem drawFree_panels (d : Device) (w : Nat) : ((drawFree d w).1).panels = d.panels := rfl
@[simp] theorem drawFree_openRegions (d : Device) (w : Nat) : ((drawFree d w).1).openRegions = d.openRegions := rfl
@[simp] theorem drawFree_unmapped (d : Device) (w : Nat) : ((drawFree d w).1).unmapped = d.unmapped := rfl
@[simp] theorem drawFree_mem (d : Device) (w : Nat) : ((drawFree d w).1).mem = d.mem := rfl
@[simp] theorem drawFree_poison (d : Device) (w : Nat) : ((drawFree d w).1).poison = d.poison := rfl
@[simp] theorem drawFree_faulty (d : Device) (w : Nat) : ((drawFree d w).1).faulty = d.faulty := rfl
@[simp] theorem drawFree_lostStacks (d : Device) (w : Nat) : ((drawFree d w).1).lostStacks = d.lostStacks := rfl
@[simp] theorem drawFree_hostMem (d : Device) (w : Nat) : ((drawFree d w).1).hostMem = d.hostMem := rfl
@[simp] theorem drawFree_latches (d : Device) (w : Nat) : ((drawFree d w).1).latches = d.latches := rfl
@[simp] theorem drawFree_railsOut (d : Device) (w : Nat) : ((drawFree d w).1).railsOut = d.railsOut := rfl
@[simp] theorem drawFree_clocksOut (d : Device) (w : Nat) : ((drawFree d w).1).clocksOut = d.clocksOut := rfl
@[simp] theorem drawFree_ports (d : Device) (w : Nat) : ((drawFree d w).1).ports = d.ports := rfl
@[simp] theorem drawFree_fabric (d : Device) (w : Nat) : ((drawFree d w).1).fabric = d.fabric := rfl
@[simp] theorem drawFree_commit (d : Device) (w : Nat) : ((drawFree d w).1).commit = d.commit := rfl
@[simp] theorem drawFree_host (d : Device) (w : Nat) : ((drawFree d w).1).host = d.host := rfl
@[simp] theorem drawFree_reset (d : Device) (w : Nat) : ((drawFree d w).1).reset = d.reset := rfl
@[simp] theorem drawFree_frames (d : Device) (w : Nat) : ((drawFree d w).1).frames = d.frames := rfl
@[simp] theorem drawFree_power (d : Device) (w : Nat) : ((drawFree d w).1).power = d.power := rfl
@[simp] theorem drawFree_counters (d : Device) (w : Nat) : ((drawFree d w).1).counters = d.counters := rfl
@[simp] theorem drawFree_bodkin (d : Device) (w : Nat) : ((drawFree d w).1).bodkin = d.bodkin := rfl
@[simp] theorem drawFree_thimble (d : Device) (w : Nat) : ((drawFree d w).1).thimble = d.thimble := rfl

@[simp] theorem count_now (d : Device) (p : PanelId) (e : PmcEvent) (n : Nat) : (d.count p e n).now = d.now := by unfold Device.count; (repeat' split) <;> rfl
@[simp] theorem count_fresh (d : Device) (p : PanelId) (e : PmcEvent) (n : Nat) : (d.count p e n).fresh = d.fresh := by unfold Device.count; (repeat' split) <;> rfl
@[simp] theorem count_regs (d : Device) (p : PanelId) (e : PmcEvent) (n : Nat) : (d.count p e n).regs = d.regs := by unfold Device.count; (repeat' split) <;> rfl
@[simp] theorem count_needle (d : Device) (p : PanelId) (e : PmcEvent) (n : Nat) : (d.count p e n).needle = d.needle := by unfold Device.count; (repeat' split) <;> rfl
@[simp] theorem count_err (d : Device) (p : PanelId) (e : PmcEvent) (n : Nat) : (d.count p e n).err = d.err := by unfold Device.count; (repeat' split) <;> rfl
@[simp] theorem count_admitRing (d : Device) (p : PanelId) (e : PmcEvent) (n : Nat) : (d.count p e n).admitRing = d.admitRing := by unfold Device.count; (repeat' split) <;> rfl
@[simp] theorem count_contexts (d : Device) (p : PanelId) (e : PmcEvent) (n : Nat) : (d.count p e n).contexts = d.contexts := by unfold Device.count; (repeat' split) <;> rfl
@[simp] theorem count_openRegions (d : Device) (p : PanelId) (e : PmcEvent) (n : Nat) : (d.count p e n).openRegions = d.openRegions := by unfold Device.count; (repeat' split) <;> rfl
@[simp] theorem count_unmapped (d : Device) (p : PanelId) (e : PmcEvent) (n : Nat) : (d.count p e n).unmapped = d.unmapped := by unfold Device.count; (repeat' split) <;> rfl
@[simp] theorem count_mem (d : Device) (p : PanelId) (e : PmcEvent) (n : Nat) : (d.count p e n).mem = d.mem := by unfold Device.count; (repeat' split) <;> rfl
@[simp] theorem count_poison (d : Device) (p : PanelId) (e : PmcEvent) (n : Nat) : (d.count p e n).poison = d.poison := by unfold Device.count; (repeat' split) <;> rfl
@[simp] theorem count_faulty (d : Device) (p : PanelId) (e : PmcEvent) (n : Nat) : (d.count p e n).faulty = d.faulty := by unfold Device.count; (repeat' split) <;> rfl
@[simp] theorem count_lostStacks (d : Device) (p : PanelId) (e : PmcEvent) (n : Nat) : (d.count p e n).lostStacks = d.lostStacks := by unfold Device.count; (repeat' split) <;> rfl
@[simp] theorem count_hostMem (d : Device) (p : PanelId) (e : PmcEvent) (n : Nat) : (d.count p e n).hostMem = d.hostMem := by unfold Device.count; (repeat' split) <;> rfl
@[simp] theorem count_latches (d : Device) (p : PanelId) (e : PmcEvent) (n : Nat) : (d.count p e n).latches = d.latches := by unfold Device.count; (repeat' split) <;> rfl
@[simp] theorem count_railsOut (d : Device) (p : PanelId) (e : PmcEvent) (n : Nat) : (d.count p e n).railsOut = d.railsOut := by unfold Device.count; (repeat' split) <;> rfl
@[simp] theorem count_clocksOut (d : Device) (p : PanelId) (e : PmcEvent) (n : Nat) : (d.count p e n).clocksOut = d.clocksOut := by unfold Device.count; (repeat' split) <;> rfl
@[simp] theorem count_ports (d : Device) (p : PanelId) (e : PmcEvent) (n : Nat) : (d.count p e n).ports = d.ports := by unfold Device.count; (repeat' split) <;> rfl
@[simp] theorem count_fabric (d : Device) (p : PanelId) (e : PmcEvent) (n : Nat) : (d.count p e n).fabric = d.fabric := by unfold Device.count; (repeat' split) <;> rfl
@[simp] theorem count_commit (d : Device) (p : PanelId) (e : PmcEvent) (n : Nat) : (d.count p e n).commit = d.commit := by unfold Device.count; (repeat' split) <;> rfl
@[simp] theorem count_host (d : Device) (p : PanelId) (e : PmcEvent) (n : Nat) : (d.count p e n).host = d.host := by unfold Device.count; (repeat' split) <;> rfl
@[simp] theorem count_reset (d : Device) (p : PanelId) (e : PmcEvent) (n : Nat) : (d.count p e n).reset = d.reset := by unfold Device.count; (repeat' split) <;> rfl
@[simp] theorem count_frames (d : Device) (p : PanelId) (e : PmcEvent) (n : Nat) : (d.count p e n).frames = d.frames := by unfold Device.count; (repeat' split) <;> rfl
@[simp] theorem count_power (d : Device) (p : PanelId) (e : PmcEvent) (n : Nat) : (d.count p e n).power = d.power := by unfold Device.count; (repeat' split) <;> rfl
@[simp] theorem count_counters (d : Device) (p : PanelId) (e : PmcEvent) (n : Nat) : (d.count p e n).counters = d.counters := by unfold Device.count; (repeat' split) <;> rfl
@[simp] theorem count_bodkin (d : Device) (p : PanelId) (e : PmcEvent) (n : Nat) : (d.count p e n).bodkin = d.bodkin := by unfold Device.count; (repeat' split) <;> rfl
@[simp] theorem count_thimble (d : Device) (p : PanelId) (e : PmcEvent) (n : Nat) : (d.count p e n).thimble = d.thimble := by unfold Device.count; (repeat' split) <;> rfl

@[simp] theorem countHub_now (d : Device) (e : PmcEvent) (n : Nat) : (d.countHub e n).now = d.now := by unfold Device.countHub; (repeat' split) <;> rfl
@[simp] theorem countHub_fresh (d : Device) (e : PmcEvent) (n : Nat) : (d.countHub e n).fresh = d.fresh := by unfold Device.countHub; (repeat' split) <;> rfl
@[simp] theorem countHub_regs (d : Device) (e : PmcEvent) (n : Nat) : (d.countHub e n).regs = d.regs := by unfold Device.countHub; (repeat' split) <;> rfl
@[simp] theorem countHub_needle (d : Device) (e : PmcEvent) (n : Nat) : (d.countHub e n).needle = d.needle := by unfold Device.countHub; (repeat' split) <;> rfl
@[simp] theorem countHub_err (d : Device) (e : PmcEvent) (n : Nat) : (d.countHub e n).err = d.err := by unfold Device.countHub; (repeat' split) <;> rfl
@[simp] theorem countHub_admitRing (d : Device) (e : PmcEvent) (n : Nat) : (d.countHub e n).admitRing = d.admitRing := by unfold Device.countHub; (repeat' split) <;> rfl
@[simp] theorem countHub_contexts (d : Device) (e : PmcEvent) (n : Nat) : (d.countHub e n).contexts = d.contexts := by unfold Device.countHub; (repeat' split) <;> rfl
@[simp] theorem countHub_panels (d : Device) (e : PmcEvent) (n : Nat) : (d.countHub e n).panels = d.panels := by unfold Device.countHub; (repeat' split) <;> rfl
@[simp] theorem countHub_openRegions (d : Device) (e : PmcEvent) (n : Nat) : (d.countHub e n).openRegions = d.openRegions := by unfold Device.countHub; (repeat' split) <;> rfl
@[simp] theorem countHub_unmapped (d : Device) (e : PmcEvent) (n : Nat) : (d.countHub e n).unmapped = d.unmapped := by unfold Device.countHub; (repeat' split) <;> rfl
@[simp] theorem countHub_mem (d : Device) (e : PmcEvent) (n : Nat) : (d.countHub e n).mem = d.mem := by unfold Device.countHub; (repeat' split) <;> rfl
@[simp] theorem countHub_poison (d : Device) (e : PmcEvent) (n : Nat) : (d.countHub e n).poison = d.poison := by unfold Device.countHub; (repeat' split) <;> rfl
@[simp] theorem countHub_faulty (d : Device) (e : PmcEvent) (n : Nat) : (d.countHub e n).faulty = d.faulty := by unfold Device.countHub; (repeat' split) <;> rfl
@[simp] theorem countHub_lostStacks (d : Device) (e : PmcEvent) (n : Nat) : (d.countHub e n).lostStacks = d.lostStacks := by unfold Device.countHub; (repeat' split) <;> rfl
@[simp] theorem countHub_hostMem (d : Device) (e : PmcEvent) (n : Nat) : (d.countHub e n).hostMem = d.hostMem := by unfold Device.countHub; (repeat' split) <;> rfl
@[simp] theorem countHub_latches (d : Device) (e : PmcEvent) (n : Nat) : (d.countHub e n).latches = d.latches := by unfold Device.countHub; (repeat' split) <;> rfl
@[simp] theorem countHub_railsOut (d : Device) (e : PmcEvent) (n : Nat) : (d.countHub e n).railsOut = d.railsOut := by unfold Device.countHub; (repeat' split) <;> rfl
@[simp] theorem countHub_clocksOut (d : Device) (e : PmcEvent) (n : Nat) : (d.countHub e n).clocksOut = d.clocksOut := by unfold Device.countHub; (repeat' split) <;> rfl
@[simp] theorem countHub_ports (d : Device) (e : PmcEvent) (n : Nat) : (d.countHub e n).ports = d.ports := by unfold Device.countHub; (repeat' split) <;> rfl
@[simp] theorem countHub_fabric (d : Device) (e : PmcEvent) (n : Nat) : (d.countHub e n).fabric = d.fabric := by unfold Device.countHub; (repeat' split) <;> rfl
@[simp] theorem countHub_commit (d : Device) (e : PmcEvent) (n : Nat) : (d.countHub e n).commit = d.commit := by unfold Device.countHub; (repeat' split) <;> rfl
@[simp] theorem countHub_host (d : Device) (e : PmcEvent) (n : Nat) : (d.countHub e n).host = d.host := by unfold Device.countHub; (repeat' split) <;> rfl
@[simp] theorem countHub_reset (d : Device) (e : PmcEvent) (n : Nat) : (d.countHub e n).reset = d.reset := by unfold Device.countHub; (repeat' split) <;> rfl
@[simp] theorem countHub_frames (d : Device) (e : PmcEvent) (n : Nat) : (d.countHub e n).frames = d.frames := by unfold Device.countHub; (repeat' split) <;> rfl
@[simp] theorem countHub_power (d : Device) (e : PmcEvent) (n : Nat) : (d.countHub e n).power = d.power := by unfold Device.countHub; (repeat' split) <;> rfl
@[simp] theorem countHub_bodkin (d : Device) (e : PmcEvent) (n : Nat) : (d.countHub e n).bodkin = d.bodkin := by unfold Device.countHub; (repeat' split) <;> rfl
@[simp] theorem countHub_thimble (d : Device) (e : PmcEvent) (n : Nat) : (d.countHub e n).thimble = d.thimble := by unfold Device.countHub; (repeat' split) <;> rfl

/-- Queueing a record changes the error ring alone. -/
theorem enqueueRec_eq (d : Device) (r : ErrRec) (b : Bool) : ∃ e, d.enqueueRec r b = { d with err := e } := by
  unfold Device.enqueueRec
  simp only []
  split
  · exact ⟨_, rfl⟩
  · split <;> exact ⟨_, rfl⟩

@[simp] theorem enqueueRec_now (d : Device) (r : ErrRec) (b : Bool) : (d.enqueueRec r b).now = d.now := by obtain ⟨e, h⟩ := enqueueRec_eq d r b; rw [h]
@[simp] theorem enqueueRec_fresh (d : Device) (r : ErrRec) (b : Bool) : (d.enqueueRec r b).fresh = d.fresh := by obtain ⟨e, h⟩ := enqueueRec_eq d r b; rw [h]
@[simp] theorem enqueueRec_regs (d : Device) (r : ErrRec) (b : Bool) : (d.enqueueRec r b).regs = d.regs := by obtain ⟨e, h⟩ := enqueueRec_eq d r b; rw [h]
@[simp] theorem enqueueRec_needle (d : Device) (r : ErrRec) (b : Bool) : (d.enqueueRec r b).needle = d.needle := by obtain ⟨e, h⟩ := enqueueRec_eq d r b; rw [h]
@[simp] theorem enqueueRec_admitRing (d : Device) (r : ErrRec) (b : Bool) : (d.enqueueRec r b).admitRing = d.admitRing := by obtain ⟨e, h⟩ := enqueueRec_eq d r b; rw [h]
@[simp] theorem enqueueRec_contexts (d : Device) (r : ErrRec) (b : Bool) : (d.enqueueRec r b).contexts = d.contexts := by obtain ⟨e, h⟩ := enqueueRec_eq d r b; rw [h]
@[simp] theorem enqueueRec_panels (d : Device) (r : ErrRec) (b : Bool) : (d.enqueueRec r b).panels = d.panels := by obtain ⟨e, h⟩ := enqueueRec_eq d r b; rw [h]
@[simp] theorem enqueueRec_openRegions (d : Device) (r : ErrRec) (b : Bool) : (d.enqueueRec r b).openRegions = d.openRegions := by obtain ⟨e, h⟩ := enqueueRec_eq d r b; rw [h]
@[simp] theorem enqueueRec_unmapped (d : Device) (r : ErrRec) (b : Bool) : (d.enqueueRec r b).unmapped = d.unmapped := by obtain ⟨e, h⟩ := enqueueRec_eq d r b; rw [h]
@[simp] theorem enqueueRec_mem (d : Device) (r : ErrRec) (b : Bool) : (d.enqueueRec r b).mem = d.mem := by obtain ⟨e, h⟩ := enqueueRec_eq d r b; rw [h]
@[simp] theorem enqueueRec_poison (d : Device) (r : ErrRec) (b : Bool) : (d.enqueueRec r b).poison = d.poison := by obtain ⟨e, h⟩ := enqueueRec_eq d r b; rw [h]
@[simp] theorem enqueueRec_faulty (d : Device) (r : ErrRec) (b : Bool) : (d.enqueueRec r b).faulty = d.faulty := by obtain ⟨e, h⟩ := enqueueRec_eq d r b; rw [h]
@[simp] theorem enqueueRec_lostStacks (d : Device) (r : ErrRec) (b : Bool) : (d.enqueueRec r b).lostStacks = d.lostStacks := by obtain ⟨e, h⟩ := enqueueRec_eq d r b; rw [h]
@[simp] theorem enqueueRec_hostMem (d : Device) (r : ErrRec) (b : Bool) : (d.enqueueRec r b).hostMem = d.hostMem := by obtain ⟨e, h⟩ := enqueueRec_eq d r b; rw [h]
@[simp] theorem enqueueRec_latches (d : Device) (r : ErrRec) (b : Bool) : (d.enqueueRec r b).latches = d.latches := by obtain ⟨e, h⟩ := enqueueRec_eq d r b; rw [h]
@[simp] theorem enqueueRec_railsOut (d : Device) (r : ErrRec) (b : Bool) : (d.enqueueRec r b).railsOut = d.railsOut := by obtain ⟨e, h⟩ := enqueueRec_eq d r b; rw [h]
@[simp] theorem enqueueRec_clocksOut (d : Device) (r : ErrRec) (b : Bool) : (d.enqueueRec r b).clocksOut = d.clocksOut := by obtain ⟨e, h⟩ := enqueueRec_eq d r b; rw [h]
@[simp] theorem enqueueRec_ports (d : Device) (r : ErrRec) (b : Bool) : (d.enqueueRec r b).ports = d.ports := by obtain ⟨e, h⟩ := enqueueRec_eq d r b; rw [h]
@[simp] theorem enqueueRec_fabric (d : Device) (r : ErrRec) (b : Bool) : (d.enqueueRec r b).fabric = d.fabric := by obtain ⟨e, h⟩ := enqueueRec_eq d r b; rw [h]
@[simp] theorem enqueueRec_commit (d : Device) (r : ErrRec) (b : Bool) : (d.enqueueRec r b).commit = d.commit := by obtain ⟨e, h⟩ := enqueueRec_eq d r b; rw [h]
@[simp] theorem enqueueRec_host (d : Device) (r : ErrRec) (b : Bool) : (d.enqueueRec r b).host = d.host := by obtain ⟨e, h⟩ := enqueueRec_eq d r b; rw [h]
@[simp] theorem enqueueRec_reset (d : Device) (r : ErrRec) (b : Bool) : (d.enqueueRec r b).reset = d.reset := by obtain ⟨e, h⟩ := enqueueRec_eq d r b; rw [h]
@[simp] theorem enqueueRec_frames (d : Device) (r : ErrRec) (b : Bool) : (d.enqueueRec r b).frames = d.frames := by obtain ⟨e, h⟩ := enqueueRec_eq d r b; rw [h]
@[simp] theorem enqueueRec_power (d : Device) (r : ErrRec) (b : Bool) : (d.enqueueRec r b).power = d.power := by obtain ⟨e, h⟩ := enqueueRec_eq d r b; rw [h]
@[simp] theorem enqueueRec_counters (d : Device) (r : ErrRec) (b : Bool) : (d.enqueueRec r b).counters = d.counters := by obtain ⟨e, h⟩ := enqueueRec_eq d r b; rw [h]
@[simp] theorem enqueueRec_bodkin (d : Device) (r : ErrRec) (b : Bool) : (d.enqueueRec r b).bodkin = d.bodkin := by obtain ⟨e, h⟩ := enqueueRec_eq d r b; rw [h]
@[simp] theorem enqueueRec_thimble (d : Device) (r : ErrRec) (b : Bool) : (d.enqueueRec r b).thimble = d.thimble := by obtain ⟨e, h⟩ := enqueueRec_eq d r b; rw [h]

@[simp] theorem raise_now (d : Device) (r : ErrRec) : (d.raise r).now = d.now := by simp [Device.raise]
@[simp] theorem raise_fresh (d : Device) (r : ErrRec) : (d.raise r).fresh = d.fresh := by simp [Device.raise]
@[simp] theorem raise_regs (d : Device) (r : ErrRec) : (d.raise r).regs = d.regs := by simp [Device.raise]
@[simp] theorem raise_needle (d : Device) (r : ErrRec) : (d.raise r).needle = d.needle := by simp [Device.raise]
@[simp] theorem raise_admitRing (d : Device) (r : ErrRec) : (d.raise r).admitRing = d.admitRing := by simp [Device.raise]
@[simp] theorem raise_contexts (d : Device) (r : ErrRec) : (d.raise r).contexts = d.contexts := by simp [Device.raise]
@[simp] theorem raise_panels (d : Device) (r : ErrRec) : (d.raise r).panels = d.panels := by simp [Device.raise]
@[simp] theorem raise_openRegions (d : Device) (r : ErrRec) : (d.raise r).openRegions = d.openRegions := by simp [Device.raise]
@[simp] theorem raise_unmapped (d : Device) (r : ErrRec) : (d.raise r).unmapped = d.unmapped := by simp [Device.raise]
@[simp] theorem raise_mem (d : Device) (r : ErrRec) : (d.raise r).mem = d.mem := by simp [Device.raise]
@[simp] theorem raise_poison (d : Device) (r : ErrRec) : (d.raise r).poison = d.poison := by simp [Device.raise]
@[simp] theorem raise_faulty (d : Device) (r : ErrRec) : (d.raise r).faulty = d.faulty := by simp [Device.raise]
@[simp] theorem raise_lostStacks (d : Device) (r : ErrRec) : (d.raise r).lostStacks = d.lostStacks := by simp [Device.raise]
@[simp] theorem raise_hostMem (d : Device) (r : ErrRec) : (d.raise r).hostMem = d.hostMem := by simp [Device.raise]
@[simp] theorem raise_latches (d : Device) (r : ErrRec) : (d.raise r).latches = d.latches := by simp [Device.raise]
@[simp] theorem raise_railsOut (d : Device) (r : ErrRec) : (d.raise r).railsOut = d.railsOut := by simp [Device.raise]
@[simp] theorem raise_clocksOut (d : Device) (r : ErrRec) : (d.raise r).clocksOut = d.clocksOut := by simp [Device.raise]
@[simp] theorem raise_ports (d : Device) (r : ErrRec) : (d.raise r).ports = d.ports := by simp [Device.raise]
@[simp] theorem raise_fabric (d : Device) (r : ErrRec) : (d.raise r).fabric = d.fabric := by simp [Device.raise]
@[simp] theorem raise_commit (d : Device) (r : ErrRec) : (d.raise r).commit = d.commit := by simp [Device.raise]
@[simp] theorem raise_host (d : Device) (r : ErrRec) : (d.raise r).host = d.host := by simp [Device.raise]
@[simp] theorem raise_reset (d : Device) (r : ErrRec) : (d.raise r).reset = d.reset := by simp [Device.raise]
@[simp] theorem raise_frames (d : Device) (r : ErrRec) : (d.raise r).frames = d.frames := by simp [Device.raise]
@[simp] theorem raise_power (d : Device) (r : ErrRec) : (d.raise r).power = d.power := by simp [Device.raise]
@[simp] theorem raise_counters (d : Device) (r : ErrRec) : (d.raise r).counters = d.counters := by simp [Device.raise]
@[simp] theorem raise_bodkin (d : Device) (r : ErrRec) : (d.raise r).bodkin = d.bodkin := by simp [Device.raise]
@[simp] theorem raise_thimble (d : Device) (r : ErrRec) : (d.raise r).thimble = d.thimble := by simp [Device.raise]

@[simp] theorem raiseNeeded_now (d : Device) (r : ErrRec) : ((d.raiseNeeded r).1).now = d.now := by simp [Device.raiseNeeded]
@[simp] theorem raiseNeeded_fresh (d : Device) (r : ErrRec) : ((d.raiseNeeded r).1).fresh = d.fresh := by simp [Device.raiseNeeded]
@[simp] theorem raiseNeeded_regs (d : Device) (r : ErrRec) : ((d.raiseNeeded r).1).regs = d.regs := by simp [Device.raiseNeeded]
@[simp] theorem raiseNeeded_needle (d : Device) (r : ErrRec) : ((d.raiseNeeded r).1).needle = d.needle := by simp [Device.raiseNeeded]
@[simp] theorem raiseNeeded_admitRing (d : Device) (r : ErrRec) : ((d.raiseNeeded r).1).admitRing = d.admitRing := by simp [Device.raiseNeeded]
@[simp] theorem raiseNeeded_contexts (d : Device) (r : ErrRec) : ((d.raiseNeeded r).1).contexts = d.contexts := by simp [Device.raiseNeeded]
@[simp] theorem raiseNeeded_panels (d : Device) (r : ErrRec) : ((d.raiseNeeded r).1).panels = d.panels := by simp [Device.raiseNeeded]
@[simp] theorem raiseNeeded_openRegions (d : Device) (r : ErrRec) : ((d.raiseNeeded r).1).openRegions = d.openRegions := by simp [Device.raiseNeeded]
@[simp] theorem raiseNeeded_unmapped (d : Device) (r : ErrRec) : ((d.raiseNeeded r).1).unmapped = d.unmapped := by simp [Device.raiseNeeded]
@[simp] theorem raiseNeeded_mem (d : Device) (r : ErrRec) : ((d.raiseNeeded r).1).mem = d.mem := by simp [Device.raiseNeeded]
@[simp] theorem raiseNeeded_poison (d : Device) (r : ErrRec) : ((d.raiseNeeded r).1).poison = d.poison := by simp [Device.raiseNeeded]
@[simp] theorem raiseNeeded_faulty (d : Device) (r : ErrRec) : ((d.raiseNeeded r).1).faulty = d.faulty := by simp [Device.raiseNeeded]
@[simp] theorem raiseNeeded_lostStacks (d : Device) (r : ErrRec) : ((d.raiseNeeded r).1).lostStacks = d.lostStacks := by simp [Device.raiseNeeded]
@[simp] theorem raiseNeeded_hostMem (d : Device) (r : ErrRec) : ((d.raiseNeeded r).1).hostMem = d.hostMem := by simp [Device.raiseNeeded]
@[simp] theorem raiseNeeded_latches (d : Device) (r : ErrRec) : ((d.raiseNeeded r).1).latches = d.latches := by simp [Device.raiseNeeded]
@[simp] theorem raiseNeeded_railsOut (d : Device) (r : ErrRec) : ((d.raiseNeeded r).1).railsOut = d.railsOut := by simp [Device.raiseNeeded]
@[simp] theorem raiseNeeded_clocksOut (d : Device) (r : ErrRec) : ((d.raiseNeeded r).1).clocksOut = d.clocksOut := by simp [Device.raiseNeeded]
@[simp] theorem raiseNeeded_ports (d : Device) (r : ErrRec) : ((d.raiseNeeded r).1).ports = d.ports := by simp [Device.raiseNeeded]
@[simp] theorem raiseNeeded_fabric (d : Device) (r : ErrRec) : ((d.raiseNeeded r).1).fabric = d.fabric := by simp [Device.raiseNeeded]
@[simp] theorem raiseNeeded_commit (d : Device) (r : ErrRec) : ((d.raiseNeeded r).1).commit = d.commit := by simp [Device.raiseNeeded]
@[simp] theorem raiseNeeded_host (d : Device) (r : ErrRec) : ((d.raiseNeeded r).1).host = d.host := by simp [Device.raiseNeeded]
@[simp] theorem raiseNeeded_reset (d : Device) (r : ErrRec) : ((d.raiseNeeded r).1).reset = d.reset := by simp [Device.raiseNeeded]
@[simp] theorem raiseNeeded_frames (d : Device) (r : ErrRec) : ((d.raiseNeeded r).1).frames = d.frames := by simp [Device.raiseNeeded]
@[simp] theorem raiseNeeded_power (d : Device) (r : ErrRec) : ((d.raiseNeeded r).1).power = d.power := by simp [Device.raiseNeeded]
@[simp] theorem raiseNeeded_counters (d : Device) (r : ErrRec) : ((d.raiseNeeded r).1).counters = d.counters := by simp [Device.raiseNeeded]
@[simp] theorem raiseNeeded_bodkin (d : Device) (r : ErrRec) : ((d.raiseNeeded r).1).bodkin = d.bodkin := by simp [Device.raiseNeeded]
@[simp] theorem raiseNeeded_thimble (d : Device) (r : ErrRec) : ((d.raiseNeeded r).1).thimble = d.thimble := by simp [Device.raiseNeeded]

@[simp] theorem raiseCoalesced_now (d : Device) (r : ErrRec) : (d.raiseCoalesced r).now = d.now := rfl
@[simp] theorem raiseCoalesced_fresh (d : Device) (r : ErrRec) : (d.raiseCoalesced r).fresh = d.fresh := rfl
@[simp] theorem raiseCoalesced_regs (d : Device) (r : ErrRec) : (d.raiseCoalesced r).regs = d.regs := rfl
@[simp] theorem raiseCoalesced_needle (d : Device) (r : ErrRec) : (d.raiseCoalesced r).needle = d.needle := rfl
@[simp] theorem raiseCoalesced_admitRing (d : Device) (r : ErrRec) : (d.raiseCoalesced r).admitRing = d.admitRing := rfl
@[simp] theorem raiseCoalesced_contexts (d : Device) (r : ErrRec) : (d.raiseCoalesced r).contexts = d.contexts := rfl
@[simp] theorem raiseCoalesced_panels (d : Device) (r : ErrRec) : (d.raiseCoalesced r).panels = d.panels := rfl
@[simp] theorem raiseCoalesced_openRegions (d : Device) (r : ErrRec) : (d.raiseCoalesced r).openRegions = d.openRegions := rfl
@[simp] theorem raiseCoalesced_unmapped (d : Device) (r : ErrRec) : (d.raiseCoalesced r).unmapped = d.unmapped := rfl
@[simp] theorem raiseCoalesced_mem (d : Device) (r : ErrRec) : (d.raiseCoalesced r).mem = d.mem := rfl
@[simp] theorem raiseCoalesced_poison (d : Device) (r : ErrRec) : (d.raiseCoalesced r).poison = d.poison := rfl
@[simp] theorem raiseCoalesced_faulty (d : Device) (r : ErrRec) : (d.raiseCoalesced r).faulty = d.faulty := rfl
@[simp] theorem raiseCoalesced_lostStacks (d : Device) (r : ErrRec) : (d.raiseCoalesced r).lostStacks = d.lostStacks := rfl
@[simp] theorem raiseCoalesced_hostMem (d : Device) (r : ErrRec) : (d.raiseCoalesced r).hostMem = d.hostMem := rfl
@[simp] theorem raiseCoalesced_latches (d : Device) (r : ErrRec) : (d.raiseCoalesced r).latches = d.latches := rfl
@[simp] theorem raiseCoalesced_railsOut (d : Device) (r : ErrRec) : (d.raiseCoalesced r).railsOut = d.railsOut := rfl
@[simp] theorem raiseCoalesced_clocksOut (d : Device) (r : ErrRec) : (d.raiseCoalesced r).clocksOut = d.clocksOut := rfl
@[simp] theorem raiseCoalesced_ports (d : Device) (r : ErrRec) : (d.raiseCoalesced r).ports = d.ports := rfl
@[simp] theorem raiseCoalesced_fabric (d : Device) (r : ErrRec) : (d.raiseCoalesced r).fabric = d.fabric := rfl
@[simp] theorem raiseCoalesced_commit (d : Device) (r : ErrRec) : (d.raiseCoalesced r).commit = d.commit := rfl
@[simp] theorem raiseCoalesced_host (d : Device) (r : ErrRec) : (d.raiseCoalesced r).host = d.host := rfl
@[simp] theorem raiseCoalesced_reset (d : Device) (r : ErrRec) : (d.raiseCoalesced r).reset = d.reset := rfl
@[simp] theorem raiseCoalesced_frames (d : Device) (r : ErrRec) : (d.raiseCoalesced r).frames = d.frames := rfl
@[simp] theorem raiseCoalesced_power (d : Device) (r : ErrRec) : (d.raiseCoalesced r).power = d.power := rfl
@[simp] theorem raiseCoalesced_counters (d : Device) (r : ErrRec) : (d.raiseCoalesced r).counters = d.counters := rfl
@[simp] theorem raiseCoalesced_bodkin (d : Device) (r : ErrRec) : (d.raiseCoalesced r).bodkin = d.bodkin := rfl
@[simp] theorem raiseCoalesced_thimble (d : Device) (r : ErrRec) : (d.raiseCoalesced r).thimble = d.thimble := rfl

@[simp] theorem flushCoalesced_now (d : Device) : (d.flushCoalesced).now = d.now := by unfold Device.flushCoalesced; rw [foldl_enqueue (fun d => d.now) (fun d r => enqueueRec_now d r false)]
@[simp] theorem flushCoalesced_fresh (d : Device) : (d.flushCoalesced).fresh = d.fresh := by unfold Device.flushCoalesced; rw [foldl_enqueue (fun d => d.fresh) (fun d r => enqueueRec_fresh d r false)]
@[simp] theorem flushCoalesced_regs (d : Device) : (d.flushCoalesced).regs = d.regs := by unfold Device.flushCoalesced; rw [foldl_enqueue (fun d => d.regs) (fun d r => enqueueRec_regs d r false)]
@[simp] theorem flushCoalesced_needle (d : Device) : (d.flushCoalesced).needle = d.needle := by unfold Device.flushCoalesced; rw [foldl_enqueue (fun d => d.needle) (fun d r => enqueueRec_needle d r false)]
@[simp] theorem flushCoalesced_admitRing (d : Device) : (d.flushCoalesced).admitRing = d.admitRing := by unfold Device.flushCoalesced; rw [foldl_enqueue (fun d => d.admitRing) (fun d r => enqueueRec_admitRing d r false)]
@[simp] theorem flushCoalesced_contexts (d : Device) : (d.flushCoalesced).contexts = d.contexts := by unfold Device.flushCoalesced; rw [foldl_enqueue (fun d => d.contexts) (fun d r => enqueueRec_contexts d r false)]
@[simp] theorem flushCoalesced_panels (d : Device) : (d.flushCoalesced).panels = d.panels := by unfold Device.flushCoalesced; rw [foldl_enqueue (fun d => d.panels) (fun d r => enqueueRec_panels d r false)]
@[simp] theorem flushCoalesced_openRegions (d : Device) : (d.flushCoalesced).openRegions = d.openRegions := by unfold Device.flushCoalesced; rw [foldl_enqueue (fun d => d.openRegions) (fun d r => enqueueRec_openRegions d r false)]
@[simp] theorem flushCoalesced_unmapped (d : Device) : (d.flushCoalesced).unmapped = d.unmapped := by unfold Device.flushCoalesced; rw [foldl_enqueue (fun d => d.unmapped) (fun d r => enqueueRec_unmapped d r false)]
@[simp] theorem flushCoalesced_mem (d : Device) : (d.flushCoalesced).mem = d.mem := by unfold Device.flushCoalesced; rw [foldl_enqueue (fun d => d.mem) (fun d r => enqueueRec_mem d r false)]
@[simp] theorem flushCoalesced_poison (d : Device) : (d.flushCoalesced).poison = d.poison := by unfold Device.flushCoalesced; rw [foldl_enqueue (fun d => d.poison) (fun d r => enqueueRec_poison d r false)]
@[simp] theorem flushCoalesced_faulty (d : Device) : (d.flushCoalesced).faulty = d.faulty := by unfold Device.flushCoalesced; rw [foldl_enqueue (fun d => d.faulty) (fun d r => enqueueRec_faulty d r false)]
@[simp] theorem flushCoalesced_lostStacks (d : Device) : (d.flushCoalesced).lostStacks = d.lostStacks := by unfold Device.flushCoalesced; rw [foldl_enqueue (fun d => d.lostStacks) (fun d r => enqueueRec_lostStacks d r false)]
@[simp] theorem flushCoalesced_hostMem (d : Device) : (d.flushCoalesced).hostMem = d.hostMem := by unfold Device.flushCoalesced; rw [foldl_enqueue (fun d => d.hostMem) (fun d r => enqueueRec_hostMem d r false)]
@[simp] theorem flushCoalesced_latches (d : Device) : (d.flushCoalesced).latches = d.latches := by unfold Device.flushCoalesced; rw [foldl_enqueue (fun d => d.latches) (fun d r => enqueueRec_latches d r false)]
@[simp] theorem flushCoalesced_railsOut (d : Device) : (d.flushCoalesced).railsOut = d.railsOut := by unfold Device.flushCoalesced; rw [foldl_enqueue (fun d => d.railsOut) (fun d r => enqueueRec_railsOut d r false)]
@[simp] theorem flushCoalesced_clocksOut (d : Device) : (d.flushCoalesced).clocksOut = d.clocksOut := by unfold Device.flushCoalesced; rw [foldl_enqueue (fun d => d.clocksOut) (fun d r => enqueueRec_clocksOut d r false)]
@[simp] theorem flushCoalesced_ports (d : Device) : (d.flushCoalesced).ports = d.ports := by unfold Device.flushCoalesced; rw [foldl_enqueue (fun d => d.ports) (fun d r => enqueueRec_ports d r false)]
@[simp] theorem flushCoalesced_fabric (d : Device) : (d.flushCoalesced).fabric = d.fabric := by unfold Device.flushCoalesced; rw [foldl_enqueue (fun d => d.fabric) (fun d r => enqueueRec_fabric d r false)]
@[simp] theorem flushCoalesced_commit (d : Device) : (d.flushCoalesced).commit = d.commit := by unfold Device.flushCoalesced; rw [foldl_enqueue (fun d => d.commit) (fun d r => enqueueRec_commit d r false)]
@[simp] theorem flushCoalesced_host (d : Device) : (d.flushCoalesced).host = d.host := by unfold Device.flushCoalesced; rw [foldl_enqueue (fun d => d.host) (fun d r => enqueueRec_host d r false)]
@[simp] theorem flushCoalesced_reset (d : Device) : (d.flushCoalesced).reset = d.reset := by unfold Device.flushCoalesced; rw [foldl_enqueue (fun d => d.reset) (fun d r => enqueueRec_reset d r false)]
@[simp] theorem flushCoalesced_frames (d : Device) : (d.flushCoalesced).frames = d.frames := by unfold Device.flushCoalesced; rw [foldl_enqueue (fun d => d.frames) (fun d r => enqueueRec_frames d r false)]
@[simp] theorem flushCoalesced_power (d : Device) : (d.flushCoalesced).power = d.power := by unfold Device.flushCoalesced; rw [foldl_enqueue (fun d => d.power) (fun d r => enqueueRec_power d r false)]
@[simp] theorem flushCoalesced_counters (d : Device) : (d.flushCoalesced).counters = d.counters := by unfold Device.flushCoalesced; rw [foldl_enqueue (fun d => d.counters) (fun d r => enqueueRec_counters d r false)]
@[simp] theorem flushCoalesced_bodkin (d : Device) : (d.flushCoalesced).bodkin = d.bodkin := by unfold Device.flushCoalesced; rw [foldl_enqueue (fun d => d.bodkin) (fun d r => enqueueRec_bodkin d r false)]
@[simp] theorem flushCoalesced_thimble (d : Device) : (d.flushCoalesced).thimble = d.thimble := by unfold Device.flushCoalesced; rw [foldl_enqueue (fun d => d.thimble) (fun d r => enqueueRec_thimble d r false)]

@[simp] theorem updateGuard_now (d : Device) : (d.updateGuard).now = d.now := by unfold Device.updateGuard; simp only []; split <;> simp
@[simp] theorem updateGuard_fresh (d : Device) : (d.updateGuard).fresh = d.fresh := by unfold Device.updateGuard; simp only []; split <;> simp
@[simp] theorem updateGuard_regs (d : Device) : (d.updateGuard).regs = d.regs := by unfold Device.updateGuard; simp only []; split <;> simp
@[simp] theorem updateGuard_needle (d : Device) : (d.updateGuard).needle = d.needle := by unfold Device.updateGuard; simp only []; split <;> simp
@[simp] theorem updateGuard_admitRing (d : Device) : (d.updateGuard).admitRing = d.admitRing := by unfold Device.updateGuard; simp only []; split <;> simp
@[simp] theorem updateGuard_contexts (d : Device) : (d.updateGuard).contexts = d.contexts := by unfold Device.updateGuard; simp only []; split <;> simp
@[simp] theorem updateGuard_panels (d : Device) : (d.updateGuard).panels = d.panels := by unfold Device.updateGuard; simp only []; split <;> simp
@[simp] theorem updateGuard_openRegions (d : Device) : (d.updateGuard).openRegions = d.openRegions := by unfold Device.updateGuard; simp only []; split <;> simp
@[simp] theorem updateGuard_unmapped (d : Device) : (d.updateGuard).unmapped = d.unmapped := by unfold Device.updateGuard; simp only []; split <;> simp
@[simp] theorem updateGuard_mem (d : Device) : (d.updateGuard).mem = d.mem := by unfold Device.updateGuard; simp only []; split <;> simp
@[simp] theorem updateGuard_poison (d : Device) : (d.updateGuard).poison = d.poison := by unfold Device.updateGuard; simp only []; split <;> simp
@[simp] theorem updateGuard_faulty (d : Device) : (d.updateGuard).faulty = d.faulty := by unfold Device.updateGuard; simp only []; split <;> simp
@[simp] theorem updateGuard_lostStacks (d : Device) : (d.updateGuard).lostStacks = d.lostStacks := by unfold Device.updateGuard; simp only []; split <;> simp
@[simp] theorem updateGuard_hostMem (d : Device) : (d.updateGuard).hostMem = d.hostMem := by unfold Device.updateGuard; simp only []; split <;> simp
@[simp] theorem updateGuard_latches (d : Device) : (d.updateGuard).latches = d.latches := by unfold Device.updateGuard; simp only []; split <;> simp
@[simp] theorem updateGuard_railsOut (d : Device) : (d.updateGuard).railsOut = d.railsOut := by unfold Device.updateGuard; simp only []; split <;> simp
@[simp] theorem updateGuard_clocksOut (d : Device) : (d.updateGuard).clocksOut = d.clocksOut := by unfold Device.updateGuard; simp only []; split <;> simp
@[simp] theorem updateGuard_ports (d : Device) : (d.updateGuard).ports = d.ports := by unfold Device.updateGuard; simp only []; split <;> simp
@[simp] theorem updateGuard_fabric (d : Device) : (d.updateGuard).fabric = d.fabric := by unfold Device.updateGuard; simp only []; split <;> simp
@[simp] theorem updateGuard_commit (d : Device) : (d.updateGuard).commit = d.commit := by unfold Device.updateGuard; simp only []; split <;> simp
@[simp] theorem updateGuard_host (d : Device) : (d.updateGuard).host = d.host := by unfold Device.updateGuard; simp only []; split <;> simp
@[simp] theorem updateGuard_reset (d : Device) : (d.updateGuard).reset = d.reset := by unfold Device.updateGuard; simp only []; split <;> simp
@[simp] theorem updateGuard_frames (d : Device) : (d.updateGuard).frames = d.frames := by unfold Device.updateGuard; simp only []; split <;> simp
@[simp] theorem updateGuard_power (d : Device) : (d.updateGuard).power = d.power := by unfold Device.updateGuard; simp only []; split <;> simp
@[simp] theorem updateGuard_counters (d : Device) : (d.updateGuard).counters = d.counters := by unfold Device.updateGuard; simp only []; split <;> simp
@[simp] theorem updateGuard_bodkin (d : Device) : (d.updateGuard).bodkin = d.bodkin := by unfold Device.updateGuard; simp only []; split <;> simp
@[simp] theorem updateGuard_thimble (d : Device) : (d.updateGuard).thimble = d.thimble := by unfold Device.updateGuard; simp only []; split <;> simp

@[simp] theorem hostPut_now (d : Device) (r : Bool) (a : Nat) (bs : List Byte) : (d.hostPut r a bs).now = d.now := by unfold Device.hostPut; split <;> simp
@[simp] theorem hostPut_fresh (d : Device) (r : Bool) (a : Nat) (bs : List Byte) : (d.hostPut r a bs).fresh = d.fresh := by unfold Device.hostPut; split <;> simp
@[simp] theorem hostPut_regs (d : Device) (r : Bool) (a : Nat) (bs : List Byte) : (d.hostPut r a bs).regs = d.regs := by unfold Device.hostPut; split <;> simp
@[simp] theorem hostPut_needle (d : Device) (r : Bool) (a : Nat) (bs : List Byte) : (d.hostPut r a bs).needle = d.needle := by unfold Device.hostPut; split <;> simp
@[simp] theorem hostPut_err (d : Device) (r : Bool) (a : Nat) (bs : List Byte) : (d.hostPut r a bs).err = d.err := by unfold Device.hostPut; split <;> simp
@[simp] theorem hostPut_admitRing (d : Device) (r : Bool) (a : Nat) (bs : List Byte) : (d.hostPut r a bs).admitRing = d.admitRing := by unfold Device.hostPut; split <;> simp
@[simp] theorem hostPut_contexts (d : Device) (r : Bool) (a : Nat) (bs : List Byte) : (d.hostPut r a bs).contexts = d.contexts := by unfold Device.hostPut; split <;> simp
@[simp] theorem hostPut_panels (d : Device) (r : Bool) (a : Nat) (bs : List Byte) : (d.hostPut r a bs).panels = d.panels := by unfold Device.hostPut; split <;> simp
@[simp] theorem hostPut_openRegions (d : Device) (r : Bool) (a : Nat) (bs : List Byte) : (d.hostPut r a bs).openRegions = d.openRegions := by unfold Device.hostPut; split <;> simp
@[simp] theorem hostPut_unmapped (d : Device) (r : Bool) (a : Nat) (bs : List Byte) : (d.hostPut r a bs).unmapped = d.unmapped := by unfold Device.hostPut; split <;> simp
@[simp] theorem hostPut_mem (d : Device) (r : Bool) (a : Nat) (bs : List Byte) : (d.hostPut r a bs).mem = d.mem := by unfold Device.hostPut; split <;> simp
@[simp] theorem hostPut_poison (d : Device) (r : Bool) (a : Nat) (bs : List Byte) : (d.hostPut r a bs).poison = d.poison := by unfold Device.hostPut; split <;> simp
@[simp] theorem hostPut_faulty (d : Device) (r : Bool) (a : Nat) (bs : List Byte) : (d.hostPut r a bs).faulty = d.faulty := by unfold Device.hostPut; split <;> simp
@[simp] theorem hostPut_lostStacks (d : Device) (r : Bool) (a : Nat) (bs : List Byte) : (d.hostPut r a bs).lostStacks = d.lostStacks := by unfold Device.hostPut; split <;> simp
@[simp] theorem hostPut_latches (d : Device) (r : Bool) (a : Nat) (bs : List Byte) : (d.hostPut r a bs).latches = d.latches := by unfold Device.hostPut; split <;> simp
@[simp] theorem hostPut_railsOut (d : Device) (r : Bool) (a : Nat) (bs : List Byte) : (d.hostPut r a bs).railsOut = d.railsOut := by unfold Device.hostPut; split <;> simp
@[simp] theorem hostPut_clocksOut (d : Device) (r : Bool) (a : Nat) (bs : List Byte) : (d.hostPut r a bs).clocksOut = d.clocksOut := by unfold Device.hostPut; split <;> simp
@[simp] theorem hostPut_ports (d : Device) (r : Bool) (a : Nat) (bs : List Byte) : (d.hostPut r a bs).ports = d.ports := by unfold Device.hostPut; split <;> simp
@[simp] theorem hostPut_fabric (d : Device) (r : Bool) (a : Nat) (bs : List Byte) : (d.hostPut r a bs).fabric = d.fabric := by unfold Device.hostPut; split <;> simp
@[simp] theorem hostPut_commit (d : Device) (r : Bool) (a : Nat) (bs : List Byte) : (d.hostPut r a bs).commit = d.commit := by unfold Device.hostPut; split <;> simp
@[simp] theorem hostPut_reset (d : Device) (r : Bool) (a : Nat) (bs : List Byte) : (d.hostPut r a bs).reset = d.reset := by unfold Device.hostPut; split <;> simp
@[simp] theorem hostPut_frames (d : Device) (r : Bool) (a : Nat) (bs : List Byte) : (d.hostPut r a bs).frames = d.frames := by unfold Device.hostPut; split <;> simp
@[simp] theorem hostPut_power (d : Device) (r : Bool) (a : Nat) (bs : List Byte) : (d.hostPut r a bs).power = d.power := by unfold Device.hostPut; split <;> simp
@[simp] theorem hostPut_bodkin (d : Device) (r : Bool) (a : Nat) (bs : List Byte) : (d.hostPut r a bs).bodkin = d.bodkin := by unfold Device.hostPut; split <;> simp
@[simp] theorem hostPut_thimble (d : Device) (r : Bool) (a : Nat) (bs : List Byte) : (d.hostPut r a bs).thimble = d.thimble := by unfold Device.hostPut; split <;> simp

@[simp] theorem hostWrite_now (d : Device) (a : Nat) (bs : List Byte) : (d.hostWrite a bs).now = d.now := hostPut_now ..
@[simp] theorem hostWrite_fresh (d : Device) (a : Nat) (bs : List Byte) : (d.hostWrite a bs).fresh = d.fresh := hostPut_fresh ..
@[simp] theorem hostWrite_regs (d : Device) (a : Nat) (bs : List Byte) : (d.hostWrite a bs).regs = d.regs := hostPut_regs ..
@[simp] theorem hostWrite_needle (d : Device) (a : Nat) (bs : List Byte) : (d.hostWrite a bs).needle = d.needle := hostPut_needle ..
@[simp] theorem hostWrite_err (d : Device) (a : Nat) (bs : List Byte) : (d.hostWrite a bs).err = d.err := hostPut_err ..
@[simp] theorem hostWrite_admitRing (d : Device) (a : Nat) (bs : List Byte) : (d.hostWrite a bs).admitRing = d.admitRing := hostPut_admitRing ..
@[simp] theorem hostWrite_contexts (d : Device) (a : Nat) (bs : List Byte) : (d.hostWrite a bs).contexts = d.contexts := hostPut_contexts ..
@[simp] theorem hostWrite_panels (d : Device) (a : Nat) (bs : List Byte) : (d.hostWrite a bs).panels = d.panels := hostPut_panels ..
@[simp] theorem hostWrite_openRegions (d : Device) (a : Nat) (bs : List Byte) : (d.hostWrite a bs).openRegions = d.openRegions := hostPut_openRegions ..
@[simp] theorem hostWrite_unmapped (d : Device) (a : Nat) (bs : List Byte) : (d.hostWrite a bs).unmapped = d.unmapped := hostPut_unmapped ..
@[simp] theorem hostWrite_mem (d : Device) (a : Nat) (bs : List Byte) : (d.hostWrite a bs).mem = d.mem := hostPut_mem ..
@[simp] theorem hostWrite_poison (d : Device) (a : Nat) (bs : List Byte) : (d.hostWrite a bs).poison = d.poison := hostPut_poison ..
@[simp] theorem hostWrite_faulty (d : Device) (a : Nat) (bs : List Byte) : (d.hostWrite a bs).faulty = d.faulty := hostPut_faulty ..
@[simp] theorem hostWrite_lostStacks (d : Device) (a : Nat) (bs : List Byte) : (d.hostWrite a bs).lostStacks = d.lostStacks := hostPut_lostStacks ..
@[simp] theorem hostWrite_latches (d : Device) (a : Nat) (bs : List Byte) : (d.hostWrite a bs).latches = d.latches := hostPut_latches ..
@[simp] theorem hostWrite_railsOut (d : Device) (a : Nat) (bs : List Byte) : (d.hostWrite a bs).railsOut = d.railsOut := hostPut_railsOut ..
@[simp] theorem hostWrite_clocksOut (d : Device) (a : Nat) (bs : List Byte) : (d.hostWrite a bs).clocksOut = d.clocksOut := hostPut_clocksOut ..
@[simp] theorem hostWrite_ports (d : Device) (a : Nat) (bs : List Byte) : (d.hostWrite a bs).ports = d.ports := hostPut_ports ..
@[simp] theorem hostWrite_fabric (d : Device) (a : Nat) (bs : List Byte) : (d.hostWrite a bs).fabric = d.fabric := hostPut_fabric ..
@[simp] theorem hostWrite_commit (d : Device) (a : Nat) (bs : List Byte) : (d.hostWrite a bs).commit = d.commit := hostPut_commit ..
@[simp] theorem hostWrite_reset (d : Device) (a : Nat) (bs : List Byte) : (d.hostWrite a bs).reset = d.reset := hostPut_reset ..
@[simp] theorem hostWrite_frames (d : Device) (a : Nat) (bs : List Byte) : (d.hostWrite a bs).frames = d.frames := hostPut_frames ..
@[simp] theorem hostWrite_power (d : Device) (a : Nat) (bs : List Byte) : (d.hostWrite a bs).power = d.power := hostPut_power ..
@[simp] theorem hostWrite_bodkin (d : Device) (a : Nat) (bs : List Byte) : (d.hostWrite a bs).bodkin = d.bodkin := hostPut_bodkin ..
@[simp] theorem hostWrite_thimble (d : Device) (a : Nat) (bs : List Byte) : (d.hostWrite a bs).thimble = d.thimble := hostPut_thimble ..

@[simp] theorem hostData_now (d : Device) (a : Nat) (bs : List Byte) : (d.hostData a bs).now = d.now := hostPut_now ..
@[simp] theorem hostData_fresh (d : Device) (a : Nat) (bs : List Byte) : (d.hostData a bs).fresh = d.fresh := hostPut_fresh ..
@[simp] theorem hostData_regs (d : Device) (a : Nat) (bs : List Byte) : (d.hostData a bs).regs = d.regs := hostPut_regs ..
@[simp] theorem hostData_needle (d : Device) (a : Nat) (bs : List Byte) : (d.hostData a bs).needle = d.needle := hostPut_needle ..
@[simp] theorem hostData_err (d : Device) (a : Nat) (bs : List Byte) : (d.hostData a bs).err = d.err := hostPut_err ..
@[simp] theorem hostData_admitRing (d : Device) (a : Nat) (bs : List Byte) : (d.hostData a bs).admitRing = d.admitRing := hostPut_admitRing ..
@[simp] theorem hostData_contexts (d : Device) (a : Nat) (bs : List Byte) : (d.hostData a bs).contexts = d.contexts := hostPut_contexts ..
@[simp] theorem hostData_panels (d : Device) (a : Nat) (bs : List Byte) : (d.hostData a bs).panels = d.panels := hostPut_panels ..
@[simp] theorem hostData_openRegions (d : Device) (a : Nat) (bs : List Byte) : (d.hostData a bs).openRegions = d.openRegions := hostPut_openRegions ..
@[simp] theorem hostData_unmapped (d : Device) (a : Nat) (bs : List Byte) : (d.hostData a bs).unmapped = d.unmapped := hostPut_unmapped ..
@[simp] theorem hostData_mem (d : Device) (a : Nat) (bs : List Byte) : (d.hostData a bs).mem = d.mem := hostPut_mem ..
@[simp] theorem hostData_poison (d : Device) (a : Nat) (bs : List Byte) : (d.hostData a bs).poison = d.poison := hostPut_poison ..
@[simp] theorem hostData_faulty (d : Device) (a : Nat) (bs : List Byte) : (d.hostData a bs).faulty = d.faulty := hostPut_faulty ..
@[simp] theorem hostData_lostStacks (d : Device) (a : Nat) (bs : List Byte) : (d.hostData a bs).lostStacks = d.lostStacks := hostPut_lostStacks ..
@[simp] theorem hostData_latches (d : Device) (a : Nat) (bs : List Byte) : (d.hostData a bs).latches = d.latches := hostPut_latches ..
@[simp] theorem hostData_railsOut (d : Device) (a : Nat) (bs : List Byte) : (d.hostData a bs).railsOut = d.railsOut := hostPut_railsOut ..
@[simp] theorem hostData_clocksOut (d : Device) (a : Nat) (bs : List Byte) : (d.hostData a bs).clocksOut = d.clocksOut := hostPut_clocksOut ..
@[simp] theorem hostData_ports (d : Device) (a : Nat) (bs : List Byte) : (d.hostData a bs).ports = d.ports := hostPut_ports ..
@[simp] theorem hostData_fabric (d : Device) (a : Nat) (bs : List Byte) : (d.hostData a bs).fabric = d.fabric := hostPut_fabric ..
@[simp] theorem hostData_commit (d : Device) (a : Nat) (bs : List Byte) : (d.hostData a bs).commit = d.commit := hostPut_commit ..
@[simp] theorem hostData_reset (d : Device) (a : Nat) (bs : List Byte) : (d.hostData a bs).reset = d.reset := hostPut_reset ..
@[simp] theorem hostData_frames (d : Device) (a : Nat) (bs : List Byte) : (d.hostData a bs).frames = d.frames := hostPut_frames ..
@[simp] theorem hostData_power (d : Device) (a : Nat) (bs : List Byte) : (d.hostData a bs).power = d.power := hostPut_power ..
@[simp] theorem hostData_bodkin (d : Device) (a : Nat) (bs : List Byte) : (d.hostData a bs).bodkin = d.bodkin := hostPut_bodkin ..
@[simp] theorem hostData_thimble (d : Device) (a : Nat) (bs : List Byte) : (d.hostData a bs).thimble = d.thimble := hostPut_thimble ..

@[simp] theorem hostFetch_now (d : Device) (a n : Nat) : ((d.hostFetch a n).1).now = d.now := by simp [Device.hostFetch]
@[simp] theorem hostFetch_fresh (d : Device) (a n : Nat) : ((d.hostFetch a n).1).fresh = d.fresh := by simp [Device.hostFetch]
@[simp] theorem hostFetch_regs (d : Device) (a n : Nat) : ((d.hostFetch a n).1).regs = d.regs := by simp [Device.hostFetch]
@[simp] theorem hostFetch_needle (d : Device) (a n : Nat) : ((d.hostFetch a n).1).needle = d.needle := by simp [Device.hostFetch]
@[simp] theorem hostFetch_err (d : Device) (a n : Nat) : ((d.hostFetch a n).1).err = d.err := by simp [Device.hostFetch]
@[simp] theorem hostFetch_admitRing (d : Device) (a n : Nat) : ((d.hostFetch a n).1).admitRing = d.admitRing := by simp [Device.hostFetch]
@[simp] theorem hostFetch_contexts (d : Device) (a n : Nat) : ((d.hostFetch a n).1).contexts = d.contexts := by simp [Device.hostFetch]
@[simp] theorem hostFetch_panels (d : Device) (a n : Nat) : ((d.hostFetch a n).1).panels = d.panels := by simp [Device.hostFetch]
@[simp] theorem hostFetch_openRegions (d : Device) (a n : Nat) : ((d.hostFetch a n).1).openRegions = d.openRegions := by simp [Device.hostFetch]
@[simp] theorem hostFetch_unmapped (d : Device) (a n : Nat) : ((d.hostFetch a n).1).unmapped = d.unmapped := by simp [Device.hostFetch]
@[simp] theorem hostFetch_mem (d : Device) (a n : Nat) : ((d.hostFetch a n).1).mem = d.mem := by simp [Device.hostFetch]
@[simp] theorem hostFetch_poison (d : Device) (a n : Nat) : ((d.hostFetch a n).1).poison = d.poison := by simp [Device.hostFetch]
@[simp] theorem hostFetch_faulty (d : Device) (a n : Nat) : ((d.hostFetch a n).1).faulty = d.faulty := by simp [Device.hostFetch]
@[simp] theorem hostFetch_lostStacks (d : Device) (a n : Nat) : ((d.hostFetch a n).1).lostStacks = d.lostStacks := by simp [Device.hostFetch]
@[simp] theorem hostFetch_hostMem (d : Device) (a n : Nat) : ((d.hostFetch a n).1).hostMem = d.hostMem := by simp [Device.hostFetch]
@[simp] theorem hostFetch_latches (d : Device) (a n : Nat) : ((d.hostFetch a n).1).latches = d.latches := by simp [Device.hostFetch]
@[simp] theorem hostFetch_railsOut (d : Device) (a n : Nat) : ((d.hostFetch a n).1).railsOut = d.railsOut := by simp [Device.hostFetch]
@[simp] theorem hostFetch_clocksOut (d : Device) (a n : Nat) : ((d.hostFetch a n).1).clocksOut = d.clocksOut := by simp [Device.hostFetch]
@[simp] theorem hostFetch_ports (d : Device) (a n : Nat) : ((d.hostFetch a n).1).ports = d.ports := by simp [Device.hostFetch]
@[simp] theorem hostFetch_fabric (d : Device) (a n : Nat) : ((d.hostFetch a n).1).fabric = d.fabric := by simp [Device.hostFetch]
@[simp] theorem hostFetch_commit (d : Device) (a n : Nat) : ((d.hostFetch a n).1).commit = d.commit := by simp [Device.hostFetch]
@[simp] theorem hostFetch_reset (d : Device) (a n : Nat) : ((d.hostFetch a n).1).reset = d.reset := by simp [Device.hostFetch]
@[simp] theorem hostFetch_frames (d : Device) (a n : Nat) : ((d.hostFetch a n).1).frames = d.frames := by simp [Device.hostFetch]
@[simp] theorem hostFetch_power (d : Device) (a n : Nat) : ((d.hostFetch a n).1).power = d.power := by simp [Device.hostFetch]
@[simp] theorem hostFetch_bodkin (d : Device) (a n : Nat) : ((d.hostFetch a n).1).bodkin = d.bodkin := by simp [Device.hostFetch]
@[simp] theorem hostFetch_thimble (d : Device) (a n : Nat) : ((d.hostFetch a n).1).thimble = d.thimble := by simp [Device.hostFetch]

@[simp] theorem sendMsg_now (d : Device) (v : Fin 11) : (d.sendMsg v).now = d.now := by unfold Device.sendMsg; (repeat' split) <;> rfl
@[simp] theorem sendMsg_fresh (d : Device) (v : Fin 11) : (d.sendMsg v).fresh = d.fresh := by unfold Device.sendMsg; (repeat' split) <;> rfl
@[simp] theorem sendMsg_regs (d : Device) (v : Fin 11) : (d.sendMsg v).regs = d.regs := by unfold Device.sendMsg; (repeat' split) <;> rfl
@[simp] theorem sendMsg_needle (d : Device) (v : Fin 11) : (d.sendMsg v).needle = d.needle := by unfold Device.sendMsg; (repeat' split) <;> rfl
@[simp] theorem sendMsg_err (d : Device) (v : Fin 11) : (d.sendMsg v).err = d.err := by unfold Device.sendMsg; (repeat' split) <;> rfl
@[simp] theorem sendMsg_admitRing (d : Device) (v : Fin 11) : (d.sendMsg v).admitRing = d.admitRing := by unfold Device.sendMsg; (repeat' split) <;> rfl
@[simp] theorem sendMsg_contexts (d : Device) (v : Fin 11) : (d.sendMsg v).contexts = d.contexts := by unfold Device.sendMsg; (repeat' split) <;> rfl
@[simp] theorem sendMsg_panels (d : Device) (v : Fin 11) : (d.sendMsg v).panels = d.panels := by unfold Device.sendMsg; (repeat' split) <;> rfl
@[simp] theorem sendMsg_openRegions (d : Device) (v : Fin 11) : (d.sendMsg v).openRegions = d.openRegions := by unfold Device.sendMsg; (repeat' split) <;> rfl
@[simp] theorem sendMsg_unmapped (d : Device) (v : Fin 11) : (d.sendMsg v).unmapped = d.unmapped := by unfold Device.sendMsg; (repeat' split) <;> rfl
@[simp] theorem sendMsg_mem (d : Device) (v : Fin 11) : (d.sendMsg v).mem = d.mem := by unfold Device.sendMsg; (repeat' split) <;> rfl
@[simp] theorem sendMsg_poison (d : Device) (v : Fin 11) : (d.sendMsg v).poison = d.poison := by unfold Device.sendMsg; (repeat' split) <;> rfl
@[simp] theorem sendMsg_faulty (d : Device) (v : Fin 11) : (d.sendMsg v).faulty = d.faulty := by unfold Device.sendMsg; (repeat' split) <;> rfl
@[simp] theorem sendMsg_lostStacks (d : Device) (v : Fin 11) : (d.sendMsg v).lostStacks = d.lostStacks := by unfold Device.sendMsg; (repeat' split) <;> rfl
@[simp] theorem sendMsg_hostMem (d : Device) (v : Fin 11) : (d.sendMsg v).hostMem = d.hostMem := by unfold Device.sendMsg; (repeat' split) <;> rfl
@[simp] theorem sendMsg_latches (d : Device) (v : Fin 11) : (d.sendMsg v).latches = d.latches := by unfold Device.sendMsg; (repeat' split) <;> rfl
@[simp] theorem sendMsg_railsOut (d : Device) (v : Fin 11) : (d.sendMsg v).railsOut = d.railsOut := by unfold Device.sendMsg; (repeat' split) <;> rfl
@[simp] theorem sendMsg_clocksOut (d : Device) (v : Fin 11) : (d.sendMsg v).clocksOut = d.clocksOut := by unfold Device.sendMsg; (repeat' split) <;> rfl
@[simp] theorem sendMsg_ports (d : Device) (v : Fin 11) : (d.sendMsg v).ports = d.ports := by unfold Device.sendMsg; (repeat' split) <;> rfl
@[simp] theorem sendMsg_fabric (d : Device) (v : Fin 11) : (d.sendMsg v).fabric = d.fabric := by unfold Device.sendMsg; (repeat' split) <;> rfl
@[simp] theorem sendMsg_commit (d : Device) (v : Fin 11) : (d.sendMsg v).commit = d.commit := by unfold Device.sendMsg; (repeat' split) <;> rfl
@[simp] theorem sendMsg_reset (d : Device) (v : Fin 11) : (d.sendMsg v).reset = d.reset := by unfold Device.sendMsg; (repeat' split) <;> rfl
@[simp] theorem sendMsg_frames (d : Device) (v : Fin 11) : (d.sendMsg v).frames = d.frames := by unfold Device.sendMsg; (repeat' split) <;> rfl
@[simp] theorem sendMsg_power (d : Device) (v : Fin 11) : (d.sendMsg v).power = d.power := by unfold Device.sendMsg; (repeat' split) <;> rfl
@[simp] theorem sendMsg_counters (d : Device) (v : Fin 11) : (d.sendMsg v).counters = d.counters := by unfold Device.sendMsg; (repeat' split) <;> rfl
@[simp] theorem sendMsg_bodkin (d : Device) (v : Fin 11) : (d.sendMsg v).bodkin = d.bodkin := by unfold Device.sendMsg; (repeat' split) <;> rfl
@[simp] theorem sendMsg_thimble (d : Device) (v : Fin 11) : (d.sendMsg v).thimble = d.thimble := by unfold Device.sendMsg; (repeat' split) <;> rfl

@[simp] theorem updNeedle_now (d : Device) (f : Needle → Needle) : (d.updNeedle f).now = d.now := rfl
@[simp] theorem updNeedle_fresh (d : Device) (f : Needle → Needle) : (d.updNeedle f).fresh = d.fresh := rfl
@[simp] theorem updNeedle_regs (d : Device) (f : Needle → Needle) : (d.updNeedle f).regs = d.regs := rfl
@[simp] theorem updNeedle_err (d : Device) (f : Needle → Needle) : (d.updNeedle f).err = d.err := rfl
@[simp] theorem updNeedle_admitRing (d : Device) (f : Needle → Needle) : (d.updNeedle f).admitRing = d.admitRing := rfl
@[simp] theorem updNeedle_contexts (d : Device) (f : Needle → Needle) : (d.updNeedle f).contexts = d.contexts := rfl
@[simp] theorem updNeedle_panels (d : Device) (f : Needle → Needle) : (d.updNeedle f).panels = d.panels := rfl
@[simp] theorem updNeedle_openRegions (d : Device) (f : Needle → Needle) : (d.updNeedle f).openRegions = d.openRegions := rfl
@[simp] theorem updNeedle_unmapped (d : Device) (f : Needle → Needle) : (d.updNeedle f).unmapped = d.unmapped := rfl
@[simp] theorem updNeedle_mem (d : Device) (f : Needle → Needle) : (d.updNeedle f).mem = d.mem := rfl
@[simp] theorem updNeedle_poison (d : Device) (f : Needle → Needle) : (d.updNeedle f).poison = d.poison := rfl
@[simp] theorem updNeedle_faulty (d : Device) (f : Needle → Needle) : (d.updNeedle f).faulty = d.faulty := rfl
@[simp] theorem updNeedle_lostStacks (d : Device) (f : Needle → Needle) : (d.updNeedle f).lostStacks = d.lostStacks := rfl
@[simp] theorem updNeedle_hostMem (d : Device) (f : Needle → Needle) : (d.updNeedle f).hostMem = d.hostMem := rfl
@[simp] theorem updNeedle_latches (d : Device) (f : Needle → Needle) : (d.updNeedle f).latches = d.latches := rfl
@[simp] theorem updNeedle_railsOut (d : Device) (f : Needle → Needle) : (d.updNeedle f).railsOut = d.railsOut := rfl
@[simp] theorem updNeedle_clocksOut (d : Device) (f : Needle → Needle) : (d.updNeedle f).clocksOut = d.clocksOut := rfl
@[simp] theorem updNeedle_ports (d : Device) (f : Needle → Needle) : (d.updNeedle f).ports = d.ports := rfl
@[simp] theorem updNeedle_fabric (d : Device) (f : Needle → Needle) : (d.updNeedle f).fabric = d.fabric := rfl
@[simp] theorem updNeedle_commit (d : Device) (f : Needle → Needle) : (d.updNeedle f).commit = d.commit := rfl
@[simp] theorem updNeedle_host (d : Device) (f : Needle → Needle) : (d.updNeedle f).host = d.host := rfl
@[simp] theorem updNeedle_reset (d : Device) (f : Needle → Needle) : (d.updNeedle f).reset = d.reset := rfl
@[simp] theorem updNeedle_frames (d : Device) (f : Needle → Needle) : (d.updNeedle f).frames = d.frames := rfl
@[simp] theorem updNeedle_power (d : Device) (f : Needle → Needle) : (d.updNeedle f).power = d.power := rfl
@[simp] theorem updNeedle_counters (d : Device) (f : Needle → Needle) : (d.updNeedle f).counters = d.counters := rfl
@[simp] theorem updNeedle_bodkin (d : Device) (f : Needle → Needle) : (d.updNeedle f).bodkin = d.bodkin := rfl
@[simp] theorem updNeedle_thimble (d : Device) (f : Needle → Needle) : (d.updNeedle f).thimble = d.thimble := rfl

@[simp] theorem failHeld_now (d : Device) (e : Code) : (d.failHeld e).now = d.now := rfl
@[simp] theorem failHeld_fresh (d : Device) (e : Code) : (d.failHeld e).fresh = d.fresh := rfl
@[simp] theorem failHeld_regs (d : Device) (e : Code) : (d.failHeld e).regs = d.regs := rfl
@[simp] theorem failHeld_needle (d : Device) (e : Code) : (d.failHeld e).needle = d.needle := rfl
@[simp] theorem failHeld_err (d : Device) (e : Code) : (d.failHeld e).err = d.err := rfl
@[simp] theorem failHeld_admitRing (d : Device) (e : Code) : (d.failHeld e).admitRing = d.admitRing := rfl
@[simp] theorem failHeld_panels (d : Device) (e : Code) : (d.failHeld e).panels = d.panels := rfl
@[simp] theorem failHeld_openRegions (d : Device) (e : Code) : (d.failHeld e).openRegions = d.openRegions := rfl
@[simp] theorem failHeld_unmapped (d : Device) (e : Code) : (d.failHeld e).unmapped = d.unmapped := rfl
@[simp] theorem failHeld_mem (d : Device) (e : Code) : (d.failHeld e).mem = d.mem := rfl
@[simp] theorem failHeld_poison (d : Device) (e : Code) : (d.failHeld e).poison = d.poison := rfl
@[simp] theorem failHeld_faulty (d : Device) (e : Code) : (d.failHeld e).faulty = d.faulty := rfl
@[simp] theorem failHeld_lostStacks (d : Device) (e : Code) : (d.failHeld e).lostStacks = d.lostStacks := rfl
@[simp] theorem failHeld_hostMem (d : Device) (e : Code) : (d.failHeld e).hostMem = d.hostMem := rfl
@[simp] theorem failHeld_latches (d : Device) (e : Code) : (d.failHeld e).latches = d.latches := rfl
@[simp] theorem failHeld_railsOut (d : Device) (e : Code) : (d.failHeld e).railsOut = d.railsOut := rfl
@[simp] theorem failHeld_clocksOut (d : Device) (e : Code) : (d.failHeld e).clocksOut = d.clocksOut := rfl
@[simp] theorem failHeld_ports (d : Device) (e : Code) : (d.failHeld e).ports = d.ports := rfl
@[simp] theorem failHeld_fabric (d : Device) (e : Code) : (d.failHeld e).fabric = d.fabric := rfl
@[simp] theorem failHeld_commit (d : Device) (e : Code) : (d.failHeld e).commit = d.commit := rfl
@[simp] theorem failHeld_host (d : Device) (e : Code) : (d.failHeld e).host = d.host := rfl
@[simp] theorem failHeld_reset (d : Device) (e : Code) : (d.failHeld e).reset = d.reset := rfl
@[simp] theorem failHeld_frames (d : Device) (e : Code) : (d.failHeld e).frames = d.frames := rfl
@[simp] theorem failHeld_power (d : Device) (e : Code) : (d.failHeld e).power = d.power := rfl
@[simp] theorem failHeld_counters (d : Device) (e : Code) : (d.failHeld e).counters = d.counters := rfl
@[simp] theorem failHeld_bodkin (d : Device) (e : Code) : (d.failHeld e).bodkin = d.bodkin := rfl
@[simp] theorem failHeld_thimble (d : Device) (e : Code) : (d.failHeld e).thimble = d.thimble := rfl

@[simp] theorem loadNeedle_now (d : Device) : (d.loadNeedle).now = d.now := rfl
@[simp] theorem loadNeedle_fresh (d : Device) : (d.loadNeedle).fresh = d.fresh := rfl
@[simp] theorem loadNeedle_regs (d : Device) : (d.loadNeedle).regs = d.regs := rfl
@[simp] theorem loadNeedle_err (d : Device) : (d.loadNeedle).err = d.err := rfl
@[simp] theorem loadNeedle_admitRing (d : Device) : (d.loadNeedle).admitRing = d.admitRing := rfl
@[simp] theorem loadNeedle_contexts (d : Device) : (d.loadNeedle).contexts = d.contexts := rfl
@[simp] theorem loadNeedle_panels (d : Device) : (d.loadNeedle).panels = d.panels := rfl
@[simp] theorem loadNeedle_openRegions (d : Device) : (d.loadNeedle).openRegions = d.openRegions := rfl
@[simp] theorem loadNeedle_unmapped (d : Device) : (d.loadNeedle).unmapped = d.unmapped := rfl
@[simp] theorem loadNeedle_mem (d : Device) : (d.loadNeedle).mem = d.mem := rfl
@[simp] theorem loadNeedle_poison (d : Device) : (d.loadNeedle).poison = d.poison := rfl
@[simp] theorem loadNeedle_faulty (d : Device) : (d.loadNeedle).faulty = d.faulty := rfl
@[simp] theorem loadNeedle_lostStacks (d : Device) : (d.loadNeedle).lostStacks = d.lostStacks := rfl
@[simp] theorem loadNeedle_hostMem (d : Device) : (d.loadNeedle).hostMem = d.hostMem := rfl
@[simp] theorem loadNeedle_latches (d : Device) : (d.loadNeedle).latches = d.latches := rfl
@[simp] theorem loadNeedle_railsOut (d : Device) : (d.loadNeedle).railsOut = d.railsOut := rfl
@[simp] theorem loadNeedle_clocksOut (d : Device) : (d.loadNeedle).clocksOut = d.clocksOut := rfl
@[simp] theorem loadNeedle_ports (d : Device) : (d.loadNeedle).ports = d.ports := rfl
@[simp] theorem loadNeedle_fabric (d : Device) : (d.loadNeedle).fabric = d.fabric := rfl
@[simp] theorem loadNeedle_commit (d : Device) : (d.loadNeedle).commit = d.commit := rfl
@[simp] theorem loadNeedle_host (d : Device) : (d.loadNeedle).host = d.host := rfl
@[simp] theorem loadNeedle_reset (d : Device) : (d.loadNeedle).reset = d.reset := rfl
@[simp] theorem loadNeedle_frames (d : Device) : (d.loadNeedle).frames = d.frames := rfl
@[simp] theorem loadNeedle_power (d : Device) : (d.loadNeedle).power = d.power := rfl
@[simp] theorem loadNeedle_counters (d : Device) : (d.loadNeedle).counters = d.counters := rfl
@[simp] theorem loadNeedle_bodkin (d : Device) : (d.loadNeedle).bodkin = d.bodkin := rfl
@[simp] theorem loadNeedle_thimble (d : Device) : (d.loadNeedle).thimble = d.thimble := rfl

@[simp] theorem needleTo_now (d : Device) (n : NeedleState) (e : Code) (o : Nat) : (d.needleTo n e o).now = d.now := by unfold Device.needleTo; simp only []; split <;> simp
@[simp] theorem needleTo_fresh (d : Device) (n : NeedleState) (e : Code) (o : Nat) : (d.needleTo n e o).fresh = d.fresh := by unfold Device.needleTo; simp only []; split <;> simp
@[simp] theorem needleTo_regs (d : Device) (n : NeedleState) (e : Code) (o : Nat) : (d.needleTo n e o).regs = d.regs := by unfold Device.needleTo; simp only []; split <;> simp
@[simp] theorem needleTo_admitRing (d : Device) (n : NeedleState) (e : Code) (o : Nat) : (d.needleTo n e o).admitRing = d.admitRing := by unfold Device.needleTo; simp only []; split <;> simp
@[simp] theorem needleTo_panels (d : Device) (n : NeedleState) (e : Code) (o : Nat) : (d.needleTo n e o).panels = d.panels := by unfold Device.needleTo; simp only []; split <;> simp
@[simp] theorem needleTo_openRegions (d : Device) (n : NeedleState) (e : Code) (o : Nat) : (d.needleTo n e o).openRegions = d.openRegions := by unfold Device.needleTo; simp only []; split <;> simp
@[simp] theorem needleTo_unmapped (d : Device) (n : NeedleState) (e : Code) (o : Nat) : (d.needleTo n e o).unmapped = d.unmapped := by unfold Device.needleTo; simp only []; split <;> simp
@[simp] theorem needleTo_mem (d : Device) (n : NeedleState) (e : Code) (o : Nat) : (d.needleTo n e o).mem = d.mem := by unfold Device.needleTo; simp only []; split <;> simp
@[simp] theorem needleTo_poison (d : Device) (n : NeedleState) (e : Code) (o : Nat) : (d.needleTo n e o).poison = d.poison := by unfold Device.needleTo; simp only []; split <;> simp
@[simp] theorem needleTo_faulty (d : Device) (n : NeedleState) (e : Code) (o : Nat) : (d.needleTo n e o).faulty = d.faulty := by unfold Device.needleTo; simp only []; split <;> simp
@[simp] theorem needleTo_lostStacks (d : Device) (n : NeedleState) (e : Code) (o : Nat) : (d.needleTo n e o).lostStacks = d.lostStacks := by unfold Device.needleTo; simp only []; split <;> simp
@[simp] theorem needleTo_hostMem (d : Device) (n : NeedleState) (e : Code) (o : Nat) : (d.needleTo n e o).hostMem = d.hostMem := by unfold Device.needleTo; simp only []; split <;> simp
@[simp] theorem needleTo_latches (d : Device) (n : NeedleState) (e : Code) (o : Nat) : (d.needleTo n e o).latches = d.latches := by unfold Device.needleTo; simp only []; split <;> simp
@[simp] theorem needleTo_railsOut (d : Device) (n : NeedleState) (e : Code) (o : Nat) : (d.needleTo n e o).railsOut = d.railsOut := by unfold Device.needleTo; simp only []; split <;> simp
@[simp] theorem needleTo_clocksOut (d : Device) (n : NeedleState) (e : Code) (o : Nat) : (d.needleTo n e o).clocksOut = d.clocksOut := by unfold Device.needleTo; simp only []; split <;> simp
@[simp] theorem needleTo_ports (d : Device) (n : NeedleState) (e : Code) (o : Nat) : (d.needleTo n e o).ports = d.ports := by unfold Device.needleTo; simp only []; split <;> simp
@[simp] theorem needleTo_fabric (d : Device) (n : NeedleState) (e : Code) (o : Nat) : (d.needleTo n e o).fabric = d.fabric := by unfold Device.needleTo; simp only []; split <;> simp
@[simp] theorem needleTo_commit (d : Device) (n : NeedleState) (e : Code) (o : Nat) : (d.needleTo n e o).commit = d.commit := by unfold Device.needleTo; simp only []; split <;> simp
@[simp] theorem needleTo_host (d : Device) (n : NeedleState) (e : Code) (o : Nat) : (d.needleTo n e o).host = d.host := by unfold Device.needleTo; simp only []; split <;> simp
@[simp] theorem needleTo_reset (d : Device) (n : NeedleState) (e : Code) (o : Nat) : (d.needleTo n e o).reset = d.reset := by unfold Device.needleTo; simp only []; split <;> simp
@[simp] theorem needleTo_frames (d : Device) (n : NeedleState) (e : Code) (o : Nat) : (d.needleTo n e o).frames = d.frames := by unfold Device.needleTo; simp only []; split <;> simp
@[simp] theorem needleTo_power (d : Device) (n : NeedleState) (e : Code) (o : Nat) : (d.needleTo n e o).power = d.power := by unfold Device.needleTo; simp only []; split <;> simp
@[simp] theorem needleTo_counters (d : Device) (n : NeedleState) (e : Code) (o : Nat) : (d.needleTo n e o).counters = d.counters := by unfold Device.needleTo; simp only []; split <;> simp
@[simp] theorem needleTo_bodkin (d : Device) (n : NeedleState) (e : Code) (o : Nat) : (d.needleTo n e o).bodkin = d.bodkin := by unfold Device.needleTo; simp only []; split <;> simp
@[simp] theorem needleTo_thimble (d : Device) (n : NeedleState) (e : Code) (o : Nat) : (d.needleTo n e o).thimble = d.thimble := by unfold Device.needleTo; simp only []; split <;> simp

@[simp] theorem updPower_now (d : Device) (p : PanelId) (f : PanelPower → PanelPower) : (d.updPower p f).now = d.now := rfl
@[simp] theorem updPower_fresh (d : Device) (p : PanelId) (f : PanelPower → PanelPower) : (d.updPower p f).fresh = d.fresh := rfl
@[simp] theorem updPower_regs (d : Device) (p : PanelId) (f : PanelPower → PanelPower) : (d.updPower p f).regs = d.regs := rfl
@[simp] theorem updPower_needle (d : Device) (p : PanelId) (f : PanelPower → PanelPower) : (d.updPower p f).needle = d.needle := rfl
@[simp] theorem updPower_err (d : Device) (p : PanelId) (f : PanelPower → PanelPower) : (d.updPower p f).err = d.err := rfl
@[simp] theorem updPower_admitRing (d : Device) (p : PanelId) (f : PanelPower → PanelPower) : (d.updPower p f).admitRing = d.admitRing := rfl
@[simp] theorem updPower_contexts (d : Device) (p : PanelId) (f : PanelPower → PanelPower) : (d.updPower p f).contexts = d.contexts := rfl
@[simp] theorem updPower_panels (d : Device) (p : PanelId) (f : PanelPower → PanelPower) : (d.updPower p f).panels = d.panels := rfl
@[simp] theorem updPower_openRegions (d : Device) (p : PanelId) (f : PanelPower → PanelPower) : (d.updPower p f).openRegions = d.openRegions := rfl
@[simp] theorem updPower_unmapped (d : Device) (p : PanelId) (f : PanelPower → PanelPower) : (d.updPower p f).unmapped = d.unmapped := rfl
@[simp] theorem updPower_mem (d : Device) (p : PanelId) (f : PanelPower → PanelPower) : (d.updPower p f).mem = d.mem := rfl
@[simp] theorem updPower_poison (d : Device) (p : PanelId) (f : PanelPower → PanelPower) : (d.updPower p f).poison = d.poison := rfl
@[simp] theorem updPower_faulty (d : Device) (p : PanelId) (f : PanelPower → PanelPower) : (d.updPower p f).faulty = d.faulty := rfl
@[simp] theorem updPower_lostStacks (d : Device) (p : PanelId) (f : PanelPower → PanelPower) : (d.updPower p f).lostStacks = d.lostStacks := rfl
@[simp] theorem updPower_hostMem (d : Device) (p : PanelId) (f : PanelPower → PanelPower) : (d.updPower p f).hostMem = d.hostMem := rfl
@[simp] theorem updPower_latches (d : Device) (p : PanelId) (f : PanelPower → PanelPower) : (d.updPower p f).latches = d.latches := rfl
@[simp] theorem updPower_railsOut (d : Device) (p : PanelId) (f : PanelPower → PanelPower) : (d.updPower p f).railsOut = d.railsOut := rfl
@[simp] theorem updPower_clocksOut (d : Device) (p : PanelId) (f : PanelPower → PanelPower) : (d.updPower p f).clocksOut = d.clocksOut := rfl
@[simp] theorem updPower_ports (d : Device) (p : PanelId) (f : PanelPower → PanelPower) : (d.updPower p f).ports = d.ports := rfl
@[simp] theorem updPower_fabric (d : Device) (p : PanelId) (f : PanelPower → PanelPower) : (d.updPower p f).fabric = d.fabric := rfl
@[simp] theorem updPower_commit (d : Device) (p : PanelId) (f : PanelPower → PanelPower) : (d.updPower p f).commit = d.commit := rfl
@[simp] theorem updPower_host (d : Device) (p : PanelId) (f : PanelPower → PanelPower) : (d.updPower p f).host = d.host := rfl
@[simp] theorem updPower_reset (d : Device) (p : PanelId) (f : PanelPower → PanelPower) : (d.updPower p f).reset = d.reset := rfl
@[simp] theorem updPower_frames (d : Device) (p : PanelId) (f : PanelPower → PanelPower) : (d.updPower p f).frames = d.frames := rfl
@[simp] theorem updPower_counters (d : Device) (p : PanelId) (f : PanelPower → PanelPower) : (d.updPower p f).counters = d.counters := rfl
@[simp] theorem updPower_bodkin (d : Device) (p : PanelId) (f : PanelPower → PanelPower) : (d.updPower p f).bodkin = d.bodkin := rfl
@[simp] theorem updPower_thimble (d : Device) (p : PanelId) (f : PanelPower → PanelPower) : (d.updPower p f).thimble = d.thimble := rfl

@[simp] theorem updHost_now (d : Device) (f : HostLink → HostLink) : (d.updHost f).now = d.now := rfl
@[simp] theorem updHost_fresh (d : Device) (f : HostLink → HostLink) : (d.updHost f).fresh = d.fresh := rfl
@[simp] theorem updHost_regs (d : Device) (f : HostLink → HostLink) : (d.updHost f).regs = d.regs := rfl
@[simp] theorem updHost_needle (d : Device) (f : HostLink → HostLink) : (d.updHost f).needle = d.needle := rfl
@[simp] theorem updHost_err (d : Device) (f : HostLink → HostLink) : (d.updHost f).err = d.err := rfl
@[simp] theorem updHost_admitRing (d : Device) (f : HostLink → HostLink) : (d.updHost f).admitRing = d.admitRing := rfl
@[simp] theorem updHost_contexts (d : Device) (f : HostLink → HostLink) : (d.updHost f).contexts = d.contexts := rfl
@[simp] theorem updHost_panels (d : Device) (f : HostLink → HostLink) : (d.updHost f).panels = d.panels := rfl
@[simp] theorem updHost_openRegions (d : Device) (f : HostLink → HostLink) : (d.updHost f).openRegions = d.openRegions := rfl
@[simp] theorem updHost_unmapped (d : Device) (f : HostLink → HostLink) : (d.updHost f).unmapped = d.unmapped := rfl
@[simp] theorem updHost_mem (d : Device) (f : HostLink → HostLink) : (d.updHost f).mem = d.mem := rfl
@[simp] theorem updHost_poison (d : Device) (f : HostLink → HostLink) : (d.updHost f).poison = d.poison := rfl
@[simp] theorem updHost_faulty (d : Device) (f : HostLink → HostLink) : (d.updHost f).faulty = d.faulty := rfl
@[simp] theorem updHost_lostStacks (d : Device) (f : HostLink → HostLink) : (d.updHost f).lostStacks = d.lostStacks := rfl
@[simp] theorem updHost_hostMem (d : Device) (f : HostLink → HostLink) : (d.updHost f).hostMem = d.hostMem := rfl
@[simp] theorem updHost_latches (d : Device) (f : HostLink → HostLink) : (d.updHost f).latches = d.latches := rfl
@[simp] theorem updHost_railsOut (d : Device) (f : HostLink → HostLink) : (d.updHost f).railsOut = d.railsOut := rfl
@[simp] theorem updHost_clocksOut (d : Device) (f : HostLink → HostLink) : (d.updHost f).clocksOut = d.clocksOut := rfl
@[simp] theorem updHost_ports (d : Device) (f : HostLink → HostLink) : (d.updHost f).ports = d.ports := rfl
@[simp] theorem updHost_fabric (d : Device) (f : HostLink → HostLink) : (d.updHost f).fabric = d.fabric := rfl
@[simp] theorem updHost_commit (d : Device) (f : HostLink → HostLink) : (d.updHost f).commit = d.commit := rfl
@[simp] theorem updHost_reset (d : Device) (f : HostLink → HostLink) : (d.updHost f).reset = d.reset := rfl
@[simp] theorem updHost_frames (d : Device) (f : HostLink → HostLink) : (d.updHost f).frames = d.frames := rfl
@[simp] theorem updHost_power (d : Device) (f : HostLink → HostLink) : (d.updHost f).power = d.power := rfl
@[simp] theorem updHost_counters (d : Device) (f : HostLink → HostLink) : (d.updHost f).counters = d.counters := rfl
@[simp] theorem updHost_bodkin (d : Device) (f : HostLink → HostLink) : (d.updHost f).bodkin = d.bodkin := rfl
@[simp] theorem updHost_thimble (d : Device) (f : HostLink → HostLink) : (d.updHost f).thimble = d.thimble := rfl

@[simp] theorem updBodkin_now (d : Device) (f : Bodkin → Bodkin) : (d.updBodkin f).now = d.now := rfl
@[simp] theorem updBodkin_fresh (d : Device) (f : Bodkin → Bodkin) : (d.updBodkin f).fresh = d.fresh := rfl
@[simp] theorem updBodkin_regs (d : Device) (f : Bodkin → Bodkin) : (d.updBodkin f).regs = d.regs := rfl
@[simp] theorem updBodkin_needle (d : Device) (f : Bodkin → Bodkin) : (d.updBodkin f).needle = d.needle := rfl
@[simp] theorem updBodkin_err (d : Device) (f : Bodkin → Bodkin) : (d.updBodkin f).err = d.err := rfl
@[simp] theorem updBodkin_admitRing (d : Device) (f : Bodkin → Bodkin) : (d.updBodkin f).admitRing = d.admitRing := rfl
@[simp] theorem updBodkin_contexts (d : Device) (f : Bodkin → Bodkin) : (d.updBodkin f).contexts = d.contexts := rfl
@[simp] theorem updBodkin_panels (d : Device) (f : Bodkin → Bodkin) : (d.updBodkin f).panels = d.panels := rfl
@[simp] theorem updBodkin_openRegions (d : Device) (f : Bodkin → Bodkin) : (d.updBodkin f).openRegions = d.openRegions := rfl
@[simp] theorem updBodkin_unmapped (d : Device) (f : Bodkin → Bodkin) : (d.updBodkin f).unmapped = d.unmapped := rfl
@[simp] theorem updBodkin_mem (d : Device) (f : Bodkin → Bodkin) : (d.updBodkin f).mem = d.mem := rfl
@[simp] theorem updBodkin_poison (d : Device) (f : Bodkin → Bodkin) : (d.updBodkin f).poison = d.poison := rfl
@[simp] theorem updBodkin_faulty (d : Device) (f : Bodkin → Bodkin) : (d.updBodkin f).faulty = d.faulty := rfl
@[simp] theorem updBodkin_lostStacks (d : Device) (f : Bodkin → Bodkin) : (d.updBodkin f).lostStacks = d.lostStacks := rfl
@[simp] theorem updBodkin_hostMem (d : Device) (f : Bodkin → Bodkin) : (d.updBodkin f).hostMem = d.hostMem := rfl
@[simp] theorem updBodkin_latches (d : Device) (f : Bodkin → Bodkin) : (d.updBodkin f).latches = d.latches := rfl
@[simp] theorem updBodkin_railsOut (d : Device) (f : Bodkin → Bodkin) : (d.updBodkin f).railsOut = d.railsOut := rfl
@[simp] theorem updBodkin_clocksOut (d : Device) (f : Bodkin → Bodkin) : (d.updBodkin f).clocksOut = d.clocksOut := rfl
@[simp] theorem updBodkin_ports (d : Device) (f : Bodkin → Bodkin) : (d.updBodkin f).ports = d.ports := rfl
@[simp] theorem updBodkin_fabric (d : Device) (f : Bodkin → Bodkin) : (d.updBodkin f).fabric = d.fabric := rfl
@[simp] theorem updBodkin_commit (d : Device) (f : Bodkin → Bodkin) : (d.updBodkin f).commit = d.commit := rfl
@[simp] theorem updBodkin_host (d : Device) (f : Bodkin → Bodkin) : (d.updBodkin f).host = d.host := rfl
@[simp] theorem updBodkin_reset (d : Device) (f : Bodkin → Bodkin) : (d.updBodkin f).reset = d.reset := rfl
@[simp] theorem updBodkin_frames (d : Device) (f : Bodkin → Bodkin) : (d.updBodkin f).frames = d.frames := rfl
@[simp] theorem updBodkin_power (d : Device) (f : Bodkin → Bodkin) : (d.updBodkin f).power = d.power := rfl
@[simp] theorem updBodkin_counters (d : Device) (f : Bodkin → Bodkin) : (d.updBodkin f).counters = d.counters := rfl
@[simp] theorem updBodkin_thimble (d : Device) (f : Bodkin → Bodkin) : (d.updBodkin f).thimble = d.thimble := rfl

@[simp] theorem updCounters_now (d : Device) (f : Counters → Counters) : (d.updCounters f).now = d.now := rfl
@[simp] theorem updCounters_fresh (d : Device) (f : Counters → Counters) : (d.updCounters f).fresh = d.fresh := rfl
@[simp] theorem updCounters_regs (d : Device) (f : Counters → Counters) : (d.updCounters f).regs = d.regs := rfl
@[simp] theorem updCounters_needle (d : Device) (f : Counters → Counters) : (d.updCounters f).needle = d.needle := rfl
@[simp] theorem updCounters_err (d : Device) (f : Counters → Counters) : (d.updCounters f).err = d.err := rfl
@[simp] theorem updCounters_admitRing (d : Device) (f : Counters → Counters) : (d.updCounters f).admitRing = d.admitRing := rfl
@[simp] theorem updCounters_contexts (d : Device) (f : Counters → Counters) : (d.updCounters f).contexts = d.contexts := rfl
@[simp] theorem updCounters_panels (d : Device) (f : Counters → Counters) : (d.updCounters f).panels = d.panels := rfl
@[simp] theorem updCounters_openRegions (d : Device) (f : Counters → Counters) : (d.updCounters f).openRegions = d.openRegions := rfl
@[simp] theorem updCounters_unmapped (d : Device) (f : Counters → Counters) : (d.updCounters f).unmapped = d.unmapped := rfl
@[simp] theorem updCounters_mem (d : Device) (f : Counters → Counters) : (d.updCounters f).mem = d.mem := rfl
@[simp] theorem updCounters_poison (d : Device) (f : Counters → Counters) : (d.updCounters f).poison = d.poison := rfl
@[simp] theorem updCounters_faulty (d : Device) (f : Counters → Counters) : (d.updCounters f).faulty = d.faulty := rfl
@[simp] theorem updCounters_lostStacks (d : Device) (f : Counters → Counters) : (d.updCounters f).lostStacks = d.lostStacks := rfl
@[simp] theorem updCounters_hostMem (d : Device) (f : Counters → Counters) : (d.updCounters f).hostMem = d.hostMem := rfl
@[simp] theorem updCounters_latches (d : Device) (f : Counters → Counters) : (d.updCounters f).latches = d.latches := rfl
@[simp] theorem updCounters_railsOut (d : Device) (f : Counters → Counters) : (d.updCounters f).railsOut = d.railsOut := rfl
@[simp] theorem updCounters_clocksOut (d : Device) (f : Counters → Counters) : (d.updCounters f).clocksOut = d.clocksOut := rfl
@[simp] theorem updCounters_ports (d : Device) (f : Counters → Counters) : (d.updCounters f).ports = d.ports := rfl
@[simp] theorem updCounters_fabric (d : Device) (f : Counters → Counters) : (d.updCounters f).fabric = d.fabric := rfl
@[simp] theorem updCounters_commit (d : Device) (f : Counters → Counters) : (d.updCounters f).commit = d.commit := rfl
@[simp] theorem updCounters_host (d : Device) (f : Counters → Counters) : (d.updCounters f).host = d.host := rfl
@[simp] theorem updCounters_reset (d : Device) (f : Counters → Counters) : (d.updCounters f).reset = d.reset := rfl
@[simp] theorem updCounters_frames (d : Device) (f : Counters → Counters) : (d.updCounters f).frames = d.frames := rfl
@[simp] theorem updCounters_power (d : Device) (f : Counters → Counters) : (d.updCounters f).power = d.power := rfl
@[simp] theorem updCounters_bodkin (d : Device) (f : Counters → Counters) : (d.updCounters f).bodkin = d.bodkin := rfl
@[simp] theorem updCounters_thimble (d : Device) (f : Counters → Counters) : (d.updCounters f).thimble = d.thimble := rfl

@[simp] theorem updThimble_now (d : Device) (f : Thimble → Thimble) : (d.updThimble f).now = d.now := rfl
@[simp] theorem updThimble_fresh (d : Device) (f : Thimble → Thimble) : (d.updThimble f).fresh = d.fresh := rfl
@[simp] theorem updThimble_regs (d : Device) (f : Thimble → Thimble) : (d.updThimble f).regs = d.regs := rfl
@[simp] theorem updThimble_needle (d : Device) (f : Thimble → Thimble) : (d.updThimble f).needle = d.needle := rfl
@[simp] theorem updThimble_err (d : Device) (f : Thimble → Thimble) : (d.updThimble f).err = d.err := rfl
@[simp] theorem updThimble_admitRing (d : Device) (f : Thimble → Thimble) : (d.updThimble f).admitRing = d.admitRing := rfl
@[simp] theorem updThimble_contexts (d : Device) (f : Thimble → Thimble) : (d.updThimble f).contexts = d.contexts := rfl
@[simp] theorem updThimble_panels (d : Device) (f : Thimble → Thimble) : (d.updThimble f).panels = d.panels := rfl
@[simp] theorem updThimble_openRegions (d : Device) (f : Thimble → Thimble) : (d.updThimble f).openRegions = d.openRegions := rfl
@[simp] theorem updThimble_unmapped (d : Device) (f : Thimble → Thimble) : (d.updThimble f).unmapped = d.unmapped := rfl
@[simp] theorem updThimble_mem (d : Device) (f : Thimble → Thimble) : (d.updThimble f).mem = d.mem := rfl
@[simp] theorem updThimble_poison (d : Device) (f : Thimble → Thimble) : (d.updThimble f).poison = d.poison := rfl
@[simp] theorem updThimble_faulty (d : Device) (f : Thimble → Thimble) : (d.updThimble f).faulty = d.faulty := rfl
@[simp] theorem updThimble_lostStacks (d : Device) (f : Thimble → Thimble) : (d.updThimble f).lostStacks = d.lostStacks := rfl
@[simp] theorem updThimble_hostMem (d : Device) (f : Thimble → Thimble) : (d.updThimble f).hostMem = d.hostMem := rfl
@[simp] theorem updThimble_latches (d : Device) (f : Thimble → Thimble) : (d.updThimble f).latches = d.latches := rfl
@[simp] theorem updThimble_railsOut (d : Device) (f : Thimble → Thimble) : (d.updThimble f).railsOut = d.railsOut := rfl
@[simp] theorem updThimble_clocksOut (d : Device) (f : Thimble → Thimble) : (d.updThimble f).clocksOut = d.clocksOut := rfl
@[simp] theorem updThimble_ports (d : Device) (f : Thimble → Thimble) : (d.updThimble f).ports = d.ports := rfl
@[simp] theorem updThimble_fabric (d : Device) (f : Thimble → Thimble) : (d.updThimble f).fabric = d.fabric := rfl
@[simp] theorem updThimble_commit (d : Device) (f : Thimble → Thimble) : (d.updThimble f).commit = d.commit := rfl
@[simp] theorem updThimble_host (d : Device) (f : Thimble → Thimble) : (d.updThimble f).host = d.host := rfl
@[simp] theorem updThimble_reset (d : Device) (f : Thimble → Thimble) : (d.updThimble f).reset = d.reset := rfl
@[simp] theorem updThimble_frames (d : Device) (f : Thimble → Thimble) : (d.updThimble f).frames = d.frames := rfl
@[simp] theorem updThimble_power (d : Device) (f : Thimble → Thimble) : (d.updThimble f).power = d.power := rfl
@[simp] theorem updThimble_counters (d : Device) (f : Thimble → Thimble) : (d.updThimble f).counters = d.counters := rfl
@[simp] theorem updThimble_bodkin (d : Device) (f : Thimble → Thimble) : (d.updThimble f).bodkin = d.bodkin := rfl

@[simp] theorem updRegs_now (d : Device) (f : HubRegs → HubRegs) : (d.updRegs f).now = d.now := rfl
@[simp] theorem updRegs_fresh (d : Device) (f : HubRegs → HubRegs) : (d.updRegs f).fresh = d.fresh := rfl
@[simp] theorem updRegs_needle (d : Device) (f : HubRegs → HubRegs) : (d.updRegs f).needle = d.needle := rfl
@[simp] theorem updRegs_err (d : Device) (f : HubRegs → HubRegs) : (d.updRegs f).err = d.err := rfl
@[simp] theorem updRegs_admitRing (d : Device) (f : HubRegs → HubRegs) : (d.updRegs f).admitRing = d.admitRing := rfl
@[simp] theorem updRegs_contexts (d : Device) (f : HubRegs → HubRegs) : (d.updRegs f).contexts = d.contexts := rfl
@[simp] theorem updRegs_panels (d : Device) (f : HubRegs → HubRegs) : (d.updRegs f).panels = d.panels := rfl
@[simp] theorem updRegs_openRegions (d : Device) (f : HubRegs → HubRegs) : (d.updRegs f).openRegions = d.openRegions := rfl
@[simp] theorem updRegs_unmapped (d : Device) (f : HubRegs → HubRegs) : (d.updRegs f).unmapped = d.unmapped := rfl
@[simp] theorem updRegs_mem (d : Device) (f : HubRegs → HubRegs) : (d.updRegs f).mem = d.mem := rfl
@[simp] theorem updRegs_poison (d : Device) (f : HubRegs → HubRegs) : (d.updRegs f).poison = d.poison := rfl
@[simp] theorem updRegs_faulty (d : Device) (f : HubRegs → HubRegs) : (d.updRegs f).faulty = d.faulty := rfl
@[simp] theorem updRegs_lostStacks (d : Device) (f : HubRegs → HubRegs) : (d.updRegs f).lostStacks = d.lostStacks := rfl
@[simp] theorem updRegs_hostMem (d : Device) (f : HubRegs → HubRegs) : (d.updRegs f).hostMem = d.hostMem := rfl
@[simp] theorem updRegs_latches (d : Device) (f : HubRegs → HubRegs) : (d.updRegs f).latches = d.latches := rfl
@[simp] theorem updRegs_railsOut (d : Device) (f : HubRegs → HubRegs) : (d.updRegs f).railsOut = d.railsOut := rfl
@[simp] theorem updRegs_clocksOut (d : Device) (f : HubRegs → HubRegs) : (d.updRegs f).clocksOut = d.clocksOut := rfl
@[simp] theorem updRegs_ports (d : Device) (f : HubRegs → HubRegs) : (d.updRegs f).ports = d.ports := rfl
@[simp] theorem updRegs_fabric (d : Device) (f : HubRegs → HubRegs) : (d.updRegs f).fabric = d.fabric := rfl
@[simp] theorem updRegs_commit (d : Device) (f : HubRegs → HubRegs) : (d.updRegs f).commit = d.commit := rfl
@[simp] theorem updRegs_host (d : Device) (f : HubRegs → HubRegs) : (d.updRegs f).host = d.host := rfl
@[simp] theorem updRegs_reset (d : Device) (f : HubRegs → HubRegs) : (d.updRegs f).reset = d.reset := rfl
@[simp] theorem updRegs_frames (d : Device) (f : HubRegs → HubRegs) : (d.updRegs f).frames = d.frames := rfl
@[simp] theorem updRegs_power (d : Device) (f : HubRegs → HubRegs) : (d.updRegs f).power = d.power := rfl
@[simp] theorem updRegs_counters (d : Device) (f : HubRegs → HubRegs) : (d.updRegs f).counters = d.counters := rfl
@[simp] theorem updRegs_bodkin (d : Device) (f : HubRegs → HubRegs) : (d.updRegs f).bodkin = d.bodkin := rfl
@[simp] theorem updRegs_thimble (d : Device) (f : HubRegs → HubRegs) : (d.updRegs f).thimble = d.thimble := rfl

@[simp] theorem updCart_now (d : Device) (k : CartId) (f : Cartridge → Cartridge) : (d.updCart k f).now = d.now := rfl
@[simp] theorem updCart_fresh (d : Device) (k : CartId) (f : Cartridge → Cartridge) : (d.updCart k f).fresh = d.fresh := rfl
@[simp] theorem updCart_regs (d : Device) (k : CartId) (f : Cartridge → Cartridge) : (d.updCart k f).regs = d.regs := rfl
@[simp] theorem updCart_needle (d : Device) (k : CartId) (f : Cartridge → Cartridge) : (d.updCart k f).needle = d.needle := rfl
@[simp] theorem updCart_err (d : Device) (k : CartId) (f : Cartridge → Cartridge) : (d.updCart k f).err = d.err := rfl
@[simp] theorem updCart_admitRing (d : Device) (k : CartId) (f : Cartridge → Cartridge) : (d.updCart k f).admitRing = d.admitRing := rfl
@[simp] theorem updCart_contexts (d : Device) (k : CartId) (f : Cartridge → Cartridge) : (d.updCart k f).contexts = d.contexts := rfl
@[simp] theorem updCart_panels (d : Device) (k : CartId) (f : Cartridge → Cartridge) : (d.updCart k f).panels = d.panels := rfl
@[simp] theorem updCart_openRegions (d : Device) (k : CartId) (f : Cartridge → Cartridge) : (d.updCart k f).openRegions = d.openRegions := rfl
@[simp] theorem updCart_unmapped (d : Device) (k : CartId) (f : Cartridge → Cartridge) : (d.updCart k f).unmapped = d.unmapped := rfl
@[simp] theorem updCart_mem (d : Device) (k : CartId) (f : Cartridge → Cartridge) : (d.updCart k f).mem = d.mem := rfl
@[simp] theorem updCart_poison (d : Device) (k : CartId) (f : Cartridge → Cartridge) : (d.updCart k f).poison = d.poison := rfl
@[simp] theorem updCart_faulty (d : Device) (k : CartId) (f : Cartridge → Cartridge) : (d.updCart k f).faulty = d.faulty := rfl
@[simp] theorem updCart_lostStacks (d : Device) (k : CartId) (f : Cartridge → Cartridge) : (d.updCart k f).lostStacks = d.lostStacks := rfl
@[simp] theorem updCart_hostMem (d : Device) (k : CartId) (f : Cartridge → Cartridge) : (d.updCart k f).hostMem = d.hostMem := rfl
@[simp] theorem updCart_latches (d : Device) (k : CartId) (f : Cartridge → Cartridge) : (d.updCart k f).latches = d.latches := rfl
@[simp] theorem updCart_railsOut (d : Device) (k : CartId) (f : Cartridge → Cartridge) : (d.updCart k f).railsOut = d.railsOut := rfl
@[simp] theorem updCart_clocksOut (d : Device) (k : CartId) (f : Cartridge → Cartridge) : (d.updCart k f).clocksOut = d.clocksOut := rfl
@[simp] theorem updCart_ports (d : Device) (k : CartId) (f : Cartridge → Cartridge) : (d.updCart k f).ports = d.ports := rfl
@[simp] theorem updCart_commit (d : Device) (k : CartId) (f : Cartridge → Cartridge) : (d.updCart k f).commit = d.commit := rfl
@[simp] theorem updCart_host (d : Device) (k : CartId) (f : Cartridge → Cartridge) : (d.updCart k f).host = d.host := rfl
@[simp] theorem updCart_reset (d : Device) (k : CartId) (f : Cartridge → Cartridge) : (d.updCart k f).reset = d.reset := rfl
@[simp] theorem updCart_frames (d : Device) (k : CartId) (f : Cartridge → Cartridge) : (d.updCart k f).frames = d.frames := rfl
@[simp] theorem updCart_power (d : Device) (k : CartId) (f : Cartridge → Cartridge) : (d.updCart k f).power = d.power := rfl
@[simp] theorem updCart_counters (d : Device) (k : CartId) (f : Cartridge → Cartridge) : (d.updCart k f).counters = d.counters := rfl
@[simp] theorem updCart_bodkin (d : Device) (k : CartId) (f : Cartridge → Cartridge) : (d.updCart k f).bodkin = d.bodkin := rfl
@[simp] theorem updCart_thimble (d : Device) (k : CartId) (f : Cartridge → Cartridge) : (d.updCart k f).thimble = d.thimble := rfl

/-! ## The parts that updates change -/

@[simp] theorem updNeedle_needle (d : Device) (f : Needle → Needle) : (d.updNeedle f).needle = f d.needle := rfl
@[simp] theorem updHost_host (d : Device) (f : HostLink → HostLink) : (d.updHost f).host = f d.host := rfl
@[simp] theorem updBodkin_bodkin (d : Device) (f : Bodkin → Bodkin) : (d.updBodkin f).bodkin = f d.bodkin := rfl
@[simp] theorem updCounters_counters (d : Device) (f : Counters → Counters) : (d.updCounters f).counters = f d.counters := rfl
@[simp] theorem updThimble_thimble (d : Device) (f : Thimble → Thimble) : (d.updThimble f).thimble = f d.thimble := rfl
@[simp] theorem updRegs_regs (d : Device) (f : HubRegs → HubRegs) : (d.updRegs f).regs = f d.regs := rfl

/-- A panel after it has been changed. -/
@[simp] theorem updPanel_panel (d : Device) (p : PanelId) (f : Panel → Panel) : (d.updPanel p f).panel p = f (d.panel p) := by
  simp [Device.updPanel, Device.panel]

/-- Another panel is as it was. -/
theorem updPanel_other (d : Device) {p q : PanelId} (h : q ≠ p) (f : Panel → Panel) : (d.updPanel p f).panel q = d.panel q := by
  have : p.val ≠ q.val := fun e => h (Fin.ext e.symm)
  simp [Device.updPanel, Device.panel, this]

/-- The memory part of a panel after it has been changed. -/
@[simp] theorem updPMem_panel (d : Device) (p : PanelId) (f : PanelMem → PanelMem) :
    (d.updPMem p f).panel p = { d.panel p with mem := f (d.panel p).mem } := by
  simp [Device.updPMem]

/-- Every panel after all have been changed. -/
@[simp] theorem mapPanels_panel (d : Device) (f : PanelId → Panel → Panel) (p : PanelId) :
    (d.mapPanels f).panel p = f p (d.panel p) := by
  simp [Device.mapPanels, Device.panel]

/-- A port after it has been changed. -/
@[simp] theorem updPort_port (d : Device) (n : PortId) (f : Port → Port) : (d.updPort n f).port n = f (d.port n) := by
  simp [Device.updPort, Device.port]

/-- Another port is as it was. -/
theorem updPort_other (d : Device) {n m : PortId} (h : m ≠ n) (f : Port → Port) : (d.updPort n f).port m = d.port m := by
  have : n.val ≠ m.val := fun e => h (Fin.ext e.symm)
  simp [Device.updPort, Device.port, this]

/-- A list of contexts after one has been changed by a function that keeps its identifier. -/
theorem find_updCtxIn (id : Code) {f : Context → Context} (hf : ∀ c, (f c).id = c.id) (l : List Context) :
    (updCtxIn id f l).find? (fun c => c.id = id) = (l.find? (fun c => c.id = id)).map f := by
  induction l with
  | nil => rfl
  | cons c cs ih =>
    by_cases h : c.id = id
    · simp [updCtxIn, h, hf]
    · simp [updCtxIn, h, ih]

/-- A list of contexts after another one has been changed. -/
theorem find_updCtxIn_other {id j : Code} (h : j ≠ id) {f : Context → Context} (hf : ∀ c, (f c).id = c.id) (l : List Context) :
    (updCtxIn id f l).find? (fun c => c.id = j) = l.find? (fun c => c.id = j) := by
  induction l with
  | nil => rfl
  | cons c cs ih =>
    by_cases e : c.id = id
    · have : c.id ≠ j := fun x => h (x.symm.trans e)
      have t : ¬ id = j := fun x => h x.symm
      simp [updCtxIn, e, hf, t]
    · by_cases k : c.id = j
      · simp [updCtxIn, k, h]
      · simp [updCtxIn, e, k, ih]

/-- An admitted context after it has been changed. -/
theorem updCtx_ctx (d : Device) (id : Code) {f : Context → Context} (hf : ∀ c, (f c).id = c.id) :
    (d.updCtx id f).ctx? id = (d.ctx? id).map f := find_updCtxIn id hf d.contexts

/-- Another context is as it was. -/
theorem updCtx_other (d : Device) {id j : Code} (h : j ≠ id) {f : Context → Context} (hf : ∀ c, (f c).id = c.id) :
    (d.updCtx id f).ctx? j = d.ctx? j := find_updCtxIn_other h hf d.contexts

/-- A context after one of its rings has been changed. -/
@[simp] theorem updRing_ctx (d : Device) (id : Code) (n : RingId) (f : Ring → Ring) :
    (d.updRing id n f).ctx? id = (d.ctx? id).map (fun c => { c with rings := c.rings.modify n.val f }) :=
  updCtx_ctx d id (fun _ => rfl)

/-- A ring after it has been changed. -/
@[simp] theorem updRing_ring (d : Device) (id : Code) (n : RingId) (f : Ring → Ring) :
    (d.updRing id n f).ring? id n = (d.ring? id n).map f := by
  unfold Device.ring?
  rw [updRing_ctx]
  cases d.ctx? id with
  | none => rfl
  | some c => simp [Context.ring?]

end Sys2Proof.Machine
end

