-- ==== Sys2Proof/Laws/Access.lean ====
section
/-! SUPPORT. What a read of memory can do to the bytes of memory: nothing. It counts, queues requests, moves lines of the
Spool, and answers the bytes that are there. -/

namespace Sys2Proof.Machine

@[simp] theorem enqueueMem_mem (d : Device) (a : Nat) (c : ColourClass) (w : Bool) (r : Requester) :
    (d.enqueueMem a c w r).mem = d.mem := rfl
@[simp] theorem latchUe_mem (d : Device) (a : Nat) : (d.latchUe a).mem = d.mem := rfl
@[simp] theorem poisonAccesses_mem (d : Device) (l : List Nat) : (d.poisonAccesses l).mem = d.mem := rfl

/-- Accesses that are requested and counted leave the bytes as they are. -/
@[simp] theorem stackAccess_mem (d : Device) (w : Bool) (u : Nat) (l : List Nat) (c : ColourClass) (r : Requester) :
    (d.stackAccess w u l c r).mem = d.mem := by
  unfold Device.stackAccess
  exact (foldl_enqueue (fun d => d.mem) (fun d a => enqueueMem_mem d (a * 64) c w r) l _).trans (count_mem ..)

/-- So does the record of an uncorrectable read. -/
@[simp] theorem ueRead_mem (d : Device) (a : Nat) (b : Blame) : (d.ueRead a b).mem = d.mem := by
  simp only [Device.ueRead]
  split <;> simp

@[simp] theorem rewrote_mem (d : Device) (a n : Nat) : (d.rewrote a n).mem = d.mem := by
  unfold Device.rewrote
  split <;> rfl

@[simp] theorem stackWritten_mem (d : Device) (s b : List Nat) : (d.stackWritten s b).mem = d.mem := by
  simp only [Device.stackWritten, poisonAccesses_mem]
  exact foldl_enqueue (fun d => d.mem) (fun d a => rewrote_mem d a 1) s d

/-- A write-back moves no byte: `Device.mem` holds the newest value of each (assumption log 6). -/
@[simp] theorem writeBack_mem (d : Device) (l : List SpoolLine) : (d.writeBack l).mem = d.mem := by
  unfold Device.writeBack
  exact foldl_enqueue (fun d => d.mem) (fun d l => by simp) _ d

@[simp] theorem allocLine_mem (d : Device) (l : SpoolLine) : (d.allocLine l).mem = d.mem := by
  simp [Device.allocLine]

/-- A unit that is read keeps its bytes. -/
@[simp] theorem readUnit_mem (d : Device) (mpa n u : Nat) (h : Hint) (last : Bool) (c : ColourClass) (r : Requester) (b : Blame) :
    (d.readUnit mpa n u h last c r b).mem = d.mem := by
  have ue (l : List Nat) (d : Device) : (l.foldl (fun d a => d.ueRead a b) d).mem = d.mem :=
    foldl_enqueue (fun d => d.mem) (fun d a => ueRead_mem d a b) l d
  simp only [Device.readUnit]
  split
  · simp
  · split <;> simp [ue]

@[simp] theorem yokeFlits_mem (d : Device) (p : PanelId) (n : Nat) (t : Bool) (c : ColourClass) (r : Requester) :
    (d.yokeFlits p n t c r).mem = d.mem := by
  simp only [Device.yokeFlits]
  repeat' split
  all_goals simp

/-- A read of module memory answers the bytes that are there and whether one is bad, and changes no byte (R349, R352). -/
theorem loadMpa_reads (d : Device) (mpa n : Nat) (h : Hint) (last : Nat → Bool) (c : ColourClass) (r : Requester) (b : Blame) :
    (d.loadMpa mpa n h last c r b).2 = (memRead d.mem mpa n, d.badIn mpa n) ∧ (d.loadMpa mpa n h last c r b).1.mem = d.mem := by
  refine ⟨by simp [Device.loadMpa], ?_⟩
  unfold Device.loadMpa
  exact (foldl_enqueue (fun d => d.mem) (fun d u => readUnit_mem d mpa n u h (last u) c r b) _ _).trans (yokeFlits_mem ..)

/-- A read below the Spool answers the stored bytes and changes none (R376). -/
theorem loadBelow_reads (d : Device) (mpa n : Nat) (c : ColourClass) (r : Requester) (b : Blame) :
    (d.loadBelow mpa n c r b).2 = (memRead d.mem mpa n, (accessesOf mpa n).any d.unsound)
      ∧ (d.loadBelow mpa n c r b).1.mem = d.mem := by
  have e : ((unitsOf mpa n).foldl (fun d u => d.stackAccess false u (touchedIn mpa n u) c r) d).mem = d.mem :=
    foldl_enqueue (fun d => d.mem) (fun d u => stackAccess_mem d false u _ c r) _ d
  refine ⟨by simp [Device.loadBelow], ?_⟩
  unfold Device.loadBelow
  exact (foldl_enqueue (fun d => d.mem) (fun d a => ueRead_mem d a b) _ _).trans e

end Sys2Proof.Machine
end

