-- ==== Sys2Proof/Laws/Bits.lean ====
section
/-! SUPPORT. Bits of setup registers after a merge of fields and after one bit is set. -/

namespace Sys2Proof.Machine

/-- A bit after one bit has been set. -/
theorem bitOf_setBit (v : BitVec 64) (i j : Nat) (b : Bool) (hj : j < 64) :
    bitOf (setBit v i b) j = if i = j then b else bitOf v j := by
  unfold setBit bitOf
  cases b
  · by_cases h : i = j
    · subst h
      simp [hj]
    · have : ¬ (i ≤ j ∧ j - i = 0) := by omega
      by_cases hl : j < i
      · simp [h, hl, hj]
      · simp [h, hl, hj]
        intro _
        omega
  · by_cases h : i = j
    · subst h
      simp [hj]
    · by_cases hl : j < i
      · simp [h, hl]
      · simp [h, hl]
        intro _
        omega

/-- A bit after fields have been merged in. -/
theorem bitOf_mergeBits (old value mask : BitVec 64) (j : Nat) :
    bitOf (mergeBits old value mask) j = if mask.getLsbD j then bitOf value j else bitOf old j := by
  unfold mergeBits bitOf
  by_cases hj : j < 64
  · cases h : mask.getLsbD j <;> simp only [BitVec.getLsbD_or, BitVec.getLsbD_and, BitVec.getLsbD_not, h, hj] <;> simp
  · have h : mask.getLsbD j = false := BitVec.getLsbD_of_ge _ _ (by omega)
    simp only [h, BitVec.getLsbD_of_ge _ _ (show 64 ≤ j by omega)]
    simp

/-- A bit of a 32-bit value written to a 64-bit register. -/
@[simp] theorem bitOf_setWidth (v : BitVec 32) (j : Nat) : bitOf (v.setWidth 64) j = v.getLsbD j := by
  unfold bitOf
  by_cases hj : j < 64
  · simp [hj]
  · simp [hj, BitVec.getLsbD_of_ge v j (by omega)]

end Sys2Proof.Machine
end

