-- ==== Sys2Proof/Laws/Module.lean ====
section
/-! SUPPORT. What the operations on a whole state can do to the queue, the pins and the vault: one lemma each, by the
relation `Sound`, which is reflexive and transitive. -/

namespace Sys2Proof.Machine

/-- From `s` to `t` the queue is kept, the pins stay in agreement, and no fuse goes back. -/
def Sound (s t : State) : Prop :=
  t.pending = s.pending ∧ (s.PinsAgree → t.PinsAgree) ∧ (s.FusesLegal → t.FusesLegal ∧ s.KeepsFuses t)

theorem Sound.refl (s : State) : Sound s s :=
  ⟨rfl, id, fun h => ⟨h, by simp [State.KeepsFuses]⟩⟩

theorem Sound.trans {a b c : State} (h : Sound a b) (k : Sound b c) : Sound a c := by
  refine ⟨k.1.trans h.1, fun p => k.2.1 (h.2.1 p), fun f => ?_⟩
  obtain ⟨f1, k1⟩ := h.2.2 f
  obtain ⟨f2, k2⟩ := k.2.2 f1
  refine ⟨f2, ?_⟩
  obtain ⟨a1, a2, a3, a4, a5, a6⟩ := k1
  obtain ⟨b1, b2, b3, b4, b5, b6⟩ := k2
  exact ⟨by omega, by omega, by omega, by omega, by omega, fun x => b6 (a6 x)⟩

/-- A change of the device alone. -/
theorem sound_dev (s : State) (d : Device) : Sound s { s with dev := d } :=
  ⟨rfl, id, fun h => ⟨h, by simp [State.KeepsFuses]⟩⟩

theorem sound_onDev (s : State) (f : Device → Device) : Sound s (s.onDev f) := sound_dev s (f s.dev)

/-- A change of the device that follows a sound one. -/
theorem Sound.thenDev {s t : State} (h : Sound s t) (f : Device → Device) : Sound s (t.onDev f) := h.trans (sound_onDev t f)

theorem sound_if {s a b : State} (c : Bool) (ha : Sound s a) (hb : Sound s b) : Sound s (if c then a else b) := by
  cases c
  · exact hb
  · exact ha

/-- A package command answers a sound next state. -/
theorem run_sound (s : State) (f : Device → Device) : ∃ t, s.run f = .next t ∧ Sound s t :=
  ⟨_, rfl, sound_if _ (sound_onDev s f) (Sound.refl s)⟩

/-! ## Resets and trips -/

theorem keepService_sound (s : State) : Sound s s.keepService := by
  unfold State.keepService
  split
  · exact ⟨rfl, id, fun h => ⟨h, by simp [State.KeepsFuses]⟩⟩
  · exact Sound.refl s

theorem keepService_pins (s : State) : s.keepService.pins = s.pins := by
  unfold State.keepService
  split <;> rfl

theorem warmReset_sound (s : State) (r : ErrRec) (a b c d : Bool) : Sound s (s.warmReset r a b c d) := by
  unfold State.warmReset
  split
  · exact Sound.refl s
  · exact (sound_onDev s _).trans (keepService_sound _)

/-- A trip takes the rails off. -/
theorem pinsTrip_sound (s : State) :
    Sound s { s with pins := { s.pins with railsOn := false, pwrGood := false, thermtrip := true } } := by
  refine ⟨rfl, fun p => ?_, fun h => ⟨h, by simp [State.KeepsFuses]⟩⟩
  obtain ⟨p1, p2, p3, p4, p5⟩ := p
  exact ⟨fun x => (by cases x), rfl, p3, p4, p5⟩

/-- A cold reset of a powered package takes the rails off while RESET_N is low. -/
theorem pinsCold_sound (s : State) (h : s.pins.railsOn = true) :
    Sound s { s with pins := { s.pins with railsOn := s.pins.resetN, pwrGood := s.pins.resetN } } := by
  refine ⟨rfl, fun p => ?_, fun h => ⟨h, by simp [State.KeepsFuses]⟩⟩
  obtain ⟨p1, p2, p3, p4, p5⟩ := p
  exact ⟨fun _ => p1 h, rfl, p3, p4, p5⟩

theorem coldReset_sound (s : State) (c : Code) (r : Option ErrRec) : Sound s (s.coldReset c r) := by
  unfold State.coldReset
  split
  · exact Sound.refl s
  · rename_i hr
    exact ((sound_onDev s _).trans (keepService_sound _)).trans (pinsCold_sound _ (by simpa [keepService_pins] using hr))

theorem trip_sound (s : State) (c : Code) (b : Bool) : Sound s (s.trip c b) := by
  unfold State.trip
  split
  · exact Sound.refl s
  · exact ((sound_onDev s _).trans (keepService_sound _)).trans (pinsTrip_sound _)

theorem trip_rails (s : State) (c : Code) (b : Bool) : (s.trip c b).pins.railsOn = false := by
  unfold State.trip
  split
  · rename_i h; simpa using h
  · rfl

theorem trip_wait {s : State} (c : Code) (b : Bool) : (s.trip c b).pins.sensorWait = s.pins.sensorWait := by
  unfold State.trip
  split
  · rfl
  · simp [keepService_pins]

theorem currentTrip_sound (s : State) : Sound s s.currentTrip := by
  unfold State.currentTrip
  split
  · exact Sound.refl s
  · rename_i hr
    have ht := trip_sound s 0x070C false
    refine ⟨ht.1, fun p => ?_, ht.2.2⟩
    obtain ⟨p1, p2, p3, p4, p5⟩ := ht.2.1 p
    have hw := (p.1 (by simpa using hr)).2.2.2
    refine ⟨fun x => ?_, p2, fun x => (by cases x), fun x => ?_, p5⟩
    · simp [trip_rails] at x
    · rw [← trip_wait 0x070C false] at hw
      exact absurd (hw.symm.trans x) (by decide)

theorem resetCtlWrite_sound (s : State) (v : BitVec 64) (a b : Bool) : Sound s (s.resetCtlWrite v a b) := by
  unfold State.resetCtlWrite
  split
  · exact Sound.refl s
  · simp only []
    split
    · exact (sound_dev s _).trans (coldReset_sound _ _ _)
    · exact (sound_dev s _).trans (warmReset_sound _ _ _ _ _ _)

theorem selftest_sound (s : State) (k : Checker) (b : Bool) : Sound s (s.selftest k b) := by
  unfold State.selftest
  simp only []
  split
  · split
    · exact sound_onDev s _
    · exact sound_onDev s _
  · split
    · exact Sound.refl s
    · exact warmReset_sound _ _ _ _ _ _

theorem thimbleStop_sound (s : State) (e : Nat) : Sound s (s.thimbleStop e) := by
  unfold State.thimbleStop
  split
  · exact Sound.refl s
  · exact (sound_onDev s _).trans (warmReset_sound _ _ _ _ _ _)

/-- A change of the vault that keeps its fuses, with one of the device. -/
theorem sound_vault (s : State) (v : Vault) (d : Device)
    (h : s.FusesLegal → State.FusesLegal { s with vault := v } ∧ s.KeepsFuses { s with vault := v }) :
    Sound s { s with vault := v, dev := d } := ⟨rfl, id, h⟩

theorem lifetime_sound (s : State) : Sound s s.lifetime := by
  unfold State.lifetime
  refine sound_vault s _ _ (fun h => ?_)
  obtain ⟨h1, h2, h3, h4, h5⟩ := h
  simp only [State.FusesLegal, State.KeepsFuses, satTo]
  exact ⟨⟨h1, h2, h3, by omega, by omega⟩, le_refl _, le_refl _, le_refl _, by omega, by omega, id⟩

/-! ## Registers -/

theorem raiseFuses_sound (s : State) : Sound s s.raiseFuses := by
  unfold State.raiseFuses
  simp only []
  split
  · exact Sound.refl s
  · have hm : ∀ (n : Nat) (l : List Nat), n ≤ 64 → n ≤ min 64 (maxOf (n :: l)) := by
      intro n l h
      have hf : ∀ (l : List Nat) (m : Nat), m ≤ l.foldl max m := by
        intro l
        induction l with
        | nil => intro m; exact le_refl m
        | cons x xs ih => intro m; exact le_trans (le_max_left m x) (ih (max m x))
      have : n ≤ maxOf (n :: l) := by
        simp only [maxOf, List.foldl_cons]
        exact le_trans (le_max_right 0 n) (hf l _)
      omega
    refine ⟨rfl, id, fun h => ?_⟩
    obtain ⟨h1, h2, h3, h4, h5⟩ := h
    simp only [State.FusesLegal, State.KeepsFuses]
    exact ⟨⟨h1, min_le_left _ _, min_le_left _ _, h4, h5⟩, le_refl _, hm _ _ h2, hm _ _ h3, le_refl _, le_refl _, id⟩

theorem devCtlWrite_sound (s : State) (v m : BitVec 64) : Sound s (s.devCtlWrite v m) := by
  unfold State.devCtlWrite
  split
  · exact Sound.refl s
  · split
    · split
      · exact sound_onDev s _
      · exact (sound_onDev s _).trans (raiseFuses_sound _)
    · split
      · exact sound_onDev s _
      · exact sound_onDev s _

theorem regWrite_sound (s : State) (o : Nat) (v m : BitVec 64) : Sound s (s.regWrite o v m) := by
  unfold State.regWrite
  split
  all_goals first
    | exact sound_onDev s _
    | exact devCtlWrite_sound s _ _
    | exact resetCtlWrite_sound s _ _ _
    | exact Sound.refl s

theorem write32_sound (s : State) (o : Nat) (v : BitVec 32) : Sound s (s.write32 o v) := by
  unfold State.write32
  split <;> exact regWrite_sound s _ _ _

theorem barWrite_sound (s : State) (o n : Nat) (v : BitVec 64) : Sound s (s.barWrite o n v) := by
  unfold State.barWrite
  split
  · exact Sound.refl s
  · split
    · exact write32_sound s _ _
    · split
      · exact regWrite_sound s _ _ _
      · exact Sound.refl s

theorem read32_sound (s : State) (o : Nat) : Sound s (s.read32 o).1 := by
  unfold State.read32
  simp only []
  split
  · exact sound_onDev s _
  · split
    · exact sound_onDev s _
    · exact Sound.refl s

theorem shadowCheck_sound (s : State) (b : Option (Nat × BitVec 64)) : Sound s (s.shadowCheck b) := by
  unfold State.shadowCheck
  split
  · exact Sound.refl s
  · split
    · exact Sound.refl s
    · split
      · exact sound_onDev s _
      · exact Sound.refl s
      · exact warmReset_sound _ _ _ _ _ _

/-! ## Thimble -/

/-- A change of the device alone is sound. -/
theorem sound_sameModule {s t : State} (hq : t.pending = s.pending) (hp : t.pins = s.pins) (hv : t.vault = s.vault) : Sound s t := by
  obtain ⟨_, _, _, _⟩ := s
  obtain ⟨_, _, _, _⟩ := t
  subst hq hp hv
  exact sound_onDev _ (fun _ => _)

theorem boot_sound (s : State) (b : Bool) : Sound s (s.boot b) := by
  unfold State.boot
  simp only []
  split
  · exact Sound.refl s
  · split
    · exact sound_sameModule rfl rfl rfl
    · split <;> split <;> exact sound_sameModule rfl rfl rfl

/-- An accepted unlock counts in DEBUG_COUNT. -/
theorem countDebug_sound (s : State) (d : Device) (b : Bool) :
    Sound s { s with vault := { s.vault with debugCount := min 32 (s.vault.debugCount + 1), debugFull := b }, dev := d } := by
  refine ⟨rfl, id, fun h => ?_⟩
  obtain ⟨h1, h2, h3, h4, h5⟩ := h
  simp only [State.FusesLegal, State.KeepsFuses]
  exact ⟨⟨min_le_left _ _, h2, h3, h4, h5⟩, by omega, le_refl _, le_refl _, le_refl _, le_refl _, id⟩

theorem openDebug_sound (s : State) (token : List Byte) : Sound s (s.openDebug token) := by
  unfold State.openDebug
  exact (sound_onDev s _).trans (countDebug_sound _ _ _)

theorem unlock_sound (s : State) (token : List Byte) : Sound s (s.unlock token).1 := by
  unfold State.unlock
  split
  · exact Sound.refl s
  · simp only []
    split
    · exact (sound_onDev s _).trans (openDebug_sound _ _)
    · exact sound_onDev s _

theorem stageFw_sound (s : State) (pay : List Byte) : Sound s (s.stageFw pay).state := by
  have h : ∀ (sl : Vector (Option (List FwImage)) 2) (k : Fin 2), Sound s { s with vault := { s.vault with slots := sl, boots := k } } :=
    fun _ _ => ⟨rfl, id, fun h => ⟨h, by simp [State.KeepsFuses]⟩⟩
  unfold State.stageFw
  simp only []
  split
  · exact h _ _
  · split
    · exact h _ _
    · split <;> exact h _ _

theorem request_sound (s : State) (req pay : List Byte) : Sound s (s.request req pay).state := by
  unfold State.request
  split
  · exact Sound.refl s
  · unfold State.attest
    simp only []
    split
    · exact Sound.refl s
    · split <;> exact Sound.refl s
  · unfold State.keyOpen
    simp only []
    split
    · exact Sound.refl s
    · exact sound_onDev s _
  · unfold State.keyInstall
    simp only []
    split
    · exact sound_onDev s _
    · split
      · exact sound_onDev s _
      · split
        · exact sound_onDev s _
        · split
          · exact sound_onDev s _
          · split
            · exact sound_onDev s _
            · exact (sound_onDev s _).trans (sound_onDev _ _)
  · unfold State.authRegister
    simp only []
    split
    · exact Sound.refl s
    · split
      · exact Sound.refl s
      · exact sound_onDev s _
  · unfold State.authRemove
    simp only []
    split
    · exact Sound.refl s
    · exact sound_onDev s _
  · exact sound_dev s _
  · split
    · exact unlock_sound s _
    · exact Sound.refl s
  · exact stageFw_sound s _

theorem deliver_sound (r : MboxResult) (a : Nat) : Sound r.state (r.deliver a) := sound_onDev _ _

theorem mailbox_sound (s : State) (k : Nat) : Sound s (s.mailbox k) := by
  unfold State.mailbox
  split
  · exact Sound.refl s
  · simp only []
    split
    · exact (sound_dev s _).trans (deliver_sound _ _)
    · split
      · exact sound_dev s _
      · split
        · exact (sound_dev s _).trans (deliver_sound _ _)
        · split
          · exact (sound_dev s _).trans ((request_sound _ _ _).trans (deliver_sound _ _))
          · exact (sound_dev s _).trans ((request_sound _ _ _).trans (deliver_sound _ _))

/-! ## The host link -/

theorem linkUp_sound (s : State) (c : Bool) (w v : Nat) : Sound s (s.linkUp c w v) := by
  unfold State.linkUp
  simp only []
  split
  · exact sound_onDev s _
  · exact Sound.refl s

theorem linkReset_sound (s : State) (c : Code) (l : LinkState) : Sound s (s.linkReset c l) :=
  (sound_onDev s _).trans (warmReset_sound _ _ _ _ _ _)

/-- PERST_N alone changes. -/
theorem perst_sound (s : State) (b : Bool) : Sound s { s with pins := { s.pins with perstN := b } } :=
  ⟨rfl, id, fun h => ⟨h, by simp [State.KeepsFuses]⟩⟩

theorem perstAssert_sound (s : State) : Sound s s.perstAssert := by
  unfold State.perstAssert
  simp only []
  split
  · exact perst_sound s _
  · split
    · exact (perst_sound s _).trans (linkReset_sound _ _ _)
    · exact (perst_sound s _).trans (sound_onDev _ _)

theorem perstRelease_sound (s : State) : Sound s s.perstRelease := by
  unfold State.perstRelease
  simp only []
  split
  · exact (perst_sound s _).trans (sound_onDev _ _)
  · exact perst_sound s _

theorem hostAccessFault_sound (s : State) (u : HostUse) (a : Nat) (b : Bool) : Sound s (s.hostAccessFault u a b) := by
  unfold State.hostAccessFault
  split
  · exact Sound.refl s
  · split
    all_goals try exact sound_onDev s _
    all_goals split
    all_goals exact Sound.refl s

/-! ## The Bodkin port -/

theorem dapThimble_sound (s : State) : Sound s s.dapThimble := by
  unfold State.dapThimble
  split
  · exact Sound.refl s
  · split
    · exact Sound.refl s
    · simp only []
      split
      · exact (sound_onDev s _).trans (sound_dev _ _)
      · exact ((sound_onDev s _).trans (unlock_sound _ _)).thenDev _

theorem dapRegWrite_sound (s : State) (a : Nat) (v : BitVec 32) : Sound s (s.dapRegWrite a v) := by
  unfold State.dapRegWrite
  simp only []
  split
  · exact (write32_sound s _ _).thenDev _
  · exact write32_sound s _ _

theorem dapMemory_sound (s : State) (a : Nat) (w : Option (BitVec 32)) : Sound s (s.dapMemory a w).1 := by
  unfold State.dapMemory
  simp only []
  split
  · exact Sound.refl s
  · split
    · exact Sound.refl s
    · split
      · exact Sound.refl s
      · split <;> exact sound_dev s _

theorem dapHost_sound (s : State) (a : Nat) (w : Option (BitVec 32)) : Sound s (s.dapHost a w).1 := by
  unfold State.dapHost
  split
  · exact Sound.refl s
  · split
    · exact sound_onDev s _
    · exact sound_dev s _

theorem dapAccess_sound (s : State) (sp a : Nat) (p : PanelId) (w : Option (BitVec 32)) : Sound s (s.dapAccess sp a p w).1 := by
  unfold State.dapAccess
  split
  · split
    · exact Sound.refl s
    · split
      · exact dapRegWrite_sound s _ _
      · exact read32_sound s _
  · exact dapMemory_sound s _ _
  · exact dapHost_sound s _ _
  · split <;> exact sound_dev s _
  · split
    · split
      · exact sound_onDev s _
      · exact Sound.refl s
    · split <;> exact Sound.refl s

theorem dapWord_sound (s : State) (op : Nat) (sp : BitVec 4) (a : BitVec 48) (w : Option (BitVec 32)) (i : Bool) :
    Sound s (s.dapWord op sp a w i) := by
  unfold State.dapWord
  split
  · exact Sound.refl s
  · simp only []
    split
    · exact sound_onDev s _
    · split
      · exact sound_onDev s _
      · exact (dapAccess_sound s _ _ _ _).thenDev _

theorem dapSeq_sound (s : State) (op : Nat) (sp : BitVec 4) (a : BitVec 48) (f : Device → PanelId → Device) :
    Sound s (s.dapSeq op sp a f) := by
  unfold State.dapSeq
  split
  · exact Sound.refl s
  · split
    · exact sound_onDev s _
    · split <;> exact sound_onDev s _

theorem dapSubmit_sound (s : State) (op : Nat) : Sound s (s.dapSubmit op) := by
  unfold State.dapSubmit
  split
  · exact Sound.refl s
  · exact (sound_onDev s _).trans (dapThimble_sound _)

theorem powered_sound (s : State) (f : State → State) (h : Sound s (f s)) : ∃ t, s.powered f = .next t ∧ Sound s t :=
  ⟨_, rfl, sound_if _ h (Sound.refl s)⟩

theorem dapWord_answers (s : State) (op : Nat) (sp : BitVec 4) (a : BitVec 48) (w : Option (BitVec 32)) (i : Bool) :
    ∃ t, s.powered (fun s => s.dapWord op sp a w i) = .next t ∧ Sound s t := powered_sound s _ (dapWord_sound s _ _ _ _ _)

theorem dapSeq_answers (s : State) (op : Nat) (sp : BitVec 4) (a : BitVec 48) (f : Device → PanelId → Device) :
    ∃ t, s.powered (fun s => s.dapSeq op sp a f) = .next t ∧ Sound s t := powered_sound s _ (dapSeq_sound s _ _ _ _)

theorem dapSubmit_answers (s : State) (op : Nat) : ∃ t, s.powered (fun s => s.dapSubmit op) = .next t ∧ Sound s t :=
  powered_sound s _ (dapSubmit_sound s _)

/-! ## The module's pins and supplies -/

theorem powerDown_sound (s t : State) (hp : t.pending = s.pending) (hv : t.vault = s.vault)
    (ho : s.PinsAgree → t.pins.overvoltage = false → t.pins.inputMv ≤ 58000) : Sound s t.powerDown := by
  have e1 : t.powerDown.pending = t.pending := by simp only [State.powerDown]
  have e2 : t.powerDown.vault = t.vault := by simp only [State.powerDown]
  have e3 : t.powerDown.pins = { t.pins with inputSwitch := false, railsOn := false, pwrGood := false, thermtrip := false, sensorWait := false } := by
    simp only [State.powerDown]
  generalize t.powerDown = u at e1 e2 e3 ⊢
  refine ⟨e1.trans hp, fun p => ?_, fun h => ?_⟩
  · unfold State.PinsAgree
    rw [e3]
    exact ⟨fun x => (by cases x), rfl, fun x => (by cases x), fun x => (by cases x), ho p⟩
  · simp only [State.FusesLegal, State.KeepsFuses, e2, hv]
    exact ⟨h, le_refl _, le_refl _, le_refl _, le_refl _, le_refl _, id⟩

theorem pwrEnFall_sound (s : State) : Sound s s.pwrEnFall := by
  unfold State.pwrEnFall
  split
  · exact Sound.refl s
  · exact powerDown_sound s _ rfl rfl (fun p => p.2.2.2.2)

theorem psenseBreak_sound (s : State) : Sound s s.psenseBreak := by
  unfold State.psenseBreak
  split
  · exact Sound.refl s
  · exact powerDown_sound s _ rfl rfl (fun p => p.2.2.2.2)

theorem undervoltage_sound (s : State) (mV : Nat) : Sound s (s.undervoltage mV) := by
  unfold State.undervoltage
  split
  · exact Sound.refl s
  · exact powerDown_sound s _ rfl rfl (fun _ _ => by simp only []; omega)

theorem overvoltage_sound (s : State) (mV : Nat) : Sound s (s.overvoltage mV) := by
  unfold State.overvoltage
  split
  · exact Sound.refl s
  · exact powerDown_sound s _ rfl rfl (fun _ x => (by cases x))

theorem startUp_sound (s : State) : Sound s s.startUp := by
  unfold State.startUp
  split
  · exact Sound.refl s
  · rename_i hc
    simp only [Bool.or_eq_true, not_or, Bool.not_eq_true', Bool.not_eq_true] at hc
    obtain ⟨⟨⟨h1, h2⟩, h3⟩, h4⟩ := hc
    simp only [Bool.not_eq_false] at h1 h3
    split
    · refine ⟨rfl, fun p => ?_, fun h => ⟨h, by simp [State.KeepsFuses, State.railsUp]⟩⟩
      obtain ⟨p1, p2, p3, p4, p5⟩ := p
      exact ⟨fun _ => ⟨h1, h3, rfl, rfl⟩, rfl, p3, fun x => (by cases x), p5⟩
    · refine ⟨rfl, fun p => ?_, fun h => ⟨h, by simp [State.KeepsFuses]⟩⟩
      obtain ⟨p1, p2, p3, p4, p5⟩ := p
      exact ⟨fun x => by simp [h2] at x, p2, p3, fun _ => h1, p5⟩

/-- Closing the switch of a state that differs from a sound one in pins that close it. -/
theorem closeSwitch_sound (s t : State) (h : Sound s t) : Sound s t.closeSwitch := by
  unfold State.closeSwitch
  simp only []
  split
  · rename_i hc
    simp only [Bool.and_eq_true, decide_eq_true_eq, Bool.not_eq_true'] at hc
    obtain ⟨⟨⟨⟨h1, h2⟩, h3⟩, h4⟩, _⟩ := hc
    refine (h.trans ?_).trans (startUp_sound _)
    refine ⟨rfl, fun p => ?_, fun h => ⟨h, by simp [State.KeepsFuses]⟩⟩
    obtain ⟨p1, p2, p3, p4, p5⟩ := p
    exact ⟨fun x => ⟨rfl, (p1 x).2⟩, p2, fun _ => ⟨h2, h1, h4, by simp only []; omega⟩, fun _ => rfl, p5⟩
  · exact h

theorem pwrEnRise_sound (s : State) : Sound s s.pwrEnRise := by
  unfold State.pwrEnRise
  split
  · exact Sound.refl s
  · refine closeSwitch_sound _ _ ⟨rfl, fun p => ?_, fun h => ⟨h, by simp [State.KeepsFuses]⟩⟩
    obtain ⟨p1, p2, p3, p4, p5⟩ := p
    exact ⟨p1, p2, fun x => ⟨rfl, (p3 x).2⟩, p4, p5⟩

theorem psenseMate_sound (s : State) : Sound s s.psenseMate := by
  unfold State.psenseMate
  split
  · exact Sound.refl s
  · refine closeSwitch_sound _ _ ⟨rfl, fun p => ?_, fun h => ⟨h, by simp [State.KeepsFuses]⟩⟩
    obtain ⟨p1, p2, p3, p4, p5⟩ := p
    exact ⟨p1, p2, fun x => ⟨(p3 x).1, rfl, (p3 x).2.2⟩, p4, p5⟩

theorem resetNRelease_sound (s : State) : Sound s s.resetNRelease := by
  unfold State.resetNRelease
  split
  · exact Sound.refl s
  · refine closeSwitch_sound _ _ ⟨rfl, fun p => ?_, fun h => ⟨h, by simp [State.KeepsFuses]⟩⟩
    obtain ⟨p1, p2, p3, p4, p5⟩ := p
    exact ⟨fun x => ⟨(p1 x).1, rfl, (p1 x).2.2⟩, p2, p3, p4, p5⟩

theorem inputReturn_sound (s : State) (mV : Nat) : Sound s (s.inputReturn mV) := by
  unfold State.inputReturn
  split
  · exact Sound.refl s
  · rename_i hc
    simp only [Bool.or_eq_true, decide_eq_true_eq, not_or] at hc
    refine closeSwitch_sound _ _ ⟨rfl, fun p => ?_, fun h => ⟨h, by simp [State.KeepsFuses]⟩⟩
    obtain ⟨p1, p2, p3, p4, p5⟩ := p
    exact ⟨p1, p2, fun x => ⟨(p3 x).1, (p3 x).2.1, rfl, by simp only []; omega⟩, p4, fun _ => by simp only []; omega⟩

theorem acknowledge_sound (s : State) : Sound s s.acknowledge := by
  unfold State.acknowledge
  split
  · exact sound_onDev s _
  · exact Sound.refl s

/-- Keeping the service record does not look at the pins. -/
theorem keepService_setPins (s : State) (f : Device → Device) (q : ModulePins) :
    (State.onDev { s with pins := q } f).keepService = { (s.onDev f).keepService with pins := q } := by
  unfold State.keepService State.onDev
  simp only []
  split <;> rfl

/-- A cold reset of a powered package with RESET_N low. -/
theorem coldLow_sound (s : State) (c : Code) (r : Option ErrRec) (hr : s.pins.railsOn = true) :
    Sound s (State.coldReset { s with pins := { s.pins with resetN := false, sensorWait := false } } c r) := by
  unfold State.coldReset
  simp only [hr, Bool.not_true, Bool.false_eq_true, if_false]
  generalize (fun d : Device => d.countReset.coldDown c r) = f
  rw [keepService_setPins]
  refine ((sound_onDev s f).trans (keepService_sound _)).trans ?_
  have hp : (s.onDev f).keepService.pins = s.pins := by rw [keepService_pins]; rfl
  generalize (s.onDev f).keepService = a at hp ⊢
  refine ⟨rfl, fun p => ?_, fun h => ⟨h, by simp [State.KeepsFuses]⟩⟩
  obtain ⟨p1, p2, p3, p4, p5⟩ := p
  rw [hp] at p1 p2 p3 p4 p5
  exact ⟨fun x => (by cases x), rfl, p3, fun x => (by cases x), p5⟩

theorem resetNAssert_sound (s : State) : Sound s s.resetNAssert := by
  unfold State.resetNAssert
  simp only []
  split
  · rename_i hc
    refine ⟨rfl, fun p => ?_, fun h => ⟨h, by simp [State.KeepsFuses]⟩⟩
    obtain ⟨p1, p2, p3, p4, p5⟩ := p
    refine ⟨fun x => ?_, p2, p3, p4, p5⟩
    have := (p3 (p1 x).1).1
    simp [this] at hc
  · split
    · split
      · refine ⟨rfl, fun p => ?_, fun h => ⟨h, by simp [State.KeepsFuses, State.sequenceStopped]⟩⟩
        obtain ⟨p1, p2, p3, p4, p5⟩ := p
        exact ⟨fun x => (by cases x), rfl, p3, fun x => (by cases x), p5⟩
      · rename_i hr _
        exact coldLow_sound s _ _ hr
    · refine Sound.trans ?_ (acknowledge_sound _)
      rename_i hr
      refine ⟨rfl, fun p => ?_, fun h => ⟨h, by simp [State.KeepsFuses]⟩⟩
      obtain ⟨p1, p2, p3, p4, p5⟩ := p
      exact ⟨fun x => absurd x (by simpa using hr), p2, p3, fun x => (by cases x), p5⟩

theorem judgeSample_sound (s : State) : Sound s s.judgeSample := by
  unfold State.judgeSample
  split
  · split
    · exact trip_sound _ _ _
    · exact sound_onDev _ _
  · split
    · exact Sound.refl _
    · split
      · exact acknowledge_sound _
      · split
        · exact startUp_sound _
        · exact Sound.refl _

theorem tempSample_sound (s : State) (a : Vector (BitVec 8) 4) (b : BitVec 8) (c : Vector (BitVec 8) 32) :
    Sound s (s.tempSample a b c) :=
  Sound.trans (b := s.keepSample a b c) ⟨rfl, id, fun h => ⟨h, by simp [State.KeepsFuses, State.keepSample]⟩⟩ (judgeSample_sound _)

/-! ## A tick -/

theorem tick_sound (s : State) : Sound s s.tick := by
  unfold State.tick
  split
  · exact (sound_onDev s _).trans (dapThimble_sound _)
  · exact sound_onDev s _

end Sys2Proof.Machine
end

