-- ==== Sys2Proof/Laws/Needle.lean ====
section
/-! SUPPORT. What the shared operations of the Needle counter do: entering a state, failing held descriptors, a marker. -/

namespace Sys2Proof.Machine

/-- Entering a state: the counter's part afterwards. -/
theorem needleTo_needle (d : Device) (new : NeedleState) (reason : Code) (o : Nat) :
    (d.needleTo new reason o).needle =
      { d.needle with
        state := new, entered := d.now, inLock := 0, held := d.position,
        holdUs := if d.needle.state = .holdover then (d.now - d.needle.lastValid) / 1000 else d.needle.holdUs,
        reason := if reason = 0 then d.needle.reason else reason,
        stitchOut := if new = .disabled then none else d.needle.stitchOut } := by
  unfold Device.needleTo
  simp only []
  split <;> simp [Device.updNeedle, Device.failHeld]

@[simp] theorem needleTo_state (d : Device) (new : NeedleState) (reason : Code) (o : Nat) :
    (d.needleTo new reason o).needle.state = new := by simp [needleTo_needle]
@[simp] theorem needleTo_stitch (d : Device) (new : NeedleState) (reason : Code) (o : Nat) :
    (d.needleTo new reason o).needle.stitch = d.needle.stitch := by simp [needleTo_needle]
@[simp] theorem needleTo_tick (d : Device) (new : NeedleState) (reason : Code) (o : Nat) :
    (d.needleTo new reason o).needle.tick = d.needle.tick := by simp [needleTo_needle]
@[simp] theorem needleTo_badReg (d : Device) (new : NeedleState) (reason : Code) (o : Nat) :
    (d.needleTo new reason o).needle.badReg = d.needle.badReg := by simp [needleTo_needle]

/-- Entering a state: the contexts change only when the state is LOST, which fails the held descriptors. -/
theorem needleTo_contexts (d : Device) (new : NeedleState) (reason : Code) (o : Nat) :
    (d.needleTo new reason o).contexts = if new = .lost then (d.failHeld 0x0608).contexts else d.contexts := by
  unfold Device.needleTo
  simp only []
  split <;> simp

/-- Following a marker: the counter's part afterwards. -/
theorem follow_needle (d : Device) (port : PortId) (m : Marker) (phase : BitVec 16) :
    (d.follow port m phase).needle =
      { d.needle with
        source := some ⟨m.rank.toNat, m.sourceId, m.ext, port, m.hop.toNat⟩, hop := m.hop.toNat,
        phase := phase, lastValid := d.now, lastSource := d.now,
        freq := steering d.needle.freq (d.needle.state = .holdover || d.needle.state = .reacquiring) (Config.freeNat d.fresh % 2 ^ 64),
        inLock := if -50 ≤ phase.toInt ∧ phase.toInt ≤ 50 then d.needle.inLock + 1 else 0 } := by
  simp only [Device.follow, drawFree, Device.updNeedle, Bool.and_eq_true, decide_eq_true_eq]

@[simp] theorem follow_now (d : Device) (port : PortId) (m : Marker) (phase : BitVec 16) :
    (d.follow port m phase).now = d.now := rfl

end Sys2Proof.Machine
end

