-- ==== Sys2Proof/WellFormed.lean ====
section
/-! DEFINITION. Well-formed commands: operands within the sizes that the manual gives the thing they name. -/

namespace Sys2Proof

/-- The offset of an access to BAR0 of 4 or 8 bytes, aligned to its size (R804, R805). -/
def barAccess (offset size : Nat) : Bool := (size = 4 || size = 8) && offset % size = 0 && decide (offset + size ≤ 2 ^ 26)

/-- Counters of a scope (R832). -/
def PmcScope.counters : PmcScope → Nat
  | .hub => 32
  | .panel _ => 64

/-- A packet's payload holds at most 4,096 bytes (R512). -/
def PktBody.fits : PktBody → Bool
  | .readRequest n => 1 ≤ n && n ≤ 4096
  | .writeRequest bs | .readData bs => bs.length ≤ 4096
  | .relayBlock b => b.data.length ≤ 4096
  | .tally w => w.words.length ≤ 4096
  | .returnData r => r.data.length ≤ 4096
  | .collData c => c.data.length ≤ 4096
  | _ => true

/-- A command's operands lie within the ranges of what they name. -/
def Instr.wellFormed : Instr → Bool
  | .lowHalfReadLatch offset => barAccess offset 4 && offset % 8 = 0
  | .pmcChainedRead scope n => 1 ≤ n && decide (n < scope.counters)
  | .tackCheckFail _ column _ _ _ => decide (column < 1024)
  | .memoryReadReturn mpa _ _ => mpa % 64 = 0 && decide (mpa < 0x28000000000)
  | .scrubRead _ access _ => decide (access < 0x5000000000 / 64)
  | .snpinv a line => a % 64 = 0 && decide (a < 2 ^ 64) && line.length = 64
  | .snpdata a | .snpcur a => a % 64 = 0 && decide (a < 2 ^ 64)
  | .memrd o | .memrddata o | .meminv o => o % 64 = 0
  | .memwr o data _ | .memwrptl o data _ _ => o % 64 = 0 && data.length = 64
  | .packetForward _ p => p.body.fits
  | .remoteRead _ bytes => (PktBody.readRequest bytes).fits
  | .remoteWrite _ data => (PktBody.writeRequest data).fits
  | .remoteResponse _ data => data.all (fun bs => (PktBody.readData bs).fits)
  | .relayBlock _ b => (PktBody.relayBlock b).fits
  | .tallyWords _ w => (PktBody.tally w).fits
  | .returnData _ r => (PktBody.returnData r).fits
  | .collData _ c => (PktBody.collData c).fits
  | .seamResidueFail _ stage lane => 1 ≤ stage && stage ≤ 9 && decide (lane < 1024)
  | .cfgParityError offset _ => barAccess offset 8
  | .cfgShadowCheck bad => bad.all (fun b => barAccess b.1 8)
  | .pwrRegWrite offset size _ => barAccess offset size && decide (offset < 0x18)
  | .frameZeroed frame => decide (frame < 1310720)
  | .configRequest offset _ => offset % 4 = 0 && decide (offset < 4096)
  | .registerWrite offset size _ => barAccess offset size
  | _ => true

end Sys2Proof
end

