-- ==== Sys2Proof/Tests/Slice0.lean ====
section
/-! SUPPORT. Tests of well-formedness and of single commands, and for each statement with hypotheses a state and operands that meet
them: a witness for each of its clauses. Expected results are worked out by hand from the rules that the tests name. -/

namespace Sys2Proof.Tests

open Sys2Proof Sys2Proof.Machine

set_option Elab.async false

/-! ## Small states -/

/-- The reset state with a change of the device. -/
def dev (f : Device → Device) : State := { State.reset with dev := f {} }
/-- A Needle state with its control register. -/
def withNeedle (ctl : BitVec 64) (n : Needle) (f : Device → Device := id) : State :=
  dev (fun d => f { d with regs := { d.regs with needleCtl := ctl }, needle := n })
/-- Panel 0 changed. -/
def withPanel (f : Panel → Panel) (g : Device → Device := id) : State := dev (fun d => g (d.updPanel 0 f))
/-- Port 0 changed. -/
def withPort (f : Port → Port) (g : Device → Device := id) : State :=
  dev (fun d => g { d with ports := d.ports.set 0 (f d.ports[0]) })
/-- The host link in L0 with 16 lanes, in CXL mode. -/
def upLink : HostLink := { link := .l0, cxl := true, width := 16, speed := 5 }
/-- An unpowered package. -/
def unpowered (p : ModulePins → ModulePins := id) : State :=
  { State.reset with pins := p { railsOn := false, pwrGood := false, inputSwitch := false } }
/-- A descriptor's bits: opcode in byte 0, and SEQ of a start position left out. -/
def desc (raw : Nat) (phase : DescPhase := .checked) : Desc := { seq := 0, raw := BitVec.ofNat 1024 raw, phase := phase }
/-- A ring with one descriptor. -/
def oneRing (x : Desc) : Ring := { sqAddr := 0x10000, cqAddr := 0x20000, dbAddr := 0x30000, sizeLog2 := 6, tail := 1, next := 1, queue := [x] }
/-- A context on panel 0. -/
def oneCtx (rings : List Ring) : Context :=
  { id := 1, panel := 0, pinned := true, resident := true, rings := rings, rights := 0, confidential := false, ledgerAddr := 0, ledgerEntries := 0,
    seed := 0, jobTag := 0, authority := 0, mapAddr := 0x200000, mapEntries := 1, saveAddr := 0, saveBytes := 0, bobbinMax := 0, ecAddr := 0x40000 }
/-- A powered module whose one context has one ring with one descriptor, on an enabled panel. -/
def withDesc (x : Desc) (c : Context → Context := id) (f : Device → Device := id) : State :=
  dev (fun d => f ({ d with contexts := [c (oneCtx [oneRing x])] }.updPanel 0 (fun q => { q with ctl := 1, memCtl := 0x203 })))

/-! ## Well-formedness: an operand out of range is refused -/

theorem test_misaligned_access : barAccess 4 8 = false := by decide
theorem test_access_past_bar : barAccess 0x4000000 4 = false := by decide
theorem test_access_size : barAccess 0 2 = false := by decide
theorem test_ill_latch : Instr.wellFormed (.lowHalfReadLatch 4) = false := by decide
theorem test_ill_chained : Instr.wellFormed (.pmcChainedRead .hub 32) = false := by decide
theorem test_ill_chained_panel : Instr.wellFormed (.pmcChainedRead (.panel 0) 0) = false := by decide
theorem test_ill_column : Instr.wellFormed (.tackCheckFail 0 1024 0 0 false) = false := by decide
theorem test_ill_read_return : Instr.wellFormed (.memoryReadReturn 32 {} .nobody) = false := by decide
theorem test_ill_scrub : Instr.wellFormed (.scrubRead 0 0x140000000 {}) = false := by decide
theorem test_ill_snpinv : Instr.wellFormed (.snpinv 64 []) = false := by decide
theorem test_ill_snpdata : Instr.wellFormed (.snpdata 8) = false := by decide
theorem test_ill_memrd : Instr.wellFormed (.memrd 1) = false := by decide
theorem test_ill_memwr : Instr.wellFormed (.memwr 0 [] false) = false := by decide
theorem test_ill_read_request : ∀ h, Instr.wellFormed (.remoteRead h 0) = false := fun _ => rfl
theorem test_ill_residue : Instr.wellFormed (.seamResidueFail 0 10 0) = false := by decide
theorem test_ill_parity : Instr.wellFormed (.cfgParityError 4 0) = false := by decide
theorem test_ill_shadow : Instr.wellFormed (.cfgShadowCheck (some (4, 0))) = false := by decide
theorem test_ill_power_register : Instr.wellFormed (.pwrRegWrite 0x18 4 0) = false := by decide
theorem test_ill_frame : Instr.wellFormed (.frameZeroed 1310720) = false := by decide
theorem test_ill_config : Instr.wellFormed (.configRequest 2 none) = false := by decide
theorem test_ill_register_write : Instr.wellFormed (.registerWrite 2 4 0) = false := by decide
theorem test_ill_payload : (PktBody.writeRequest (List.replicate 4097 0)).fits = false := by decide +kernel
theorem test_ill_read_data : (PktBody.readData (List.replicate 4097 0)).fits = false := by decide +kernel
theorem test_ill_relay_block : (PktBody.relayBlock ⟨0, 0, 0, List.replicate 4097 0⟩).fits = false := by decide +kernel

/-! ## Witnesses: Needle -/

/-- A JOB-mode module in HOLDOVER that has a source, with port 0 UP and followed. -/
def follower (st : NeedleState) (n : Needle → Needle := id) : State :=
  dev (fun d => { d with now := 3000000000, regs := { d.regs with needleCtl := 0x303, needleJob := 7, needleSrc := 1, needleOut := 1 },
                         needle := n { state := st }, ports := d.ports.set 0 { d.ports[0] with ctl := 5, state := .up } })
/-- A marker with the settings of `follower`. -/
def marker : Marker := { hop := 8, rank := 2, jobId := 7, stitch := 5, angle := 0, srcHoldover := false, ext := false, stitchNs := 10000, markersLog2 := 0, departPs := 0, sourceId := 9, seq := 0 }

theorem witness_NeedleEnableAndDisable :
    (withNeedle 0xFF00 {}).dev.needleOn = false ∧ ((withNeedle 0xFF00 {}).dev.needleCtlFields 0xFF01).needleChecks = none ∧
    ((withNeedle 0xFF00 {}).dev.needleCtlFields 0xFF03).needleChecks = some (0x0603, 0x02) ∧
    (let d := (withNeedle 0xFF00 {} (fun d => { d with regs := { d.regs with needleJob := 7 } })).dev; (d.needleCtlFields 0xFE03).needleChecks = none) ∧
    (withNeedle 3 { state := .locked }).dev.needleOn = true := by decide +kernel
theorem witness_MarkersDiscipline :
    (∀ st ∈ [NeedleState.listen, .acquiring, .reacquiring, .locked, .holdover], let s := follower st
      s.pins.railsOn = true ∧ s.dev.needleOn = true ∧ bitOf s.dev.regs.needleCtl 1 = true ∧ bitOf s.dev.regs.needleSrc 0 = true ∧
      (s.dev.port 0).state = .up ∧ s.dev.markerMatches marker = true ∧ marker.hop.toNat = 8 ∧ s.dev.follows (marker.rank.toNat, marker.sourceId) = true ∧ s.dev.needle.state = st) ∧
    (let n := { (follower .treadle).dev.needle with takenOver := some 0 }
     betterSource (marker.rank.toNat, marker.sourceId) (3, ownIdentity) = true ∧ betterSource (marker.rank.toNat, marker.sourceId) (1, ownIdentity) = false ∧
       n.takenOver.any (fun b => !({ (follower .treadle).dev with now := 0 } : Device).intervalsPassed b 8) = true ∧ n.takenOver.any (fun b => !(follower .treadle).dev.intervalsPassed b 8) = false) ∧
    (-50 ≤ (BitVec.ofInt 16 (-50)).toInt ∧ ¬ (51#16).toInt ≤ 50) ∧ 63 ≤ (follower .acquiring (fun n => { n with inLock := 63 })).dev.needle.inLock ∧
    ({ marker with srcHoldover := true }.srcHoldover = true ∧ 8 < { marker with hop := 9 }.hop.toNat ∧ (follower .locked).dev.markerMatches { marker with jobId := 8 } = false) := by
  decide +kernel
theorem witness_NeedleTimedTransitions :
    (∀ s ∈ [follower .listen, follower .holdover], 1 ≤ s.dev.rank ∧ s.dev.rank ≤ 254 ∧ s.dev.intervalsPassed s.dev.needle.entered 8 = true ∧
      s.dev.intervalsPassed s.dev.needle.lastSource (8 + (s.dev.rank - 1)) = true ∧ s.dev.intervalsPassed s.dev.needle.lastBetter (8 + (s.dev.rank - 1)) = true ∧ 2000000000 ≤ s.dev.now - s.dev.needle.lastValid) ∧
    (∀ s ∈ [follower .locked, follower .reacquiring], s.dev.intervalsPassed s.dev.needle.lastValid 4 = true ∧ 2000000000 ≤ s.dev.now - s.dev.needle.entered) ∧
    50000000 ≤ (follower .acquiring).dev.now - (follower .acquiring).dev.needle.entered := by decide +kernel
theorem witness_LostNeedle :
    ∀ c ∈ [Instr.holdoverLimit, .lockTimeout, .reacquireTimeout, .needleCounterFault], ∃ st t, exec c (follower st) = .next t ∧ st ≠ .lost ∧ t.dev.needle.state = .lost := by
  intro c hc
  simp only [List.mem_cons, List.not_mem_nil, or_false] at hc
  rcases hc with rfl | rfl | rfl | rfl
  · exact ⟨.holdover, _, rfl, by decide, by decide +kernel⟩
  · exact ⟨.acquiring, _, rfl, by decide, by decide +kernel⟩
  · exact ⟨.reacquiring, _, rfl, by decide, by decide +kernel⟩
  · exact ⟨.locked, _, rfl, by decide, by decide +kernel⟩
theorem witness_NeedleOutputsAndFrame :
    (let s := follower .locked; s.dev.needle.state.runs = true ∧ s.dev.atMarkerPosition = true ∧ s.dev.needle.emitted ≠ some (s.dev.needle.stitch, s.dev.needle.tick) ∧
      bitOf s.dev.regs.needleOut 0 = true ∧ (s.dev.port 0).state = .up) ∧
    (let s := follower .locked (fun n => { n with stitchOut := some 2999999500 }); s.dev.needle.stitchOut = some 2999999500 ∧ 500 ≤ s.dev.now - 2999999500) ∧
    exec (.needleEnable 0) (follower .locked) = .next (follower .locked) := ⟨by decide +kernel, by decide +kernel, rfl⟩

/-! ## Witnesses: the module -/

theorem witness_PinsStayInAgreement : State.reset.PinsAgree ∧ ∃ t, step State.reset = .next t := ⟨by unfold State.PinsAgree; decide, _, rfl⟩
theorem witness_FusesNeverGoBack : State.reset.FusesLegal ∧ ∃ t, step State.reset = .next t := ⟨by unfold State.FusesLegal; decide, _, rfl⟩
theorem witness_UnpoweredPackageIgnoresCommands : unpowered.pins.railsOn = false ∧ isModuleCommand .currentTrip = false := by decide
theorem witness_PowerUpAndPowerDown :
    (∀ s ∈ [unpowered (fun p => { p with pwrEn := false }), unpowered (fun p => { p with psense := false }), unpowered (fun p => { p with resetN := false }), unpowered],
      s.pins.railsOn = false ∧ s.dev.reset.trip = none ∧ s.pins.overvoltage = false ∧ 38500 < s.pins.inputMv ∧ s.pins.cool = true) ∧
    (unpowered (fun p => { p with cool := false })).pins.cool = false ∧
    State.reset.pins.pwrEn = true ∧ State.reset.pins.psense = true := by decide +kernel
theorem witness_ResetPinAndTrips :
    (dev (fun d => { d with thimble := { d.thimble with cold := false } })).dev.thimble.cold = false ∧
    ({ State.reset with pins := { State.reset.pins with pwrEn := false } } : State).pins.pwrEn = false ∧
    (State.reset.dev.keepTemps #v[104, 0, 0, 0] 0 (Vector.replicate 32 0)).power.tooHot = true ∧
    (State.reset.dev.keepTemps #v[103, 0, 0, 0] 0 (Vector.replicate 32 104)).power.tooHot = false ∧
    (State.reset.dev.keepTemps #v[103, 0, 0, 0] 0 (Vector.replicate 32 105)).power.tooHot = true := by decide +kernel

/-! ## Witnesses: registers -/

theorem witness_CounterReadsAndControls :
    (0x10000 % 8 = 0 ∧ 0x9FFF8 < 0xA0000) ∧ (let s := dev (fun d => { d with counters := { d.counters with hub := d.counters.hub.set 1 { sel := BitVec.ofNat 64 (2 ^ 62) } } });
      bitOf s.dev.counters.hub[1].sel 62 = true) ∧ (3#32).getLsbD 0 = true ∧ (3#32).getLsbD 1 = true ∧ (1#32).getLsbD 1 = false := by decide +kernel
theorem witness_NeedleSetupWrites : (withNeedle 1 { state := .free }).dev.needleOn = true ∧ (withNeedle 0xFF00 {}).dev.needleOn = false ∧ ((3 : Nat) ≠ 4 ∧ (3 : Nat) ≠ 8) := by decide
theorem witness_PanelEnableAndDisable :
    (withPanel id).dev.panel 0 = {} ∧ ((withPanel id).dev.panel 0).enabled = false ∧ ((withPanel id).dev.panel 0).memOn = false ∧
    (let q := (withPanel (fun q => { q with memCtl := 0x203 })).dev.panel 0; q.memOn = true ∧ fieldOf q.arrayCtl 27 16 = 4000 ∧ fieldOf q.schedCfg 6 0 = 8) ∧
    (let q := (withPanel (fun q => { q with memCtl := 0x203, arrayCtl := 4001 * 2 ^ 16 })).dev.panel 0; 4000 < fieldOf q.arrayCtl 27 16) ∧
    (let q := (withPanel (fun q => { q with memCtl := 0x203, schedCfg := 65 })).dev.panel 0; 64 < fieldOf q.schedCfg 6 0) ∧
    (dev (fun d => { d with reset := { d.reset with escalation := .outOfService } })).dev.reset.escalation ≠ .inService ∧
    ((withDesc (desc 0)).dev.panel 0).enabled = true ∧ (∃ c ∈ (withDesc (desc 0)).dev.contexts, c.panel = 0) := by decide +kernel

/-! ## Witnesses: operations and rings -/

/-- The bits of a descriptor with an opcode and a sub-operation, and further fields, each with its byte offset. -/
def opRaw (op sub : Nat) (fields : List (Nat × Nat) := []) : Nat := (((0, op) :: (32, sub) :: fields).map (fun p => p.2 * 256 ^ p.1)).sum

/-- A checked descriptor without a start position is the one of its ring, and may run. -/
theorem lone (raw : Nat) (o : Op) (c : Context → Context) (h : (desc raw).op? = some o) (hs : (desc raw).startEn = false)
    (hc : (withDesc (desc raw) c).dev.ctx? 1 = some (c (oneCtx [oneRing (desc raw)])))
    (hr : (c (oneCtx [oneRing (desc raw)])).ring? 0 = some (oneRing (desc raw)))
    (hv : (withDesc (desc raw) c).dev.serves (c (oneCtx [oneRing (desc raw)])) = true) :
    (withDesc (desc raw) c).dev.Lone 1 0 o (c (oneCtx [oneRing (desc raw)])) (oneRing (desc raw)) (desc raw) :=
  ⟨hc, hr, rfl, rfl, rfl, rfl, h, hs, rfl, hv⟩

theorem witness_operations :
    ∀ p ∈ [(opRaw 0x0B 0, Op.sync), (opRaw 3 0, .chainReg), (opRaw 3 1, .tableLoad), (opRaw 4 0, .storeConfig), (opRaw 4 1, .recomp), (opRaw 4 2, .release),
      (opRaw 5 0, .gussetOpen), (opRaw 10 0, .windowOpen), (opRaw 10 1, .windowClose), (opRaw 0x13 0, .setDefine), (opRaw 0x13 1, .stepCommit), (opRaw 0x13 2, .stepAbort),
      (opRaw 1 0, .matmul), (opRaw 2 0, .seam), (opRaw 6 0, .gussetAcc), (opRaw 7 0, .gussetFlush), (opRaw 8 0, .copy), (opRaw 9 0, .fill), (opRaw 0x10 0, .commJoin),
      (opRaw 0x10 1, .commLeave), (opRaw 0x10 2, .reduce), (opRaw 0x10 3, .allreduce), (opRaw 0x10 4, .broadcast), (opRaw 0x10 5, .returnSlice), (opRaw 0x10 6, .send),
      (opRaw 0x10 7, .recv), (opRaw 0x11 0, .relay), (opRaw 0x12 0, .fitting)],
      (desc p.1).op? = some p.2 ∧ (desc p.1).startEn = false ∧ (withDesc (desc p.1)).dev.ctx? 1 = some (oneCtx [oneRing (desc p.1)]) ∧
      (oneCtx [oneRing (desc p.1)]).ring? 0 = some (oneRing (desc p.1)) ∧ (withDesc (desc p.1)).dev.serves (oneCtx [oneRing (desc p.1)]) = true := by
  decide +kernel
/-- The context may open the host's window. -/
def allowed (c : Context) : Context := { c with rights := 8 }
/-- A SYNC in a ring of its own meets the terms of a control operation, and its effect is made. -/
theorem witness_ControlOperations :
    (withDesc (desc (opRaw 0x0B 0))).dev.Lone 1 0 .sync (oneCtx [oneRing (desc (opRaw 0x0B 0))]) (oneRing (desc (opRaw 0x0B 0))) (desc (opRaw 0x0B 0)) ∧
    (let d := (withDesc (desc (opRaw 0x0B 0))).dev.begun 1 0 (oneCtx [oneRing (desc (opRaw 0x0B 0))]) (desc (opRaw 0x0B 0));
      (d.ring? 1 0).isSome = true ∧ (d.ring? 1 0).all (fun r => r.queue = [(desc (opRaw 0x0B 0)).started (oneCtx [oneRing (desc (opRaw 0x0B 0))])] && !r.halted) = true) ∧
    (withDesc (desc (opRaw 10 1))).dev.windowBusy 1 = false ∧
    (let x := desc (opRaw 10 0 [(33, 3), (48, 0x200000)])
     (withDesc x id (fun d => { d with host := { upLink with hdm := { size := 2 ^ 28, ways := 1, committed := true } } })).dev.windowOpenCheck (allowed (oneCtx [oneRing x])) x = none) ∧
    (let x := desc (opRaw 10 1)
     (withDesc x id (fun d => { d with openRegions := [⟨1, 0, 65536, 0, true, true⟩] })).dev.windowCloseCheck (allowed (oneCtx [oneRing x])) x = none) :=
  ⟨lone (opRaw 0x0B 0) .sync id (by decide +kernel) (by decide +kernel) (by decide +kernel) (by decide +kernel) (by decide +kernel), by decide +kernel, by decide +kernel, by decide +kernel, by decide +kernel⟩
/-- A FILL of 8 bytes of host memory. -/
def fillDesc : Nat := opRaw 9 0 [(40, 1), (44, 8), (48, 8)]
/-- The context maps its first 2 MiB to host memory. -/
def hostMapped (c : Context) : Context := { c with tlb := [(0, 0xE000000000000000)] }
/-- The module with the FILL in its ring. -/
def filling : State := withDesc (desc fillDesc) hostMapped
/-- Its context. -/
def fillCtx : Context := hostMapped (oneCtx [oneRing (desc fillDesc)])
/-- The cap of its tacks: none, for it is no filler. -/
def fillCap : Option Nat := (filling.dev.capFor fillCtx (desc fillDesc)).getD none
/-- Its first tack has begun. -/
def fillBegun : Device := filling.dev.tackBegin 1 0 0 fillCap none
/-- That tack has committed. -/
def fillDone : Device := fillBegun.commitDma fillCtx.panel
/-- A descriptor that one tack of the DMA engine finishes. -/
theorem one_dma (d b e : Device) (c : Context) (x y : Desc) (cap : Option Nat) (t : TackRun) (hb : d.tackBegin 1 0 0 cap none = b) (he : b.commitDma c.panel = e)
    (h1 : d.ctx? 1 = some c) (h2 : d.desc? 1 0 0 = some x) (h3 : x.isFinished = false) (h4 : d.capFor c x = some cap) (h5 : (b.panel c.panel).array.run = none)
    (ht : (b.panel c.panel).array.dma = some t) (hr : t.ref = ⟨1, 0, 0⟩) (hy : e.desc? 1 0 0 = some y) (hf : y.isFinished = true) : d.Tacks 1 0 0 1 e := by
  subst hb; subst he; exact .dma 0 _ _ c x cap t h1 h2 h3 h4 h5 ht hr (.done _ y hy hf)
theorem witness_TackOperationsRun :
    filling.dev.Lone 1 0 .fill fillCtx (oneRing (desc fillDesc)) (desc fillDesc) ∧
    (let a := (filling.dev.panel fillCtx.panel).array; a.run = none ∧ a.drain = none ∧ a.dma = none ∧ a.failedTack = none ∧ a.failedDma = none) ∧
    ∃ e, filling.dev.Tacks 1 0 0 1 e := by
  refine ⟨lone fillDesc .fill hostMapped (by decide +kernel) (by decide +kernel) (by decide +kernel) (by decide +kernel) (by decide +kernel), by decide +kernel, ?_⟩
  have h : ((fillBegun.panel fillCtx.panel).array.dma).isSome = true := by decide +kernel
  obtain ⟨t, ht⟩ := Option.isSome_iff_exists.1 h
  have hr : (some t).map (fun t => t.ref) = some ⟨1, 0, 0⟩ := by rw [← ht]; decide +kernel
  have hf : (fillDone.desc? 1 0 0).map (fun y => y.isFinished) = some true := by decide +kernel
  obtain ⟨y, hy, hfin⟩ := Option.map_eq_some_iff.1 hf
  have h1 : filling.dev.ctx? 1 = some fillCtx := by decide +kernel
  have h2 : filling.dev.desc? 1 0 0 = some (desc fillDesc) := by decide +kernel
  have h3 : (desc fillDesc).isFinished = false := by decide +kernel
  have h4 : filling.dev.capFor fillCtx (desc fillDesc) = some fillCap := by decide +kernel
  have h5 : (fillBegun.panel fillCtx.panel).array.run = none := by decide +kernel
  exact ⟨fillDone, one_dma filling.dev fillBegun fillDone fillCtx (desc fillDesc) y fillCap t rfl rfl h1 h2 h3 h4 h5 ht (Option.some.inj hr) hy hfin⟩
/-- A communicator of one member. -/
def soloComm : Comm :=
  { slot := 0, commId := 5, size := 2, rank := 0, ring := 0, joinSeq := 0, table := 0, digest := 0, w24 := false, layout := 0, stagePages := 0, commitComm := true, joined := true,
    buckets := [{ elements := 2, tid := 0, stage := 0, acc := 0, sum := 0, sumLin := 0, fmt := 0, rmode := 0, shift := 0, state := .agreeing 3 }] }
/-- The context is a member of it. -/
def member (c : Context) : Context := { c with comms := [soloComm] }
/-- A COMM_LEAVE of it. -/
def leaveDesc : Nat := opRaw 0x10 1 [(36, 5)]
theorem witness_CollectiveOperationsBegin :
    (withDesc (desc leaveDesc) member).dev.Lone 1 0 .commLeave (member (oneCtx [oneRing (desc leaveDesc)])) (oneRing (desc leaveDesc)) (desc leaveDesc) ∧
    BitVec.ofNat 32 ((desc leaveDesc).f 36 4) = 5 ∧ (member (oneCtx [])).comm? 5 = some soloComm ∧
    (desc (opRaw 0x12 0)).bit 34 1 0 = false ∧ (desc (opRaw 0x12 0 [(34, 1), (40, 5)])).bit 34 1 0 = true ∧ BitVec.ofNat 32 ((desc (opRaw 0x12 0 [(34, 1), (40, 5)])).f 40 4) = 5 ∧
    (withDesc (desc (opRaw 0x13 2))).dev.commit.state = .idle :=
  ⟨lone leaveDesc .commLeave member (by decide +kernel) (by decide +kernel) (by decide +kernel) (by decide +kernel) (by decide +kernel),
    by decide +kernel, by decide +kernel, by decide +kernel, by decide +kernel, by decide +kernel, by decide +kernel⟩
/-- A COMM_JOIN of 2 members, rank 0, whose tables lie in host memory: the member table names module 0 with context 1, and module 1. -/
def joinDesc : Nat := opRaw 0x10 0 [(36, 5), (40, 2)]
/-- The module with the COMM_JOIN in its ring. -/
def joining : State := withDesc (desc joinDesc) hostMapped (fun d => { d with hostMem := memWrite [] 0 (leBytes 8 (1 * 2 ^ 32) ++ leBytes 8 (1 + 2 * 2 ^ 32)) })
theorem witness_join : (desc joinDesc).op? = some .commJoin ∧ (joining.dev.joinCheckTables (hostMapped (oneCtx [oneRing (desc joinDesc)])) 0 (desc joinDesc)).2.toOption.isSome = true := by decide +kernel
/-- A tack of the descriptor. -/
def aTack : TackRun := { ref := ⟨1, 0, 0⟩, len := 1, checks := [some { s := ⟨1, 0⟩, g := ⟨1, 0⟩, r := ⟨1, 0⟩, exact_ := true, least := 0, grids := [0] }] }
/-- A stationary tile of the descriptor. -/
def aTile : TileRef := { ref := ⟨1, 0, 0⟩, inner := none, jt := 0, kt := 0, comp := 0, fmt := 0 }
/-- Panel 0 loads that tile into its shadow plane. -/
def loadingTile (ready : Bool) (d : Device) : Device := d.updPanel 0 (fun q => { q with array := { q.array with shadow := { q.array.shadow with tile := some aTile }, shadowReady := ready } })
/-- Panel 0 runs a tack on its array. -/
def running (d : Device) : Device := d.updPanel 0 (fun q => { q with array := { q.array with run := some aTack } })
theorem witness_ArrayAndTackBoundary :
    (let s := withDesc (desc (opRaw 1 0)) id (loadingTile false)
     (s.dev.panel 0).array.shadow.tile = some aTile ∧ (s.dev.panel 0).array.shadowReady = false ∧ s.dev.ctx? 1 = some (oneCtx [oneRing (desc (opRaw 1 0))]) ∧ s.dev.desc? 1 0 0 = some (desc (opRaw 1 0))) ∧
    (dev (loadingTile false)).dev.ctx? 1 = none ∧ ((dev (loadingTile true)).dev.panel 0).array.shadowReady = true ∧ ((dev id).dev.panel 0).array.shadow.tile = none ∧
    (¬ ∃ c ∈ (withDesc (desc 0) (fun c => { c with resident := false })).dev.contexts, c.panel = 0 ∧ c.resident = true) ∧ (∃ c ∈ (withDesc (desc 0)).dev.contexts, c.panel = 0 ∧ c.resident = true) ∧
    ((withPanel (fun q => { q with array := { q.array with certRunning := true } })).dev.panel 0).array.certRunning = true ∧ (withPanel id).dev.err.general < 64 ∧
    (let s := dev (fun d => { (d.updPanel 0 (fun q => { q with ctl := 1, memCtl := 0x203 })) with power := { d.power with panels := d.power.panels.set 0 { d.power.panels[0] with issued := some 11 } } })
     (s.dev.panel 0).enabled = true ∧ (s.dev.panel 0).fenced = false ∧ (s.dev.panel 0).dbg.halted = false ∧ (s.dev.panel 0).stepped = false ∧ s.dev.waitsSupply 0 = false ∧
       s.dev.contexts = [] ∧ (let a := (s.dev.panel 0).array; a.run = none ∧ a.drain = none ∧ a.dma = none ∧ a.failedTack = none ∧ a.failedDma = none ∧ a.certRunning = false) ∧ s.dev.power.panels[0].issued = some 11 ∧ s.dev.power.panels[0].drooped s.dev.now = false) ∧
    ({ ({} : PanelPower) with stretched := true }).drooped 0 = true ∧
    (let s := withPanel (fun q => { q with ctl := 1, memCtl := 0x203, array := { q.array with run := some aTack, chain := false } })
     (s.dev.panel 0).enabled = true ∧ (s.dev.panel 0).fenced = false ∧ s.dev.waitsSupply 0 = false ∧ (s.dev.panel 0).array.run.isSome = true ∧ (s.dev.panel 0).array.chain = false) := by decide +kernel
theorem witness_TacksCommitOrReplay :
    (let s := withDesc (desc (opRaw 1 0) .running) id running
     (s.dev.panel 0).array.run = some aTack ∧ (s.dev.panel 0).array.drain = none ∧ (s.dev.panel 0).array.dma = none ∧ aTack.replay = false ∧
       aTack.checkFails 0 0 1 = true ∧ aTack.checkFails 0 0 0 = false ∧ aTack.checkFails 0 1 1 = false ∧ s.dev.desc? 1 0 0 = some (desc (opRaw 1 0) .running) ∧
       ((desc (opRaw 1 0) .running).form aTack.inner).op? = some .matmul ∧ (s.dev.panel 0).replayTacks.length + 1 ≤ fieldOf s.dev.regs.guardCtl 15 8) ∧
    (let s := withDesc (desc (opRaw 9 0) .running) id (fun d => d.updPanel 0 (fun q => { q with array := { q.array with dma := some aTack } }));
     (s.dev.panel 0).array.drain = none ∧ (s.dev.panel 0).array.run = none ∧ (s.dev.panel 0).array.dma = some aTack) := by decide +kernel
/-- A ring with one slot below TAIL, and the slot's bytes in host memory. -/
def fetching (raw : Nat) : State :=
  dev (fun d => { d with contexts := [oneCtx [{ oneRing (desc 0) with queue := [], next := 0 }]], host := upLink, hostMem := memWrite [] 0x10000 (leBytes 128 raw) })
theorem witness_DescriptorsPassTheRing :
    (∀ p ∈ [(opRaw 0x0B 0 [(8, 1)], 1, (none : Option Code), false), (opRaw 0x0F 0, 0, some 0x0906, false), (opRaw 0x0B 0, 0, none, false), (opRaw 0x0B 0 [(1, 2), (4, 31)], 0, none, true), (opRaw 0x0B 0 [(1, 2), (4, 32)], 0, none, true)],
      let s := fetching p.1
      let x : Desc := desc (leNat (s.dev.hostRead 0x10000 128)) .fetched
      (oneCtx [{ oneRing (desc 0) with queue := [], next := 0 }]).ring? 0 = some { oneRing (desc 0) with queue := [], next := 0 } ∧
      s.dev.fetchable { oneRing (desc 0) with queue := [], next := 0 } = true ∧ x.f 8 4 = p.2.1 ∧ (p.2.1 = 0 → x.headerCheck = p.2.2.1) ∧ x.waitEn = p.2.2.2) ∧
    (let x := desc (opRaw 0x0B 0 [(23, 128)])
     let s := withDesc x id (fun d => { d with needle := { state := .free, stitch := 1 } })
     x.startEn = true ∧ x.phase = .checked ∧ s.dev.startRefusal x = none ∧ s.dev.reached x.startAt = true ∧ s.dev.isLate x.startAt = true ∧ x.skipIfLate = false) ∧
    (let x := desc (opRaw 9 0 [(23, 192)]); x.skipIfLate = true ∧ (x.op?.any Op.neverSkips) = false ∧ x.startEn = true) ∧
    (let s := withDesc (desc (opRaw 0x0B 0) (.finished 0)) id (fun d => { d with host := upLink });
     s.dev.host.link = .l0 ∧ (desc (opRaw 0x0B 0) (.finished 0)).ticket = none ∧ ∀ n : RingId, n ≠ 0 → (oneCtx [oneRing (desc 0)]).ring? n = none) := by decide +kernel
/-- A Gusset entry of 32 elements. -/
def gentry : GussetEntry := { param := 9, rows := 1, cols := 32, ld := 32, home := 0, lin := 0x1000, fmt := 0, frontLines := 0 }
/-- The context has it open. -/
def opened (c : Context) : Context := { c with gusset := [gentry] }
/-- A flush that only clears it. -/
def flushDesc : Nat := opRaw 7 9 [(36, 2)]
theorem witness_GussetFlushRuns :
    (withDesc (desc flushDesc) opened).dev.Lone 1 0 .gussetFlush (opened (oneCtx [oneRing (desc flushDesc)])) (oneRing (desc flushDesc)) (desc flushDesc) ∧
    (desc flushDesc).f 36 1 = 2 ∧ (desc (opRaw 7 9 [(36, 1)])).f 36 1 = 1 ∧ (desc (opRaw 7 9)).f 36 1 = 0 ∧
    (opened (oneCtx [])).gusset? (BitVec.ofNat 32 ((desc (opRaw 7 9)).f 32 4)) = some gentry ∧ (oneCtx []).sets = [] ∧
    (∀ p ∈ [(BucketState.idle, false), (.filling 3, false), (.agreeing 3, true), (.reducing 3, true), (.done 2, false)],
      (match ({ oneCtx [] with comms := [{ soloComm with buckets := soloComm.buckets.map (fun b => { b with elements := 32, state := p.1 }) }] } : Context).deliveryCheck 0 0 32 3 with
      | .ok b => some b
      | .error _ => none) = some p.2) :=
  ⟨lone flushDesc .gussetFlush opened (by decide +kernel) (by decide +kernel) (by decide +kernel) (by decide +kernel) (by decide +kernel),
    by decide +kernel, by decide +kernel, by decide +kernel, by decide +kernel, by decide +kernel, by decide +kernel⟩

/-! ## Witnesses: admission, snoops, swaps -/

/-- Admission is enabled, with one command in its ring and the TAIL past it. -/
def admitting (cmd : Nat) : State :=
  dev (fun d => { d with regs := { d.regs with devCtl := 1, admitCtl := 64 * 2 ^ 16 + 6 * 2 ^ 8 + 3, admitBase := 0x100000, admitCplBase := 0x200000, admitDb := 0x300000 },
                         admitRing := { tail := 1 }, host := upLink, hostMem := memWrite [] 0x100000 (leBytes 128 cmd) })
theorem witness_AdmissionCommandsRun :
    (∀ p ∈ [(1, false, 0), (2, false, 0), (3, false, 0), (4, false, 0), (5, false, 0), (6, true, 0), (2 + 2 ^ 64, false, 1)],
      let s := admitting p.1
      let cmd := s.dev.hostRead 0x100000 128
      s.dev.admitOn = true ∧ s.dev.admitRing.halted = false ∧ s.dev.host.link = .l0 ∧ s.dev.areaOn 1 = true ∧ tailAhead s.dev.admitRing.tail s.dev.admitRing.next ≠ 0 ∧
      fieldOf s.dev.regs.admitBase 63 6 * 64 = 0x100000 ∧ cmdReserved cmd = p.2.1 ∧ bytesField cmd 8 4 = p.2.2 ∧ (s.dev.hostFetch 0x100000 128).1.cmdWaits cmd = false ∧ (s.dev.hostFetch 0x100000 128).1.admitWaits cmd true = false ∧ bytesField cmd 0 1 = p.1 % 256) := by decide +kernel
theorem witness_AdmissionEffects :
    (dev (fun d => { d with reset := { d.reset with escalation := .outOfService } })).dev.escalationCode = some 0x0140 ∧ State.reset.dev.escalationCode = none ∧
    bytesField (State.reset.dev.hostRead 0 4755) 0 2 ≠ 1 ∧ bytesField (State.reset.dev.hostRead 0 256) 0 1 < 8 ∧ State.reset.dev.contexts = [] ∧
    (let e := (withDesc (desc 0) id (fun d => { d with host := upLink, hostMem := [(0x30000, 1)] })).dev.readDoorbells 1; ((e.ctx? 1).getD (oneCtx [])).rings.any (fun r => tailAhead r.tail r.complNext != 0) = true) ∧
    (let e := (withDesc (desc 0) (fun c => { c with rings := [] })).dev.readDoorbells 1; ((e.ctx? 1).getD (oneCtx [])).rings.any (fun r => tailAhead r.tail r.complNext != 0) = false) ∧
    (dev id).dev.mapPoisoned 0x200000 1 = false ∧ (dev (fun d => { d with poison := [0x200000 / 64] })).dev.mapPoisoned 0x200000 1 = true ∧
    (let d := (dev id).dev; (d.namedFrames 0x200000 1 0 0).any (fun f => !d.claimable 1 false f) = false) ∧ (withDesc (desc 0)).dev.ctx? (oneCtx [oneRing (desc 0)]).id = some (oneCtx [oneRing (desc 0)]) ∧
    ((oneCtx [oneRing (desc 0)]).masked 15).all (fun n => !((oneCtx [oneRing (desc 0)]).ring? n).any (fun r => r.halted)) = true ∧
    (∃ n ∈ (oneCtx [{ oneRing (desc 0) with halted := true, failed := some ⟨0, true, 0⟩ }]).masked 1,
      ((oneCtx [{ oneRing (desc 0) with halted := true, failed := some ⟨0, true, 0⟩ }]).ring? n).any (fun r => r.halted && r.failed.any (fun f => f.effect)) = true) ∧
    (bytesField (leBytes 128 2) 0 1 ≠ 1 ∧ State.reset.dev.ctx? (BitVec.ofNat 16 (bytesField (leBytes 128 2) 2 2)) = none) := by decide +kernel
theorem witness_AdmissionEnableChecks :
    State.reset.dev.reset.escalation = .inService ∧ State.reset.dev.admitOn = false ∧ (admitting 0).dev.admitOn = true ∧ State.reset.dev.enabled = false ∧
    (let r := (admitting 0).dev.regs; fieldOf r.admitCtl 11 8 = 6 ∧ fieldOf r.admitCtl 27 16 = 64 ∧ fieldOf r.admitPoll 6 0 = 16 ∧
      rangesOverlap 0x100000 (128 * 2 ^ 6) 0x200000 (32 * 2 ^ 6) = false ∧ rangesOverlap 0x100000 (128 * 2 ^ 6) 0x300000 64 = false) := by decide +kernel
/-- CXL.cache is enabled on the link, and the line at 64 is held. -/
def cached : State := dev (fun d => { d with host := { upLink with config := [(0x30C, 1)], lines := [64] } })
theorem witness_SnoopsAndPolls :
    (cached.dev.host.link = .l0 ∧ cached.dev.host.cacheEnabled = true ∧ cached.dev.host.lines.contains (127 / 64 * 64) = true ∧ cached.dev.host.lines.contains (128 / 64 * 64) = false) ∧
    (let s := admitting 0; ¬ s.dev.admitRing.lastPoll + s.dev.pollNs ≤ s.dev.now ∧ s.dev.contexts = [] ∧ s.dev.heldMode = false ∧ s.dev.admitOn = true ∧ s.dev.admitRing.halted = false ∧ s.dev.areaOn 1 = true ∧
      tailAhead (leNat (s.dev.hostRead (fieldOf s.dev.regs.admitDb 63 6 * 64) 4)) s.dev.admitRing.next ≤ 2 ^ s.dev.admissionSize) ∧
    (let d := { (admitting 0).dev with now := (admitting 0).dev.pollNs }; d.admitRing.lastPoll + d.pollNs ≤ d.now) := by decide +kernel
/-- Panel 0 has 32 resident contexts; context 40 waits for a slot. -/
def crowded : State :=
  dev (fun d => { d with contexts := (List.range 32).map (fun i => { oneCtx [] with id := BitVec.ofNat 16 (i + 1), pinned := false }) ++ [{ oneCtx [oneRing (desc (opRaw 0x0B 0))] with id := 40, resident := false }] }.updPanel 0
    (fun q => { q with ctl := 1, memCtl := 0x203 }))
/-- Context 40 alone waits, and a slot is free. -/
def roomy : State := { crowded with dev := { crowded.dev with contexts := crowded.dev.contexts.drop 31 } }
theorem witness_ContextsAreSwapped :
    (let d := crowded.dev.noteReady; (d.ctx? 1).isSome = true ∧ d.slotsFull 0 = true ∧ (d.firstReady 0).map (fun v => v.id) = some 40 ∧ (d.swapVictim 0).map (fun v => v.id) = some 1) ∧
    (let d := roomy.dev.noteReady; (d.ctx? 40).map (fun c => c.resident) = some false ∧ d.slotsFull 0 = false ∧ (d.panel 0).memOn = true ∧ (d.firstFitting 0).map (fun v => v.id) = some 40) ∧
    (crowded.dev.ctx? 1).map (fun k => k.stash) = some [] := by decide +kernel
/-- A spilled entry of 32 elements of one format 0 row, which fits one Bobbin page. -/
def spilled : StashEntry := { tag := 3, seq := 1, rows := 1, cols := 32, named := 0, fmt := 0, sigma := 0, cold := false, spill := [0], readable := true }
theorem witness_prefetch :
    let c : Context := { oneCtx [] with stash := [spilled], releasedSince := true, bobbinMax := 1, bobbinPages := 1, tlb := [(0, 0xE000000000000000)], spillAddr := 0, spillBytes := 65536 }
    spilled.bobbin = false ∧ spilled.spill.isEmpty = false ∧ spilled.pages = 1 ∧ c.resident = true ∧ 1 ≤ c.shareFree := by decide +kernel

/-! ## Witnesses: memory -/

theorem witness_MemoryReadsBack : memWf [(1, 2)] = true := by decide
/-- Panel 0's memory is trained and loaded. -/
def trained (q : Panel) : Panel := { q with mem := { q.mem with trained := 15, loaded := true } }
theorem witness_MemoryEnableAndRetireTable :
    (let q := (withPanel trained).dev.panel 0; q.memOn = false ∧ q.mem.present = true ∧ q.mem.trained = 0xF ∧ q.mem.loaded = true ∧ q.mem.loadBusy = false ∧ (withPanel trained).dev.escalationCode = none ∧ fieldOf q.memScrub 7 0 = 24 ∧ fieldOf q.memCtl 11 8 = 2 ∧ fieldOf q.spoolCfg 4 0 = 12 ∧ bitOf q.memCtl 1 = true) ∧
    ((withPanel (fun q => { q with memCtl := 0x203, ctl := 1 })).dev.panel 0).memOn = true ∧ (0x80000000#32).getLsbD 31 = true ∧
    (let s := dev (fun d => { (d.updPanel 0 (fun q => { q with mem := { q.mem with loadBusy := true, loading := (0x1000, 2) } })) with host := upLink, hostMem := memWrite [] 0x1000 (leBytes 4 7 ++ leBytes 4 5242879) })
     let list := (List.range 2).map (fun i => leNat (s.dev.hostRead (0x1000 + 4 * i) 4))
     (s.dev.panel 0).mem.loadBusy = true ∧ (s.dev.panel 0).mem.loading = (0x1000, 2) ∧ s.dev.host.link = .l0 ∧ list = [7, 5242879] ∧ (∀ e ∈ list, e < 5242880) ∧ list.Pairwise (fun a b => a < b)) ∧
    (let q := (withPanel (fun q => { q with memCtl := 0x203, mem := { q.mem with retired := [7, 9] } })).dev.panel 0; q.memOn = true ∧ 8 ∉ q.mem.retired ∧ 7 ∈ q.mem.retired ∧ q.mem.retired.length < 4096 ∧ q.mem.retired.Pairwise (fun a b => a < b)) ∧
    ¬ (5242880#32).toNat % 2 ^ 23 < 5242880 ∧ 4096 ≤ (List.range 4096).length := by decide +kernel
/-- A trained memory that is enabled. -/
def working (f : Device → Device := id) : State := withPanel (fun q => { trained q with memCtl := 0x203 }) f
theorem witness_EccAndStackEvents :
    (let s := working; let e : ReadError := { flips := [(17, 1)] }
     64 < mpaEnd ∧ panelOf 64 = 0 ∧ s.dev.err.general < 63 ∧ (s.dev.panel 0).memOn = true ∧ memWf s.dev.mem = true ∧ s.dev.isPoison 1 = false ∧ 1 ∉ s.dev.faulty ∧
       (e.from_ = none ∧ e.flips = [(17, 1)] ∧ (1#32) ≠ 0) ∧ bitOf (s.dev.panel 0).memCtl 1 = true ∧ (s.dev.panel 0).retires 64 = false ∧ 1 ∉ (s.dev.panel 0).mem.scrubbed) ∧
    1 ∈ (working (fun d => { d with faulty := [1] })).dev.faulty ∧ 1 ∈ ((working (fun d => d.updPMem 0 (fun m => { m with scrubbed := [1] }))).dev.panel 0).mem.scrubbed ∧
    (let s := working
     (s.dev.now - (s.dev.panel 0).mem.windowSince < (s.dev.panel 0).windowNs) ∧ (let d := { s.dev with now := (s.dev.panel 0).windowNs }; (d.panel 0).windowNs ≤ d.now - (d.panel 0).mem.windowSince) ∧
     (s.dev.panel 0).mem.trained.getLsbD 3 = true ∧ ((dev id).dev.panel 0).mem.trained.getLsbD 3 = false ∧ timeOf (s.dev.panel 0).mem.refreshed 5 = none ∧ dueSince (s.dev.panel 0).mem.refreshed 5 1000000 3900 = true ∧
       dueSince (s.dev.panel 0).mem.maintained 5 1000000 2000 = true ∧ dueSince [(5, 999999)] 5 1000000 2000 = false) ∧
    (let r : MemRequest := { mpa := 0, cls := .slate, write := false, since := 0, promoted := false, requester := .nobody }
     let s := dev (fun d => { (d.updPanel 0 (fun q => { q with mem := { q.mem with queues := [(0, [r])] } })) with now := 1000000000 })
     (s.dev.panel 0).mem.queueOf 0 = [r] ∧ s.dev.mayPromote (s.dev.panel 0).mem 0 r = true ∧ s.dev.mayPromote (s.dev.panel 0).mem 0 { r with promoted := true } = false) ∧
    (92 < (93#8).toNat ∧ ¬ 92 < (92#8).toNat ∧ ¬ 89 < (89#8).toNat ∧ (82#8).toNat ≤ 82 ∧ 95 < (96#8).toNat) := by decide +kernel
/-- A window of 64 KiB at offset 0 onto frame 0 of panel 0, which context 1 owns. -/
def windowed : State :=
  withDesc (desc 0) (fun c => { c with tlb := [(0, 0xC000000000000000)] }) (fun d => { d with
    host := { upLink with config := [(0x30C, 4)], hdm := { size := 2 ^ 28, ways := 1, committed := true } }, openRegions := [⟨1, 0, 65536, 0, true, true⟩],
    frames := { entries := [⟨0, [1], false, true, false⟩] } })
theorem witness_WindowAccesses :
    windowed.dev.windowOn = true ∧ memWf windowed.dev.mem = true ∧ windowed.dev.faulty = [] ∧ windowed.dev.windowPlace 64 false = .at_ 1 64 ∧ windowed.dev.windowPlace 64 true = .at_ 1 64 ∧
    windowed.dev.windowPlace 65536 false = .unmapped ∧ windowed.dev.windowPlace 65536 true = .unmapped ∧
    ({ windowed.dev with contexts := windowed.dev.contexts.map (fun (c : Context) => { c with mapEntries := 0, tlb := [] }) } : Device).windowPlace 64 false = .bad ∧ windowed.dev.windowPlace 65472 true = .at_ 1 65472 ∧ (List.replicate 64 (0 : Byte)).length = 64 ∧ (1#64) ≠ BitVec.allOnes 64 := by decide +kernel

/-! ## Witnesses: the fabric -/

/-- Port 0 in a state, enabled, on a module whose device enable is set. -/
def onPort (st : PortState) (f : Port → Port := id) (g : Device → Device := id) : State :=
  withPort (fun q => f { q with ctl := 5, state := st }) (fun d => g { d with regs := { d.regs with devCtl := 1 } })
theorem witness_PortsEnableAndDrain :
    (let s := withPort (fun q => { q with ctl := 4 }) (fun d => { d with regs := { d.regs with devCtl := 1 }, fabric := { d.fabric with active := some ⟨[], []⟩ } })
     let q := s.dev.port 0
     s.dev.reset.escalation = .inService ∧ q.enabled = false ∧ s.dev.enabled = true ∧ s.dev.fabric.active ≠ none ∧ (List.range 5).map (fun k => fieldOf q.creditRes (11 * k + 10) (11 * k)) = [4, 17, 17, 17, 17] ∧ fieldOf q.creditShr 10 0 = 952 ∧
       (List.range 3).map (fun k => fieldOf q.arb (4 * k + 3) (4 * k)) = [4, 8, 4] ∧ fieldOf s.dev.regs.fabCfg 27 16 = 500 ∧ fieldOf s.dev.regs.fabCfg 45 32 = 1200 ∧ (s.dev.cart (cartOf 0)).present = true ∧
       s.dev.removeAsked (cartOf 0) = false) ∧
    ((onPort .up).dev.port 0).enabled = true ∧ ((onPort .up).dev.port 0).packets = [] ∧ ((onPort .up).dev.port 0).state = .up ∧
    ((onPort .draining).dev.port 0).drained = true ∧ (onPort .draining).dev.removeAsked (cartOf 0) = false ∧ ((onPort .draining).dev.port 0).state = .draining ∧ (onPort .draining id (fun d => { d with regs := { d.regs with lcCtl := 1 } })).dev.removeAsked (cartOf 0) = true := by decide +kernel
/-- Cartridge 0 with lights and locks. -/
def withCart (c : Cartridge) (ctl : BitVec 64 := 0) : State :=
  dev (fun d => { d with now := 2000000000, regs := { d.regs with lcCtl := ctl }, fabric := { d.fabric with carts := d.fabric.carts.set 0 c } })
theorem witness_CartridgeEvents :
    (∀ n, cartOf n = 0 → ((withCart {}).dev.port n).state = .disabled ∧ ((withCart {}).dev.port n).packets = []) ∧ (withCart {} 1).dev.removeAsked 0 = true ∧ (withCart {}).dev.removeAsked 0 = false ∧ bitOf (withCart {}).dev.regs.lcCtl 0 = false ∧ bitOf (withCart {} 1).dev.regs.lcCtl 0 = true ∧
    (∀ j : CartId, (1#32).getLsbD j.val = (bitOf (withCart {}).dev.regs.lcCtl j.val || j = 0)) ∧ (∀ j : CartId, (0#32).getLsbD j.val = (bitOf (withCart {} 1).dev.regs.lcCtl j.val && j != 0)) ∧
    (let c := (withCart { lasers := true }).dev.cart 0; c.present = true ∧ c.genuine = true ∧ c.lasers = true ∧ c.fault = false ∧ c.ready = false ∧ 2000000000 ≤ (withCart { lasers := true }).dev.now - c.since) ∧
    ((withCart { present := false }).dev.cart 0).present = false := by decide +kernel
/-- A peer that is trusted, module 5. -/
def peer : PeerIdentity := { trusted := true, debugOpen := false, ext := false, modNum := 5, port := 0, identity := 1, rtt100ps := 100 }
theorem witness_LinkTraining :
    (let q := (onPort .training).dev.port 0; q.packets = [] ∧ q.state = .training ∧ q.locked = false) ∧
    (let q := (onPort .training (fun q => { q with locked := true, peerExpect := 2 ^ 31 + 6 })).dev.port 0; q.locked = true ∧ q.identified = false ∧ bitOf q.peerExpect 31 = true ∧ fieldOf q.peerExpect 14 0 ≠ peer.modNum.toNat) ∧
    { peer with trusted := false }.trusted = false ∧ ({ peer with debugOpen := true }.debugOpen = true ∧ (onPort .training).dev.thimble.debugOpen = false ∧ peer.ext = false) ∧ (onPort .securing).dev.removeAsked (cartOf 0) = false ∧
    (let q := (onPort .training (fun q => { q with locked := true })).dev.port 0; bitOf q.peerExpect 31 = false) ∧ ((onPort .training (fun q => { q with identified := true })).dev.port 0).identified = true ∧
    (let q := (onPort .securing (fun q => { q with keyed := true })).dev.port 0; q.state = .securing ∧ q.keyed = true ∧ bitOf q.ctl 1 = false) ∧
    bitOf ((onPort .securing (fun q => { q with ctl := 7 })).dev.port 0).ctl 1 = true ∧ (onPort .training).dev.now - ((onPort .training).dev.port 0).since < 100000000 ∧
    (onPort .training id (fun d => { d with now := 100000000 })).dev.now - ((onPort .training).dev.port 0).since = 100000000 := by decide +kernel
/-- An identity other than the module's own exists, whatever the module's is. -/
theorem witness_peer_identity : ∃ i : BitVec 64, i ≠ ownIdentity := by
  refine ⟨~~~ownIdentity, fun h => ?_⟩
  have := congrArg (fun v : BitVec 64 => v.getLsbD 0) h
  simp at this
/-- A good codeword. -/
def cword (body : CwBody) : Codeword := { symbols := 0, crcOk := true, tagOk := true, txSeq := 1, ackSeq := none, nak := false, credit := none, body := body }
/-- The head of a packet to this module's context 1 on panel 0. -/
def head : PktHead := { cls := .indigo, layer := false, dstMod := 0, dstPanel := 0, srcMod := 0, srcPanel := 0, age := 0, dstCtx := 1, srcCtx := 1, addr := 0, xtag := 7, poisonMask := 0, tenant := none }
/-- A flit that waits for its acknowledgement. -/
def flit : ReplayFlit := { seq := 0, pkt := ⟨head, .writeAck⟩, index := 0, resends := 7 }
/-- A packet of two flits. -/
def twoFlits : Packet := ⟨head, .writeRequest (List.replicate 129 0)⟩
theorem witness_CodewordsAndPortsDown :
    (let q := (onPort .up).dev.port 0; q.state = .up ∧ q.markerOut = none ∧ q.linkCtlOut = [] ∧ q.replayCursor = none ∧ (∀ v : Fin 5, q.queues[v.val] = []) ∧ q.packets = [] ∧ q.authFails = 0 ∧ (1#16) ≠ q.rxSeq ∧
      q.uncorrRun < 7 ∧ q.peer.any (fun p => p.ext) = false ∧ { q with peer := some peer }.peer = some peer ∧ 1 < twoFlits.flits ∧ (cword (.flit twoFlits 0)).txSeq = { q with rxSeq := 1 }.rxSeq ∧ 8 < { cword .idle with symbols := 9 }.symbols ∧
      (onPort .up).dev.now - q.ackSince < 2000 ∧ (onPort .up).dev.now - q.lastGood < 500 ∧ (onPort .up).dev.err.general < 64) ∧
    (let s := onPort .up (fun q => { q with replayBuf := [flit], uncorrRun := 7 }) (fun d => { d with now := 2000 })
     (s.dev.port 0).replayBuf = [flit] ∧ flit.resends < 8 ∧ 2000 ≤ s.dev.now - (s.dev.port 0).ackSince ∧ 500 ≤ s.dev.now - (s.dev.port 0).lastGood ∧ 7 ≤ (s.dev.port 0).uncorrRun) ∧ ((onPort .up).dev.cart (cartOf 0)).ready = false ∧
    ((onPort .up id (fun d => { d with fabric := { d.fabric with carts := d.fabric.carts.set 0 { lasers := true, ready := true } } })).dev.cart (cartOf 0)).ready = true ∧
    (let s := onPort .down id (fun d => { d with now := 1000000000 }); (s.dev.port 0).state = .down ∧ (s.dev.port 0).enabled = true ∧ bitOf (s.dev.port 0).ctl 2 = true ∧ 1000000000 ≤ s.dev.now - (s.dev.port 0).since) := by decide +kernel
/-- A route image for module 0, whose one entry is its own, and which the checks take. -/
def routeImage : List Byte := leBytes 2 1 ++ leBytes 2 0 ++ leBytes 4 1 ++ leBytes 248 0 ++ leBytes 4 0xC0000000
/-- A module that loads that image. -/
def loadingRoutes : State := dev (fun d => { d with host := upLink, hostMem := memWrite [] 0 routeImage, fabric := { d.fabric with loadBusy := true, standby := some ⟨[], []⟩ } })
/-- A module whose routes send packets for module 1 out of port 0, without or with the turns that this asks for. -/
def routing (turns : List (BitVec 32)) : State :=
  onPort .up id (fun d => { d with fabric := { d.fabric with active := some ⟨turns, [0xC0000000, 0x80000000]⟩, uses := [{ dst := 9, egress := 0, lastQueued := 0, holdUntil := some 5 }] } })
theorem witness_RoutesAndPackets :
    ((0x80000000#32).getLsbD 31 = true ∧ (0x80000000#32).getLsbD 30 = false ∧ (0x40000000#32).getLsbD 30 = true) ∧ (dev id).dev.fabric.loadBusy = false ∧ (dev id).dev.host.link ≠ .l0 ∧
    (let s := loadingRoutes
     let image (o n : Nat) : Nat := leNat (s.dev.hostRead (s.dev.regs.fabRouteBase.toNat / 64 * 64 + o) n)
     s.dev.fabric.loadBusy = true ∧ s.dev.host.link = .l0 ∧ image 0 2 = 1 ∧ image 2 2 = s.dev.modNum.toNat ∧ image 4 4 = 1 ∧ s.dev.modNum.toNat < 1 ∧ image 8 8 = 0 ∧ (∀ i < 5, image (216 + 8 * i) 8 = 0) ∧
       (∀ i < 50, image (16 + 4 * i) 4 = 0) ∧ image 256 4 = 0xC0000000 ∧ (0xC0000000#32) &&& 0x07FF83E0 = 0 ∧ s.dev.fabric.standby = some ⟨[], []⟩) ∧
    (let s := routing []; s.dev.turnAllows 3 false 0 = false ∧ s.dev.routeWord 1 = some 0x80000000 ∧ (s.dev.routeWord s.dev.modNum).any (fun w => w.getLsbD 30) = true ∧
      (s.dev.fabric.uses.find? (fun x => x.dst = 9)).any (fun u => u.holdUntil = some 5 && u.held.isEmpty) = true ∧ s.dev.now < 5 ∧ 5 ≤ s.dev.now + 5) ∧
    (let s := routing (List.replicate 50 1); s.dev.turnAllows 3 false 0 = true ∧ s.dev.portUsable (portOf ((0x80000000#32).toNat % 32)) PktBody.writeAck.vc = true ∧ (1#15) ∉ s.dev.fabric.deadMods ∧ (1#15) ≠ s.dev.modNum ∧
      s.dev.fabric.uses.find? (fun x => x.dst = 1) = none) ∧
    (head.dstMod = (dev id).dev.modNum ∧ (5#15) ≠ (dev id).dev.modNum ∧ isFlood PktBody.writeAck = false ∧ PktBody.writeAck.isRequest = false ∧ (dev id).dev.tooOld 3906 = false ∧ (dev id).dev.tooOld 3907 = true) ∧
    isFlood (.decide ⟨0, 0⟩) = true := by decide +kernel
theorem witness_RemoteAccesses :
    (let s := windowed
     (match s.dev.remoteTarget head with | .ok c => some c.id | .error _ => none) = some 1 ∧ (match s.dev.remoteTarget { head with srcMod := 5 } with | .ok c => some c.id | .error _ => none) = some 1 ∧ (s.dev.panel (panelOf 64)).retires (ppaOf 64) = false ∧
     (∀ c ∈ s.dev.contexts, (match s.dev.translate c 64 true with | .ok (.dev mpa) => some mpa | _ => none) = some 64 ∧ viewTarget c.sets [] 64 = 64 ∧ bankWriteDenied c.sets 64 = false) ∧
     head.poisonMask = 0 ∧ s.dev.fabric.active = none ∧ s.dev.fabric.outstanding = [] ∧ head.srcMod = s.dev.modNum ∧ ({ head with srcMod := 5 }).srcMod ≠ s.dev.modNum ∧
     s.dev.faulty = [] ∧ s.dev.poison = [] ∧ s.dev.lostStacks = [] ∧ (s.dev.port 0).state = .disabled) ∧
    (match windowed.dev.remoteTarget { head with dstCtx := 2 } with | .ok _ => none | .error e => some e) = some 0x0423 ∧
    (match windowed.dev.remoteTarget { head with tenant := some 0 } with | .ok _ => none | .error e => some e) = some 0x0810 ∧
    (match (dev id).dev.remoteTarget head with | .ok _ => none | .error e => some e) = some 0x0221 := by decide +kernel

/-! ## Witnesses: exchanges -/

/-- The members of a communicator of 2 in host memory: this module's context 1, and context 2 of module 1. -/
def members : Memory := memWrite [] 0 (leBytes 8 (1 * 2 ^ 32) ++ leBytes 8 (1 + 2 * 2 ^ 32))
/-- A member of rank `r`, with a joined state, and a descriptor in its ring. -/
def grouped (r : Nat) (f : Comm → Comm := id) (x : Desc := desc 0) (g : Device → Device := id) : State :=
  withDesc x (fun c => { hostMapped c with comms := [f { soloComm with rank := r, table := 0 }], sets := [⟨0, 0x1000, 0x2000, 0x3000, 0x1000, 0⟩] }) (fun d => g { d with hostMem := if r = 0 then members else memWrite [] 0 (leBytes 8 (1 + 2 * 2 ^ 32) ++ leBytes 8 (1 * 2 ^ 32)) })
/-- A packet's head from the other member. -/
def fromOther : PktHead := { head with srcMod := 1, srcCtx := 2 }
/-- Whether the acceptance rule takes a packet of the other member. -/
def taken (s : State) (rank : Nat) : Bool := match (s.dev.commRead fromOther 5 rank).commFor fromOther 5 rank with
  | .ok (c, k) => c.id = 1 && k.commId = 5
  | .error _ => false
theorem witness_TreeAndSlices : (4097 : Nat) ≤ 32768 ∧ 0 < 4096 ∧ 4096 < 4097 ∧ 0 < 5 ∧ 4 < 5 := by decide
/-- What a transfer under way shows. -/
def xfer (nth : Nat) : CollRun := { ctx := 1, ring := 0, seq := 0, commId := 5, nth := nth, own := true }
/-- Why the acceptance rule refuses a packet. -/
def turnedAway (s : State) (h : PktHead) : Option Code := match (s.dev.commRead h 5 1).commFor h 5 1 with
  | .ok _ => none
  | .error e => some e
theorem witness_CommunicatorPackets :
    turnedAway (grouped 0 id (desc 0) (fun d => d.updPanel 0 (fun q => { q with ctl := 0, memCtl := 0 }))) fromOther = some 0x0221 ∧ turnedAway (grouped 0) { fromOther with tenant := some 0 } = some 0x0810 ∧ ((grouped 0).dev.ctx? 1).bind (fun q => q.comm? 5) = some { soloComm with table := 0 } ∧
    (let s := withDesc (desc 0) (fun c => { c with resident := false }); (s.dev.ctx? head.dstCtx).any (fun q => q.panel = head.dstPanel && !q.resident) = true) ∧
    (∀ q ∈ (grouped 0).dev.contexts, q.resident = true) ∧
    (let k := soloComm; k.notices = [] ∧ (let s := grouped 0; (s.dev.ctx? 1).any (fun c => s.dev.grantedRun? c k ⟨5, 1, .send, 0, 64, 0⟩ true = none ∧ s.dev.grantedRun? c k ⟨5, 1, .send, 0, 64, 0⟩ false = none ∧ s.dev.grantedFitting? c k ⟨5, 1, .send, 0, 64, 0⟩ = none) = true)) ∧
    taken (grouped 0) 1 = true ∧ taken (grouped 1) 0 = true ∧ (match (grouped 0).dev.commFor head 5 1 with | .ok _ => none | .error e => some e) = some 0x0423 ∧
    (1 ∈ neighbours 2 0 ∧ 0 ∈ neighbours 2 1 ∧ 1 ∈ childrenOf 2 0 ∧ parentOf 1 = 0) ∧
    (let k := { soloComm with notices := [1] }; 1 ∈ k.notices) ∧ noticesAgree soloComm.notice { soloComm.notice with rank := 1 } = true ∧ noticesAgree soloComm.notice { soloComm.notice with size := 3 } = false ∧
    ((grouped 0).dev.rjob? 1 5 (.bucket 0)).any (fun j => j.agrees ⟨5, 1, .bucket 0, 3, 2, 0, 0, false⟩ && j.step = 3 && j.red.sumQ.isNone && j.children = [1]) = true ∧
    (sliceOf 2 2 0 = (0, 2) ∧ (grouped 0).dev.exchangeOn 1 5 (.bucket 0) = true) ∧
    ((grouped 1 (fun k => { k with buckets := k.buckets.map (fun b => { b with red := { b.red with sentUp := true, noiseUp := true } }) })).dev.rjob? 1 5 (.bucket 0)).any (fun j => j.red.sentUp && j.red.agreed.isNone && j.red.noiseUp) = true ∧
    (let x := desc (opRaw 0x10 5 [(36, 5), (124, 3)]) .running
     let s := grouped 0 id x (fun d => { d with fabric := { d.fabric with colls := [xfer 0] } })
     s.dev.fabric.colls = [xfer 0] ∧ s.dev.collDesc? (xfer 0) = some x ∧ x.op? = some .returnSlice ∧ x.f 72 2 = 0 ∧ x.f 124 4 = 3 ∧
       (s.dev.ctx? 1).any (fun c => c.returnAt x 0 = some 0x2000) = true ∧ (match (s.dev.writeCa (x.collWrite 1 0) 0x2000 [1]).2 with | .ok _ => true | .error _ => false) = true) ∧
    (let x := desc (opRaw 0x10 6 [(36, 5), (44, 1), (64, 64)]) .running
     let s := grouped 0 id x (fun d => { d with fabric := { d.fabric with colls := [xfer 0] } })
     x.f 64 8 = 64 ∧ (s.dev.ctx? 1).any (fun c => (c.comm? 5).any (fun k => (s.dev.grantedRun? c k ⟨5, 1, .send, 0, 64, 0⟩ true) = some (xfer 0, x))) = true) ∧
    (let x := desc (opRaw 0x10 7 [(36, 5), (44, 1), (64, 64)]) .running
     let s := grouped 0 id x (fun d => { d with fabric := { d.fabric with colls := [xfer 0] } })
     s.dev.collDesc? (xfer 0) = some x ∧ x.op? = some .recv ∧ x.f 44 4 = 1 ∧ 63 + 1 ≤ x.f 64 8 ∧ (match (s.dev.writeCa (x.collWrite 1 0) (x.f 56 8 + 63) [1]).2 with | .ok _ => true | .error _ => false) = true) := by decide +kernel
/-- A RELAY under way of 3 steps of 64 bytes in 2 slots, between contexts 2 of modules 1. -/
def relayX : Desc := { desc (opRaw 0x11 9 [(36, 3), (38, 2), (40, 1), (44, 1), (46, 2), (56, 0x5000), (64, 64), (72, 1), (78, 2)]) .running with begun := true }
/-- Its run: step 0 is granted. -/
def relayR : RelayRun := { ctx := 1, ring := 0, seq := 0, relayId := 9, grantsIn := [0], grantsOut := [0] }
/-- The module with it, and a transfer that it sent. -/
def relaying : State := grouped 0 id relayX (fun d => { d with fabric := { d.fabric with relays := [relayR], outstanding := [{ xtag := 7, ctx := 1, ring := 0, seq := 0, step := some 0, dstMod := 1, deadline := 0 }] } })
theorem witness_AnswersAndRelays :
    (head.dstMod = relaying.dev.modNum ∧ ({ head with dstMod := 1 }).dstMod ≠ relaying.dev.modNum) ∧
    (relaying.dev.fabric.outstanding.find? (fun y => y.xtag = head.xtag)).any (fun o => o.step = some 0 && o.comm = none && decide (o.deadline ≤ relaying.dev.now)) = true ∧
    relaying.dev.fabric.relays = [relayR] ∧ relaying.dev.relayDesc? relayR = some relayX ∧ (relaying.dev.ctx? 1).isSome = true ∧ relaying.dev.relayReady relayR relayX = true ∧
    ((relaying.dev.ctx? 1).any (fun c => c.resident) = true) ∧ (relaying.dev.fabric.outstanding.find? (fun y => y.xtag = 8)) = none ∧ (0 : Nat) < 1 ∧
    relaying.dev.relayReady { relayR with grantsIn := [] } relayX = false ∧ relayX.startEn = false ∧ 0 < relayX.slotBytes ∧ relayX.slotBytes ≤ 4096 ∧
    (match ((relaying.dev.updRelay 1 0 0 (fun q => { q with sent := 1 })).readCa (relayX.access 1 0 0 (relayX.bits 39 1 1 0)) (relayX.f 48 8) 64).2 with | .ok bs => bs.length | .error _ => 0) = 64 ∧
    relaying.dev.relayTarget fromOther = true ∧ relaying.dev.relayTarget { fromOther with dstCtx := 3 } = false ∧ relaying.dev.relayOf? 1 8 = none ∧ relaying.dev.relayOf? 1 9 = some (relayR, relayX) ∧
    PktHeadFrom fromOther relayX.relayNext = true ∧ PktHeadFrom fromOther relayX.relayPrev = true ∧ relayX.relaySteps = 3 ∧ 1 ∉ relayR.grantsIn ∧ 0 ∈ relayR.grantsOut ∧ relayR.received = 0 ∧ relayR.recvBytes = [] ∧
    (match (relaying.dev.writeCa (relayX.access 1 0 0 (relayX.bits 39 1 3 2)) (relayX.slotAddr 0) (List.replicate 64 1)).2 with | .ok _ => true | .error _ => false) = true := by decide +kernel

/-! ## Witnesses: step commits and positions -/

/-- A commit member that is the root, of a module that has voted for step 4 with its update stitch 10, at stitch 9. -/
def voting (st : CommitState) (f : Device → Device := id) : State :=
  grouped 0 id (desc 0) (fun d => f { d with needle := { state := .free, stitch := 9 }, commit := { state := st, step := 4, update := 10, ready := [(0, 4, 10)] } })
/-- The other module's READY has come too. -/
def lastReady : Device := (voting .voted (fun d => { d with commit := { d.commit with ready := (1, 4, 10) :: d.commit.ready } })).dev
theorem witness_StepCommits :
    (let d := (voting .voted).dev; d.isRoot = true ∧ d.commitModules = [0, 1] ∧ d.commit.step = 4 ∧ d.abortHeld 4 = false ∧
      lastReady.isRoot = true ∧ lastReady.commitModules.all (fun m => lastReady.commit.ready.contains (m, 4, 10)) = true) ∧
    (11#48).toNat ≠ 10 ∧ (2#15) ∉ (voting .voted).dev.commitModules ∧ (dev id).dev.isRoot = false ∧
    ((0#32) = (voting .voted).dev.jobId ∧ (0, false, 4#32) ∉ (voting .voted).dev.commit.flooded ∧ (1#32) ≠ (voting .voted).dev.jobId) ∧
    ((voting .idle).dev.isRoot = true ∧ (voting .idle).dev.commit.ready = [(0, 4, 10)] ∧ (voting .idle).dev.reached ((10 - 2) * 4096) = true ∧ (4#32) ∉ (voting .idle).dev.commit.decided) ∧
    (let d := (dev (fun d => { d with needle := { state := .free, stitch := 10 } })).dev; (d.commitMembers.map (fun m => m.1.id)).eraseDups = [] ∧ d.commit.applied = false ∧ d.err.general < 64 ∧ 9 * 4096 < d.position ∧ d.reached (9 * 4096) = true) ∧
    (let d := (voting .voted).dev; (∃ c ∈ d.contexts, ∃ q ∈ c.comms, d.hasModule c.id q 1 = true) ∧ (1#15).toNat ≠ 0xFFFF) ∧
    (voting .voted).dev.reached ((10 - 2) * 4096) = true ∧ (voting .voted).dev.reached (10 * 4096) = false ∧
    (let d := { (voting .decided).dev with needle := { state := .free, stitch := 10 } }; d.reached (10 * 4096) = true ∧ d.commit.pendingAbort = none ∧ (d.commitMembers.map (fun m => m.1.id)).Nodup ∧ (d.commitMembers.map (fun m => m.1.id)).eraseDups = [1]) ∧
    (let d := (voting .idle (fun d => { d with commit := { d.commit with applied := true, lastStep := 4 } })).dev; d.commit.applied = true ∧ (4#32).toNat ≤ d.commit.lastStep.toNat ∧ d.commit.lastStep.toNat < (5#32).toNat) ∧
    (let a : AbortPacket := ⟨0, 4, 9, 0x0A0C, 0xFFFF⟩; (voting .voted).dev.reached (a.stitch.toNat * 4096) = true ∧ a.lost = 0xFFFF ∧ (voting .voted).dev.reached ((10#48).toNat * 4096) = false) := by decide +kernel
theorem witness_PositionEvents :
    (let s := dev (fun d => { (d.updPanel 0 id) with regs := { d.regs with devCtl := 1, hbBase := 0x100000 }, needle := { state := .free, stitch := 16 }, host := upLink })
     s.dev.enabled = true ∧ s.dev.needle.state ≠ .disabled ∧ s.dev.needle.state.runs = true ∧ s.dev.position / 4096 % 16 = 0 ∧ 512 * 0 ≤ s.dev.position % 4096 ∧ s.dev.areaOn 2 = true ∧ s.dev.host.link = .l0 ∧ memWf s.dev.hostMem = true ∧
       (s.dev.panel 0).hbStitch ≠ some 16 ∧ s.dev.needle.tick < s.dev.stitchNs ∧ s.dev.needle.stitch < 2 ^ 48) ∧ (dev id).dev.needle.state.runs = false ∧
    (let x : Desc := { desc (opRaw 0x12 0) .running with begun := true }
     let f : FittingRun := { ctx := 1, ring := 0, seq := 0, nth := 0 }
     let s := withDesc x id (fun d => { d with needle := { state := .free }, fabric := { d.fabric with fittings := [f] } })
     s.dev.underWay? 1 0 (fun o => o = .fitting) = some x ∧ s.dev.fabric.fittings = [f] ∧ f.snapped = false ∧ x.startEn = false ∧ x.bit 34 1 0 = false ∧ s.dev.needle.state.runs = true ∧ s.dev.needle.tick = 0) ∧
    (let x : Desc := { desc (opRaw 0x10 6 [(23, 128)]) .running with begun := true }
     let s := withDesc x id (fun d => { d with needle := { state := .free }, fabric := { d.fabric with colls := [{ xfer 0 with startOk := false }] } })
     s.dev.awake 1 = true ∧ s.dev.underWay? 1 0 (fun o => o.neverSkips) = some x ∧ s.dev.reached x.startAt = true ∧ s.dev.isLate x.startAt = false ∧ ∃ r ∈ s.dev.fabric.colls, r.ctx = 1 ∧ r.ring = 0 ∧ r.seq = x.seq ∧ r.startOk = false) := by decide +kernel

/-! ## Witnesses: faults, records, resets -/

/-- A crash area is set, and stopped. -/
def crashStopped (d : Device) : Device := { d with regs := { d.regs with crashBase := 0x200000 }, host := { d.host with fault := 8 } }
theorem witness_PanelFaults :
    (let s := dev (fun d => crashStopped (running (d.updPanel 0 (fun q => { q with ctl := 1, memCtl := 0x203 }))))
     s.dev.reset.warm = none ∧ (s.dev.panel 0).state = .idle ∧ s.dev.err.general < 60 ∧ (s.dev.panel 0).array.oldest = some aTack ∧ aTack.replay = false ∧ (s.dev.panel 0).replayTacks.length + 1 ≤ fieldOf s.dev.regs.guardCtl 15 8 ∧
       (s.dev.contexts = [] ∧ (s.dev.panel 0).mem.queues = [] ∧ (s.dev.panel 0).mem.stalled = [] ∧ (s.dev.panel 0).mem.spool = [] ∧ s.dev.reset.crashValid.getLsbD 0 = false ∧ fieldOf s.dev.regs.crashBase 63 21 ≠ 0 ∧ s.dev.areaOn 3 = false) ∧ s.dev.enabled = false ∧ s.dev.bucketAt 0 0 = none ∧ s.dev.allreduceAt 0 0 = none) ∧
    (let d := (withDesc (desc 0) (fun c => { member c with tlb := [(0, 0xC000000000000000)] }) (fun d => { d with frames := { entries := [⟨0, [1], false, true, false⟩] } })).dev; (match d.bucketAt 0 0 with | some b => d.rjob? b.1.id b.2.1.commId (.bucket b.2.2) | none => none).isSome = true) ∧
    { aTack with replay := true }.replay = true ∧ ((dev id).dev.panel 0).array.oldest = none := by decide +kernel
/-- A packet for the module itself waits at port 0, one for panel 0 from panel 1 in the inbox. -/
def waiting : State :=
  withPort (fun q => { q with queues := q.queues.set 2 [⟨24, ⟨{ head with srcMod := 5 }, .writeAck⟩, 0, 0⟩] })
    (fun d => { d with fabric := { d.fabric with inbox := [(24, ⟨{ head with srcMod := 5, srcPanel := 1 }, .writeAck⟩)] } })
theorem witness_WordFaults :
    (let l : SpoolLine := { unit := 5, keep := false, dirty := true, cls := .indigo }
     let s := withPanel (fun q => { q with mem := { q.mem with spool := [l] } })
     (s.dev.panel 0).mem.spool = [l] ∧ panelOf (l.unit * 256) = 0 ∧ s.dev.err.general < 60 ∧ (s.dev.panel 0).array.oldest = none ∧ (s.dev.panel 0).array.dma = none ∧ ((s.dev.panel 0).array.slots[0].pass).or (s.dev.panel 0).array.slots[1].pass = none) ∧
    ((dev running).dev.panel 0).array.oldest = some aTack ∧ aTack.replay = false ∧ ((dev running).dev.panel 0).replayTacks.length + 1 ≤ fieldOf (dev running).dev.regs.guardCtl 15 8 ∧
    (let s := withDesc (desc (opRaw 1 0) .running) id (fun d => d.updPanel 0 (fun q => { q with array := { q.array with slots := q.array.slots.set 1 { pass := some ⟨⟨1, 0, 0⟩, none, 0⟩ } } }))
     ((s.dev.panel 0).array.slots[0].pass).or (s.dev.panel 0).array.slots[1].pass = some ⟨⟨1, 0, 0⟩, none, 0⟩ ∧ (s.dev.desc? 1 0 0).isSome = true) ∧
    (let c := { oneCtx [oneRing (desc 0)] with stash := [spilled] }
     (withDesc (desc 0) (fun c => { c with stash := [spilled] })).dev.ctx? 1 = some c ∧ c.resident = true ∧ c.stash? (3#16).toNat = some spilled ∧ spilled.spill ≠ [] ∧ { spilled with spill := [] }.spill = []) ∧
    (let q := (waiting.dev.port 0).queues[2]; q.length = 1 ∧ q.all (fun x => x.pkt.head.srcMod != waiting.dev.modNum && x.pkt.body.vc = 2) = true) ∧
    (waiting.dev.fabric.inbox.find? (fun y => crossesYoke 0 y.1 y.2)).any (fun x => x.2.head.srcMod != waiting.dev.modNum && x.2.body.vc = 2 && (waiting.dev.fabric.inbox.erase x).isEmpty) = true := by decide +kernel
theorem witness_SupplyAndHubFaults :
    ((15 : Fin 18).val < 16 ∧ 16 ≤ (16 : Fin 18).val ∧ (15 : Fin 18).val ∉ (dev id).dev.clocksOut ∧ ∀ p : PanelId, ((dev id).dev.panel p).array.oldest = none ∧ ((dev id).dev.panel p).array.dma = none) ∧
    (clockPanels 0 = [0] ∧ railPanels 0 = [0] ∧ ((dev running).dev.panel 0).array.oldest = some aTack ∧ ((dev running).dev.panel 0).array.dma = none) ∧
    (let s := dev (fun d => { d with now := 100000, railsOut := [(13, 0)], clocksOut := [3] })
     s.dev.railsOut = [(13, 0)] ∧ 100000 ≤ s.dev.now - 0 ∧ (3 : Fin 18).val ∈ s.dev.clocksOut ∧ ¬ 100000 ≤ 99999 - 0) ∧
    (let s := dev id
     s.dev.reset.warm = none ∧ s.dev.contexts = [] ∧ s.dev.reset.escalation = .inService ∧ s.dev.reset.deviceWindow = [] ∧ (∀ p : PanelId, (s.dev.panel p).enabled = false) ∧ (∀ n : PortId, (s.dev.port n).packets = []) ∧
       (∀ p : PanelId, (s.dev.panel p).array.failedTack = none ∧ (s.dev.panel p).array.failedDma = none ∧ (s.dev.panel p).mem.queues = [] ∧ (s.dev.panel p).mem.stalled = []) ∧ s.dev.thimble.stopped = false) := by decide +kernel
/-- A record in the queue. -/
def queued : QueuedRec := ⟨{ reason := 0x0311, mech := 0, outcome := 0 }, false, none⟩
theorem witness_RecordsAndMessages :
    (let s := dev (fun d => { d with regs := { d.regs with devCtl := 1, errBase := 0x100000, errHeadLine := 0x200000 }, err := { d.err with queue := [queued] }, host := { upLink with moderated := Vector.replicate 8 true } })
     (∀ o : PanelId, (s.dev.panel o).resetRun = none) ∧ s.dev.reset.outEnter = none ∧ s.dev.reset.warm = none ∧ s.dev.err.queue = [queued] ∧ s.dev.enabled = true ∧ s.dev.areaOn 0 = true ∧ s.dev.host.link = .l0 ∧ s.dev.errFull = false ∧
       s.dev.err.lostUnreported = 0 ∧ memWf s.dev.hostMem = true ∧ s.dev.host.moderated[0] = true ∧ s.dev.messageDue 0 = true) ∧ (dev id).dev.errOpen = false ∧ (dev id).dev.host.moderated[0] = false := by decide +kernel
/-- Dumps are on, and a snapshot waits. -/
def dumping (f : Counters → Counters) : State :=
  dev (fun d => { d with regs := { d.regs with devCtl := 1, dumpCtl := 16 * 2 ^ 16 + 6 * 2 ^ 8 + 1, dumpBase := 0x400000, dumpHeadLine := 0x300000 }, counters := f d.counters, host := upLink, needle := { state := .free, stitch := 16 } })
theorem witness_CounterDumps :
    (let s := dumping (fun k => { k with waiting := [([1, 2, 3], 0)] })
     s.dev.dumpOn = true ∧ s.dev.areaOn 4 = true ∧ s.dev.host.link = .l0 ∧ s.dev.counters.waiting = [([1, 2, 3], 0)] ∧ s.dev.counters.next - s.dev.counters.head < 2 ^ s.dev.dumpSize ∧ memWf s.dev.hostMem = true) ∧
    (let s := dumping id; s.dev.snapshotDue = true ∧ s.dev.contexts = [] ∧ s.dev.counters.waiting = []) ∧ (dev id).dev.snapshotDue = false ∧ (dev id).dev.dumpOn = false ∧ 2 ≤ (dumping (fun k => { k with waiting := [([], 0), ([], 0)] })).dev.counters.waiting.length ∧
    (dev id).dev.reset.escalation = .inService ∧ (let r := (dumping id).dev.regs; fieldOf r.dumpCtl 11 8 = 6 ∧ fieldOf r.dumpCtl 31 16 = 16 ∧ rangesOverlap 0x400000 (5504 * 2 ^ 6) 0x300000 64 = false) := by decide +kernel
theorem witness_PanelResets :
    (let d := crashStopped (dev id).dev
     (1#32).getLsbD 0 = true ∧ d.reset.escalation = .inService ∧ (d.panel 0).state = .idle ∧ (d.panel 0).mem.queues = [] ∧ (d.panel 0).mem.stalled = [] ∧ (d.panel 0).mem.spool = [] ∧ d.areaOn 3 = false ∧ fieldOf d.regs.crashBase 63 21 ≠ 0 ∧ d.reset.crashValid.getLsbD 0 = false ∧ d.contexts = [] ∧ d.reset.warm = none) ∧
    (let d := crashStopped { (withDesc (desc 0)).dev with host := upLink }; (∃ k ∈ d.contexts, k.panel = 0) ∧ d.host.link = .l0 ∧ d.enabled = false ∧ d.err.written = []) ∧
    (crashStopped (withDesc (desc 0)).dev).host.link = .detect ∧
    (let s := withPanel (fun q => { q with state := .retraining }) (fun d => { d with host := upLink }); (s.dev.panel 0).state = .retraining ∧ s.dev.reset.outDue ≠ some 0 ∧ s.dev.reset.outEnter = none ∧ s.dev.host.link = .l0) := by decide +kernel
theorem witness_DeviceResets :
    (3#32).getLsbD 0 = true ∧ (3#32).getLsbD 1 = true ∧ (let d := (dev id).dev; d.reset.escalation = .inService ∧ (∀ n : PortId, (d.port n).packets = []) ∧ d.reset.warm = none ∧ d.contexts = [] ∧ d.enabled = false ∧ ∀ q : PanelId, (d.panel q).enabled = false ∧ (d.panel q).mem.queues = [] ∧ (d.panel q).mem.stalled = []) ∧
    windowOf 3600000000000 60 [0] = [] ∧ windowOf 3599999999999 60 [0] ≠ [] ∧
    (let d := (dev (fun d => { d with thimble := { d.thimble with booted := true }, reset := { d.reset with lastKind := 1 } })).dev; d.thimble.booted = true ∧ (d.panel 0).state = .idle ∧ (d.panel 0).memOn = false ∧ (d.panel 0).mem.trained = 0 ∧ d.reset.lastKind = 1) := by decide +kernel

/-! ## Witnesses: power, security, host link, Bodkin -/

theorem witness_PowerSetupAndRamp :
    (0 / 8 = 0 ∧ 12 / 8 = 1 ∧ 20 / 8 = 2 ∧ 24 / 8 = 3) ∧ (let d := { (dev id).dev with needle := { state := .free } }; d.rampDue = true) ∧ (dev id).dev.rampDue = false := by decide +kernel
theorem witness_PowerEvents :
    (40000 : Nat) < 56000 ∧ (dev id).dev.power.inputOut = false ∧ (dev id).dev.err.general < 60 ∧ (let q := { ({} : PanelPower) with stretched := true, deferred := true, issued := some 11 }; q.stretched = true ∧ q.deferred = true) ∧
    ({ ({} : PanelPower) with deferred := true, issued := some 11 }).drooped 0 = false ∧ 50000000 ≤ 50000000 - 0 ∧ (let w := { (dev id).dev.power with sprinting := true, integ := 140000000, aboveSince := some 0 }; w.sprinting = true ∧ 140000000 ≤ w.integ ∧ w.admitHold = false ∧ w.aboveSince = some 0) ∧
    (let w := { (dev id).dev.power with admitHold := true, belowSince := some 0 }; w.admitHold = true ∧ w.belowSince = some 0) := by decide +kernel
theorem witness_BootAndFrames :
    (let s := State.reset
     s.dev.thimble.booted = false ∧ s.dev.thimble.failed = false ∧ s.dev.thimble.cold = true ∧ (s.vault.thimbleImage 0).isSome = true ∧ (s.vault.thimbleImage 1).isSome = false ∧ completeSet ((s.vault.slots[0]).getD []) = true ∧ ((s.vault.slots[0]).getD []).all (fun i => s.vault.accepts i) = true) ∧
    (let k : KemPair := ⟨3, 0, 0⟩; k.slot = (3 : Fin 16).val ∧ k.created + 60000000000 ≤ 60000000000 ∧ 59999999999 < k.created + 60000000000) ∧
    (let s := withPanel (fun q => { q with memCtl := 0x203 })
     let e := s.dev.frames.get 0
     0 * 2 ^ 21 < mpaEnd ∧ (s.dev.panel (panelOf (0 * 2 ^ 21))).memOn = true ∧ e.owners = [] ∧ e.fresh = true ∧ e.clean = false ∧ isCrashFrame 0 = false ∧ memWf s.dev.mem = true) := by decide +kernel
/-- Thimble works on a request that lies at host address 0. -/
def requested (fields : List (Nat × Nat)) : State :=
  dev (fun d => { d with thimble := { d.thimble with booted := true, busy := true }, hostMem := memWrite [] 0 (leBytes 128 ((fields.map (fun p => p.2 * 256 ^ p.1)).sum)) })
theorem witness_MailboxRequests :
    (∀ k ∈ [2, 3, 4, 5, 6, 7, 8, 9], let s := requested [(0, k), (16, 8192)]
      let req := s.dev.hostRead s.dev.thimble.mboxAddr 128
      s.dev.thimble.busy = true ∧ s.dev.thimble.serves = true ∧ reqWellFormed req = true ∧ reqField req 0 1 = k ∧ responseSize k ≤ reqField req 16 4 ∧ reqField req 20 4 = 0) ∧
    reqWellFormed ((requested [(0, 10)]).dev.hostRead 0 128) = false ∧ (let req := (requested [(0, 2), (16, 5439)]).dev.hostRead 0 128; reqField req 0 1 = 2 ∧ reqField req 16 4 < responseSize 2) ∧ (dev id).dev.thimble.busy = false := by decide +kernel
/-- The certificate chain fits a buffer, whatever its length. -/
theorem witness_certificate : responseSize 1 ≤ Config.certChain.length := Nat.le_refl _
theorem witness_MailboxWork :
    (let req := (requested [(0, 4), (2, 1), (4, 15), (20, 1640)]).dev.hostRead 0 128
     reqField req 0 1 = 4 ∧ reqField req 4 1 = 15 ∧ reqField req 20 4 = 1640 ∧ BitVec.ofNat 16 (reqField req 2 2) = 1 ∧ bytesField [] 1572 4 = 0 ∧ bytesField [] 1632 8 = 0 ∧ bytesField [] 1576 8 % 4096 = 0) ∧
    (withDesc (desc 0) (fun c => { c with confidential := true })).dev.contexts.map (fun c => (c.id, c.confidential)) = [(1, true)] ∧
    (let d := (dev (fun d => { d with thimble := { d.thimble with kem := [⟨15, 0, 0⟩], authorities := [(31, [])], challenge := some [] } })).dev; d.kemPair? 15 = some ⟨15, 0, 0⟩ ∧ d.thimble.authorities.any (fun q => q.1 = 31) = true ∧ d.thimble.challenge = some []) ∧
    tokenOk [] [] = false ∧ parseImages 6 [0] = none := by decide +kernel
/-- A module whose device enable passes its checks. -/
def enableable : State :=
  dev (fun d => { d with thimble := { d.thimble with booted := true }, host := { upLink with config := [(0x04, 4), (0x204, 0x80000000), (0x30C, 1)] },
                         regs := { d.regs with errBase := 0x100000, errHeadLine := 0x200000, hbBase := 0x300000 } })
theorem witness_DeviceEnableAndDisable :
    (let d := enableable.dev
     d.enabled = false ∧ d.thimble.booted = true ∧ d.reset.escalation = .inService ∧ d.host.link = .l0 ∧ d.host.width = 16 ∧ d.host.busMaster = true ∧ d.host.cacheEnabled = true ∧ d.host.atsOn = true ∧ fieldOf d.regs.errCtl 12 8 = 8 ∧
       fieldOf d.regs.guardCtl 15 8 = 64 ∧ rangesOverlap 0x100000 (64 * 2 ^ 8) 0x200000 64 = false ∧ rangesOverlap 0x300000 8192 0x100000 (64 * 2 ^ 8) = false ∧ (∀ p : PanelId, (d.panel p).resetRun = none) ∧ d.reset.outEnter = none ∧ d.reset.warm = none ∧ d.err.queue = []) ∧
    (dev id).dev.thimble.booted = false ∧ (let d := (onPort .up).dev; d.enabled = true ∧ (d.port 0).enabled = true ∧ d.admitOn = false) ∧ (let d := (dumping id).dev; d.enabled = true ∧ d.admitOn = false ∧ (∀ n : PortId, (d.port n).enabled = false) ∧ ∀ p : PanelId, (d.panel p).enabled = false) := by decide +kernel
theorem witness_HostRequestsAndFaults :
    enableable.dev.host.link = .l0 ∧ enableable.dev.thimble.booted = true ∧ enableable.dev.host.hdm.committed = false ∧ (dev id).dev.host.link ≠ .l0 ∧ 4095 / 4 * 4 < 4096 ∧ ¬ 4096 / 4 * 4 < 4096 ∧
    (2 ^ 28 % 2 ^ 28 = 0 ∧ 2 ^ 38 % 2 ^ 28 = 0) ∧ cached.dev.host.lines.filter (fun l => rangesOverlap (l / 4096 * 4096) 4096 4096 4096) = [] ∧ cached.dev.host.lines.filter (fun l => rangesOverlap (l / 4096 * 4096) 4096 4095 1) = [64] ∧
    (dumping id).dev.enabled = true ∧ (dumping id).dev.host.fault = 0 ∧ (admitting 0).dev.admitOn = true ∧ fieldOf (crashStopped (dev id).dev).regs.crashBase 63 21 ≠ 0 ∧ (crashStopped (dev id).dev).host.fault.getLsbD 3 = true ∧
    ((withPanel (fun q => { q with mem := { q.mem with loadBusy := true } })).dev.panel 0).mem.loadBusy = true ∧ (requested []).dev.thimble.busy = true ∧
    (let x := { desc (opRaw 9 0) .running with begun := true }; ((withDesc x).dev.ring? 1 0).bind Ring.running? = some x) ∧ ((withDesc (desc 0)).dev.ring? 1 0).bind Ring.running? = none ∧
    ((fetching 0).dev.ring? 1 0).any (fun r => (fetching 0).dev.fetchable r) = true ∧ ((withDesc (desc 0)).dev.ring? 1 0).any (fun r => (withDesc (desc 0)).dev.fetchable r) = false ∧
    (let x := desc (opRaw 0x0B 0 [(1, 4)]) (.finished 0); (withDesc x).dev.completable 1 0 = some (x, 0) ∧ x.signalEn = true ∧ signals 0 = true ∧ (desc (opRaw 0x0B 0)).signalEn = false) ∧ (withDesc (desc 0)).dev.completable 1 0 = none ∧
    (admitting 1).dev.readsRecord = true ∧ (admitting 2).dev.readsRecord = false ∧ ((withDesc (desc 0)).dev.ring? 1 0).any (fun r => !r.doorbellFault) = true ∧ (withDesc (desc 0)).dev.ring? 1 3 = none ∧
    (let x := desc (opRaw 0x0B 0 [(1, 2), (4, 32)]) .fetched; (1, (32 : Fin 64).val) ∈ (withDesc x).dev.waitedCounters ∧ (1, (33 : Fin 64).val) ∉ (withDesc x).dev.waitedCounters) ∧
    enableable.dev.heldMode = true ∧ (dev id).dev.bodkin.waiting = none ∧ (dev id).dev.heldMode = false := by decide +kernel
theorem witness_HostLinkEvents :
    State.reset.pins.perstN = true ∧ (let d := enableable.dev; d.thimble.booted = true ∧ d.reset.warm = none ∧ d.host.link = .l0 ∧ d.contexts = [] ∧ (∀ n : PortId, (d.port n).packets = []) ∧ ∀ p : PanelId, (d.panel p).enabled = false ∧ (d.panel p).mem.queues = [] ∧ (d.panel p).mem.stalled = []) ∧
    (dumping id).dev.enabled = true ∧ windowOf 0 60 [] = [] ∧ (dev id).dev.host.link = .detect ∧ (dev id).dev.thimble.failed = false ∧ 8 ∈ [8, 16] ∧ 4 ∉ [8, 16] ∧
    ({ (dev id).dev.host with link := .heldInReset }.link = .heldInReset) ∧ { (dev id).dev.host with link := .recovery }.link = .recovery := by decide +kernel
/-- The debug access protocol is selected, unlocked or not. -/
def debugged (scopes : BitVec 3) (f : Device → Device := id) : State := dev (fun d => f { d with bodkin := { d.bodkin with ir := 0x10 }, thimble := { d.thimble with booted := true, scopes := scopes } })
theorem witness_BodkinTapAndSequencers :
    (let d := (debugged 1).dev; d.bodkin.ir = 0x10 ∧ d.bodkin.waiting = none ∧ d.thimble.scopes.getLsbD 0 = true ∧ (4#4).toNat < 5 ∧ 5 ≤ (5#4).toNat ∧ (d.panel 0).dbg.halted = false) ∧ (dev id).dev.bodkin.ir ≠ 0x10 ∧ (debugged 0).dev.thimble.scopes.getLsbD 0 = false ∧
    ((debugged 1 (fun d => d.updDebug 0 (fun g => { g with halted := true }))).dev.panel 0).dbg.halted = true ∧
    (let y := (0x105#32); y.getLsbD 0 = true ∧ ∀ k < 32, 2 ≤ k → y.getLsbD k = (0x104#32).getLsbD k) ∧ (let w := (0x000000FF00000107#64); w.getLsbD 0 = true ∧ w.getLsbD 1 = true ∧ w.getLsbD 2 = true ∧ ∀ k < 32, 3 ≤ k → w.getLsbD (32 + k) = false → w.getLsbD k = (0x1F8#32).getLsbD k) := by decide +kernel
theorem witness_BodkinRequests :
    (let d := (debugged 3).dev; d.bodkin.ir = 0x10 ∧ d.bodkin.waiting = none ∧ d.thimble.scopes.getLsbD 0 = true ∧ d.thimble.scopes.getLsbD 1 = true ∧ d.thimble.serves = true ∧ d.thimble.busy = false ∧ memWf d.mem = true) ∧ State.reset.pins.resetN = true ∧
    (4800 % 4 = 0 ∧ 0x1400 % 4 = 0 ∧ ¬ 0x1420 < 0x1420 ∧ 4796 < 4800) ∧ (debugged 0).dev.thimble.scopes.getLsbD 0 = false ∧
    (let d := (debugged 1 (fun d => (d.updPanel 0 (fun q => { q with memCtl := 0x203, mem := { q.mem with retired := [1] } })))).dev; (d.panel (panelOf 64)).fenced = false ∧ (d.panel (panelOf 64)).retires (ppaOf 64) = false ∧ (d.panel (panelOf 65536)).retires (ppaOf 65536) = true ∧ d.badIn 64 4 = false ∧ { d with poison := [1] }.badIn 64 4 = true) ∧
    ((debugged 1).dev.panel (panelOf 64)).fenced = true ∧ ({ (debugged 1).dev.bodkin with waiting := some 5 }.waiting = some 5) ∧ 0x0FF0008 % 2 ^ 24 = 0xFF0008 ∧ (dev id).dev.thimble.serves = false := by decide +kernel

/-! ## Tests of single commands, with the results that the rules give -/

/-- The state after a command; every command answers a next state. -/
def after (c : Instr) (s : State) : State := match exec c s with
  | .next t => t
  | _ => s
/-- No row of the table has bits, so no word spells a command. -/
theorem test_no_words : decodeTableWord 8 0 = none ∧ State.reset.withFetchWord 8 0 = State.reset := ⟨rfl, rfl⟩
/-- R70: a JOB enable without a job identifier is refused with 0x0603, BAD_REG names HUB.NEEDLE_JOB. -/
theorem test_needle_refused : ((after (.needleEnable 0xFF03) (withNeedle 0xFF00 {})).dev.needle.reason, (after (.needleEnable 0xFF03) (withNeedle 0xFF00 {})).dev.needle.badReg) = (0x0603, 2) := by decide +kernel
/-- R70: a FREE enable starts the counter. -/
theorem test_needle_free : (after (.needleEnable 0xFF01) (withNeedle 0xFF00 {})).dev.needle.state = .free := by decide +kernel
/-- R46: 4 marker intervals without a marker take LOCKED to HOLDOVER. -/
theorem test_holdover : (after .holdoverEntry (follower .locked)).dev.needle.state = .holdover := by decide +kernel
/-- R29: the idle module's counter goes on by one tick each nanosecond of its stitch. -/
theorem test_tick : (match step (withNeedle 1 { state := .free, tick := 9999 }) with | .next t => (t.dev.needle.stitch, t.dev.needle.tick) | _ => (0, 0)) = (1, 0) := by decide +kernel
/-- R453: a FILL of 8 zero bytes completes with SUCCESS. -/
theorem test_fill : ((after (.fill 1 0) filling).dev.desc? 1 0 0).map (fun x => x.phase) = some (.finished 0) := by decide +kernel
/-- R555: the parent of rank 4161 = 64 * 65 + 1 is 4160, and that of 4160 is 4096. -/
theorem test_tree : parentOf 4161 = 4160 ∧ parentOf 4160 = 4096 ∧ parentOf 4096 = 0 := by decide
/-- R561: 100 elements over 2 ranks: rank 0 owns 64 of them and rank 1 the other 36. -/
theorem test_slices : sliceOf 100 2 0 = (0, 64) ∧ sliceOf 100 2 1 = (64, 36) := by decide
/-- R814: a snoop of data answers RspSHitSE for a held line, RspIHitI for another. -/
theorem test_snoop : (after (.snpdata 64) cached).dev.host.snoopAnswer = 2 ∧ (after (.snpdata 128) cached).dev.host.snoopAnswer = 3 := by decide +kernel
/-- R730: a cap of 599 W is refused with 0x0701, one of 600 W is taken. -/
theorem test_cap : (after (.pwrRegWrite 8 4 (10 * 2 ^ 16 + 599)) (dev id)).dev.power.reason = 0x0701 ∧ fieldOf (after (.pwrRegWrite 8 4 (10 * 2 ^ 16 + 600)) (dev id)).dev.power.cap 12 0 = 600 := by decide +kernel
/-- R823: a hot reset is a warm reset with the cause 0x0151. -/
theorem test_hot_reset : ((after .hotReset enableable).dev.reset.lastKind, (after .hotReset enableable).dev.reset.lastCause, (after .hotReset enableable).dev.host.link) = (1, 0x0151, .detect) := by decide +kernel
/-- R828: an enable before the boot ends is refused with 0x0101. -/
theorem test_booting : ((after (.deviceEnable 1) (dev id)).dev.host.reason, (after (.deviceEnable 1) (dev id)).dev.enabled) = (0x0101, false) := by decide +kernel
/-- R863: before the unlock a read of a register is LOCKED. -/
theorem test_locked : (after (.dapRead32 0 0) (debugged 0)).dev.bodkin.status = 1 := by decide +kernel
/-- R862: READ_INC goes on by four. -/
theorem test_increment : (after (.dapReadInc 4 0x1400) (debugged 0)).dev.bodkin.addr = 0x1404 := by decide +kernel
/-- R871: a watchpoint's MASK bit ignores its address bit. -/
theorem test_watchpoint : ((after (.watchpointHit 0 0 4 0x1F8 true) (debugged 1 (fun d => d.updDebug 0 (fun g => { g with wps := g.wps.set 0 0x000000FF00000105 })))).dev.panel 0).dbg.halted = true := by decide +kernel
/-- R920: an input of 37,999 mV takes the package down; of 38,000 mV does not. -/
theorem test_undervoltage : (after (.inputUndervoltage 37999) State.reset).pins.railsOn = false ∧ (after (.inputUndervoltage 38000) State.reset).pins.railsOn = true := by decide +kernel
/-- R378: bits in error in one symbol are one symbol's error, whatever the check symbols. -/
theorem test_symbols : symbolErrors { flips := [(3, 5)] } 0 = [(3, 5)] := by decide +kernel
/-- R380: a read of an access that ECC cannot correct counts once. -/
theorem test_uncorrectable : ((after (.memoryReadReturn 64 {} .nobody) (working (fun d => { d with faulty := [1] }))).dev.panel 0).mem.uncorr = 1 := by decide +kernel
/-- R395: a window read that no entry takes is counted and answered as poison. -/
theorem test_unmapped : (after (.memrd 65536) windowed).dev.unmapped = 1 ∧ (after (.memrd 65536) windowed).dev.host.winAnswer.map (fun a => a.2) = some true := by decide +kernel
/-- R535: 500 ns of silence take a port that is UP down with 0x0417. -/
theorem test_silence : ((after (.peerSilence 0) (onPort .up id (fun d => { d with now := 500 }))).dev.port 0).reason = 0x0417 := by decide +kernel
/-- R633: a record is written at its place with its message on vector 0. -/
theorem test_record : (after .errorRecordWrite (dev (fun d => { d with regs := { d.regs with devCtl := 1, errBase := 0x100000 }, err := { d.err with queue := [queued] }, host := upLink }))).dev.host.messages[0] = 1 := by decide +kernel
/-- R579: a decided step is applied at its update stitch, and the commits of its sets count. -/
theorem test_update : ((after .updateCommit (voting .decided (fun d => { d with needle := { state := .free, stitch := 10 }, commit := { d.commit with decided := [4] } }))).dev.ctx? 1).map (fun c => c.sets.map (fun q => q.commits)) = some [1] := by decide +kernel
/-- R41: a marker's flit carries its fields: hop 8, rank 2, job 7, stitch 5, 10,000 ns. -/
theorem test_marker_flit : (markerBytes marker).take 20 = [1, 0, 8, 2, 7, 0, 0, 0, 0, 0x50, 0, 0, 0, 0, 0, 0, 0x10, 0x27, 0, 0] ∧ (markerBytes marker).length = 256 ∧ markerOfFlit (markerBytes marker) = some marker := by decide +kernel
/-- R29, R51: a stitch of 1,000 ns reaches angle 4,091 at tick 999, and 4,095 at the next edge only. -/
theorem test_landing : landing 1000 7 4091 = (7, 999) ∧ landing 1000 7 4095 = (8, 0) ∧ angleOf 1000 999 = 4091 := by decide +kernel
/-- R586: a COMMIT behind a descriptor that failed is not prepared, and one behind a success is. -/
theorem test_commit_behind_failure :
    (let r := oneRing { desc (opRaw 0x13 1) with begun := true }
     let ctx (status : Code) : Context := oneCtx [r.noteStatus { desc (opRaw 1 0) with seq := 7 } status]
     (ctx 0x0903).prepared? = none ∧ (ctx 0x0610).prepared? = r.queue.head?) := by decide +kernel

end Sys2Proof.Tests
end

section
/-! The tree of a communicator (R555) and the slices of its ranks (R561). -/

namespace Sys2Proof.Machine

/-! ### The tree: the parent of a rank clears its lowest non-zero base-64 digit -/

/-- `k` is the place of the lowest non-zero base-64 digit of the rank `r`. -/
def IsLowestDigit (r k : Nat) : Prop := r % 64 ^ k = 0 ∧ r / 64 ^ k % 64 ≠ 0

@[simp] theorem parentOf_zero : parentOf 0 = 0 := rfl

/-- A rank of at most 3 digits that is not 0 has a lowest non-zero digit. -/
theorem exists_isLowestDigit {r : Nat} (hpos : 0 < r) (hlt : r < 64 ^ 3) : ∃ k < 3, IsLowestDigit r k := by
  by_cases h0 : r % 64 = 0
  · by_cases h1 : r / 64 % 64 = 0
    · exact ⟨2, by decide, by omega, by omega⟩
    · exact ⟨1, by decide, h0, h1⟩
  · exact ⟨0, by decide, Nat.mod_one r, by simpa using h0⟩

/-- The parent lacks the digit at the lowest non-zero place. -/
theorem parentOf_eq_sub_digit {r k : Nat} (hk : k < 3) (h : IsLowestDigit r k) :
    parentOf r = r - r / 64 ^ k % 64 * 64 ^ k := by
  obtain ⟨hlow, hdigit⟩ := h
  match k with
  | 0 => simp_all [parentOf]
  | 1 => simp_all [parentOf]
  | 2 =>
    have h0 : r % 64 = 0 := by omega
    have h1 : r / 64 % 64 = 0 := by omega
    simp [parentOf, h0, h1]

/-- Clearing the lowest non-zero digit is rounding down to the next power of 64. -/
theorem parentOf_eq_sub_mod {r k : Nat} (hk : k < 3) (h : IsLowestDigit r k) :
    parentOf r = r - r % 64 ^ (k + 1) := by
  rw [parentOf_eq_sub_digit hk h, Nat.mod_pow_succ, h.1, Nat.zero_add, Nat.mul_comm]

theorem parentOf_lt {r : Nat} (hpos : 0 < r) (hlt : r < 64 ^ 3) : parentOf r < r := by
  obtain ⟨k, hk, h⟩ := exists_isLowestDigit hpos hlt
  rw [parentOf_eq_sub_digit hk h]
  exact Nat.sub_lt hpos (Nat.mul_pos (Nat.pos_of_ne_zero h.2) (by positivity))

theorem parentOf_le {r : Nat} (hlt : r < 64 ^ 3) : parentOf r ≤ r := by
  obtain rfl | hpos := r.eq_zero_or_pos
  · simp
  · exact (parentOf_lt hpos hlt).le

/-- The lowest non-zero digit lies at no place below which all digits are zero. -/
theorem IsLowestDigit.le_of_pow_dvd {r k j : Nat} (h : IsLowestDigit r k) (hdvd : 64 ^ j ∣ r) : j ≤ k := by
  by_contra hlt
  have hsucc : 64 ^ k * 64 ∣ r := (pow_dvd_pow 64 (show k + 1 ≤ j by omega)).trans hdvd
  exact h.2 (Nat.mod_eq_zero_of_dvd (Nat.dvd_div_of_mul_dvd hsucc))

/-- One level up, one more low digit is zero. -/
theorem pow_succ_dvd_parentOf {r j : Nat} (hlt : r < 64 ^ 3) (hdvd : 64 ^ j ∣ r) : 64 ^ (j + 1) ∣ parentOf r := by
  obtain rfl | hpos := r.eq_zero_or_pos
  · simp
  · obtain ⟨k, hk, h⟩ := exists_isLowestDigit hpos hlt
    rw [parentOf_eq_sub_mod hk h]
    exact (pow_dvd_pow 64 (Nat.succ_le_succ (h.le_of_pow_dvd hdvd))).trans (Nat.dvd_sub_mod r)

/-- `j` levels above a rank the number is no greater and its `j` lowest digits are zero. -/
theorem parentOf_iterate_le_and_dvd {r : Nat} (hlt : r < 64 ^ 3) (j : Nat) :
    parentOf^[j] r ≤ r ∧ 64 ^ j ∣ parentOf^[j] r := by
  induction j with
  | zero => simp
  | succ j ih =>
    obtain ⟨hle, hdvd⟩ := ih
    rw [Function.iterate_succ_apply']
    exact ⟨(parentOf_le (hle.trans_lt hlt)).trans hle, pow_succ_dvd_parentOf (hle.trans_lt hlt) hdvd⟩

/-- No rank lies more than 3 levels below rank 0 (R555). -/
theorem parentOf_three_levels {r : Nat} (hlt : r < 64 ^ 3) : parentOf (parentOf (parentOf r)) = 0 := by
  obtain ⟨hle, hdvd⟩ := parentOf_iterate_le_and_dvd hlt 3
  exact Nat.eq_zero_of_dvd_of_lt hdvd (hle.trans_lt hlt)

/-- The children of a rank are the other ranks, below `n`, of which it is the parent. -/
@[simp] theorem mem_childrenOf {n r q : Nat} : r ∈ childrenOf n q ↔ r < n ∧ r ≠ 0 ∧ parentOf r = q := by
  simp [childrenOf]

/-! ### The slices: each rank owns one block of `sliceLen` elements, cut off at the bucket's end -/

/-- An element lies in the slice of a rank. -/
def InSlice (elements n r i : Nat) : Prop :=
  (sliceOf elements n r).1 ≤ i ∧ i < (sliceOf elements n r).1 + (sliceOf elements n r).2

/-- The slices of `n` ranks cover a bucket. -/
theorem le_mul_sliceLen (elements : Nat) {n : Nat} (hn : 0 < n) : elements ≤ n * sliceLen elements n := by
  have hcover : elements ≤ 64 * n * ceilDiv elements (64 * n) := by
    simpa [ceilDiv, Nat.ceilDiv_eq_add_pred_div] using le_smul_ceilDiv (b := elements) (Nat.mul_pos (by decide : 0 < 64) hn)
  calc elements ≤ 64 * n * ceilDiv elements (64 * n) := hcover
    _ = n * sliceLen elements n := by rw [sliceLen]; ring

/-- A slice is a block of `sliceLen` elements as far as the bucket goes. -/
theorem inSlice_iff {elements n r i : Nat} (hi : i < elements) :
    InSlice elements n r i ↔ r * sliceLen elements n ≤ i ∧ i < (r + 1) * sliceLen elements n := by
  simp only [InSlice, sliceOf]
  omega

/-- The rank that owns an element is the number of its block. -/
theorem inSlice_iff_eq_div {elements n r i : Nat} (hn : 0 < n) (hi : i < elements) :
    InSlice elements n r i ↔ r = i / sliceLen elements n := by
  have hlen : 0 < sliceLen elements n :=
    Nat.pos_of_mul_pos_left (hi.bot_lt.trans_le (le_mul_sliceLen elements hn))
  rw [inSlice_iff hi, ← Nat.le_div_iff_mul_le hlen, ← Nat.div_lt_iff_lt_mul hlen]
  omega

theorem div_sliceLen_lt {elements n i : Nat} (hn : 0 < n) (hi : i < elements) : i / sliceLen elements n < n :=
  Nat.div_lt_of_lt_mul (by rw [Nat.mul_comm]; exact hi.trans_le (le_mul_sliceLen elements hn))

/-- Each element of a bucket lies in the slice of exactly one rank (R561). -/
theorem exists_unique_owner {elements n i : Nat} (hn : 0 < n) (hi : i < elements) :
    ∃ r < n, InSlice elements n r i ∧ ∀ q, InSlice elements n q i → q = r :=
  ⟨i / sliceLen elements n, div_sliceLen_lt hn hi, (inSlice_iff_eq_div hn hi).2 rfl,
    fun _ => (inSlice_iff_eq_div hn hi).1⟩

/-- Settles O39: a parent is its rank rounded down to one more zero digit, and the owner of an element is its number divided
by the slice length. -/
theorem treeAndSlices : Obligations.TreeAndSlices := by
  refine ⟨fun n r hn hpos hr => ?_, fun n elements i hn hi => ⟨rfl, exists_unique_owner hn hi⟩⟩
  have hlt : r < 64 ^ 3 := by omega
  obtain ⟨k, hk, h⟩ := exists_isLowestDigit hpos hlt
  refine ⟨⟨k, hk, h.1, h.2, parentOf_eq_sub_digit hk h⟩, fun q => ?_, parentOf_lt hpos hlt, parentOf_three_levels hlt⟩
  simp [hr, hpos.ne', eq_comm]

end Sys2Proof.Machine
end

section
/-! A host window onto module memory whose base is not a multiple of 64: a line written through it can cross into a page of
64 KiB other than the one that its translation has checked. -/

namespace Sys2Proof.Machine

/-- Context 1 on panel 0, which holds a read and write map entry for frame 0 in its own store. -/
def windowContext : Context :=
  { id := 1, panel := 0, pinned := true, resident := true, rings := [], rights := 0, confidential := false, ledgerAddr := 0,
    ledgerEntries := 0, seed := 0, jobTag := 0, authority := 0, mapAddr := 0x200000, mapEntries := 1, saveAddr := 0,
    saveBytes := 0, bobbinMax := 0, ecAddr := 0, tlb := [(0, 0xC000000000000000)] }

/-- The host link carries CXL.mem requests to a committed decoder of 256 MiB. -/
def windowLink : HostLink :=
  { link := .l0, cxl := true, config := [(0x30C, 4)], hdm := { size := 2 ^ 28, ways := 1, committed := true } }

/-- Panel 0's memory is enabled, and its page 1 is retired. -/
def retiringPanel : Panel := { memCtl := 0x203, mem := { retired := [1] } }

/-- Context 1 owns frame 0 and has a window onto it at offset 0 that begins 32 bytes before the end of page 0, so that the
second half of its first line lies in the retired page 1. -/
def straddlingWindow : State :=
  { State.reset with dev := {
      contexts := [windowContext], host := windowLink, panels := (Vector.replicate 8 {}).set 0 retiringPanel,
      openRegions := [{ ctx := 1, base := 65504, bytes := 65536, offset := 0, read := true, write := true }],
      frames := { entries := [⟨0, [1], false, true, false⟩] } } }

/-- The straddling window takes a write of its first line, at the place that begins in page 0. -/
theorem straddlingWindow_takes_write :
    straddlingWindow.dev.windowOn = true ∧ memWf straddlingWindow.dev.mem = true ∧
      straddlingWindow.dev.windowPlace 0 true = .at_ 1 65504 := by decide +kernel

/-- A MEMWR of 64 bytes 1 is not read back there: its second half is dropped, as a write to a retired page is (R390). -/
theorem straddlingWindow_drops_retired_half :
    memRead (straddlingWindow.dev.windowWrite 0 (List.replicate 64 1) (BitVec.allOnes 64) false).mem 65504 64 =
      List.replicate 32 1 ++ List.replicate 32 0 := by decide +kernel

/-- With the rails on a MEMWR is a window write of a whole line. -/
theorem exec_memwr {s : State} (h : s.pins.railsOn = true) (o : Nat) (data : List Byte) (poison : Bool) :
    exec (.memwr o data poison) s =
      .next { s with dev := s.dev.windowWrite o data (BitVec.allOnes 64) poison } := run_dev h _

/-- Refutes O32: the statement does not ask that an open region begins at a multiple of 64 (the checks of a MEM_WINDOW OPEN
ask for 2 MiB, `Device.windowOpenCheck`), and through one that does not a MEMWR need not store all of its 64 bytes. -/
theorem not_windowAccesses : ¬ Obligations.WindowAccesses := by
  unfold Obligations.WindowAccesses
  intro h
  obtain ⟨hon, hwf, hplace⟩ := straddlingWindow_takes_write
  obtain ⟨-, -, -, hwrite, -⟩ := h straddlingWindow 0 (List.replicate 64 1) 0 (.meminv 0) rfl hon rfl hwf
  obtain ⟨t, hexec, -, hread, -⟩ := hwrite 1 65504 false hplace List.length_replicate
  rw [exec_memwr rfl] at hexec
  obtain rfl := Host.Outcome.next.inj hexec
  rw [straddlingWindow_drops_retired_half] at hread
  exact absurd hread (by decide)

end Sys2Proof.Machine
end

section
/-! The module's supply and sideband pins: what brings the package up, and what takes it down (R916 to R922). -/

namespace Sys2Proof.Machine

/-! ### Power-up -/

/-- The package is off, its input switch may close and nothing keeps the rails off: no trip stands and RESET_N is high. -/
structure State.ReadyToStart (s : State) : Prop where
  railsOff : s.pins.railsOn = false
  noTrip : s.dev.reset.trip = none
  mated : s.pins.psense = true
  enabled : s.pins.pwrEn = true
  released : s.pins.resetN = true
  notOver : s.pins.overvoltage = false
  notUnder : 38500 < s.pins.inputMv

/-- The sequence from t0 of a package that is ready ends with the rails on, or waits at the sensor check. -/
theorem startUp_of_ready {s : State} (h : s.ReadyToStart) (hswitch : s.pins.inputSwitch = true) :
    s.startUp = if s.pins.cool then s.railsUp else { s with pins := { s.pins with sensorWait := true } } := by
  simp [State.startUp, hswitch, h.railsOff, h.released, h.noTrip]

/-- The switch of a package that is ready closes, and the sequence starts. -/
theorem closeSwitch_of_ready {s : State} (h : s.ReadyToStart) :
    s.closeSwitch = State.startUp { s with pins := { s.pins with inputSwitch := true } } := by
  simp [State.closeSwitch, h.mated, h.enabled, h.notUnder, h.notOver, h.noTrip]

/-- Whether the sensors read below 85 °C decides how far the sequence gets. -/
theorem closeSwitch_powers_up {s : State} (h : s.ReadyToStart) :
    s.closeSwitch.pins.inputSwitch = true ∧
      (s.pins.cool = true → s.closeSwitch.pins.railsOn = true ∧ s.closeSwitch.pins.pwrGood = true ∧
        s.closeSwitch.pins.thermtrip = false) ∧
      (s.pins.cool = false → s.closeSwitch.pins.railsOn = false ∧ s.closeSwitch.pins.sensorWait = true) := by
  have hclosed : State.ReadyToStart { s with pins := { s.pins with inputSwitch := true } } := { h with }
  rw [closeSwitch_of_ready h, startUp_of_ready hclosed rfl]
  cases hcool : s.pins.cool with
  | true => simp [State.railsUp]
  | false => simp [h.railsOff]

theorem exec_pwrEnRise {s : State} (h : s.pins.pwrEn = false) :
    exec .pwrEnRise s = .next (State.closeSwitch { s with pins := { s.pins with pwrEn := true } }) :=
  congrArg Host.Outcome.next (if_neg (by simp [h]))

theorem exec_psenseMate {s : State} (h : s.pins.psense = false) :
    exec .psenseMate s = .next (State.closeSwitch { s with pins := { s.pins with psense := true } }) :=
  congrArg Host.Outcome.next (if_neg (by simp [h]))

theorem exec_resetNRelease {s : State} (h : s.pins.resetN = false) :
    exec .resetNRelease s = .next (State.closeSwitch { s with pins := { s.pins with resetN := true } }) :=
  congrArg Host.Outcome.next (if_neg (by simp [h]))

/-- An input that returns above 38.5 V and up to 58.0 V, or below 57.0 V after an overvoltage, is one to start from. -/
theorem exec_inputReturn {s : State} {mV : Nat} (hlow : 38500 < mV) (hhigh : mV ≤ 58000)
    (hover : s.pins.overvoltage = true → mV < 57000) :
    exec (.inputReturn mV) s =
      .next (State.closeSwitch { s with pins := { s.pins with inputMv := mV, overvoltage := false } }) := by
  refine congrArg Host.Outcome.next (if_neg ?_)
  simp only [Bool.or_eq_true, Bool.and_eq_true, decide_eq_true_eq, not_or, not_and]
  exact ⟨⟨by omega, by omega⟩, fun ho => by have := hover ho; omega⟩

/-! ### Power-down -/

/-- Of a panel only which of its stacks are there outlives a loss of power. -/
@[simp] theorem powerLost_panel (d : Device) (p : PanelId) :
    d.powerLost.panel p = { mem := { present := (d.portsDown.panel p).mem.present } } := by
  simp [Device.panel, Device.powerLost]

/-- Of a port only what it last sent outlives a loss of power. -/
@[simp] theorem powerLost_port (d : Device) (n : PortId) :
    d.powerLost.port n = { lastSent := (d.portsDown.port n).lastSent } := by
  simp [Device.port, Device.powerLost]

@[simp] theorem powerLost_hostMem (d : Device) : d.powerLost.hostMem = d.hostMem := by simp only [Device.powerLost]
@[simp] theorem powerDown_dev (s : State) : s.powerDown.dev = s.dev.powerLost := by simp only [State.powerDown]
@[simp] theorem powerDown_vault (s : State) : s.powerDown.vault = s.vault := by simp only [State.powerDown]

theorem exec_pwrEnFall {s : State} (h : s.pins.pwrEn = true) :
    exec .pwrEnFall s = .next (State.powerDown { s with pins := { s.pins with pwrEn := false } }) :=
  congrArg Host.Outcome.next (if_neg (by simp [h]))

theorem exec_psenseBreak {s : State} (h : s.pins.psense = true) :
    exec .psenseBreak s = .next (State.powerDown { s with pins := { s.pins with psense := false } }) :=
  congrArg Host.Outcome.next (if_neg (by simp [h]))

theorem exec_inputUndervoltage {s : State} {mV : Nat} (h : mV < 38000) :
    exec (.inputUndervoltage mV) s = .next (State.powerDown { s with pins := { s.pins with inputMv := mV } }) :=
  congrArg Host.Outcome.next (if_neg (by omega))

theorem exec_inputOvervoltage {s : State} {mV : Nat} (h : 58000 < mV) :
    exec (.inputOvervoltage mV) s =
      .next (State.powerDown { s with pins := { s.pins with inputMv := mV, overvoltage := true } }) :=
  congrArg Host.Outcome.next (if_neg (by omega))

/-! ### RESET_N -/

/-- While PWR_EN is low, RESET_N has no effect but on its pin (R922). -/
theorem exec_resetNAssert_disabled {s : State} (h : s.pins.pwrEn = false) :
    exec .resetNAssert s = .next { s with pins := { s.pins with resetN := false } } :=
  congrArg Host.Outcome.next (if_pos (by simp [h]))

/-- Settles O12: each last condition of power-up closes the switch of a package that is then ready to start, and each cause
of power-down powers down a package that differs in its pins alone. -/
theorem powerUpAndPowerDown : Obligations.PowerUpAndPowerDown := by
  refine ⟨fun s c mV hoff htrip hlast => ?_, fun s c mV hcause => ?_, fun s => exec_resetNAssert_disabled⟩
  · obtain ⟨u, hexec, hready, hcool⟩ :
        ∃ u : State, exec c s = .next u.closeSwitch ∧ u.ReadyToStart ∧ u.pins.cool = s.pins.cool := by
      rcases hlast with ⟨rfl, hen, hmate, hrst, hov, hin⟩ | ⟨rfl, hmate, hen, hrst, hov, hin⟩ |
        ⟨rfl, hrst, hmate, hen, hov, hin⟩ | ⟨rfl, hlow, hhigh, hov, hmate, hen, hrst⟩
      · exact ⟨_, exec_pwrEnRise hen, ⟨hoff, htrip, hmate, rfl, hrst, hov, hin⟩, rfl⟩
      · exact ⟨_, exec_psenseMate hmate, ⟨hoff, htrip, rfl, hen, hrst, hov, hin⟩, rfl⟩
      · exact ⟨_, exec_resetNRelease hrst, ⟨hoff, htrip, hmate, hen, rfl, hov, hin⟩, rfl⟩
      · exact ⟨_, exec_inputReturn hlow hhigh hov, ⟨hoff, htrip, hmate, hen, hrst, rfl, hlow⟩, rfl⟩
    exact ⟨_, hexec, hcool ▸ closeSwitch_powers_up hready⟩
  · obtain ⟨q, hexec⟩ : ∃ q, exec c s = .next (State.powerDown { s with pins := q }) := by
      rcases hcause with ⟨rfl, h⟩ | ⟨rfl, h⟩ | ⟨rfl, h⟩ | ⟨rfl, h⟩
      · exact ⟨_, exec_pwrEnFall h⟩
      · exact ⟨_, exec_psenseBreak h⟩
      · exact ⟨_, exec_inputUndervoltage h⟩
      · exact ⟨_, exec_inputOvervoltage h⟩
    exact ⟨_, hexec, rfl, rfl, rfl, rfl, powerDown_vault _, by simp, rfl, rfl, rfl, rfl, rfl, rfl,
      fun p => by simp, fun n => by simp⟩

end Sys2Proof.Machine
end

section
/-! Every command answers, and no step breaks what the pins, the fuses and the queue promise. -/

namespace Sys2Proof.Machine

/-! ### What every command answers -/

/-- Every command answers a next state that keeps the queue, the pins' agreement and the fuses: a package command changes
the device alone, and each command of the whole module is one of the operations of `Sys2Proof/Laws/Module.lean`. -/
theorem exec_sound (c : Instr) (s : State) : ∃ t, exec c s = .next t ∧ Sound s t := by
  cases c with
  | pwrEnRise => exact ⟨_, rfl, pwrEnRise_sound s⟩
  | pwrEnFall => exact ⟨_, rfl, pwrEnFall_sound s⟩
  | psenseMate => exact ⟨_, rfl, psenseMate_sound s⟩
  | psenseBreak => exact ⟨_, rfl, psenseBreak_sound s⟩
  | inputUndervoltage mV => exact ⟨_, rfl, undervoltage_sound s mV⟩
  | inputOvervoltage mV => exact ⟨_, rfl, overvoltage_sound s mV⟩
  | inputReturn mV => exact ⟨_, rfl, inputReturn_sound s mV⟩
  | resetNAssert => exact ⟨_, rfl, resetNAssert_sound s⟩
  | resetNRelease => exact ⟨_, rfl, resetNRelease_sound s⟩
  | tempSample dies hub stackTemps => exact ⟨_, rfl, tempSample_sound s dies hub stackTemps⟩
  | currentTrip => exact ⟨_, rfl, currentTrip_sound s⟩
  | perstAssert => exact ⟨_, rfl, perstAssert_sound s⟩
  | perstRelease => exact ⟨_, rfl, perstRelease_sound s⟩
  | hotReset | linkDisable | d3hotEntry | hostLinkLoss =>
    exact ⟨_, rfl, sound_if _ (linkReset_sound s _ _) (Sound.refl s)⟩
  | hostLinkUp cxl width speed => exact ⟨_, rfl, linkUp_sound s cxl width speed⟩
  | hostAccessFault use addr refused => exact ⟨_, rfl, hostAccessFault_sound s use addr refused⟩
  | deviceWarmReset | deviceColdReset => exact ⟨_, rfl, resetCtlWrite_sound s _ _ _⟩
  | escalationWindowExpiry device => exact ⟨_, rfl, sound_onDev s _⟩
  | hubLockstepMismatch output fwPc => exact ⟨_, rfl, warmReset_sound s _ _ _ _ _⟩
  | thimbleSelfCheckFail engine => exact ⟨_, rfl, thimbleStop_sound s engine⟩
  | checkerSelftest checker seen => exact ⟨_, rfl, sound_if _ (selftest_sound s checker seen) (Sound.refl s)⟩
  | cfgShadowCheck bad => exact ⟨_, rfl, shadowCheck_sound s bad⟩
  | lifetimeUpdate => exact ⟨_, rfl, sound_if _ (lifetime_sound s) (Sound.refl s)⟩
  | certChain | attest | keyOpen | keyInstall | authRegister | authRemove | debugChallenge | debugUnlock | fwStage =>
    exact ⟨_, rfl, mailbox_sound s _⟩
  | thimbleBoot storeSound => exact ⟨_, rfl, boot_sound s storeSound⟩
  | deviceEnable | deviceDisable => exact ⟨_, rfl, devCtlWrite_sound s _ _⟩
  | lowHalfReadLatch offset => exact ⟨_, rfl, sound_if _ (read32_sound s offset) (Sound.refl s)⟩
  | registerWrite offset size value => exact ⟨_, rfl, barWrite_sound s offset size value⟩
  | dapNop => exact powered_sound s _ (dapThimble_sound s)
  | dapRead32 | dapWrite32 | dapReadInc | dapWriteInc => exact dapWord_answers s _ _ _ _ _
  | dapChallenge | dapUnlock => exact dapSubmit_answers s _
  | dapHalt | dapResume | dapStep | dapStepTack => exact dapSeq_answers s _ _ _ _
  | _ => exact run_sound s _

/-- A step keeps the pins' agreement and the fuses. -/
theorem step_pins_fuses {s t : State} (h : step s = .next t) :
    (s.PinsAgree → t.PinsAgree) ∧ (s.FusesLegal → t.FusesLegal ∧ s.KeepsFuses t) := by
  obtain ⟨pending, dev, pins, vault⟩ := s
  cases pending with
  | nil =>
    obtain rfl : State.tick _ = t := Host.Outcome.next.inj h
    exact (tick_sound _).2
  | cons c rest =>
    obtain ⟨u, hexec, hsound⟩ := exec_sound c ⟨rest, dev, pins, vault⟩
    obtain rfl : u = t := Host.Outcome.next.inj (hexec.symm.trans h)
    exact hsound.2

/-- Settles O1: `step` is defined so. -/
theorem stepRunsFrontCommand : Obligations.StepRunsFrontCommand := fun _ _ => rfl

/-- Settles O2. -/
theorem everyCommandAnswers : Obligations.EveryCommandAnswers := fun c s => by
  obtain ⟨t, hexec, hqueue, -⟩ := exec_sound c s
  exact ⟨t, hexec, hqueue⟩

/-- Settles O8. -/
theorem pinsStayInAgreement : Obligations.PinsStayInAgreement := fun _ _ hpins h => (step_pins_fuses h).1 hpins

/-- Settles O9. -/
theorem fusesNeverGoBack : Obligations.FusesNeverGoBack := fun _ _ hfuses h => (step_pins_fuses h).2 hfuses

/-- Settles O10: at reset the rails are on with every pin as it should be, and both memories are empty. -/
theorem resetMeetsInvariants : Obligations.ResetMeetsInvariants := by
  refine ⟨?_, ?_, reset_mem_wf⟩
  · simp [State.PinsAgree, State.reset]
  · simp [State.FusesLegal, State.reset]

/-! ### Without the rails -/

theorem warmReset_off {s : State} (h : s.pins.railsOn = false) (r : ErrRec) (a b c d : Bool) :
    s.warmReset r a b c d = s := by simp [State.warmReset, h]

theorem resetCtlWrite_off {s : State} (h : s.pins.railsOn = false) (v : BitVec 64) (a b : Bool) :
    s.resetCtlWrite v a b = s := by simp [State.resetCtlWrite, h]

theorem mailbox_off {s : State} (h : s.pins.railsOn = false) (k : Nat) : s.mailbox k = s := by
  simp [State.mailbox, h]

theorem devCtlWrite_off {s : State} (h : s.pins.railsOn = false) (v m : BitVec 64) : s.devCtlWrite v m = s := by
  simp [State.devCtlWrite, h]

theorem shadowCheck_off {s : State} (h : s.pins.railsOn = false) (bad : Option (Nat × BitVec 64)) :
    s.shadowCheck bad = s := by
  cases bad <;> simp [State.shadowCheck, h]

/-- Settles O11: a package command asks for the rails, and so does each operation of the whole module that is not one of
the module's own pins, sensors and timers. -/
theorem unpoweredPackageIgnoresCommands : Obligations.UnpoweredPackageIgnoresCommands := by
  intro c s h hmodule
  cases c with
  | pwrEnRise | pwrEnFall | psenseMate | psenseBreak | inputUndervoltage | inputOvervoltage | inputReturn | resetNAssert
  | resetNRelease | tempSample | perstAssert | perstRelease | escalationWindowExpiry => exact Bool.noConfusion hmodule
  | currentTrip => exact congrArg Host.Outcome.next (if_pos (by simp [h]))
  | hotReset | linkDisable | d3hotEntry | hostLinkLoss =>
    exact congrArg Host.Outcome.next (if_neg (by simp [State.linked, h]))
  | hostLinkUp => exact congrArg Host.Outcome.next (if_neg (by simp [h]))
  | hostAccessFault => exact congrArg Host.Outcome.next (if_pos (by simp [h]))
  | deviceWarmReset | deviceColdReset => exact congrArg Host.Outcome.next (resetCtlWrite_off h _ _ _)
  | hubLockstepMismatch => exact congrArg Host.Outcome.next (warmReset_off h _ _ _ _ _)
  | thimbleSelfCheckFail => exact congrArg Host.Outcome.next (if_pos (by simp [h]))
  | checkerSelftest | lifetimeUpdate | dapNop | dapRead32 | dapWrite32 | dapReadInc | dapWriteInc | dapChallenge | dapUnlock
  | dapHalt | dapResume | dapStep | dapStepTack => exact congrArg Host.Outcome.next (if_neg (by simp [h]))
  | cfgShadowCheck bad => exact congrArg Host.Outcome.next (shadowCheck_off h bad)
  | certChain | attest | keyOpen | keyInstall | authRegister | authRemove | debugChallenge | debugUnlock | fwStage =>
    exact congrArg Host.Outcome.next (mailbox_off h _)
  | thimbleBoot => exact congrArg Host.Outcome.next (if_pos (by simp [h]))
  | deviceEnable | deviceDisable => exact congrArg Host.Outcome.next (devCtlWrite_off h _ _)
  | lowHalfReadLatch => exact congrArg Host.Outcome.next (if_neg (by simp [h]))
  | registerWrite => exact congrArg Host.Outcome.next (if_pos (by simp [h]))
  | _ => exact run_off h _

end Sys2Proof.Machine
end

section
/-! The Needle's commands: what each does to the counter, and all that it may change. -/

namespace Sys2Proof.Machine

/-- A package command of a powered package completes with the device's own change. -/
theorem completes_run {c : Instr} {s : State} {f : Device → Device} {P : State → Prop} (hc : exec c s = s.run f)
    (hrails : s.pins.railsOn = true) (hP : P { s with dev := f s.dev }) : Completes c s P :=
  ⟨_, hc.trans (run_dev hrails f), hP⟩

/-! ### Enabling and disabling (R50, R70) -/

/-- The written fields take MODE and the rank, and leave EN as it is. -/
theorem needleCtlFields_eq {d : Device} (hoff : d.needleOn = false) (v : BitVec 32) :
    d.needleCtlFields v = { d with regs := { d.regs with needleCtl := mergeBits d.regs.needleCtl (v.setWidth 64) 0xFF02 } } := by
  simp [Device.needleCtlFields, hoff]

theorem needleCtlFields_needleOn {d : Device} (hoff : d.needleOn = false) (v : BitVec 32) :
    (d.needleCtlFields v).needleOn = false := by
  rw [needleCtlFields_eq hoff]
  simpa [Device.needleOn, bitOf_mergeBits] using hoff

/-- A NEEDLE_ENABLE whose checks fail shows the failed one. -/
theorem needleEnable_refused {d : Device} {v : BitVec 32} {c : Code} {b : Nat} (hoff : d.needleOn = false)
    (hen : v.getLsbD 0 = true) (hfail : (d.needleCtlFields v).needleChecks = some (c, b)) :
    d.needleEnable v = (d.needleCtlFields v).updNeedle (fun n => { n with reason := c, badReg := b }) := by
  simp [Device.needleEnable, hoff, hen, hfail]

/-- The device of a passed NEEDLE_ENABLE before the counter starts: EN is set, no source is followed. -/
def Device.needleReady (d : Device) (v : BitVec 32) : Device :=
  let e := d.needleCtlFields v
  { e with
    regs := { e.regs with needleCtl := setBit e.regs.needleCtl 0 true }
    needle := { e.needle with reason := 0, badReg := 0, source := none, hop := 0, takenOver := none } }

/-- A passed NEEDLE_ENABLE starts the counter in LISTEN in MODE JOB, and from HUB.NEEDLE_LOAD in MODE FREE. -/
theorem needleEnable_passed {d : Device} {v : BitVec 32} (hoff : d.needleOn = false) (hen : v.getLsbD 0 = true)
    (hpass : (d.needleCtlFields v).needleChecks = none) :
    d.needleEnable v = if v.getLsbD 1 then (d.needleReady v).needleTo .listen 0 2
      else (d.needleReady v).loadNeedle.needleTo .free 0 2 := by
  have hmode : bitOf (d.needleReady v).regs.needleCtl 1 = v.getLsbD 1 := by
    simp [Device.needleReady, needleCtlFields_eq hoff, bitOf_setBit, bitOf_mergeBits]
  simp only [Device.needleEnable, hoff, hen, hpass, ← hmode]
  rfl

theorem needleReady_needleOn {d : Device} (v : BitVec 32) : (d.needleReady v).needleOn = true := by
  simp [Device.needleOn, Device.needleReady, bitOf_setBit]

theorem needleDisable_eq {d : Device} {v : BitVec 32} (hon : d.needleOn = true) (hclear : v.getLsbD 0 = false) :
    d.needleDisable v = (Device.failHeld { d with regs := { d.regs with needleCtl := setBit d.regs.needleCtl 0 false } }
      0x0607).needleTo .disabled 0 2 := by
  simp only [Device.needleDisable, hon, hclear, Bool.not_true, Bool.false_eq_true, if_false]

/-- Settles O3: EN follows the checks, and the counter starts or stops by entering a state. -/
theorem needleEnableAndDisable : Obligations.NeedleEnableAndDisable := by
  refine ⟨fun s v hrails hoff hen hpass => completes_run rfl hrails ?_,
    fun s v c b hrails hoff hen hfail => completes_run rfl hrails ?_,
    fun s v hrails hon hclear => completes_run rfl hrails ?_⟩
  · have hon : ((s.dev.needleReady v).regs.needleCtl).getLsbD 0 = true := needleReady_needleOn v
    have hns : (s.dev.needleReady v).stitchNs = s.dev.stitchNs := by
      simp [Device.stitchNs, Device.needleReady, needleCtlFields_eq hoff]
    simp only [needleEnable_passed hoff hen hpass]
    cases hmode : v.getLsbD 1
    · simp [Device.needleOn, bitOf, hon, needleTo_needle, Device.loadNeedle, Device.updNeedle, hns]
      simp [Device.needleReady, needleCtlFields_eq hoff]
    · simp [Device.needleOn, bitOf, hon, needleTo_needle]
      simp [Device.needleReady, needleCtlFields_eq hoff]
  · simp only [needleEnable_refused hoff hen hfail]
    exact ⟨needleCtlFields_needleOn hoff v, by simp [needleCtlFields_eq hoff]⟩
  · simp only [needleDisable_eq hon hclear]
    refine ⟨by simp [Device.needleOn, bitOf_setBit], by simp, by simp, by simp, ?_⟩
    simp only [needleTo_contexts]
    rfl

/-! ### What a Needle command may change -/

/-- From `d` to `e` nothing has changed but HUB.NEEDLE_CTL, the counter, the error records, the contexts, the draws and the
hub's event counters. -/
def Device.NeedleOnly (d e : Device) : Prop :=
  ∃ ctl needle err contexts fresh hub, e =
    { d with
      regs := { d.regs with needleCtl := ctl }, needle := needle, err := err, contexts := contexts, fresh := fresh
      counters := { d.counters with hub := hub } }

theorem Device.NeedleOnly.refl (d : Device) : d.NeedleOnly d := ⟨_, _, _, _, _, _, rfl⟩

theorem Device.NeedleOnly.trans {d e f : Device} (h : d.NeedleOnly e) (k : e.NeedleOnly f) : d.NeedleOnly f := by
  obtain ⟨_, _, _, _, _, _, rfl⟩ := h
  obtain ⟨_, _, _, _, _, _, rfl⟩ := k
  exact ⟨_, _, _, _, _, _, rfl⟩

/-- The frame, with the changed parts named by the later device. -/
theorem Device.NeedleOnly.eq {d e : Device} (h : d.NeedleOnly e) : e =
    { d with
      regs := { d.regs with needleCtl := e.regs.needleCtl }, needle := e.needle, err := e.err, contexts := e.contexts
      fresh := e.fresh, counters := { d.counters with hub := e.counters.hub } } := by
  obtain ⟨_, _, _, _, _, _, rfl⟩ := h
  rfl

/-- A raised record changes the error records alone. -/
theorem raise_eq (d : Device) (r : ErrRec) : ∃ e, d.raise r = { d with err := e } := enqueueRec_eq d _ _

/-- GUARD_STATUS is kept with the error records. -/
theorem updateGuard_eq (d : Device) : ∃ e, d.updateGuard = { d with err := e } := by
  unfold Device.updateGuard
  simp only []
  split
  · exact ⟨_, rfl⟩
  · obtain ⟨e, he⟩ := raise_eq { d with err := { d.err with guardBits := d.guardNow, guardReason := 0x0131 } }
      { reason := 0x0131, mech := 0x12, outcome := 2
        detail := BitVec.ofNat 128 (d.err.guardBits.toNat + 256 * d.guardNow.toNat) }
    exact ⟨e, he⟩

/-- A counted event of the hub changes its event counters alone. -/
theorem countHub_eq (d : Device) (e : PmcEvent) (n : Nat) :
    ∃ hub, d.countHub e n = { d with counters := { d.counters with hub := hub } } := by
  unfold Device.countHub
  split
  · exact ⟨_, rfl⟩
  · exact ⟨_, rfl⟩

theorem updNeedle_only (d : Device) (f : Needle → Needle) : d.NeedleOnly (d.updNeedle f) := ⟨_, _, _, _, _, _, rfl⟩

theorem failHeld_only (d : Device) (status : Code) : d.NeedleOnly (d.failHeld status) := ⟨_, _, _, _, _, _, rfl⟩

theorem raise_only (d : Device) (r : ErrRec) : d.NeedleOnly (d.raise r) := by
  obtain ⟨e, he⟩ := raise_eq d r
  exact ⟨_, _, e, _, _, _, he⟩

theorem updateGuard_only (d : Device) : d.NeedleOnly d.updateGuard := by
  obtain ⟨e, he⟩ := updateGuard_eq d
  exact ⟨_, _, e, _, _, _, he⟩

theorem countHub_only (d : Device) (e : PmcEvent) (n : Nat) : d.NeedleOnly (d.countHub e n) := by
  obtain ⟨hub, he⟩ := countHub_eq d e n
  exact ⟨_, _, _, _, _, hub, he⟩

theorem needleTo_only (d : Device) (new : NeedleState) (reason : Code) (outcome : Nat) :
    d.NeedleOnly (d.needleTo new reason outcome) := by
  unfold Device.needleTo
  refine Device.NeedleOnly.trans ?_ ((raise_only _ _).trans (updateGuard_only _))
  refine Device.NeedleOnly.trans ?_ (updNeedle_only _ _)
  split
  · exact failHeld_only d _
  · exact Device.NeedleOnly.refl d

theorem follow_only (d : Device) (port : PortId) (m : Marker) (phase : BitVec 16) :
    d.NeedleOnly (d.follow port m phase) := ⟨_, _, _, _, _, _, rfl⟩

@[simp] theorem follow_contexts (d : Device) (port : PortId) (m : Marker) (phase : BitVec 16) :
    (d.follow port m phase).contexts = d.contexts := rfl

/-- What a Needle command may do: within the frame, it leaves the contexts or fails the held descriptors of all. -/
def Device.NeedleStep (d e : Device) : Prop :=
  (e.contexts = d.contexts ∨ e.contexts = (d.failHeld 0x0607).contexts ∨ e.contexts = (d.failHeld 0x0608).contexts) ∧
    d.NeedleOnly e

theorem Device.NeedleOnly.step {d e : Device} (h : d.NeedleOnly e) (hctx : e.contexts = d.contexts) : d.NeedleStep e :=
  ⟨.inl hctx, h⟩

theorem Device.NeedleStep.refl (d : Device) : d.NeedleStep d := (Device.NeedleOnly.refl d).step rfl

theorem needleTo_step (d : Device) (new : NeedleState) (reason : Code) (outcome : Nat) :
    d.NeedleStep (d.needleTo new reason outcome) := by
  refine ⟨?_, needleTo_only d new reason outcome⟩
  rw [needleTo_contexts]
  split
  · exact .inr (.inr rfl)
  · exact .inl rfl

theorem needleTo_contexts_of_ne {d : Device} {new : NeedleState} (h : new ≠ .lost) (reason : Code) (outcome : Nat) :
    (d.needleTo new reason outcome).contexts = d.contexts := by simp [needleTo_contexts, h]

theorem needleEnable_step (d : Device) (v : BitVec 32) : d.NeedleStep (d.needleEnable v) := by
  have hfields : d.NeedleStep (d.needleCtlFields v) := by
    unfold Device.needleCtlFields
    split
    · exact .refl d
    · exact ⟨.inl rfl, ⟨_, _, _, _, _, _, rfl⟩⟩
  obtain ⟨hctx, honly⟩ := hfields
  cases hon : d.needleOn with
  | true => simpa [Device.needleEnable, hon] using Device.NeedleStep.refl d
  | false =>
    rw [needleCtlFields_eq hon] at honly
    cases hen : v.getLsbD 0 with
    | false =>
      simp only [Device.needleEnable, hon, hen, needleCtlFields_eq hon]
      exact honly.step rfl
    | true =>
      cases hcheck : (d.needleCtlFields v).needleChecks with
      | some r =>
        rw [needleEnable_refused hon hen hcheck, needleCtlFields_eq hon]
        exact (honly.trans (updNeedle_only _ _)).step rfl
      | none =>
        have hready : d.NeedleOnly (d.needleReady v) := by
          simp only [Device.needleReady, needleCtlFields_eq hon]
          exact ⟨_, _, _, _, _, _, rfl⟩
        have hsame : (d.needleReady v).contexts = d.contexts := by simp [Device.needleReady, needleCtlFields_eq hon]
        rw [needleEnable_passed hon hen hcheck]
        split
        · exact (hready.trans (needleTo_only _ _ _ _)).step ((needleTo_contexts_of_ne (by decide) _ _).trans hsame)
        · exact ((hready.trans (updNeedle_only _ _)).trans (needleTo_only _ _ _ _)).step
            ((needleTo_contexts_of_ne (by decide) _ _).trans hsame)

theorem needleDisable_step (d : Device) (v : BitVec 32) : d.NeedleStep (d.needleDisable v) := by
  unfold Device.needleDisable
  split
  · unfold Device.needleCtlFields
    split
    · exact .refl d
    · exact ⟨.inl rfl, ⟨_, _, _, _, _, _, rfl⟩⟩
  · split
    · exact .refl d
    · refine ⟨.inr (.inl (needleTo_contexts_of_ne (by decide) _ _)), ?_⟩
      exact Device.NeedleOnly.trans ⟨_, _, _, _, _, _, rfl⟩ (needleTo_only _ _ _ _)

/-! ### Timed transitions (R36, R37, R46, R50) -/

theorem election_step (d : Device) : d.NeedleStep d.election := by
  unfold Device.election
  split
  · exact ((updNeedle_only d _).trans (needleTo_only _ _ _ _)).step (needleTo_contexts_of_ne (by decide) _ _)
  · exact .refl d

theorem takeover_step (d : Device) : d.NeedleStep d.takeover := by
  unfold Device.takeover
  split
  · exact ((needleTo_only d _ _ _).trans (updNeedle_only _ _)).step (needleTo_contexts_of_ne (by decide) _ _)
  · exact .refl d

theorem holdoverEntry_step (d : Device) : d.NeedleStep d.holdoverEntry := by
  unfold Device.holdoverEntry
  split
  · split
    · exact needleTo_step d _ _ _
    · exact needleTo_step d _ _ _
    · exact .refl d
  · exact .refl d

/-- What may lose the counter: it enters LOST, or keeps its state. -/
def Device.MayLose (d e : Device) : Prop :=
  (∃ reason outcome, e = d.needleTo .lost reason outcome) ∨ d.NeedleOnly e ∧ e.contexts = d.contexts ∧
    e.needle.state = d.needle.state

theorem Device.MayLose.refl (d : Device) : d.MayLose d := .inr ⟨.refl d, rfl, rfl⟩

theorem Device.MayLose.step {d e : Device} (h : d.MayLose e) : d.NeedleStep e := by
  obtain ⟨reason, outcome, rfl⟩ | ⟨honly, hctx, -⟩ := h
  · exact needleTo_step d _ _ _
  · exact honly.step hctx

theorem holdoverLimit_mayLose (d : Device) : d.MayLose d.holdoverLimit := by
  unfold Device.holdoverLimit
  split
  · exact .inl ⟨_, _, rfl⟩
  · exact .refl d

theorem lockTimeout_mayLose (d : Device) : d.MayLose d.lockTimeout := by
  unfold Device.lockTimeout
  split
  · exact .inl ⟨_, _, rfl⟩
  · exact .refl d

theorem reacquireTimeout_mayLose (d : Device) : d.MayLose d.reacquireTimeout := by
  unfold Device.reacquireTimeout
  split
  · exact .inl ⟨_, _, rfl⟩
  · exact .refl d

/-- A fault of a counter that is stopped or lost already shows its reason alone. -/
theorem counterFault_mayLose (d : Device) : d.MayLose d.counterFault := by
  unfold Device.counterFault
  split
  · exact .inr ⟨(updNeedle_only d _).trans (raise_only _ _), by simp, by simp⟩
  · exact .inr ⟨(updNeedle_only d _).trans (raise_only _ _), by simp, by simp⟩
  · exact .inl ⟨_, _, rfl⟩

/-- Settles O5: each transition's condition is the one of its function. -/
theorem needleTimedTransitions : Obligations.NeedleTimedTransitions := by
  intro s hrails
  refine ⟨fun hstate hlow hhigh hint => completes_run rfl hrails ?_,
    fun hstate hlow hhigh hint hbetter => completes_run rfl hrails ?_, fun hstate hint => completes_run rfl hrails ?_,
    fun hstate hint => completes_run rfl hrails ?_, fun hstate htime => completes_run rfl hrails ?_,
    fun hstate htime => completes_run rfl hrails ?_, fun hstate htime => completes_run rfl hrails ?_⟩
  · simp [Device.election, hstate, hlow, hhigh, hint, Device.loadNeedle]
  · have hrank : 7 + s.dev.rank = 8 + (s.dev.rank - 1) := by omega
    simp [Device.takeover, hstate, hlow, hhigh, hrank, hint, hbetter]
  · simp [Device.holdoverEntry, hstate, hint]
  · simp [Device.holdoverEntry, hstate, hint]
  · simp [Device.holdoverLimit, hstate, htime]
  · simp [Device.lockTimeout, hstate, htime, needleTo_needle]
  · simp [Device.reacquireTimeout, hstate, htime]

/-! ### A lost counter (R49, R50, R53) -/

/-- The commands that may lose the counter do so by a change of the device that enters LOST or keeps the state. -/
theorem losing_command {c : Instr}
    (hc : c ∈ [Instr.holdoverLimit, .lockTimeout, .reacquireTimeout, .needleCounterFault]) :
    ∃ f : Device → Device, (∀ s, exec c s = s.run f) ∧ ∀ d : Device, d.MayLose (f d) := by
  simp only [List.mem_cons, List.not_mem_nil, or_false] at hc
  obtain rfl | rfl | rfl | rfl := hc
  · exact ⟨_, fun _ => rfl, holdoverLimit_mayLose⟩
  · exact ⟨_, fun _ => rfl, lockTimeout_mayLose⟩
  · exact ⟨_, fun _ => rfl, reacquireTimeout_mayLose⟩
  · exact ⟨_, fun _ => rfl, counterFault_mayLose⟩

/-- What a package command answers is the state itself, or the state with the device's own change. -/
theorem run_cases {s t : State} {f : Device → Device} (h : s.run f = .next t) : t = s ∨ t = { s with dev := f s.dev } := by
  rw [run_eq] at h
  obtain rfl := Host.Outcome.next.inj h
  split
  · exact .inr rfl
  · exact .inl rfl

/-- Settles O6: the counter is lost by entering LOST, which fails the held descriptors. -/
theorem lostNeedle : Obligations.LostNeedle := by
  refine ⟨fun s hrails => completes_run rfl hrails ?_, fun c s t hc hexec hbefore hafter => ?_⟩
  · cases hstate : s.dev.needle.state <;> simp [Device.counterFault, hstate, needleTo_needle]
  · obtain ⟨f, hrun, hlose⟩ := losing_command hc
    rw [hrun] at hexec
    obtain rfl | rfl := run_cases hexec
    · exact absurd hafter hbefore
    · obtain ⟨reason, outcome, he⟩ | ⟨-, -, hsame⟩ := hlose s.dev
      · simp only [he, needleTo_contexts, if_true]
        rfl
      · exact absurd (hsame.symm.trans hafter) hbefore

/-! ### Markers received (R35, R38, R42, R50, R57) -/

/-- A marker that is not valid: from a port that is no source, with other settings, from too far, or from a source in
holdover. -/
def Device.MarkerInvalid (d : Device) (port : PortId) (m : Marker) : Prop :=
  bitOf d.regs.needleSrc port.val = false ∨ d.markerMatches m = false ∨ 8 < m.hop.toNat ∨ m.srcHoldover = true

/-- It may show a reason, and nothing else. -/
theorem markerReceive_invalid {d : Device} {port : PortId} {m : Marker} (h : d.MarkerInvalid port m) (phase : BitVec 16) :
    ∃ r, d.markerReceive port m phase = d.updNeedle (fun n => { n with reason := r }) := by
  have hkeep : ∃ r, d = d.updNeedle (fun n => { n with reason := r }) := ⟨_, rfl⟩
  unfold Device.markerReceive
  split
  · exact hkeep
  · split
    · exact ⟨_, rfl⟩
    · split
      · split
        · exact ⟨_, rfl⟩
        · exact hkeep
      · split
        · exact hkeep
        · rename_i hports hmatches hhop hhold
          simp only [Bool.not_eq_true', Bool.not_eq_false, Bool.and_eq_true] at hports hmatches
          simp [Device.MarkerInvalid, hports.1.2, hmatches, hhop, hhold] at h

/-- A flit of a marker that is not valid counts, and may show a reason. -/
theorem markerFlit_invalid {d : Device} {port : PortId} {m : Marker} (h : d.MarkerInvalid port m) (phase : BitVec 16) :
    ∃ r hub, d.markerFlit port m phase =
      { d with needle := { d.needle with reason := r }, counters := { d.counters with hub := hub } } := by
  unfold Device.markerFlit
  split
  · obtain ⟨hub, hcount⟩ := countHub_eq d { code := 0x118, unit := some port.val } 1
    have hinvalid : Device.MarkerInvalid { d with counters := { d.counters with hub := hub } } port m := h
    obtain ⟨r, hr⟩ := markerReceive_invalid hinvalid phase
    rw [hcount, hr]
    exact ⟨r, hub, rfl⟩
  · exact ⟨_, _, rfl⟩

/-- A marker that is valid, on an UP port of a module in MODE JOB. -/
structure Device.MarkerValid (d : Device) (port : PortId) (m : Marker) : Prop where
  on : d.needleOn = true
  job : bitOf d.regs.needleCtl 1 = true
  source : bitOf d.regs.needleSrc port.val = true
  up : (d.port port).state = .up
  settings : d.markerMatches m = true
  near : m.hop.toNat ≤ 8
  steady : m.srcHoldover = false

theorem markerReceive_valid {d : Device} {port : PortId} {m : Marker} (h : d.MarkerValid port m) (phase : BitVec 16) :
    d.markerReceive port m phase = (d.countHub { code := 0x122, unit := some port.val } 1).validMarker port m phase := by
  have hnear := h.near
  unfold Device.markerReceive
  rw [if_neg (by simp [h.on, h.job, h.source, h.up]), if_neg (by simp [h.settings]), if_neg (by omega),
    if_neg (by simp [h.steady])]

/-- A valid marker counts twice, as a flit and as a marker, and is judged by the counter's state. -/
theorem markerFlit_valid {d : Device} {port : PortId} {m : Marker} (h : d.MarkerValid port m) (phase : BitVec 16) :
    ∃ hub, d.markerFlit port m phase =
      Device.validMarker { d with counters := { d.counters with hub := hub } } port m phase := by
  obtain ⟨hub, h1⟩ := countHub_eq d { code := 0x118, unit := some port.val } 1
  have hvalid : Device.MarkerValid { d with counters := { d.counters with hub := hub } } port m :=
    ⟨h.on, h.job, h.source, h.up, h.settings, h.near, h.steady⟩
  obtain ⟨hub', h2⟩ := countHub_eq { d with counters := { d.counters with hub := hub } }
    { code := 0x122, unit := some port.val } 1
  refine ⟨hub', ?_⟩
  rw [Device.markerFlit, if_pos (by simp [h.up]), h1, markerReceive_valid hvalid, h2]

/-! What a valid marker that is followed does, by the counter's state. -/

section
variable {d : Device} {port : PortId} {m : Marker} {phase : BitVec 16}

theorem validMarker_listen (h : d.needle.state = .listen) :
    d.validMarker port m phase =
      (((d.heard (m.rank.toNat, m.sourceId)).loadArrival port m).follow port m phase).needleTo .acquiring 0 2 := by
  simp [Device.validMarker, Device.heard, Device.updNeedle, h]

theorem validMarker_acquiring (h : d.needle.state = .acquiring ∨ d.needle.state = .reacquiring)
    (hfollows : d.follows (m.rank.toNat, m.sourceId) = true) :
    d.validMarker port m phase = ((d.heard (m.rank.toNat, m.sourceId)).follow port m phase).lockIfMet := by
  obtain h | h := h <;> simp [Device.validMarker, Device.heard, Device.updNeedle, h, hfollows]

theorem validMarker_locked (h : d.needle.state = .locked) (hfollows : d.follows (m.rank.toNat, m.sourceId) = true) :
    d.validMarker port m phase = (d.heard (m.rank.toNat, m.sourceId)).follow port m phase := by
  simp [Device.validMarker, Device.heard, Device.updNeedle, h, hfollows]

theorem validMarker_holdover (h : d.needle.state = .holdover) :
    d.validMarker port m phase =
      ((d.heard (m.rank.toNat, m.sourceId)).follow port m phase).needleTo .reacquiring 0 2 := by
  simp [Device.validMarker, Device.heard, Device.updNeedle, h]

/-- A Treadle gives way to a better source soon after a takeover, and otherwise reports it. -/
theorem validMarker_treadle (h : d.needle.state = .treadle) :
    d.validMarker port m phase =
      if betterSource (m.rank.toNat, m.sourceId) (d.rank, ownIdentity) = true then
        if d.needle.takenOver.any (fun b => !d.intervalsPassed b 8) = true then
          ((d.heard (m.rank.toNat, m.sourceId)).follow port m phase).needleTo .reacquiring 0 2
        else (d.heard (m.rank.toNat, m.sourceId)).updNeedle (fun n => { n with reason := 0x060D })
      else d.heard (m.rank.toNat, m.sourceId) := by
  have hrank : (d.heard (m.rank.toNat, m.sourceId)).rank = d.rank := rfl
  have hint (b : Nat) : (d.heard (m.rank.toNat, m.sourceId)).intervalsPassed b 8 = d.intervalsPassed b 8 := rfl
  have hstate : (d.heard (m.rank.toNat, m.sourceId)).needle.state = .treadle := h
  have htaken : (d.heard (m.rank.toNat, m.sourceId)).needle.takenOver = d.needle.takenOver := rfl
  simp only [Device.validMarker, hstate, hrank, htaken]
  split
  · cases d.needle.takenOver with
    | none => rfl
    | some b => cases hp : d.intervalsPassed b 8 <;> simp [hint, hp]
  · rfl

/-- In the other states it is only heard. -/
theorem validMarker_other (h : d.needle.state = .disabled ∨ d.needle.state = .free ∨ d.needle.state = .lost) :
    d.validMarker port m phase = d.heard (m.rank.toNat, m.sourceId) := by
  obtain h | h | h := h <;> simp [Device.validMarker, Device.heard, Device.updNeedle, h]

/-- The lock criterion, after a marker has been followed. -/
theorem lockIfMet_follow :
    (d.follow port m phase).lockIfMet =
      if (-50 ≤ phase.toInt ∧ phase.toInt ≤ 50) ∧ 63 ≤ d.needle.inLock then (d.follow port m phase).needleTo .locked 0 2
      else d.follow port m phase := by
  have hcount : 64 ≤ (d.follow port m phase).needle.inLock ↔
      (-50 ≤ phase.toInt ∧ phase.toInt ≤ 50) ∧ 63 ≤ d.needle.inLock := by
    rw [follow_needle]
    split <;> simp_all
  simp only [Device.lockIfMet, hcount]

end

@[simp] theorem heard_needle (d : Device) (key : Nat × BitVec 64) :
    (d.heard key).needle = { d.needle with
      lastValid := d.now
      lastBetter := if betterSource key (d.rank, ownIdentity) then d.now else d.needle.lastBetter } := rfl

@[simp] theorem heard_now (d : Device) (key : Nat × BitVec 64) : (d.heard key).now = d.now := rfl

@[simp] theorem loadArrival_now (d : Device) (port : PortId) (m : Marker) : (d.loadArrival port m).now = d.now := rfl

/-- The arrival position of a marker. -/
theorem loadArrival_needle (d : Device) (port : PortId) (m : Marker) :
    (d.loadArrival port m).needle =
      { d.needle with
        stitch := (d.loadArrival port m).needle.stitch, tick := (d.loadArrival port m).needle.tick, arrived := true } := rfl

/-- The arrival position does not depend on what the counter shows. -/
theorem loadArrival_heard (d : Device) (key : Nat × BitVec 64) (port : PortId) (m : Marker) :
    ((d.heard key).loadArrival port m).needle.stitch = (d.loadArrival port m).needle.stitch ∧
      ((d.heard key).loadArrival port m).needle.tick = (d.loadArrival port m).needle.tick := ⟨rfl, rfl⟩

/-- What a valid marker that is followed does to the counter, from `d` to `e` (R35, R38, R46, R50). -/
def Device.Disciplines (d e : Device) (port : PortId) (m : Marker) (phase : BitVec 16) : Prop :=
  let n := d.needle
  let good : Prop := -50 ≤ phase.toInt ∧ phase.toInt ≤ 50
  let better := betterSource (m.rank.toNat, m.sourceId) (d.rank, ownIdentity)
  let early := n.takenOver.any (fun b => !d.intervalsPassed b 8)
  e.needle.lastValid = d.now ∧
  (n.state = .listen → e.needle.state = .acquiring ∧
    e.needle.stitch = (d.loadArrival port m).needle.stitch ∧ e.needle.tick = (d.loadArrival port m).needle.tick) ∧
  (n.state = .acquiring ∨ n.state = .reacquiring → good → 63 ≤ n.inLock → e.needle.state = .locked) ∧
  (n.state = .acquiring ∨ n.state = .reacquiring → ¬ (good ∧ 63 ≤ n.inLock) → e.needle.state = n.state) ∧
  (n.state = .locked → e.needle.state = .locked) ∧
  (n.state = .holdover ∨ n.state = .treadle ∧ better = true ∧ early = true → e.needle.state = .reacquiring) ∧
  (n.state = .treadle → better = true → early = false → e.needle.state = .treadle ∧ e.needle.reason = 0x060D) ∧
  (n.state = .treadle → better = false → e.needle.state = .treadle ∧ e.needle.reason = n.reason) ∧
  (n.state = .listen ∨ n.state = .acquiring ∨ n.state = .reacquiring ∨ n.state = .locked ∨ n.state = .holdover →
    e.needle.source = some ⟨m.rank.toNat, m.sourceId, m.ext, port, m.hop.toNat⟩ ∧
    e.needle.hop = m.hop.toNat ∧ e.needle.phase = phase) ∧
  (n.state ≠ .listen → e.needle.stitch = n.stitch ∧ e.needle.tick = n.tick)

theorem validMarker_disciplines {d : Device} {m : Marker} (hfollows : d.follows (m.rank.toNat, m.sourceId) = true)
    (port : PortId) (phase : BitVec 16) : d.Disciplines (d.validMarker port m phase) port m phase := by
  unfold Device.Disciplines
  cases hstate : d.needle.state with
  | disabled | free | lost => simp [validMarker_other, hstate]
  | listen => simp [validMarker_listen hstate, needleTo_needle, follow_needle, loadArrival_heard, hstate]
  | acquiring | reacquiring =>
    simp only [validMarker_acquiring (by simp [hstate]) hfollows, lockIfMet_follow]
    split <;> simp_all [needleTo_needle, follow_needle]
  | locked => simp [validMarker_locked hstate hfollows, follow_needle, hstate]
  | holdover => simp [validMarker_holdover hstate, needleTo_needle, follow_needle, hstate]
  | treadle =>
    simp only [validMarker_treadle hstate]
    split
    · split <;> simp_all [needleTo_needle, follow_needle]
    · simp_all

/-- Settles O4: a marker that is not valid shows at most a reason, and a valid one that is followed acts by the state. -/
theorem markersDiscipline : Obligations.MarkersDiscipline := by
  refine ⟨fun s port m phase hrails hinvalid => completes_run rfl hrails ?_,
    fun s port m phase hrails hon hjob hsrc hup hmatches hhop hhold hfollows => completes_run rfl hrails ?_⟩
  · obtain ⟨r, hub, he⟩ := markerFlit_invalid hinvalid phase
    simp only [he]
    trivial
  · obtain ⟨hub, he⟩ := markerFlit_valid ⟨hon, hjob, hsrc, hup, hmatches, hhop, hhold⟩ phase
    simp only [he]
    exact validMarker_disciplines (d := { s.dev with counters := { s.dev.counters with hub := hub } }) hfollows port phase

/-! ### Markers within the frame -/

/-- Within the frame of a Needle command, and no context has changed. -/
def Device.NeedleQuiet (d e : Device) : Prop := d.NeedleOnly e ∧ e.contexts = d.contexts

theorem Device.NeedleQuiet.refl (d : Device) : d.NeedleQuiet d := ⟨.refl d, rfl⟩

theorem Device.NeedleQuiet.trans {d e f : Device} (h : d.NeedleQuiet e) (k : e.NeedleQuiet f) : d.NeedleQuiet f :=
  ⟨h.1.trans k.1, k.2.trans h.2⟩

theorem updNeedle_quiet (d : Device) (f : Needle → Needle) : d.NeedleQuiet (d.updNeedle f) := ⟨updNeedle_only d f, rfl⟩

theorem countHub_quiet (d : Device) (e : PmcEvent) (n : Nat) : d.NeedleQuiet (d.countHub e n) :=
  ⟨countHub_only d e n, by simp⟩

theorem needleTo_quiet {d e : Device} (h : d.NeedleQuiet e) {new : NeedleState} (hnew : new ≠ .lost) :
    d.NeedleQuiet (e.needleTo new 0 2) :=
  h.trans ⟨needleTo_only _ _ _ _, needleTo_contexts_of_ne hnew _ _⟩

theorem follow_quiet (d : Device) (port : PortId) (m : Marker) (phase : BitVec 16) :
    d.NeedleQuiet (d.follow port m phase) := ⟨follow_only d port m phase, rfl⟩

theorem lockIfMet_quiet (d : Device) : d.NeedleQuiet d.lockIfMet := by
  unfold Device.lockIfMet
  split
  · exact needleTo_quiet (.refl d) (by decide)
  · exact .refl d

theorem validMarker_quiet (d : Device) (port : PortId) (m : Marker) (phase : BitVec 16) :
    d.NeedleQuiet (d.validMarker port m phase) := by
  have hheard : d.NeedleQuiet (d.heard (m.rank.toNat, m.sourceId)) := updNeedle_quiet _ _
  have hfollow := hheard.trans (follow_quiet _ port m phase)
  unfold Device.validMarker
  simp only []
  split
  · exact needleTo_quiet ((hheard.trans (updNeedle_quiet _ _)).trans (follow_quiet _ _ _ _)) (by decide)
  · split
    · exact hfollow.trans (lockIfMet_quiet _)
    · exact hheard
  · split
    · exact hfollow.trans (lockIfMet_quiet _)
    · exact hheard
  · split
    · exact hfollow
    · exact hheard
  · exact needleTo_quiet hfollow (by decide)
  · split
    · split
      · split
        · exact hheard.trans (updNeedle_quiet _ _)
        · exact needleTo_quiet hfollow (by decide)
      · exact hheard.trans (updNeedle_quiet _ _)
    · exact hheard
  · exact hheard

theorem markerReceive_quiet (d : Device) (port : PortId) (m : Marker) (phase : BitVec 16) :
    d.NeedleQuiet (d.markerReceive port m phase) := by
  unfold Device.markerReceive
  split
  · exact .refl d
  · split
    · exact updNeedle_quiet d _
    · split
      · split
        · exact updNeedle_quiet d _
        · exact .refl d
      · split
        · exact .refl d
        · exact (countHub_quiet d _ _).trans (validMarker_quiet _ _ _ _)

theorem markerFlit_quiet (d : Device) (port : PortId) (m : Marker) (phase : BitVec 16) :
    d.NeedleQuiet (d.markerFlit port m phase) := by
  unfold Device.markerFlit
  split
  · exact (countHub_quiet d _ _).trans (markerReceive_quiet _ _ _ _)
  · exact .refl d

/-! ### Outputs (R40, R41, R905) -/

/-- A marker that is due goes out on every port that sends markers. -/
theorem markerEmit_due {d : Device} (hjob : bitOf d.regs.needleCtl 1 = true) (hruns : d.needle.state.runs = true)
    (hpos : d.atMarkerPosition = true) (hnew : d.needle.emitted ≠ some (d.needle.stitch, d.needle.tick)) :
    d.markerEmit = { d with
      ports := Vector.ofFn (fun p =>
        if d.sendsMarker p then { d.port p with markerOut := some (d.ownMarker d.needle.outSeq[p.val]) } else d.port p)
      needle := { d.needle with
        emitted := some (d.needle.stitch, d.needle.tick)
        outSeq := Vector.ofFn (fun p : Fin 24 =>
          if d.sendsMarker p then d.needle.outSeq[p.val] + 1 else d.needle.outSeq[p.val]) }
      fresh := d.fresh + 1 } := by
  simp [Device.markerEmit, hjob, hruns, hpos, hnew]

theorem markerEmit_not_due {d : Device} (h : ¬ (bitOf d.regs.needleCtl 1 = true ∧ d.needle.state.runs = true ∧
    d.atMarkerPosition = true ∧ d.needle.emitted ≠ some (d.needle.stitch, d.needle.tick))) : d.markerEmit = d := by
  refine if_pos ?_
  by_contra hno
  exact h (by simpa [and_assoc] using hno)

/-- The end of a pulse that began 500 ns ago. -/
def Device.pulseEnds (d : Device) : Device := match d.needle.stitchOut with
  | some t => if 500 ≤ d.now - t then d.updNeedle (fun n => { n with stitchOut := none }) else d
  | none => d

theorem exec_stitchOutEnd (s : State) : exec .stitchOutEnd s = s.run Device.pulseEnds := rfl

theorem pulseEnds_quiet (d : Device) : d.NeedleQuiet d.pulseEnds := by
  unfold Device.pulseEnds
  split
  · split
    · exact updNeedle_quiet d _
    · exact .refl d
  · exact .refl d

/-- Every command of the Needle but MARKER_EMIT is a change of the device within the frame. -/
theorem needle_command {c : Instr}
    (hc : c ∈ [Instr.election, .takeover, .holdoverEntry, .holdoverLimit, .lockTimeout, .reacquireTimeout,
        .needleCounterFault, .stitchOutEnd] ∨
      (∃ v, c = .needleEnable v) ∨ (∃ v, c = .needleDisable v) ∨ (∃ p m f, c = .markerReceive p m f)) :
    ∃ f : Device → Device, (∀ s, exec c s = s.run f) ∧ ∀ d : Device, d.NeedleStep (f d) := by
  simp only [List.mem_cons, List.not_mem_nil, or_false] at hc
  obtain (rfl | rfl | rfl | rfl | rfl | rfl | rfl | rfl) | ⟨v, rfl⟩ | ⟨v, rfl⟩ | ⟨p, m, f, rfl⟩ := hc
  · exact ⟨_, fun _ => rfl, election_step⟩
  · exact ⟨_, fun _ => rfl, takeover_step⟩
  · exact ⟨_, fun _ => rfl, holdoverEntry_step⟩
  · exact ⟨_, fun _ => rfl, fun d => (holdoverLimit_mayLose d).step⟩
  · exact ⟨_, fun _ => rfl, fun d => (lockTimeout_mayLose d).step⟩
  · exact ⟨_, fun _ => rfl, fun d => (reacquireTimeout_mayLose d).step⟩
  · exact ⟨_, fun _ => rfl, fun d => (counterFault_mayLose d).step⟩
  · exact ⟨_, exec_stitchOutEnd, fun d => (pulseEnds_quiet d).1.step (pulseEnds_quiet d).2⟩
  · exact ⟨_, fun _ => rfl, fun d => needleEnable_step d v⟩
  · exact ⟨_, fun _ => rfl, fun d => needleDisable_step d v⟩
  · exact ⟨_, fun _ => rfl, fun d => (markerFlit_quiet d p m f).1.step (markerFlit_quiet d p m f).2⟩

/-- Settles O7: a marker that is due goes out once, a pulse ends after 500 ns, and every other command keeps the frame. -/
theorem needleOutputsAndFrame : Obligations.NeedleOutputsAndFrame := by
  refine ⟨fun s hrails => ⟨fun hdue => completes_run rfl hrails ?_, fun hdue => ?_⟩, fun s b hrails hout htime => ?_,
    fun c s t hc hexec => ?_⟩
  · obtain ⟨hjob, hruns, hpos, hnew⟩ := hdue
    simp only [markerEmit_due hjob hruns hpos hnew]
    refine ⟨trivial, fun p => ?_⟩
    by_cases hsend : bitOf s.dev.regs.needleOut p.val = true ∧ (s.dev.port p).state = .up
    · have hsends : s.dev.sendsMarker p = true := by simp [Device.sendsMarker, hsend]
      rw [if_pos hsend]
      exact ⟨s.dev.ownMarker s.dev.needle.outSeq[p.val], by simp [Device.port, hsends], rfl, rfl, rfl, rfl, rfl,
        by simp [Device.ownMarker], by simp [hsends]⟩
    · have hquiet : s.dev.sendsMarker p = false := by simpa [Device.sendsMarker] using hsend
      rw [if_neg hsend]
      simp [Device.port, hquiet]
  · have hexec : exec .markerEmit s = .next { s with dev := s.dev.markerEmit } := run_dev hrails _
    rw [hexec, markerEmit_not_due hdue]
  · have hends : s.dev.pulseEnds = s.dev.updNeedle (fun n => { n with stitchOut := none }) := by
      simp [Device.pulseEnds, hout, htime]
    rw [exec_stitchOutEnd, run_dev hrails, hends]
    rfl
  · obtain ⟨f, hrun, hstep⟩ := needle_command hc
    rw [hrun] at hexec
    obtain rfl | rfl := run_cases hexec
    · exact ⟨.inl rfl, rfl⟩
    · obtain ⟨hctx, honly⟩ := hstep s.dev
      exact ⟨hctx, congrArg (fun e => { s with dev := e }) honly.eq⟩

end Sys2Proof.Machine
end

section
/-! The module's reset pin and trips, the performance counters, and the enable of a panel. -/

namespace Sys2Proof.Machine

/-! ### RESET_N and trips (R650, R742, R743, R901) -/

@[simp] theorem keepService_dev (s : State) : s.keepService.dev = s.dev := by
  unfold State.keepService
  split <;> rfl

theorem warmReset_on {s : State} (h : s.pins.railsOn = true) (r : ErrRec) (quiet viaLink zeroised same : Bool) :
    s.warmReset r quiet viaLink zeroised same =
      (s.onDev (fun d => d.warmReset r quiet viaLink zeroised same)).keepService := by
  simp [State.warmReset, h]

/-- A cold reset of a powered package: the device goes down, and the rails stay on while RESET_N is high. -/
theorem coldReset_on {s : State} (h : s.pins.railsOn = true) (cause : Code) (r : Option ErrRec) :
    (s.coldReset cause r).dev = s.dev.countReset.coldDown cause r ∧
      (s.coldReset cause r).pins = { s.pins with railsOn := s.pins.resetN, pwrGood := s.pins.resetN } := by
  simp [State.coldReset, h, keepService_pins]

/-- RESET_N low on a powered package that has been booted is a cold reset. -/
theorem exec_resetNAssert_booted {s : State} (hen : s.pins.pwrEn = true) (hrails : s.pins.railsOn = true)
    (hbooted : s.dev.thimble.cold = false) :
    exec .resetNAssert s =
      .next (State.coldReset { s with pins := { s.pins with resetN := false, sensorWait := false } } 0 none) := by
  refine congrArg Host.Outcome.next ?_
  simp [State.resetNAssert, hen, hrails, hbooted]

/-- A trip of a powered package. -/
theorem trip_on {s : State} (h : s.pins.railsOn = true) (cause : Code) (down : Bool) :
    (s.trip cause down).pins = { s.pins with railsOn := false, pwrGood := false, thermtrip := true } ∧
      (s.trip cause down).dev.reset.trip = some cause ∧ (s.trip cause down).dev.reset.lastCause = cause := by
  simp [State.trip, h, keepService_pins, Device.powerReason, Device.afterReset]

theorem currentTrip_on {s : State} (h : s.pins.railsOn = true) :
    s.currentTrip = { s.trip 0x070C false with pins := { (s.trip 0x070C false).pins with inputSwitch := false } } := by
  simp [State.currentTrip, h]

/-- A sample of a powered package trips it when it is too hot, and else changes the device and COOL alone. -/
theorem tempSample_on {s : State} (hagree : s.PinsAgree) (h : s.pins.railsOn = true) (dies : Vector (BitVec 8) 4)
    (hub : BitVec 8) (stks : Vector (BitVec 8) 32) :
    s.tempSample dies hub stks =
      let read := s.dev.keepTemps dies hub stks
      let u : State := { s with dev := read, pins := { s.pins with cool := read.power.allCool } }
      if read.power.tooHot then u.trip 0x070B true else u.onDev Device.judgeTemps := by
  have hswitch : s.pins.inputSwitch = true := (hagree.1 h).1
  simp [State.tempSample, State.judgeSample, State.keepSample, hswitch, h]

/-- Settles O13: a cold reset by RESET_N, and a trip by a sample or by the current. -/
theorem resetPinAndTrips : Obligations.ResetPinAndTrips := by
  refine ⟨fun s => ⟨fun hen hrails hbooted => ⟨_, exec_resetNAssert_booted hen hrails hbooted, ?_⟩,
    exec_resetNAssert_disabled⟩, fun s dies hub stks hagree hrails => ⟨fun hhot => ⟨_, rfl, ?_⟩,
    fun hcool => ⟨_, rfl, ?_⟩, ⟨_, rfl, ?_⟩⟩⟩
  · obtain ⟨hdev, hpins⟩ :=
      coldReset_on (s := { s with pins := { s.pins with resetN := false, sensorWait := false } }) hrails 0 none
    rw [hdev, hpins]
    exact ⟨rfl, rfl, rfl, rfl⟩
  · rw [tempSample_on hagree hrails]
    simp only [hhot, if_true]
    obtain ⟨hpins, htrip, hcause⟩ := trip_on
      (s := { s with dev := s.dev.keepTemps dies hub stks
                     pins := { s.pins with cool := (s.dev.keepTemps dies hub stks).power.allCool } }) hrails 0x070B true
    exact ⟨by rw [hpins], by rw [hpins], htrip, hcause⟩
  · rw [tempSample_on hagree hrails]
    simp [hcool]
  · obtain ⟨hpins, htrip, hcause⟩ := trip_on hrails 0x070C false
    rw [currentTrip_on hrails]
    exact ⟨congrArg ModulePins.railsOn hpins, congrArg ModulePins.thermtrip hpins, rfl, htrip, hcause⟩

/-! ### Latched reads (R834, R878) -/

theorem regPlace_hub {o : Nat} (h : o < 0xB0000) : regPlace o = .hub (o / 0x10000) (o % 0x10000) := if_pos h

/-- Above the panels' blocks lie the ports' blocks and nothing else. -/
theorem regPlace_above_panels {o : Nat} (h : 0x2000000 ≤ o) :
    (∃ n off, regPlace o = .port n off) ∨ regPlace o = .reserved := by
  unfold regPlace
  rw [if_neg (by omega), if_neg (by simp only [Bool.and_eq_true, decide_eq_true_eq]; omega)]
  split
  · exact .inl ⟨_, _, rfl⟩
  · exact .inr rfl

/-- A read has an effect on counters only in the hub's and the panels' counter blocks. -/
theorem readEffect_of_plain {d : Device} {o : Nat} (h : o < 0xA0000 ∨ 0x2000000 ≤ o) : d.readEffect o = d := by
  unfold Device.readEffect
  obtain h | h := h
  · have hblock : o / 0x10000 ≠ 10 := by omega
    simp [regPlace_hub (show o < 0xB0000 by omega), hblock]
  · obtain ⟨n, off, hplace⟩ | hplace := regPlace_above_panels h <;> simp [hplace]

/-- A read of a low half answers it and latches the high half. -/
theorem read32_low {s : State} {o : Nat} (ho : o % 8 = 0) :
    s.read32 o = (s.onDev (fun d => { d.readEffect o with
      latches := (o, ((s.regValue o) >>> 32).setWidth 32) :: d.latches.filter (fun l => l.1 != o) }),
      (s.regValue o).setWidth 32) := by
  have hreg : o / 8 * 8 = o := by omega
  simp [State.read32, ho, hreg]

/-- A read of a latched high half answers what was latched and drops the latch. -/
theorem read32_high {s : State} {o : Nat} {v : BitVec 32} (ho : o % 8 = 0)
    (hlatch : s.dev.latches.find? (fun l => l.1 = o) = some (o, v)) :
    s.read32 (o + 4) = (s.onDev (fun d => { d with latches := d.latches.filter (fun l => l.1 != o) }), v) := by
  have hreg : (o + 4) / 8 * 8 = o := by omega
  have hhigh : (o + 4) % 8 ≠ 0 := by omega
  simp [State.read32, hhigh, hreg, hlatch]

/-! ### Chained counters (R834) -/

/-- Counting changes no counter's selector and no latch. -/
theorem countAll_latched {k : Nat} (cs : Vector PmcCounter k) (e : PmcEvent) (n i : Nat) (hi : i < k) :
    (countAll cs e n)[i].latched = cs[i].latched := by
  unfold countAll
  split
  · rfl
  · simp only [Vector.getElem_ofFn]
    repeat' split
    all_goals rfl

/-- A latched counter of the hub reads as its latch, whatever is counted. -/
theorem pmcValue_of_latched {d : Device} {n : Nat} (hn : n < 32) {v : BitVec 64}
    (h : d.counters.hub[n].latched = some v) (e : PmcEvent) (k : Nat) : (d.countHub e k).pmcValue .hub n = v := by
  have hkeep : (d.countHub e k).counters.hub[n].latched = some v := by
    unfold Device.countHub
    split
    · exact h
    · exact (countAll_latched _ _ _ _ _).trans h
  simp [Device.pmcValue, Device.pmcList, hn, hkeep]

/-- A read of the counter below latches a chained counter of the hub. -/
theorem latchChain_hub {d : Device} {n : Nat} (hn : n < 32) (hodd : n % 2 = 1)
    (hchained : bitOf d.counters.hub[n].sel 62 = true) :
    d.latchChain .hub (n - 1) = { d with counters := { d.counters with
      hub := d.counters.hub.set n { d.counters.hub[n] with latched := some (BitVec.ofNat 64 d.counters.hub[n].word) } } } := by
  have hnext : n - 1 + 1 = n := by omega
  simp [Device.latchChain, Device.chained, hnext, hodd, Device.pmcList, hn, hchained, Device.updPmc, Device.updCounters]

/-! ### FREEZE and CLEAR (R837, R873) -/

theorem countHub_frozen {d : Device} (h : d.frozen = true) (e : PmcEvent) (n : Nat) : d.countHub e n = d := if_pos h

theorem count_frozen {d : Device} {p : PanelId} (h : d.frozen = true ∨ bitOf (d.panel p).pmcCtl 0 = true) (e : PmcEvent)
    (n : Nat) : d.count p e n = d := if_pos (by simpa using h)

/-- The written FREEZE bit reads back from PMC_CTL. -/
theorem freeze_of_write (old : BitVec 64) (v : BitVec 32) :
    bitOf (mergeBits old (v.setWidth 64) (0xFFFFFFFF &&& 1)) 0 = v.getLsbD 0 := by
  simp [bitOf_mergeBits]

/-- The CLEAR bit of a 4-byte write. -/
theorem clear_of_write (v : BitVec 32) : bitOf (v.setWidth 64 &&& 0xFFFFFFFF) 1 = v.getLsbD 1 := by
  simp [bitOf]

/-- HUB.PMC_CTL after a 4-byte write. -/
def Device.withFreeze (d : Device) (v : BitVec 32) : Device :=
  { d with regs := { d.regs with pmcCtl := mergeBits d.regs.pmcCtl (v.setWidth 64) (0xFFFFFFFF &&& 1) } }

/-- Every counter of the module at 0. -/
def Device.clearCounters (d : Device) : Device :=
  (d.updCounters (fun k => { k with hub := k.hub.map PmcCounter.cleared })).mapPanels
    (fun _ q => { q with pmc := q.pmc.map PmcCounter.cleared })

theorem withFreeze_frozen (d : Device) (v : BitVec 32) : (d.withFreeze v).frozen = v.getLsbD 0 := freeze_of_write _ _

theorem clearCounters_frozen (d : Device) : d.clearCounters.frozen = d.frozen := rfl

theorem clearCounters_pmc (d : Device) (p : PanelId) {m : Nat} (hm : m < 64) :
    (d.clearCounters.panel p).pmc[m] = (d.panel p).pmc[m].cleared := by
  rw [show d.clearCounters.panel p = _ from mapPanels_panel _ _ _]
  exact Vector.getElem_map _ _

theorem pmcCtlWrite_hub (d : Device) (v : BitVec 32) :
    d.pmcCtlWrite .hub (v.setWidth 64) 0xFFFFFFFF =
      if v.getLsbD 1 then (d.withFreeze v).clearCounters else d.withFreeze v := by
  simp only [Device.pmcCtlWrite, clear_of_write]
  split <;> rfl

theorem pmcCtlWrite_panel (d : Device) (p : PanelId) (v : BitVec 32) :
    d.pmcCtlWrite (.panel p) (v.setWidth 64) 0xFFFFFFFF = d.updPanel p (fun q => { q with
      pmcCtl := mergeBits q.pmcCtl (v.setWidth 64) (0xFFFFFFFF &&& 1)
      pmc := if v.getLsbD 1 then q.pmc.map PmcCounter.cleared else q.pmc }) := by
  simp only [Device.pmcCtlWrite, clear_of_write]
  split <;> rfl

/-- A change of one panel changes nothing else. -/
theorem updPanel_onlyPanel (d : Device) (p : PanelId) (f : Panel → Panel) : d.OnlyPanel (d.updPanel p f) p :=
  ⟨rfl, fun _ h => updPanel_other d h f⟩

/-- Settles O14: latches hold until they are read, and FREEZE and CLEAR act on every counter of their scope. -/
theorem counterReadsAndControls : Obligations.CounterReadsAndControls := by
  refine ⟨fun s o hrails ho hplain => ⟨_, rfl, ?_⟩, fun s n hn hrails hodd hchained => completes_run rfl hrails ?_,
    fun s v p c hrails => ⟨fun hc => ?_, fun hc => ?_⟩⟩
  · simp only [hrails, ho, Bool.and_self, decide_true, if_true, read32_low, onDev_dev, readEffect_of_plain hplain]
    refine ⟨rfl, trivial, fun u hu => ?_⟩
    rw [read32_high ho (hu ▸ List.find?_cons_of_pos (by simp))]
    exact ⟨rfl, by simp [hu]⟩
  · simp only [hodd, if_true, latchChain_hub hn hodd hchained]
    exact ⟨trivial, pmcValue_of_latched hn (by simp), fun m hm hne => Vector.getElem_set_ne _ _ (Ne.symm hne)⟩
  · have hrun : exec c s = s.run (fun d => d.pmcCtlWrite .hub (v.setWidth 64) 0xFFFFFFFF) := by
      obtain rfl | rfl := hc <;> rfl
    refine completes_run hrun hrails ?_
    simp only [pmcCtlWrite_hub]
    obtain hclear | hclear := Bool.eq_false_or_eq_true (v.getLsbD 1)
    · simp only [hclear, if_true]
      have hbit := (clearCounters_frozen _).trans (withFreeze_frozen s.dev v)
      exact ⟨hbit, fun hon e k q => ⟨countHub_frozen (hbit.trans hon) e k, count_frozen (.inl (hbit.trans hon)) e k⟩,
        fun _ => ⟨fun m hm => Vector.getElem_map _ _, fun q m hm => clearCounters_pmc _ q hm⟩,
        fun h => absurd h (by decide)⟩
    · simp only [hclear, Bool.false_eq_true, if_false]
      have hbit := withFreeze_frozen s.dev v
      exact ⟨hbit, fun hon e k q => ⟨countHub_frozen (hbit.trans hon) e k, count_frozen (.inl (hbit.trans hon)) e k⟩,
        fun h => absurd h (by decide), fun _ => rfl⟩
  · have hrun : exec c s = s.run (fun d => d.pmcCtlWrite (.panel p) (v.setWidth 64) 0xFFFFFFFF) := by
      obtain rfl | rfl := hc <;> rfl
    refine completes_run hrun hrails ?_
    simp only [pmcCtlWrite_panel, updPanel_panel]
    refine ⟨updPanel_onlyPanel _ _ _, freeze_of_write _ _, fun hfreeze e k => ?_, fun hclear m hm => ?_,
      fun hclear => if_neg (by simp only [hclear]; decide)⟩
    · exact count_frozen (.inr (by rw [updPanel_panel, freeze_of_write, hfreeze])) e k
    · simp only [hclear, if_true]
      exact Vector.getElem_map _ _

/-! ### The enable of a panel (R94 to R98) -/

/-- A panel that has passed certification once and was then certified again by CERT_RUN, until a disable cut that short:
CERT_DONE still shows the earlier pass. -/
def recertifiedPanel : Panel := { memCtl := 0x203, array := { certDone := true, chain := true } }

/-- A module in service with that panel as its panel 0. -/
def recertified : State := { State.reset with dev := { panels := (Vector.replicate 8 {}).set 0 recertifiedPanel } }

/-- Its PANEL_ENABLE passes the checks. -/
theorem recertified_passes :
    recertified.dev.reset.escalation = .inService ∧ (recertified.dev.panel 0).memOn = true ∧
      fieldOf (recertified.dev.panel 0).arrayCtl 27 16 = 4000 ∧ fieldOf (recertified.dev.panel 0).schedCfg 6 0 = 8 := by
  decide +kernel

/-- It starts certification again, in chain mode. -/
theorem recertified_chains : ((recertified.dev.panelCtlWrite 0 1 0xFFFFFFFF).panel 0).array.chain = true := by
  decide +kernel

/-- Refutes O16: after an enable the array is in chain mode while it is not certified, and CERT_DONE, which shows any pass
since the panel's reset, does not say that it is (R94, R97; log 12). -/
theorem not_panelEnableAndDisable : ¬ Obligations.PanelEnableAndDisable := by
  unfold Obligations.PanelEnableAndDisable
  intro h
  obtain ⟨t, hexec, -, -, hpanel⟩ := h.1 recertified 0 1 rfl (by decide +kernel) (by decide)
  have hnext : exec (.panelEnable 0 1) recertified =
      .next { recertified with dev := recertified.dev.panelCtlWrite 0 1 0xFFFFFFFF } := run_dev rfl _
  obtain rfl := Host.Outcome.next.inj (hnext.symm.trans hexec)
  obtain ⟨hservice, hmem, htack, hquantum⟩ := recertified_passes
  simp only [hservice, hmem, htack, hquantum, ne_eq, not_true_eq_false, Bool.true_eq_false, if_false] at hpanel
  rw [if_neg (by decide), if_neg (by decide)] at hpanel
  obtain ⟨-, -, -, -, hchain⟩ := hpanel
  exact absurd (recertified_chains.symm.trans hchain) (by decide +kernel)

end Sys2Proof.Machine
end

section
/-! The control operations: an opened Gusset entry whose home cannot be written. -/

namespace Sys2Proof.Machine

/-- A module with one context, whose map has one entry. -/
def oneFrame : Device := { contexts := [windowContext] }

/-- GUSSET_OPEN without LOAD of an entry of one row and one column with its home at 2^40, beyond the context's map. -/
def unmappedOpen : Desc :=
  { seq := 0, raw := BitVec.ofNat 1024 (2 ^ (8 * 36) + 2 ^ (8 * 40) + 32 * 2 ^ (8 * 44) + 2 ^ 40 * 2 ^ (8 * 48)) }

/-- Its element is set to +0 at its home, and that write is refused. -/
theorem unmappedOpen_fails : (oneFrame.gussetOpen { ctx := 1, cls := .slate } unmappedOpen).2.isOk = false := by
  decide +kernel

/-- Refutes O17: of GUSSET_OPEN's effect the statement asks for SUCCESS whatever its home is. The effect sets every element
to +0 (R266), those beyond the front lines at the entry's home, and such a write fails where the home is not mapped; the
checks that would have refused the descriptor before (`Device.gussetOpenCheck`) are no hypothesis. -/
theorem not_controlOperations : ¬ Obligations.ControlOperations := by
  unfold Obligations.ControlOperations
  intro h
  obtain ⟨-, -, -, -, -, -, -, hopen, -⟩ :=
    h.2.2 oneFrame 1 windowContext unmappedOpen { ctx := 1, cls := .slate } rfl rfl
  obtain ⟨hok, -⟩ := hopen (by decide +kernel)
  have hfails := unmappedOpen_fails
  rw [hok] at hfails
  exact Bool.noConfusion hfails

end Sys2Proof.Machine
end

section
/-! A ring with one descriptor that may run: its row finds it, and its tacks run to their end. -/

namespace Sys2Proof.Machine

/-! ### The ring's one descriptor -/

/-- A context that is found by its identifier has it. -/
theorem ctx?_id {d : Device} {ctx : Code} {c : Context} (h : d.ctx? ctx = some c) : c.id = ctx := by
  simpa using List.find?_some h

section
variable {d : Device} {ctx : Code} {ring : RingId} {o : Op} {c : Context} {r : Ring} {x : Desc}

theorem Device.Lone.ring? (h : d.Lone ctx ring o c r x) : d.ring? ctx ring = some r := by
  rw [Device.ring?, h.context]
  exact h.ring

theorem Device.Lone.desc? (h : d.Lone ctx ring o c r x) : d.desc? ctx ring x.seq = some x := by
  simp [Device.desc?, h.ring?, h.queue]

theorem Device.Lone.notUnderWay (h : d.Lone ctx ring o c r x) : x.underWay = false := by
  simp [Desc.underWay, h.notBegun]

theorem Device.Lone.notFinished (h : d.Lone ctx ring o c r x) : x.isFinished = false := by
  simp [Desc.isFinished, h.checked]

/-- Nothing is left to check: the descriptor has passed its checks and has no start position. -/
theorem Device.Lone.bringUp (h : d.Lone ctx ring o c r x) : d.bringUp ctx ring = d := by
  refine List.foldl_fixed' (fun i => ?_) _
  have hstart : d.startRefusal x = none := by simp [Device.startRefusal, h.noStart]
  simp only [h.context, h.ring?, h.queue]
  cases i with
  | zero => simp [h.checked, hstart]
  | succ i => simp

/-- The engine of its operation may run it. -/
theorem Device.Lone.nextDesc? (h : d.Lone ctx ring o c r x) : d.nextDesc? c ring (fun q => q = o) = some x := by
  have hoverrun : r.overrun = false := by simp [Ring.overrun, h.queue, h.checked]
  have hfirst : List.range 4 = 0 :: [1, 2, 3] := rfl
  simp [Device.nextDesc?, h.ring, h.runs, hoverrun, hfirst, h.queue, h.operation, h.checked, h.noStart,
    Device.mayBegin]

end

/-! ### Operations with tacks (log 133) -/

/-- The array, the Seam and the DMA engine of a panel have nothing under way, and no tack waits for its replay. -/
structure ArrayState.Free (a : ArrayState) : Prop where
  run : a.run = none
  drain : a.drain = none
  dma : a.dma = none
  failedTack : a.failedTack = none
  failedDma : a.failedDma = none

theorem commitArray_free {d : Device} {p : PanelId} (h : (d.panel p).array.Free) : d.commitArray p = d := by
  simp [Device.commitArray, h.run, h.drain]

theorem commitDma_free {d : Device} {p : PanelId} (h : (d.panel p).array.Free) : d.commitDma p = d := by
  simp [Device.commitDma, h.dma]

/-- An engine with nothing under way has nothing to clear. -/
theorem clearEngine_free {d : Device} {p : PanelId} (h : (d.panel p).array.Free) (o : Op) : d.clearEngine p o = d := by
  unfold Device.clearEngine
  split
  · simp [h.dma, h.failedDma, commitDma_free h]
  · simp [commitArray_free h, h.failedTack]

/-- The row of an operation with tacks runs them all, on an engine with nothing under way. -/
theorem runOp_tacks {d : Device} {ctx : Code} {ring : RingId} {o : Op} {c : Context} {r : Ring} {x : Desc}
    (h : d.Lone ctx ring o c r x) (hfree : (d.panel c.panel).array.Free) (ho : (o.onArray || o.onDma) = true) :
    d.runOp ctx ring o = d.runTacks (2 ^ 40) ctx ring x.seq := by
  simp [Device.runOp, h.bringUp, h.context, h.served, h.nextDesc?, ho, clearEngine_free hfree, h.desc?, h.notFinished]

/-- Tacks that begin and commit in turn are what running a descriptor whole does. -/
theorem runTacks_of_tacks {ctx : Code} {ring : RingId} {seq n m : Nat} {d e : Device} (h : d.Tacks ctx ring seq n e)
    (hm : n < m) : d.runTacks m ctx ring seq = e := by
  induction h generalizing m with
  | done d y hdesc hfinished =>
    obtain ⟨k, rfl⟩ : ∃ k, m = k + 1 := ⟨m - 1, by omega⟩
    simp [Device.runTacks, hdesc, hfinished]
  | array n d e c y cap t hctx hdesc hunfinished hcap hrun hmine _ ih =>
    obtain ⟨k, rfl⟩ : ∃ k, m = k + 1 := ⟨m - 1, by omega⟩
    have hopen : (d.desc? ctx ring seq).filter (fun x => !x.isFinished) = some y := by simp [hdesc, hunfinished]
    simp only [Device.runTacks, hctx, hopen, hcap]
    rw [if_pos (by simp [hrun, hmine]), ih (by omega)]
  | dma n d e c y cap t hctx hdesc hunfinished hcap hrun hdma hmine _ ih =>
    obtain ⟨k, rfl⟩ : ∃ k, m = k + 1 := ⟨m - 1, by omega⟩
    have hopen : (d.desc? ctx ring seq).filter (fun x => !x.isFinished) = some y := by simp [hdesc, hunfinished]
    simp only [Device.runTacks, hctx, hopen, hcap]
    rw [if_neg (by simp [hrun]), if_pos (by simp [hdma, hmine]), ih (by omega)]

/-- Settles O18: the row runs the descriptor's tacks, and they are those that begin and commit in turn. -/
theorem tackOperationsRun : Obligations.TackOperationsRun := by
  intro s ctx ring o c r x cmd hrails hlone hrun hdrain hdma hfailed hfailedDma hcmd
  have hfree : (s.dev.panel c.panel).array.Free := ⟨hrun, hdrain, hdma, hfailed, hfailedDma⟩
  obtain ⟨hexec, htacks⟩ : exec cmd s = s.run (fun d => d.runOp ctx ring o) ∧ (o.onArray || o.onDma) = true := by
    rcases hcmd with ⟨rfl, rfl⟩ | ⟨rfl, rfl⟩ | ⟨rfl, rfl⟩ | ⟨rfl, rfl⟩ | ⟨rfl, rfl⟩ <;> exact ⟨rfl, rfl⟩
  have hwhole : exec cmd s = .next { s with dev := s.dev.runTacks (2 ^ 40) ctx ring x.seq } := by
    rw [hexec, run_dev hrails, runOp_tacks hlone hfree htacks]
  exact ⟨hwhole, fun n e hn h => hwhole.trans (by rw [runTacks_of_tacks h hn])⟩

end Sys2Proof.Machine
end

section
/-! How the operations without tacks begin: the descriptor of a ring's row begins, and its effect is made. -/

namespace Sys2Proof.Machine

/-! ### Changes of one context, ring or descriptor -/

/-- A change of a context is known by what it does to that context. -/
theorem updCtx_congr {d : Device} {id : Code} {f g : Context → Context} (h : ∀ c, d.ctx? id = some c → f c = g c) :
    d.updCtx id f = d.updCtx id g := by
  have hlist (l : List Context) (hl : ∀ c, l.find? (fun c => c.id = id) = some c → f c = g c) :
      updCtxIn id f l = updCtxIn id g l := by
    induction l with
    | nil => rfl
    | cons c cs ih =>
      by_cases hc : c.id = id
      · simp [updCtxIn, hc, hl c (by simp [hc])]
      · simp only [updCtxIn, hc, if_false]
        rw [ih (fun k hk => hl k (by simpa [hc] using hk))]
  exact congrArg (fun l => { d with contexts := l }) (hlist d.contexts h)

/-- A change of a ring is known by what it does to that ring. -/
theorem updRing_congr {d : Device} {id : Code} {n : RingId} {f g : Ring → Ring} (h : ∀ r, d.ring? id n = some r → f r = g r) :
    d.updRing id n f = d.updRing id n g := by
  refine updCtx_congr (fun c hc => ?_)
  have hmodify : c.rings.modify n.val f = c.rings.modify n.val g := by
    refine List.ext_getElem? (fun i => ?_)
    rw [List.getElem?_modify, List.getElem?_modify]
    by_cases hi : n.val = i
    · subst hi
      cases hr : c.rings[n.val]? with
      | none => rfl
      | some r => simp [h r (by simp [Device.ring?, hc, Context.ring?, hr])]
    · simp [hi]
  rw [hmodify]

/-- A change of a descriptor is known by what it does to the descriptors with its number. -/
theorem updDesc_congr {d : Device} {id : Code} {n : RingId} {seq : Nat} {f g : Desc → Desc}
    (h : ∀ r, d.ring? id n = some r → ∀ x ∈ r.queue, x.seq = seq → f x = g x) :
    d.updDesc id n seq f = d.updDesc id n seq g := by
  refine updRing_congr (fun r hr => ?_)
  have hqueue : r.queue.map (fun x => if x.seq = seq then f x else x) = r.queue.map (fun x => if x.seq = seq then g x else x) :=
    List.map_congr_left (fun x hx => by
      split
      · rename_i hseq
        exact h r hr x hx hseq
      · rfl)
  rw [hqueue]

/-- A descriptor after it has been changed. -/
theorem updDesc_desc {d : Device} {id : Code} {n : RingId} {seq : Nat} {f : Desc → Desc} (hf : ∀ x, (f x).seq = x.seq) :
    (d.updDesc id n seq f).desc? id n seq = (d.desc? id n seq).map f := by
  have hlist (l : List Desc) : (l.map (fun x => if x.seq = seq then f x else x)).find? (fun x => x.seq = seq) =
      (l.find? (fun x => x.seq = seq)).map f := by
    induction l with
    | nil => rfl
    | cons x xs ih =>
      by_cases hx : x.seq = seq
      · simp [hx, hf]
      · simpa [hx] using ih
  cases hring : d.ring? id n with
  | none => simp [Device.desc?, Device.updDesc, hring]
  | some r => simpa [Device.desc?, Device.updDesc, hring] using hlist r.queue

/-- A status without a record of its own: the descriptor alone has changed. -/
theorem finish_plain {status : Code} (h : needsRecord status = false) (d : Device) (id : Code) (n : RingId) (x : Desc)
    (addr : Nat) :
    d.finish id n x status addr none = d.updDesc id n x.seq (fun y => { y with phase := .finished status, ticket := none }) := by
  simp [Device.finish, h]

/-! ### Beginning (R580) -/

section
variable {d : Device} {ctx : Code} {ring : RingId} {o : Op} {c : Context} {r : Ring} {x : Desc}

/-- The descriptor begins, and nothing else changes. -/
theorem Device.Lone.startDesc (h : d.Lone ctx ring o c r x) : d.startDesc c ring x = (d.begun ctx ring c x, true) := by
  have hid := ctx?_id h.context
  have hbegun : d.updDesc ctx ring x.seq (fun y => { y with
      begun := true, phase := .running, work := {}, inner := none, flags := y.flags
      views := c.sets.map (fun s => (s.index, s.active)), keyEpoch := c.epoch }) = d.begun ctx ring c x := by
    refine updDesc_congr (fun q hq y hy _ => ?_)
    obtain rfl : r = q := Option.some.inj (h.ring?.symm.trans hq)
    obtain rfl : y = x := by simpa [h.queue] using hy
    rfl
  simp [Device.startDesc, h.noStart, Device.dropFill, h.noFill, hid, ← hbegun]

/-- The begun descriptor stands in its ring. -/
theorem Device.Lone.begun_desc? (h : d.Lone ctx ring o c r x) :
    (d.begun ctx ring c x).desc? ctx ring x.seq = some (x.started c) := by
  have hsame : d.begun ctx ring c x = d.updDesc ctx ring x.seq (fun y => { x.started c with seq := y.seq }) :=
    updDesc_congr (fun q hq y hy _ => by
      obtain rfl : r = q := Option.some.inj (h.ring?.symm.trans hq)
      obtain rfl : y = x := by simpa [h.queue] using hy
      rfl)
  rw [hsame]
  refine (updDesc_desc (f := fun y => { x.started c with seq := y.seq }) (fun _ => rfl)).trans ?_
  rw [h.desc?]
  rfl

/-- Beginning changes of the context its rings alone. -/
theorem Device.Lone.begun_ctx? (h : d.Lone ctx ring o c r x) :
    ∃ rings, (d.begun ctx ring c x).ctx? ctx = some { c with rings := rings } := by
  simp [Device.begun, Device.updDesc, h.context]

/-- The row of an operation without tacks makes the effect of the begun descriptor. -/
theorem runOp_effect (h : d.Lone ctx ring o c r x) (ho : (o.onArray || o.onDma) = false) {c' : Context}
    (hc : (d.begun ctx ring c x).ctx? ctx = some c') :
    d.runOp ctx ring o = (d.begun ctx ring c x).runEffect c' ring (x.started c) o false := by
  simp [Device.runOp, h.bringUp, h.context, h.served, h.nextDesc?, ho, h.notUnderWay, h.startDesc, h.begun_desc?, hc]

end

/-! ### Collectives, relays, Fittings and step commits -/

/-- A flooded packet enters queues of ports and is noted; a packet that has been flooded is not flooded again. -/
theorem flood_keeps {α : Type} (g : Device → α) (d : Device) (from_ : Option PortId) (job step : BitVec 32) (abort : Bool)
    (body : PktBody) (hport : ∀ (d : Device) n f, g (d.updPort n f) = g d)
    (hnote : ∀ (d : Device) l, g { d with commit := { d.commit with flooded := l } } = g d) :
    g (d.flood from_ job step abort body) = g d := by
  unfold Device.flood
  split
  · rfl
  · simp only []
    refine (foldl_enqueue g (fun d n => ?_) _ _).trans (hnote d _)
    split
    · exact hport _ _ _
    · rfl

/-- An abort is latched, and its flood changes nothing but ports. -/
theorem issueAbort_contexts (d : Device) (t : BitVec 32) (reason : Code) (lost : BitVec 16) :
    (d.issueAbort t reason lost).contexts = d.contexts :=
  flood_keeps (fun d => d.contexts) _ _ _ _ _ _ (fun _ _ _ => rfl) (fun _ _ => rfl)

/-- With no step in progress the abort names the step that was asked for, two stitches ahead. -/
theorem issueAbort_idle {d : Device} (h : d.commit.state = .idle) (t : BitVec 32) (reason : Code) (lost : BitVec 16) :
    (d.issueAbort t reason lost).commit.pendingAbort =
      some ⟨d.jobId, t, BitVec.ofNat 48 (d.needle.stitch + 2), reason, lost⟩ := by
  have hkeep := flood_keeps (fun d => d.commit.pendingAbort) (d.latchAbort ⟨d.jobId, t, BitVec.ofNat 48 (d.needle.stitch + 2), reason, lost⟩)
    none d.jobId t true (.abort ⟨d.jobId, t, BitVec.ofNat 48 (d.needle.stitch + 2), reason, lost⟩) (fun _ _ _ => rfl) (fun _ _ => rfl)
  simpa [Device.issueAbort, h, Device.latchAbort] using hkeep

/-- A context's identifier outlives a change of a ring or descriptor of another device's making. -/
theorem commitLeft_contexts (d : Device) (k : Comm) : (d.commitLeft k).contexts = d.contexts := by
  unfold Device.commitLeft
  split <;> rfl

theorem commitLeft_fabric (d : Device) (k : Comm) : (d.commitLeft k).fabric = d.fabric := by
  unfold Device.commitLeft
  split <;> rfl

/-- Devices with the same contexts have the same descriptors. -/
theorem desc?_of_contexts {d e : Device} (h : e.contexts = d.contexts) (id : Code) (n : RingId) (seq : Nat) :
    e.desc? id n seq = d.desc? id n seq := by
  simp [Device.desc?, Device.ring?, Device.ctx?, h]

/-- A finished descriptor shows its status. -/
theorem finish_phase {d : Device} {id : Code} {n : RingId} {x y : Desc} {status : Code} (hrec : needsRecord status = false)
    (h : d.desc? id n x.seq = some y) :
    ((d.finish id n x status 0 none).desc? id n x.seq).map (fun z => z.phase) = some (.finished status) := by
  have hdesc := updDesc_desc (d := d) (id := id) (n := n) (seq := x.seq)
    (f := fun y => { y with phase := .finished status, ticket := none }) (fun _ => rfl)
  simp [finish_plain hrec, hdesc, h]

/-- What a row of a collective transfer does: the transfer takes its number and goes as far as it can. -/
theorem runBegin_started {d : Device} {c c' : Context} {ring : RingId} {x : Desc} {k : Comm} (hstart : x.startEn = false)
    (hk : c'.comm? (BitVec.ofNat 32 (x.f 36 4)) = some k) :
    d.runBegin c' ring (x.started c) =
      let (n, k') := k.issue (x.started c).issueKey.1 (x.started c).issueKey.2
      let e := d.updComm c'.id k.commId (fun q => { q with issued := k'.issued })
      let e := { e with fabric := { e.fabric with colls := e.fabric.colls ++
        [({ ctx := c'.id, ring := ring, seq := x.seq, commId := k.commId, nth := n, startOk := true } : CollRun)] } }
      (e.settle.replayEarly c'.id k.commId).settle := by
  have hfield : (x.started c).f 36 4 = x.f 36 4 := rfl
  have hnoStart : (x.started c).startEn = false := hstart
  simp only [Device.runBegin, hfield, hk, hnoStart]
  rfl

/-- The begun descriptor is its ring's only one. -/
theorem Device.Lone.begun_ring? {d : Device} {ctx : Code} {ring : RingId} {o : Op} {c : Context} {r : Ring} {x : Desc}
    (h : d.Lone ctx ring o c r x) : (d.begun ctx ring c x).ring? ctx ring = some { r with queue := [x.started c] } := by
  simp [Device.begun, Device.updDesc, h.ring?, h.queue]

/-- A new Fitting waits for its snapshot. -/
theorem fittingRun_waits {d : Device} {ctx : Code} {ring : RingId} {r : Ring} {x : Desc} {l : List FittingRun} {nth : Nat}
    (hring : d.ring? ctx ring = some r) (hqueue : r.queue = [x]) (hx : x.underWay = true) (hop : x.op? = some .fitting)
    (hfittings : d.fabric.fittings = l ++ [({ ctx := ctx, ring := ring, seq := x.seq, nth := nth } : FittingRun)])
    (hnew : l.all (fun f => !(f.ctx = ctx && f.ring = ring && f.seq = x.seq)) = true) : d.fittingRun ctx ring = d := by
  have hunder : d.underWay? ctx ring (fun o => o = .fitting) = some x := by
    simp [Device.underWay?, hring, hqueue, hx, hop]
  have hfind : d.fabric.fittings.find? (fun f => f.ctx = ctx && f.ring = ring && f.seq = x.seq) =
      some { ctx := ctx, ring := ring, seq := x.seq, nth := nth } := by
    rw [hfittings, List.find?_append, List.find?_eq_none.2 (by simpa [imp_iff_not_or, or_assoc] using hnew)]
    simp
  unfold Device.fittingRun
  rw [hunder]
  split
  · rename_i y c hy hc
    obtain rfl : x = y := Option.some.inj hy
    simp [hfind]
  · rfl

/-- A change of a context that keeps its rings. -/
theorem updCtx_ring? {d : Device} {ctx : Code} {f : Context → Context} (hid : ∀ c, (f c).id = c.id)
    (hrings : ∀ c, (f c).rings = c.rings) (n : RingId) : (d.updCtx ctx f).ring? ctx n = d.ring? ctx n := by
  unfold Device.ring?
  rw [updCtx_ctx d ctx hid]
  cases d.ctx? ctx with
  | none => rfl
  | some c => simp [Context.ring?, hrings]

theorem joinBegin_error {d e : Device} {c : Context} {ring : RingId} {x : Desc} {st : Code}
    (h : d.joinCheckTables c ring x = (e, .error st)) : d.joinBegin c ring x = e.failSeq c.id ring x.seq st := by
  simp [Device.joinBegin, h]

/-- A COMM_JOIN whose tables are read joins its record and sends its notices. -/
theorem joinBegin_ok {d e : Device} {c : Context} {ring : RingId} {x : Desc} {table bs : List Byte}
    (h : d.joinCheckTables c ring x = (e, .ok (table, bs))) :
    d.joinBegin c ring x =
      let k : Comm := { x.joinComm ring with
        digest := (Config.sha3 table).setWidth 256
        buckets := (List.range (x.f 74 2)).map (fun i => bucketEntry ((bs.drop (64 * i)).take 64)) }
      ((neighbours k.size k.rank).foldl (fun d q => d.sendRank c k q .indigo (.joinNotice k.notice))
        (e.updCtx c.id (fun q => { q with comms := q.comms ++ [k] }))).joinCheck c.id k.commId := by
  simp [Device.joinBegin, h]

/-- A COMM_LEAVE removes the communicator and what it awaits, and finishes with SUCCESS. -/
theorem leaveComm_leaves {d : Device} {c : Context} {ring : RingId} {x y : Desc} {k : Comm}
    (hk : c.comm? (BitVec.ofNat 32 (x.f 36 4)) = some k) (hdesc : d.desc? c.id ring x.seq = some y) :
    let e := d.leaveComm c ring x
    (∀ q, e.ctx? c.id = some q → ∀ k' ∈ q.comms, k'.commId ≠ k.commId) ∧
      (e.desc? c.id ring x.seq).map (fun z => z.phase) = some (.finished 0) ∧
      ∀ w ∈ e.fabric.outstanding, ¬ (w.ctx = c.id ∧ w.comm = some k.commId) := by
  let u : Device := d.updCtx c.id (fun c => { c with comms := c.comms.filter (fun q => q.commId != k.commId) })
  let left : Device := { u with fabric := { u.fabric with
    outstanding := u.fabric.outstanding.filter (fun o => !(o.ctx = c.id && o.comm = some k.commId)) } }
  have hleft : d.leaveComm c ring x = (left.commitLeft k).finish c.id ring x 0 0 none := by
    simp only [Device.leaveComm, hk]
    rfl
  have hctx : left.ctx? c.id = (d.ctx? c.id).map (fun c => { c with comms := c.comms.filter (fun q => q.commId != k.commId) }) :=
    updCtx_ctx d c.id (fun _ => rfl)
  have hsame : (left.commitLeft k).ctx? c.id = left.ctx? c.id := by rw [Device.ctx?, commitLeft_contexts]; rfl
  have hring : left.ring? c.id ring = d.ring? c.id ring := updCtx_ring? (fun _ => by rfl) (fun _ => by rfl) ring
  have hdescLeft : (left.commitLeft k).desc? c.id ring x.seq = some y := by
    rw [desc?_of_contexts (commitLeft_contexts left k), Device.desc?, hring]
    exact hdesc
  simp only [hleft]
  refine ⟨fun q hq k' hk' => ?_, finish_phase (by decide) hdescLeft, fun w hw => ?_⟩
  · rw [finish_plain (by decide), Device.updDesc, updRing_ctx, hsame, hctx, Option.map_map] at hq
    obtain ⟨c0, -, rfl⟩ := Option.map_eq_some_iff.1 hq
    simpa using (List.mem_filter.1 hk').2
  · rw [finish_plain (by decide)] at hw
    have hout : w ∈ left.fabric.outstanding := by simpa [commitLeft_fabric] using hw
    simpa [imp_iff_not_or] using (List.mem_filter.1 hout).2

/-- Settles O19: the row begins the ring's descriptor and makes its effect. -/
theorem collectiveOperationsBegin : Obligations.CollectiveOperationsBegin := by
  intro s ctx ring o c r x hrails hlone
  obtain rfl : c.id = ctx := ctx?_id hlone.context
  intro d y id c' hc'
  obtain ⟨rings, hbegun⟩ := hlone.begun_ctx?
  obtain rfl : c' = { c with rings := rings } := Option.some.inj (hc'.symm.trans hbegun)
  have heffect (ho : (o.onArray || o.onDma) = false) : s.run (fun e => e.runOp c.id ring o) =
      .next { s with dev := d.runEffect { c with rings := rings } ring y o false } := by
    rw [run_dev hrails, runOp_effect hlone ho hc']
  refine ⟨rfl, rfl, ?_, ?_, ?_, ?_, ?_, ?_, ?_⟩
  · rintro rfl
    exact ⟨heffect rfl, fun e st hfail => joinBegin_error hfail, fun e table bs hread => joinBegin_ok hread⟩
  · rintro rfl k hk
    exact ⟨_, heffect rfl, leaveComm_leaves hk hlone.begun_desc?⟩
  · intro cmd hcmd k hk
    have hcoll : exec cmd s = s.run (fun e => e.runOp c.id ring o) ∧ (o.onArray || o.onDma) = false ∧
        d.runEffect { c with rings := rings } ring y o false = d.runBegin { c with rings := rings } ring y := by
      rcases hcmd with ⟨rfl, rfl⟩ | ⟨rfl, rfl⟩ | ⟨rfl, rfl⟩ | ⟨rfl, rfl⟩ | ⟨rfl, rfl⟩ | ⟨rfl, rfl⟩ <;> exact ⟨rfl, rfl, rfl⟩
    obtain ⟨hexec, ho, hrun⟩ := hcoll
    rw [hexec, heffect ho, hrun]
    exact congrArg (fun e => Host.Outcome.next { s with dev := e }) (runBegin_started hlone.noStart hk)
  · rintro rfl
    exact heffect rfl
  · rintro rfl hnone
    have hop : y.op? = some .fitting := hlone.operation
    refine ⟨fun hplain => (heffect rfl).trans (congrArg (fun e => Host.Outcome.next { s with dev := e }) ?_),
      fun hship k hk => (heffect rfl).trans (congrArg (fun e => Host.Outcome.next { s with dev := e }) ?_)⟩
    · have hbegin : d.fittingBegin { c with rings := rings } ring y = { d with fabric := { d.fabric with fittings :=
          d.fabric.fittings ++ [({ ctx := c.id, ring := ring, seq := x.seq, nth := 0 } : FittingRun)] } } := by
        have hbit : y.bit 34 1 0 = false := hplain
        simp only [Device.fittingBegin, hbit]
        rfl
      simp only [Device.runEffect, hbegin]
      exact fittingRun_waits hlone.begun_ring? rfl rfl hop rfl hnone
    · have hbegin : d.fittingBegin { c with rings := rings } ring y =
          let (n, k') := k.issue .send (x.f 44 4)
          let e := d.updComm c.id (BitVec.ofNat 32 (x.f 40 4)) (fun q => { q with issued := k'.issued })
          { e with fabric := { e.fabric with fittings := e.fabric.fittings ++
            [({ ctx := c.id, ring := ring, seq := x.seq, nth := n } : FittingRun)] } } := by
        have hbit : y.bit 34 1 0 = true := hship
        have hcomm : Context.comm? { c with rings := rings } (BitVec.ofNat 32 (y.f 40 4)) = some k := hk
        simp only [Device.fittingBegin, hbit, hcomm]
        rfl
      simp only [Device.runEffect, hbegin]
      exact fittingRun_waits ((updCtx_ring? (fun _ => by rfl) (fun _ => by rfl) ring).trans hlone.begun_ring?) rfl rfl hop rfl hnone
  · rintro rfl
    exact heffect rfl
  · rintro rfl hidle
    refine ⟨_, heffect rfl, ?_⟩
    have hdesc := (desc?_of_contexts (issueAbort_contexts d (BitVec.ofNat 32 (x.f 124 4)) 0x0A0C 0xFFFF) c.id ring x.seq).trans
      hlone.begun_desc?
    refine ⟨?_, finish_phase (by decide) hdesc⟩
    have hcommit : (d.runEffect { c with rings := rings } ring y .stepAbort false).commit =
        (d.issueAbort (BitVec.ofNat 32 (x.f 124 4)) 0x0A0C 0xFFFF).commit := by
      simp only [Device.runEffect, Device.abortBegin, finish_plain (show needsRecord 0 = false by decide)]
      rfl
    exact (congrArg (fun k => k.pendingAbort) hcommit).trans (issueAbort_idle (d := d) hidle _ _ _)

end Sys2Proof.Machine
end

section
/-! Shadow loads, certification and the boundaries between a panel's tacks. -/

namespace Sys2Proof.Machine

/-- The row of a powered package answers what its function makes of the device. -/
theorem exec_run {c : Instr} {s : State} {f : Device → Device} (hc : exec c s = s.run f) (hrails : s.pins.railsOn = true)
    {e : Device} (h : f s.dev = e) : exec c s = .next { s with dev := e } := by
  rw [hc, run_dev hrails, h]

/-- A row that changes one panel alone. -/
theorem completes_updPanel {c : Instr} {s : State} {p : PanelId} {g : Device → Device} {f : Panel → Panel}
    (hc : exec c s = s.run g) (hrails : s.pins.railsOn = true) (h : g s.dev = s.dev.updPanel p f) :
    Completes c s (fun t => t.OnlyDevice s ∧ s.dev.OnlyPanel t.dev p ∧ t.dev.panel p = f (s.dev.panel p)) :=
  ⟨_, exec_run hc hrails h, rfl, updPanel_onlyPanel s.dev p f, updPanel_panel s.dev p f⟩

/-! ### Shadow loads -/

theorem shadowDone_idle {d : Device} {p : PanelId}
    (h : (d.panel p).array.shadow.tile = none ∨ (d.panel p).array.shadowReady = true) : d.shadowDone p = d := by
  unfold Device.shadowDone
  obtain h | h := h
  · simp [h]
  · simp [h]

/-- A tile whose context or descriptor is gone is given up. -/
theorem shadowDone_gone {d : Device} {p : PanelId} {n : TileRef} (htile : (d.panel p).array.shadow.tile = some n)
    (hload : (d.panel p).array.shadowReady = false)
    (h : d.ctx? n.ref.ctx = none ∨ d.desc? n.ref.ctx n.ref.ring n.ref.seq = none) :
    d.shadowDone p = d.startShadow p none := by
  unfold Device.shadowDone
  rw [if_neg (by simp [hload])]
  obtain h | h := h
  · simp [htile, h]
  · simp [htile, h]

/-! ### Certification (R108 to R113) -/

/-- Two records tell of the same fault at the same place. -/
structure ErrRec.SameFault (q r : ErrRec) : Prop where
  reason : q.reason = r.reason
  mech : q.mech = r.mech
  panel : q.panel = r.panel
  sub : q.sub = r.sub

/-- A redacted record still tells of the same fault (R706). -/
theorem redact_sameFault (r : ErrRec) : (redact r).SameFault r := by
  unfold redact
  split
  · exact ⟨rfl, rfl, rfl, rfl⟩
  · split <;> exact ⟨rfl, rfl, rfl, rfl⟩

theorem stampRec_sameFault (d : Device) (r : ErrRec) : (d.stampRec r).SameFault r := by
  unfold Device.stampRec
  dsimp only
  cases d.ctx? r.ctx with
  | none => exact ⟨rfl, rfl, rfl, rfl⟩
  | some c =>
    dsimp only
    split
    · obtain ⟨hreason, hmech, hpanel, hsub⟩ := redact_sameFault _
      exact ⟨hreason, hmech, hpanel, hsub⟩
    · exact ⟨rfl, rfl, rfl, rfl⟩

theorem residents_nil {d : Device} {p : PanelId} (h : ¬ ∃ c ∈ d.contexts, c.panel = p ∧ c.resident = true) :
    d.residents p = [] := by
  simpa [Device.residents, List.filter_eq_nil_iff] using h

theorem raise_queue {d : Device} (h : d.err.general < 64) (r : ErrRec) :
    (d.raise r).err.queue = d.err.queue ++ [⟨d.stampRec r, false, none⟩] := by
  simp [Device.raise, Device.enqueueRec, h]

theorem certRun_allowed {d : Device} {p : PanelId} (h : ¬ ∃ c ∈ d.contexts, c.panel = p ∧ c.resident = true) :
    d.certRun p = d.updPanel p (fun q => { q with array := q.array.certStart }) :=
  if_pos (by rw [residents_nil h]; rfl)

theorem certRun_refused {d : Device} {p : PanelId} (h : ∃ c ∈ d.contexts, c.panel = p ∧ c.resident = true) :
    d.certRun p = d.updPanel p (fun q => { q with array := { q.array with reason := 0x0205 } }) :=
  if_neg (by simpa [Device.residents] using h)

theorem certComplete_passes {d : Device} {p : PanelId} (h : (d.panel p).array.certRunning = true) :
    d.certComplete p true =
      d.updPanel p (fun q => { q with array := { q.array with certRunning := false, certDone := true, certified := true } }) := by
  simp [Device.certComplete, h]

theorem certComplete_fails {d : Device} {p : PanelId} (h : (d.panel p).array.certRunning = true) :
    d.certComplete p false =
      (d.updPanel p (fun q => { q with array := { q.array with certRunning := false, certFail := true, reason := 0x0203 } })).raise
        { reason := 0x0203, mech := 0x01, outcome := 2, panel := p.val } := by
  simp [Device.certComplete, h]

/-! ### The boundary between tacks (R94 to R98) -/

/-- The panel's descriptors are checked at the boundary. -/
def Device.bringUpAll (d : Device) (p : PanelId) : Device :=
  (d.residents p).foldl (fun d c => (List.finRange 4).foldl (fun d n => d.bringUp c.id n) d) d

/-- A panel that goes from tack to tack: enabled, in service, not under the debugger, and supplied. -/
structure Device.Running (d : Device) (p : PanelId) : Prop where
  enabled : (d.panel p).enabled = true
  notFenced : (d.panel p).fenced = false
  notHalted : (d.panel p).dbg.halted = false
  notStepped : (d.panel p).stepped = false
  supplied : d.waitsSupply p = false

theorem tackBoundary_free {d : Device} {p : PanelId} (h : d.Running p)
    (hrun : ((d.bringUpAll p).panel p).array.run = none) (hdrain : ((d.bringUpAll p).panel p).array.drain = none) :
    d.tackBoundary p =
      (((((((d.bringUpAll p).takeFreqStep p).setChain p).nextAction p).nextDma p).preload p).updPanel p Panel.noteStep) := by
  unfold Device.bringUpAll at *
  unfold Device.tackBoundary
  simp [h.enabled, h.notFenced, h.notHalted, h.notStepped, h.supplied, hrun, hdrain]

theorem tackBoundary_busy {d : Device} {p : PanelId} (h : d.Running p)
    (hrun : ((d.bringUpAll p).panel p).array.run.isSome = true) (hchain : ((d.bringUpAll p).panel p).array.chain = false) :
    d.tackBoundary p = ((((d.bringUpAll p).nextDma p).preload p).updPanel p Panel.noteStep) := by
  unfold Device.bringUpAll at *
  unfold Device.tackBoundary
  simp [h.enabled, h.notFenced, h.notHalted, h.notStepped, h.supplied, hrun, hchain]

/-! ### The boundary of a panel without work -/

/-- A panel with nothing to do: no resident context, no tack under way or waiting for its replay, no certification. -/
structure Device.NoWork (d : Device) (p : PanelId) : Prop where
  noResidents : d.residents p = []
  free : (d.panel p).array.Free
  notCertifying : (d.panel p).array.certRunning = false

theorem bringUpAll_noWork {d : Device} {p : PanelId} (h : d.residents p = []) : d.bringUpAll p = d := by
  rw [Device.bringUpAll, h]
  rfl

theorem readyRings_noWork {d : Device} {p : PanelId} (h : d.residents p = []) (f : Op → Bool) : d.readyRings p f = [] := by
  simp [Device.readyRings, h]

theorem chooseRing_nil (d : Device) (p : PanelId) (g : Option (Code × RingId × Nat)) (last : Option (Code × RingId)) :
    d.chooseRing p [] g last = none := by
  cases last with
  | none => simp [Device.chooseRing, afterRing]
  | some r => simp [Device.chooseRing, afterRing]

theorem nextDma_noWork {d : Device} {p : PanelId} (h : d.NoWork p) : d.nextDma p = d := by
  simp [Device.nextDma, h.free.dma, h.free.failedDma, readyRings_noWork h.noResidents, chooseRing_nil]

theorem preload_free {d : Device} {p : PanelId} (h : (d.panel p).array.run = none) : d.preload p = d := by
  simp [Device.preload, h]

/-- Without work the array gives its slot to ballast, or leaves it. -/
theorem nextAction_noWork {d : Device} {p : PanelId} (h : d.NoWork p) :
    d.nextAction p = d.ballastTack p ∨ d.nextAction p = d := by
  simp only [Device.nextAction, h.notCertifying, h.free.failedTack, Device.nextTack, readyRings_noWork h.noResidents]
  simp only [Bool.false_and, Bool.false_eq_true, if_false, List.filter_nil, List.isEmpty_nil, Bool.not_true]
  split
  · exact .inl rfl
  · exact .inr rfl

/-- What a boundary without work leaves, where `d` is the device before and `e` the one after. -/
structure Device.IdleStep (d e : Device) (p : PanelId) : Prop where
  array : (e.panel p).array = (d.panel p).array
  freq : e.power.panels[p.val].freq = d.power.panels[p.val].freq
  issued : e.power.panels[p.val].issued = d.power.panels[p.val].issued
  contexts : e.contexts = d.contexts
  mem : e.mem = d.mem
  hostMem : e.hostMem = d.hostMem

theorem count_array (d : Device) (p : PanelId) (e : PmcEvent) (n : Nat) :
    ((d.count p e n).panel p).array = (d.panel p).array := by
  unfold Device.count
  split
  · rfl
  · rw [updPanel_panel]

theorem ballastTack_idle (d : Device) (p : PanelId) : d.IdleStep (d.ballastTack p) p where
  array := by
    unfold Device.ballastTack
    rw [updPanel_panel]
    exact (count_array _ _ _ _).trans (count_array _ _ _ _)
  freq := by simp [Device.ballastTack, Device.updPower]
  issued := by simp [Device.ballastTack, Device.updPower]
  contexts := by simp [Device.ballastTack]
  mem := by simp [Device.ballastTack]
  hostMem := by simp [Device.ballastTack]

theorem Device.IdleStep.refl (d : Device) (p : PanelId) : d.IdleStep d p := ⟨rfl, rfl, rfl, rfl, rfl, rfl⟩

theorem Device.IdleStep.trans {d e f : Device} {p : PanelId} (h : d.IdleStep e p) (k : e.IdleStep f p) : d.IdleStep f p :=
  ⟨k.array.trans h.array, k.freq.trans h.freq, k.issued.trans h.issued, k.contexts.trans h.contexts,
    k.mem.trans h.mem, k.hostMem.trans h.hostMem⟩

/-- What becomes of the issued step of frequency at a boundary: droop defers it (R748). -/
structure Device.FreqStep (d e : Device) (p : PanelId) (f : Nat) : Prop where
  panels : e.panels = d.panels
  contexts : e.contexts = d.contexts
  mem : e.mem = d.mem
  hostMem : e.hostMem = d.hostMem
  deferred : d.power.panels[p.val].drooped d.now = true →
    e.power.panels[p.val].freq = d.power.panels[p.val].freq ∧ e.power.panels[p.val].issued = some f
  taken : d.power.panels[p.val].drooped d.now = false →
    e.power.panels[p.val].freq = f ∧ e.power.panels[p.val].issued = none

theorem takeFreqStep_issued {d : Device} {p : PanelId} {f : Nat} (h : d.power.panels[p.val].issued = some f) :
    d.FreqStep (d.takeFreqStep p) p f := by
  unfold Device.takeFreqStep
  simp only [h]
  by_cases hdroop : d.power.panels[p.val].drooped d.now = true
  · rw [if_pos hdroop]
    constructor <;> simp [hdroop, Device.updPower, h]
  · rw [if_neg hdroop]
    split
    · constructor <;> simp [hdroop, Device.updPower]
    · constructor <;> simp [hdroop, Device.updPower]

theorem Device.NoWork.of_panels {d e : Device} {p : PanelId} (h : d.NoWork p) (hcontexts : e.contexts = d.contexts)
    (harray : (e.panel p).array = { (d.panel p).array with chain := (e.panel p).array.chain, idle := (e.panel p).array.idle }) :
    e.NoWork p where
  noResidents := by simpa [Device.residents, hcontexts] using h.noResidents
  free := by
    obtain ⟨hrun, hdrain, hdma, hfailed, hfailedDma⟩ := h.free
    rw [harray]
    exact ⟨hrun, hdrain, hdma, hfailed, hfailedDma⟩
  notCertifying := by
    rw [harray]
    exact h.notCertifying

theorem noteStep_array (q : Panel) : q.noteStep.array = q.array := by
  unfold Panel.noteStep
  split <;> rfl

/-- A boundary without work: the step of frequency and chain mode, and nothing else. -/
theorem tackBoundary_noWork {d : Device} {p : PanelId} {f : Nat} (hrunning : d.Running p) (h : d.NoWork p)
    (hissued : d.power.panels[p.val].issued = some f) :
    ((d.takeFreqStep p).setChain p).IdleStep (d.tackBoundary p) p := by
  have hstep := takeFreqStep_issued hissued
  have hpanel : (d.takeFreqStep p).panel p = d.panel p := by rw [Device.panel, hstep.panels]; rfl
  have hchained : ((d.takeFreqStep p).setChain p).NoWork p := by
    refine h.of_panels hstep.contexts ?_
    rw [Device.setChain, updPanel_panel, hpanel]
    rfl
  have hact : ((d.takeFreqStep p).setChain p).IdleStep (((d.takeFreqStep p).setChain p).nextAction p) p := by
    obtain hb | hb := nextAction_noWork hchained
    · rw [hb]
      exact ballastTack_idle _ _
    · rw [hb]
      exact .refl _ _
  have hdone : (((d.takeFreqStep p).setChain p).nextAction p).NoWork p := by
    refine hchained.of_panels hact.contexts ?_
    rw [hact.array]
  rw [tackBoundary_free hrunning (by rw [bringUpAll_noWork h.noResidents]; exact h.free.run)
      (by rw [bringUpAll_noWork h.noResidents]; exact h.free.drain), bringUpAll_noWork h.noResidents,
    nextDma_noWork hdone, preload_free hdone.free.run]
  refine hact.trans ⟨?_, rfl, rfl, rfl, rfl, rfl⟩
  rw [updPanel_panel, noteStep_array]

/-- Settles O20: shadow loads, certification, and the boundary of a panel that runs. -/
theorem arrayAndTackBoundary : Obligations.ArrayAndTackBoundary := by
  refine ⟨fun s p hrails => ⟨fun h => ?_, fun n htile hload => ⟨fun hgone => ?_, fun c x hc hx => ?_⟩, fun d o cols =>
      ⟨updPanel_onlyPanel d p _, ?_, ?_, ?_⟩, fun hnone => ?_, fun hsome => ?_, fun hidle ok => ?_, fun hrun => ?_, fun hrun hroom => ?_⟩,
    fun s p hrails hen hfence hhalt hstep hwaits => ?_,
    fun s p f hrails hen hfence hhalt hstep hwaits hnone hrun hdrain hdma hfailed hfailedDma hcert hissued => ?_⟩
  · exact exec_run rfl hrails (shadowDone_idle h)
  · exact exec_run rfl hrails (shadowDone_gone htile hload hgone)
  · refine exec_run rfl hrails ?_
    -- the statement writes the match out: where it is compiled beside the model its matcher is another one, equal by unfolding
    simp only [Device.shadowDone, htile, hload, hc, hx, Bool.false_eq_true, if_false, Bool.or_eq_true, bne_iff_ne] <;> rfl
  · rw [Device.fillShadow, updPanel_panel]
  · rw [Device.fillShadow, updPanel_panel]
  · rw [Device.fillShadow, updPanel_panel]
  · exact completes_updPanel (g := fun d => d.certRun p) rfl hrails (certRun_allowed hnone)
  · exact completes_updPanel (g := fun d => d.certRun p) rfl hrails (certRun_refused hsome)
  · exact exec_run rfl hrails (by simp [Device.certComplete, hidle])
  · exact completes_updPanel (g := fun d => d.certComplete p true) rfl hrails (certComplete_passes hrun)
  · refine completes_run rfl hrails ⟨rfl, ?_, fun o ho => ?_, ?_, ?_, ?_⟩
    all_goals rw [certComplete_fails hrun]
    · rw [Device.panel, raise_panels]
      exact updPanel_panel _ _ _
    · rw [Device.panel, raise_panels]
      exact updPanel_other _ ho _
    · simp
    · simp
    · have hsame := stampRec_sameFault
        (s.dev.updPanel p (fun q => { q with array := { q.array with certRunning := false, certFail := true, reason := 0x0203 } }))
        { reason := 0x0203, mech := 0x01, outcome := 2, panel := p.val }
      exact ⟨_, raise_queue (d := s.dev.updPanel p _) hroom _, hsame.reason, hsame.mech, hsame.panel⟩
  · have hrunning : s.dev.Running p := ⟨hen, hfence, hhalt, hstep, hwaits⟩
    exact ⟨fun hrun hdrain => exec_run rfl hrails (tackBoundary_free hrunning hrun hdrain),
      fun hrun hchain => exec_run rfl hrails (tackBoundary_busy hrunning hrun hchain)⟩
  · have hidle := tackBoundary_noWork ⟨hen, hfence, hhalt, hstep, hwaits⟩
      ⟨residents_nil hnone, ⟨hrun, hdrain, hdma, hfailed, hfailedDma⟩, hcert⟩ hissued
    have hstep := takeFreqStep_issued hissued
    have hpanel : (s.dev.takeFreqStep p).panel p = s.dev.panel p := by rw [Device.panel, hstep.panels]; rfl
    have harray := hidle.array
    rw [Device.setChain, updPanel_panel, hpanel] at harray
    refine completes_run rfl hrails ⟨rfl, ?_, ?_, hidle.contexts.trans hstep.contexts, hidle.mem.trans hstep.mem,
      hidle.hostMem.trans hstep.hostMem, fun hdroop => ?_, fun hdroop => ?_⟩
    · exact congrArg ArrayState.chain harray
    · exact (congrArg ArrayState.run harray).trans hrun
    · obtain ⟨hfreq, hissue⟩ := hstep.deferred hdroop
      exact ⟨hidle.freq.trans hfreq, hidle.issued.trans hissue⟩
    · obtain ⟨hfreq, hissue⟩ := hstep.taken hdroop
      exact ⟨hidle.freq.trans hfreq, hidle.issued.trans hissue⟩

end Sys2Proof.Machine
end

section
/-! The end of a tack: its commit, or the failed check that discards it. -/

namespace Sys2Proof.Machine

/-! ### Commits (R114, R124) -/

theorem tackCommit_idle {d : Device} {p : PanelId} (hdrain : (d.panel p).array.drain = none)
    (hrun : (d.panel p).array.run = none) (hdma : (d.panel p).array.dma = none) : d.tackCommit p = d := by
  have harray : d.commitArray p = d := by simp [Device.commitArray, hdrain, hrun]
  rw [Device.tackCommit, harray]
  simp [Device.commitDma, hdma]

theorem commitArray_of_oldest {d : Device} {p : PanelId} {t : TackRun}
    (h : (d.panel p).array.drain.or (d.panel p).array.run = some t) :
    d.commitArray p =
      let a := (d.panel p).array
      let r := (d.updPanel p (fun q => { q with array := { q.array with
        drain := none, run := if a.drain.isSome then a.run else none,
        failedTack := if t.replay then none else a.failedTack } })).drainHalf p t
      r.1.commitRun p r.2 a.failedTack := by
  rw [Device.commitArray]
  simp only [h]

theorem commitDma_of_run {d : Device} {p : PanelId} {t : TackRun} (h : (d.panel p).array.dma = some t) :
    d.commitDma p = (d.updPanel p (fun q => { q with array := { q.array with
      dma := none, failedDma := if t.replay then none else (d.panel p).array.failedDma } })).commitRun p t
        (d.panel p).array.failedDma := by
  rw [Device.commitDma]
  simp only [h]

theorem commitRun_first {t : TackRun} (h : t.replay = false) (d : Device) (p : PanelId) (f : Option TackRun) :
    d.commitRun p t f = (d.tackDone t).answered (.descriptor t.ref.ctx t.ref.ring) := by
  simp [Device.commitRun, h]

/-- The half of the commit region that a tack leaves is free. -/
theorem drainHalf_frees (d : Device) (p : PanelId) (t : TackRun) :
    ((d.drainHalf p t).1.panel p).array.region[t.half] = {} ∧ d.OnlyPanel (d.drainHalf p t).1 p := by
  unfold Device.drainHalf
  dsimp only
  refine ⟨?_, updPanel_onlyPanel d p _⟩
  rw [updPanel_panel]
  exact Vector.getElem_set_self _

/-! ### A failed check (R124 to R127) -/

/-- The tack whose check fails: a row parity's is the running one, a comparison's the oldest one. -/
def ArrayState.suspect (a : ArrayState) (parity : Bool) : Option TackRun := if parity then a.run.or a.drain else a.drain.or a.run

/-- The tack's descriptor multiplies. -/
def Device.isProduct (d : Device) (t : TackRun) : Prop :=
  ∃ x, d.desc? t.ref.ctx t.ref.ring t.ref.seq = some x ∧ (x.form t.inner).op? = some .matmul

/-- The record of a failed check of the array. -/
def checkRecord (column entry : Nat) (diff : BitVec 64) (parity : Bool) : ErrRec :=
  { reason := 0x0201, mech := 0x01, outcome := 0, sub := column,
    detail := BitVec.ofNat 128 (diff.toNat + 2 ^ 64 * (entry % 2 ^ 32) + (if parity then 2 ^ 96 else 0)) }

/-- A mismatch of the array is counted (R125). -/
def Device.countMismatch (d : Device) (p : PanelId) : Device :=
  d.updPanel p (fun q => { q with array := { q.array with mismatches := satTo 24 (q.array.mismatches + 1) } })

theorem tackCheckFail_idle {d : Device} {p : PanelId} {column entry : Nat} {diff : BitVec 64} {parity : Bool}
    (hdrain : (d.panel p).array.drain = none) (hrun : (d.panel p).array.run = none) :
    d.tackCheckFail p column entry diff parity = d := by
  simp [Device.tackCheckFail, ArrayState.oldest, hdrain, hrun]

theorem tackCheckFail_passes {d : Device} {p : PanelId} {column entry : Nat} {diff : BitVec 64}
    (h : ∀ t, (d.panel p).array.drain.or (d.panel p).array.run = some t → t.checkFails column entry diff = false) :
    d.tackCheckFail p column entry diff false = d := by
  unfold Device.tackCheckFail ArrayState.oldest
  cases hold : (d.panel p).array.drain.or (d.panel p).array.run with
  | none => simp [hold]
  | some t => simp [hold, h t hold]

theorem tackCheckFail_fails {d : Device} {p : PanelId} {column entry : Nat} {diff : BitVec 64} {parity : Bool} {t : TackRun}
    (ht : (d.panel p).array.suspect parity = some t) (hproduct : d.isProduct t)
    (hfails : parity = true ∨ t.checkFails column entry diff = true) :
    d.tackCheckFail p column entry diff parity =
      (d.countMismatch p).tackFailed p false t (checkRecord column entry diff parity) 0x0202 := by
  obtain ⟨x, hx, hop⟩ := hproduct
  unfold ArrayState.suspect at ht
  unfold Device.tackCheckFail ArrayState.oldest
  simp only [ht]
  rw [if_neg (by obtain h | h := hfails <;> simp [hx, hop, h])]
  rfl

/-! ### The first failure waits for its replay (R124, R627) -/

/-- Counting an event of a panel changes its counters alone. -/
theorem count_panel (d : Device) (p : PanelId) (e : PmcEvent) (n : Nat) :
    (d.count p e n).panel p = { d.panel p with pmc := ((d.count p e n).panel p).pmc } := by
  unfold Device.count
  split
  · rfl
  · rw [updPanel_panel]

theorem count_other (d : Device) {p o : PanelId} (h : o ≠ p) (e : PmcEvent) (n : Nat) :
    (d.count p e n).panel o = d.panel o := by
  unfold Device.count
  split
  · rfl
  · exact updPanel_other d h _

/-- The device after a panel's counters and the contexts alone have changed. -/
structure Device.Counted (d e : Device) (p : PanelId) : Prop where
  panel : e.panel p = { d.panel p with pmc := (e.panel p).pmc }
  others : ∀ o, o ≠ p → e.panel o = d.panel o
  mem : e.mem = d.mem
  hostMem : e.hostMem = d.hostMem
  err : e.err = d.err
  regs : e.regs = d.regs

theorem count_counted (d : Device) (p : PanelId) (e : PmcEvent) (n : Nat) : d.Counted (d.count p e n) p where
  panel := count_panel d p e n
  others _ h := count_other d h e n
  mem := count_mem d p e n
  hostMem := count_hostMem d p e n
  err := count_err d p e n
  regs := count_regs d p e n

theorem countDiscarded_counted (d : Device) (p : PanelId) (t : TackRun) : d.Counted (d.countDiscarded p t) p := by
  unfold Device.countDiscarded
  dsimp only
  split
  · exact ⟨rfl, fun _ _ => rfl, rfl, rfl, rfl, rfl⟩
  · obtain ⟨hpanel, hothers, hmem, hhost, herr, hregs⟩ := count_counted d p { code := 0x003, ctx := t.ref.ctx } (1024 * t.len)
    exact ⟨hpanel, hothers, hmem, hhost, herr, hregs⟩

/-- The array without the tack `t`, which has left every engine. -/
def ArrayState.discarded (a : ArrayState) (t : TackRun) : ArrayState :=
  { a.discardTack t with run := none, drain := none, shadow := { a.shadow with tile := none }, shadowReady := false }

/-- With no tack draining, the failed tack alone is discarded. -/
theorem discardArray_alone {d : Device} {p : PanelId} (h : (d.panel p).array.drain = none) (t : TackRun) :
    d.discardArray p t = (d.countDiscarded p t).updPanel p (fun q => { q with array := q.array.discarded t }) := by
  unfold Device.discardArray
  simp [h]
  rfl

/-- What a tack that is held for its replay leaves, where `d` is the device before and `e` the one after. -/
structure Device.HeldBack (d e : Device) (p : PanelId) (t : TackRun) : Prop where
  array : (e.panel p).array = { (d.panel p).array.discarded t with failedTack := some t }
  replays : (e.panel p).replayTacks.length ≤ (d.panel p).replayTacks.length + 1
  others : ∀ o, o ≠ p → e.panel o = d.panel o
  mem : e.mem = d.mem
  hostMem : e.hostMem = d.hostMem
  err : e.err = d.err
  regs : e.regs = d.regs

theorem holdForReplay_first {d : Device} {p : PanelId} {t : TackRun} (hdrain : (d.panel p).array.drain = none)
    (ht : t.replay = false) : d.HeldBack (d.holdForReplay p false t) p t := by
  have hgone := countDiscarded_counted d p t
  have hcount := count_counted ((d.countDiscarded p t).updPanel p (fun q => { q with array := q.array.discarded t })) p
    { code := 0x021, ctx := t.ref.ctx } 1
  have hpanel := hcount.panel
  rw [updPanel_panel, hgone.panel] at hpanel
  unfold Device.holdForReplay
  simp only [Bool.false_eq_true, if_false, discardArray_alone hdrain, ht]
  refine ⟨?_, ?_, fun o ho => ?_, hcount.mem.trans hgone.mem, hcount.hostMem.trans hgone.hostMem,
    hcount.err.trans hgone.err, hcount.regs.trans hgone.regs⟩
  · rw [updPanel_panel, updPanel_panel, hpanel]
  · rw [updPanel_panel, updPanel_panel, hpanel]
    exact (List.length_filter_le _ _).trans (by simp)
  · rw [updPanel_other _ ho, updPanel_other _ ho, hcount.others o ho, updPanel_other _ ho, hgone.others o ho]

/-- Within the replay rate nothing else happens (R126). -/
theorem replayRate_within {d : Device} {p : PanelId} (h : (d.panel p).replayTacks.length ≤ fieldOf d.regs.guardCtl 15 8)
    (r : ErrRec) : d.replayRate p r = d :=
  if_neg (by omega)

/-- A first failure within the replay rate: the tack waits for its replay with its record. -/
theorem tackFailed_first {d : Device} {p : PanelId} {t : TackRun} (hdrain : (d.panel p).array.drain = none)
    (ht : t.replay = false) (hrate : (d.panel p).replayTacks.length + 1 ≤ fieldOf d.regs.guardCtl 15 8) (r : ErrRec)
    (code : Code) : ∃ q : ErrRec, q.SameFault { r with panel := p.val } ∧
      d.HeldBack (d.tackFailed p false t r code) p { t with fault := some q } := by
  let blamed : ErrRec := { r.blaming (blameDesc t.ref.ctx t.ref.ring t.ref.seq) with panel := p.val }
  have hheld := holdForReplay_first (t := { t with fault := some (d.stampRec blamed) }) hdrain ht
  refine ⟨d.stampRec blamed, ?_, ?_⟩
  · obtain ⟨hreason, hmech, hpanel, hsub⟩ := stampRec_sameFault d blamed
    exact ⟨hreason, hmech, hpanel, hsub⟩
  · have hfailed : d.tackFailed p false t r code =
        (d.holdForReplay p false { t with fault := some (d.stampRec blamed) }).replayRate p blamed := by
      simp only [Device.tackFailed, ht]
      rfl
    rw [hfailed, replayRate_within (hheld.replays.trans (by rwa [hheld.regs]))]
    exact hheld

/-- Settles O21: what commits, and what a failed check discards. -/
theorem tacksCommitOrReplay : Obligations.TacksCommitOrReplay := by
  refine ⟨fun s p hrails => ⟨fun hdrain hrun hdma => ?_, fun t ht hdma => ?_, fun t hdrain hrun hdma => ?_,
    fun d t f ht => commitRun_first ht d p f, fun d t => ⟨rfl, rfl, drainHalf_frees d p t⟩⟩,
    fun s p column entry diff parity hrails => ⟨fun hrun hdrain => ?_, fun t ht hproduct hfails => ⟨?_, fun hdrain hfirst hrate => ?_⟩,
      fun hparity hpass => ?_⟩⟩
  · exact exec_run rfl hrails (tackCommit_idle hdrain hrun hdma)
  · exact exec_run rfl hrails (congrArg (fun d => d.commitDma p) (commitArray_of_oldest ht))
  · have harray : s.dev.commitArray p = s.dev := by simp [Device.commitArray, hdrain, hrun]
    exact exec_run rfl hrails ((congrArg (fun d => d.commitDma p) harray).trans (commitDma_of_run hdma))
  · exact exec_run rfl hrails (tackCheckFail_idle hdrain hrun)
  · exact exec_run rfl hrails (tackCheckFail_fails ht hproduct hfails)
  · have hpanel : (s.dev.countMismatch p).panel p = { s.dev.panel p with array := { (s.dev.panel p).array with
        mismatches := satTo 24 ((s.dev.panel p).array.mismatches + 1) } } := updPanel_panel _ _ _
    obtain ⟨q, hq, hheld⟩ := tackFailed_first (d := s.dev.countMismatch p) (p := p) (t := t) (by rw [hpanel]; exact hdrain) hfirst
      (by rw [hpanel]; exact hrate) (checkRecord column entry diff parity) 0x0202
    rw [← tackCheckFail_fails ht hproduct hfails] at hheld
    have harray := hheld.array
    rw [hpanel] at harray
    refine completes_run rfl hrails ⟨rfl, congrArg ArrayState.run harray, congrArg ArrayState.mismatches harray, ?_,
      congrArg (fun a => a.shadow.tile) harray, congrArg ArrayState.slots harray,
      ⟨_, congrArg ArrayState.failedTack harray, rfl, rfl, q, rfl, hq.reason, hq.mech, hq.panel, hq.sub⟩,
      fun o ho => (hheld.others o ho).trans (updPanel_other _ ho _), hheld.mem, hheld.hostMem, hheld.err⟩
    exact (congrArg (fun a => a.region[t.half]) harray).trans (Vector.getElem_set_self _)
  · subst hparity
    exact exec_run rfl hrails (tackCheckFail_passes hpass)

end Sys2Proof.Machine
end

section
/-! The row of GUSSET_FLUSH, by its mode. -/

namespace Sys2Proof.Machine

/-- A Gusset flush that may run makes its effect, with the entry that its descriptor names. -/
theorem runOp_gussetFlush {d : Device} {ctx : Code} {ring : RingId} {c : Context} {r : Ring} {x : Desc}
    (h : d.Lone ctx ring .gussetFlush c r x) {c' : Context} (hc : (d.begun ctx ring c x).ctx? ctx = some c') :
    d.runOp ctx ring .gussetFlush = (d.begun ctx ring c x).flushRun c' ring (x.started c) :=
  runOp_effect h rfl hc

section
variable {d : Device} {c : Context} {ring : RingId} {x : Desc} {g : GussetEntry}

theorem flushRun_clears (hg : c.gusset? (BitVec.ofNat 32 (x.f 32 4)) = some g) (hmode : 2 ≤ x.f 36 1) :
    d.flushRun c ring x =
      Device.conclude (d.flushTail (x.access c.id ring 0 (x.bits 76 1 1 0)) x) c.id ring x.seq := by
  obtain ⟨m, hm⟩ : ∃ m, x.f 36 1 = m + 2 := ⟨x.f 36 1 - 2, by omega⟩
  simp only [Device.flushRun, hg, hm]

theorem flushRun_intoMemory (hg : c.gusset? (BitVec.ofNat 32 (x.f 32 4)) = some g) (hmode : x.f 36 1 = 1) :
    d.flushRun c ring x =
      let a := x.access c.id ring 0 (x.bits 76 1 1 0)
      let ranges := [(x.f 56 8, 2 * boundBytes g.rows g.cols (x.f 72 4)), (x.f 64 8, if x.f 64 8 = 0 then 0 else boundBytes g.rows g.cols (x.f 72 4))]
      let e := ranges.foldl (fun d r => d.copyBefore c.id r.1 r.2) d
      if e.writesWait c x.seq ranges then e
      else Device.conclude (bindD (e.gussetToMemory a g x) (fun d _ => d.flushTail a x)) c.id ring x.seq := by
  simp only [Device.flushRun, hg, hmode]

/-- The bucket agrees or reduces: the flush waits. -/
theorem flushRun_waits (hg : c.gusset? (BitVec.ofNat 32 (x.f 32 4)) = some g) (hmode : x.f 36 1 = 0)
    (hcheck : c.deliveryCheck (x.f 40 4) (x.f 48 8) (g.rows * g.cols) (BitVec.ofNat 32 (x.f 124 4)) = .ok true) :
    d.flushRun c ring x = d := by
  simp only [Device.flushRun, hg, hmode, hcheck]

theorem flushRun_delivers (hg : c.gusset? (BitVec.ofNat 32 (x.f 32 4)) = some g) (hmode : x.f 36 1 = 0)
    (hcheck : c.deliveryCheck (x.f 40 4) (x.f 48 8) (g.rows * g.cols) (BitVec.ofNat 32 (x.f 124 4)) = .ok false) :
    d.flushRun c ring x =
      let a := x.access c.id ring 0 (x.bits 76 1 1 0)
      (Device.conclude (bindD (foldD (List.range g.lines) d [] (fun d out line => bindD (d.lineRead a g line) (fun d ps => (d, .ok (out ++ ps)))))
        (fun d vs => bindD (d.deliver a (x.f 40 4) (x.f 48 8) g.fmt (BitVec.ofNat 32 (x.f 124 4)) vs) (fun d _ => d.flushTail a x))) c.id ring x.seq).settle := by
  simp only [Device.flushRun, hg, hmode, hcheck]

end

/-- Settles O23: the flush of a ring's one descriptor, by its mode. -/
theorem gussetFlushRuns : Obligations.GussetFlushRuns := by
  intro s ctx ring c r x g hrails hlone hg d y a
  obtain ⟨rings, hctx⟩ := hlone.begun_ctx?
  have hid : c.id = ctx := ctx?_id hlone.context
  subst hid
  have hexec {e : Device} (h : d.flushRun { c with rings := rings } ring y = e) :
      exec (.gussetFlush c.id ring) s = .next { s with dev := e } :=
    exec_run rfl hrails ((runOp_gussetFlush hlone hctx).trans h)
  have hentry : Context.gusset? { c with rings := rings } (BitVec.ofNat 32 (y.f 32 4)) = some g := hg
  have hfield : y.f = x.f := rfl
  have hcheck' {b : Bool} (h : c.deliveryCheck (x.f 40 4) (x.f 48 8) (g.rows * g.cols) (BitVec.ofNat 32 (x.f 124 4)) = .ok b) :
      Context.deliveryCheck { c with rings := rings } (y.f 40 4) (y.f 48 8) (g.rows * g.cols) (BitVec.ofNat 32 (y.f 124 4)) = .ok b := by
    rw [hfield]
    exact h
  rw [← hfield]
  refine ⟨fun hmode => hexec (flushRun_clears hentry hmode), fun hmode c' hc' => ?_,
    fun hmode hcheck => hexec (flushRun_waits hentry hmode (hcheck' hcheck)),
    fun hmode hcheck => hexec (flushRun_delivers hentry hmode (hcheck' hcheck))⟩
  obtain rfl := Option.some.inj (hctx.symm.trans hc')
  exact ⟨fun hwaits => hexec ((flushRun_intoMemory hentry hmode).trans (if_pos hwaits)),
    fun hgoes => hexec ((flushRun_intoMemory hentry hmode).trans (if_neg (Bool.eq_false_iff.1 hgoes)))⟩

end Sys2Proof.Machine
end

section
/-! The completions of the admission ring, in a host memory that is not in its canonical form. -/

namespace Sys2Proof.Machine

/-- A device on a link in L0 whose host memory lists one address twice, with the value 1. -/
def twiceListed : Device :=
  { State.reset.dev with
    hostMem := [(2, 1), (2, 1)]
    host := { State.reset.dev.host with link := .l0 } }

/-- The completion's user tag, written over the first entry of its address, does not read back: the second shows. -/
theorem twiceListed_completion :
    twiceListed.host.link = .l0 ∧
      memRead (twiceListed.admissionDone 0 0).hostMem
          (fieldOf twiceListed.regs.admitCplBase 63 6 * 64 + 32 * (twiceListed.admitRing.next % 2 ^ twiceListed.admissionSize)) 32 ≠
        completionBytes 0 0 0 (twiceListed.admitRing.next % 2 ^ 32) 0 0 0
          (phaseBit twiceListed.admitRing.next twiceListed.admissionSize) := by
  decide +kernel

/-- Refutes O24: it takes any host memory, and a completion that is written into one that lists an address twice does
not read back, as a byte 0 takes one of the two entries away. -/
theorem not_admissionCommandsRun : ¬ Obligations.AdmissionCommandsRun := by
  intro h
  obtain ⟨hlink, hcompletion⟩ := twiceListed_completion
  exact hcompletion (h.2 twiceListed 0 0 hlink).1

end Sys2Proof.Machine
end

section
/-! What an access to module memory leaves unchanged, said once for everything that does not look at the panels, the
error records, the poison and the lost stacks. -/

namespace Sys2Proof.Machine

/-- `g` sees nothing of what a read of module memory can change: the panels, the queue of error records, and what is
known of the stacks' accesses. -/
structure BlindToAccess {α : Type} (g : Device → α) : Prop where
  panel (d : Device) (p : PanelId) (f : Panel → Panel) : g (d.updPanel p f) = g d
  records (d : Device) (e : ErrRing) : g { d with err := e } = g d
  bad (d : Device) (poison faulty : List Nat) : g { d with poison := poison, faulty := faulty } = g d
  lost (d : Device) (l : List (Nat × List (Nat × Nat))) : g { d with lostStacks := l } = g d

section
variable {α : Type} {g : Device → α} (hg : BlindToAccess g)
include hg

theorem BlindToAccess.latchUe (d : Device) (a : Nat) : g (d.latchUe a) = g d := by
  unfold Device.latchUe Device.updPMem
  exact hg.panel d _ _

theorem BlindToAccess.enqueueMem (d : Device) (a : Nat) (c : ColourClass) (w : Bool) (r : Requester) :
    g (d.enqueueMem a c w r) = g d := by
  unfold Device.enqueueMem Device.updPMem
  exact hg.panel d _ _

theorem BlindToAccess.spoolDrop (d : Device) (a n : Nat) : g (d.spoolDrop a n) = g d := by
  unfold Device.spoolDrop
  exact hg.panel d _ _

theorem BlindToAccess.count (d : Device) (p : PanelId) (e : PmcEvent) (n : Nat) : g (d.count p e n) = g d := by
  unfold Device.count
  split
  · rfl
  · exact hg.panel d p _

theorem BlindToAccess.enqueueRec (d : Device) (r : ErrRec) (needed : Bool) : g (d.enqueueRec r needed) = g d := by
  obtain ⟨e, he⟩ := enqueueRec_eq d r needed
  rw [he]
  exact hg.records d e

theorem BlindToAccess.raise (d : Device) (r : ErrRec) : g (d.raise r) = g d := hg.enqueueRec d _ _

theorem BlindToAccess.raiseNeeded (d : Device) (r : ErrRec) : g (d.raiseNeeded r).1 = g d := hg.enqueueRec d _ _

theorem BlindToAccess.ueRead (d : Device) (a : Nat) (b : Blame) : g (d.ueRead a b) = g d := by
  unfold Device.ueRead
  dsimp only
  split
  · exact (hg.raiseNeeded _ _).trans (hg.latchUe d _)
  · exact (hg.raise _ _).trans (hg.latchUe d _)

theorem BlindToAccess.stackAccess (d : Device) (w : Bool) (u : Nat) (l : List Nat) (c : ColourClass) (r : Requester) :
    g (d.stackAccess w u l c r) = g d :=
  (foldl_enqueue g (fun d a => hg.enqueueMem d (a * 64) c w r) l _).trans (hg.count d _ _ _)

theorem BlindToAccess.rewrote (d : Device) (a n : Nat) : g (d.rewrote a n) = g d := by
  unfold Device.rewrote
  split
  · rfl
  · exact hg.lost d _

theorem BlindToAccess.stackWritten (d : Device) (s b : List Nat) : g (d.stackWritten s b) = g d := by
  unfold Device.stackWritten
  exact (hg.bad _ _ _).trans ((hg.bad _ _ _).trans (foldl_enqueue g (fun d a => hg.rewrote d a 1) s d))

theorem BlindToAccess.writeBack (d : Device) (l : List SpoolLine) : g (d.writeBack l) = g d :=
  foldl_enqueue g (fun d _ => (hg.stackWritten _ _ _).trans ((hg.stackAccess _ _ _ _ _ _).trans (hg.count d _ _ _))) _ d

theorem BlindToAccess.allocLine (d : Device) (l : SpoolLine) : g (d.allocLine l) = g d :=
  (hg.writeBack _ _).trans (hg.panel d _ _)

theorem BlindToAccess.readUnit (d : Device) (mpa n u : Nat) (h : Hint) (last : Bool) (c : ColourClass) (r : Requester)
    (b : Blame) : g (d.readUnit mpa n u h last c r b) = g d := by
  unfold Device.readUnit
  dsimp only
  split
  · exact (hg.panel _ _ _).trans (hg.count d _ _ _)
  · have hread (d : Device) (l : List Nat) : g (l.foldl (fun d a => d.ueRead a b) d) = g d :=
      foldl_enqueue g (fun d a => hg.ueRead d a b) l d
    split
    · exact (hg.allocLine _ _).trans ((hread _ _).trans ((hg.stackAccess _ _ _ _ _ _).trans (hg.count d _ _ _)))
    · exact (hread _ _).trans ((hg.stackAccess _ _ _ _ _ _).trans (hg.count d _ _ _))

theorem BlindToAccess.yokeFlits (d : Device) (p : PanelId) (n : Nat) (t : Bool) (c : ColourClass) (r : Requester) :
    g (d.yokeFlits p n t c r) = g d := by
  unfold Device.yokeFlits
  dsimp only
  split
  · rfl
  · split
    · exact (hg.count _ _ _ _).trans (hg.count d _ _ _)
    · exact hg.count d _ _ _

/-- A read through the Spool. -/
theorem BlindToAccess.loadMpa (d : Device) (mpa n : Nat) (h : Hint) (last : Nat → Bool) (c : ColourClass) (r : Requester)
    (b : Blame) : g (d.loadMpa mpa n h last c r b).1 = g d :=
  (foldl_enqueue g (fun d u => hg.readUnit d mpa n u h (last u) c r b) _ _).trans (hg.yokeFlits d _ _ _ _ _)

/-- A frame that is zeroed: its bytes, and nothing that `g` sees. -/
theorem BlindToAccess.zeroFrame (hmem : ∀ d m, g { d with mem := m } = g d) (d : Device) (f : Nat) :
    g (d.zeroFrame f) = g d := by
  refine foldl_enqueue g (fun d i => ?_) _ d
  dsimp only
  split
  · rfl
  · let e := (d.spoolDrop (f * 2 ^ 21 + 65536 * i) 65536).rewrote ((f * 2 ^ 21 + 65536 * i) / 64) 1024
    exact (hg.bad { e with mem := memZero e.mem (f * 2 ^ 21 + 65536 * i) 65536 } _ _).trans ((hmem e _).trans ((hg.rewrote _ _ _).trans (hg.spoolDrop d _ _)))

end

theorem contexts_blind : BlindToAccess (fun d => d.contexts) :=
  ⟨fun _ _ _ => rfl, fun _ _ => rfl, fun _ _ _ => rfl, fun _ _ => rfl⟩

theorem mem_blind : BlindToAccess (fun d => d.mem) :=
  ⟨fun _ _ _ => rfl, fun _ _ => rfl, fun _ _ _ => rfl, fun _ _ => rfl⟩

/-! ### Frames that contexts own (R441) -/

section
variable {α : Type} {g : Device → α} (hg : BlindToAccess g) (hmem : ∀ d m, g { d with mem := m } = g d)
  (hframes : ∀ d l, g { d with frames := l } = g d)
include hg hmem hframes

theorem BlindToAccess.claim (d : Device) (id : Code) (conf : Bool) (f : Nat) : g (d.claim id conf f) = g d := by
  unfold Device.claim
  dsimp only
  split
  · rfl
  · split
    · exact (hframes (d.zeroFrame f) _).trans (hg.zeroFrame hmem d f)
    · exact hframes d _

theorem BlindToAccess.releaseFrame (d : Device) (id : Code) (conf : Bool) (f : Nat) : g (d.releaseFrame id conf f) = g d := by
  unfold Device.releaseFrame
  dsimp only
  split
  · exact (hframes (d.zeroFrame f) _).trans (hg.zeroFrame hmem d f)
  · exact hframes d _

end

/-- Claiming and releasing frames changes no context. -/
@[simp] theorem claim_contexts (d : Device) (id : Code) (conf : Bool) (f : Nat) : (d.claim id conf f).contexts = d.contexts :=
  contexts_blind.claim (fun _ _ => rfl) (fun _ _ => rfl) d id conf f

@[simp] theorem releaseFrame_contexts (d : Device) (id : Code) (conf : Bool) (f : Nat) :
    (d.releaseFrame id conf f).contexts = d.contexts :=
  contexts_blind.releaseFrame (fun _ _ => rfl) (fun _ _ => rfl) d id conf f

theorem claims_contexts (d : Device) (id : Code) (conf : Bool) (l : List Nat) :
    (l.foldl (fun d f => d.claim id conf f) d).contexts = d.contexts :=
  foldl_enqueue (fun d => d.contexts) (fun d f => claim_contexts d id conf f) l d

theorem releases_keep {α : Type} {g : Device → α} (hg : BlindToAccess g) (hmem : ∀ d m, g { d with mem := m } = g d)
    (hframes : ∀ d l, g { d with frames := l } = g d) (d : Device) (id : Code) (conf : Bool) (l : List Nat) :
    g (l.foldl (fun d f => d.releaseFrame id conf f) d) = g d :=
  foldl_enqueue g (fun d f => hg.releaseFrame hmem hframes d id conf f) l d

/-- The reads of a map's records change no context. -/
@[simp] theorem mapRecords_contexts (d : Device) (a n : Nat) (b : Blame) : (d.mapRecords a n b).contexts = d.contexts :=
  contexts_blind.loadMpa d _ _ _ _ _ _ _

/-! ### Admission commands -/

theorem admitCmd_escalated {d : Device} {e : Code} (h : d.escalationCode = some e) (he : e ≠ 0x0312) (cmd : List Byte)
    (readable : Bool) : (d.admitCmd cmd readable).2 = e ∧ (d.admitCmd cmd readable).1.contexts = d.contexts := by
  have hcode (a b n m : Nat) : (((d.hostFetch a n).1.hostFetch b m).1).escalationCode = some e := by
    simpa [Device.escalationCode] using h
  simp [Device.admitCmd, hcode, show ¬ e = 786#16 from he]

/-- An ADMIT whose record is not of form 1 is refused. -/
theorem enrollCheck_form {cmd rec_ setup : List Byte} (h : bytesField rec_ 0 2 ≠ 1) (d : Device) (readable : Bool) :
    d.enrollCheck cmd rec_ setup readable = some 0x0502 := by
  simp [Device.enrollCheck, firstFailure, h]

theorem admitCmd_form {d : Device} (hopen : d.escalationCode = none) (cmd : List Byte) (readable : Bool)
    (h : bytesField (d.hostRead (bytesField cmd 16 8) 4755) 0 2 ≠ 1) :
    (d.admitCmd cmd readable).2 = 0x0502 ∧ (d.admitCmd cmd readable).1.contexts = d.contexts := by
  have hcode (a b n m : Nat) : (((d.hostFetch a n).1.hostFetch b m).1).escalationCode = none := by
    simpa [Device.escalationCode] using hopen
  have hrec (a n : Nat) : (d.hostFetch a n).2 = d.hostRead a n := rfl
  simp [Device.admitCmd, hcode, hrec, enrollCheck_form h]

theorem leaveCmd_plain (d : Device) (c : Context) :
    let e := d.readDoorbells c.id
    let busy := ((e.ctx? c.id).getD c).rings.any (fun r => tailAhead r.tail r.complNext != 0)
    (busy = true → d.leaveCmd c false = (e, 0x050B)) ∧ (busy = false → d.leaveCmd c false = (e.endContext c.id, 0)) := by
  intro e busy
  constructor <;> intro h
  · simp only [Device.leaveCmd, Bool.false_eq_true, if_false, Bool.not_false, Bool.and_true]
    exact if_pos h
  · simp only [Device.leaveCmd, Bool.false_eq_true, if_false, Bool.not_false, Bool.and_true]
    exact if_neg (Bool.eq_false_iff.1 h)

theorem leaveCmd_force (d : Device) (c : Context) : d.leaveCmd c true = ((d.flushCmd c 15 false).1.endContext c.id, 0) := by
  simp [Device.leaveCmd]

/-- A REMAP drops every translation of its context. -/
theorem remapCmd_tlb {d : Device} {c : Context} (h : d.ctx? c.id = some c) :
    ((d.remapCmd c).1.ctx? c.id).map (fun k => k.tlb) = some [] := by
  have hcontexts : (d.remapCmd c).1.contexts = ((d.mapRecords c.mapAddr c.mapEntries { ctx := c.id }).updCtx c.id
      (fun c => { c with tlb := [] })).contexts :=
    (releases_keep contexts_blind (fun _ _ => rfl) (fun _ _ => rfl) _ _ _ _).trans (claims_contexts _ _ _ _)
  have hfound : (d.mapRecords c.mapAddr c.mapEntries { ctx := c.id }).ctx? c.id = some c := by
    rw [Device.ctx?, mapRecords_contexts]
    exact h
  have hctx : (d.remapCmd c).1.ctx? c.id = ((d.mapRecords c.mapAddr c.mapEntries { ctx := c.id }).updCtx c.id
      (fun c => { c with tlb := [] })).ctx? c.id := by
    rw [Device.ctx?, hcontexts]
    rfl
  rw [hctx, updCtx_ctx _ _ (fun _ => by rfl), hfound]
  rfl

/-- A context that ends is no longer found. -/
theorem endContext_gone {d : Device} {id : Code} {c : Context} (h : d.ctx? id = some c) : (d.endContext id).ctx? id = none := by
  unfold Device.endContext
  rw [h]
  exact List.find?_eq_none.2 (fun k hk => by simpa using (List.mem_filter.1 hk).2)

theorem foldl_dropLine_keeps {α β : Type} {g : Device → α} (hhost : ∀ d h, g { d with host := h } = g d) (a : β → Nat)
    (l : List β) (d : Device) : g (l.foldl (fun d x => d.dropLine (a x)) d) = g d :=
  foldl_enqueue g (fun d _ => hhost d _) l d

/-- Its windows and its requests to other modules end with it. -/
theorem endContext_drops {d : Device} {id : Code} {c : Context} (h : d.ctx? id = some c) :
    (∀ w ∈ (d.endContext id).openRegions, w.ctx ≠ id) ∧ ∀ o ∈ (d.endContext id).fabric.outstanding, o.ctx ≠ id := by
  have hends {α : Type} {g : Device → α} (hg : BlindToAccess g) (hmem : ∀ d m, g { d with mem := m } = g d)
      (hframes : ∀ d l, g { d with frames := l } = g d) (hhost : ∀ d h, g { d with host := h } = g d)
      (hcontexts : ∀ d l, g { d with contexts := l } = g d) :
      ∃ e : Device, g (d.endContext id) = g { e.windowDrop id with fabric := { e.fabric with
        outstanding := e.fabric.outstanding.filter (fun o => o.ctx != id), colls := e.fabric.colls.filter (fun r => r.ctx != id),
        relays := e.fabric.relays.filter (fun r => r.ctx != id), fittings := e.fabric.fittings.filter (fun r => r.ctx != id) } } := by
    unfold Device.endContext
    rw [h]
    exact ⟨_, (hcontexts _ _).trans ((releases_keep hg hmem hframes _ _ _ _).trans
      ((foldl_dropLine_keeps hhost (fun n => c.ecAddr + 64 * (32 + n)) _ _).trans (foldl_dropLine_keeps hhost (fun r : Ring => r.dbAddr) _ _)))⟩
  constructor
  · obtain ⟨e, he⟩ := hends (g := fun d => d.openRegions)
      ⟨fun _ _ _ => rfl, fun _ _ => rfl, fun _ _ _ => rfl, fun _ _ => rfl⟩ (fun _ _ => rfl) (fun _ _ => rfl) (fun _ _ => rfl) (fun _ _ => rfl)
    rw [he]
    simp [Device.windowDrop]
  · obtain ⟨e, he⟩ := hends (g := fun d => d.fabric.outstanding)
      ⟨fun _ _ _ => rfl, fun _ _ => rfl, fun _ _ _ => rfl, fun _ _ => rfl⟩ (fun _ _ => rfl) (fun _ _ => rfl) (fun _ _ => rfl) (fun _ _ => rfl)
    rw [he]
    simp

theorem resumeCmd_none {d : Device} {c : Context} {mask : Nat}
    (h : (c.masked mask).all (fun n => !(c.ring? n).any (fun r => r.halted)) = true) (retry : Bool) :
    d.resumeCmd c mask retry = (d, 0x050C) := by
  have hnone : (c.masked mask).filter (fun n => (c.ring? n).any (fun r => r.halted)) = [] := by
    simpa [List.filter_eq_nil_iff] using h
  simp only [Device.resumeCmd, hnone]
  rfl

theorem resumeCmd_effect {d : Device} {c : Context} {mask : Nat} {n : RingId} (hn : n ∈ c.masked mask)
    (h : (c.ring? n).any (fun r => r.halted && r.failed.any (fun f => f.effect)) = true) :
    d.resumeCmd c mask true = (d, 0x050D) := by
  obtain ⟨r, hr, hleft⟩ : ∃ r, c.ring? n = some r ∧ (r.halted && r.failed.any (fun f => f.effect)) = true := by
    simpa [Option.any_eq_true] using h
  obtain ⟨hhalted, hfailed⟩ := Bool.and_eq_true_iff.1 hleft
  have hmem : n ∈ (c.masked mask).filter (fun n => (c.ring? n).any (fun r => r.halted)) := by
    simp [hn, hr, hhalted]
  have hsome : ((c.masked mask).filter (fun n => (c.ring? n).any (fun r => r.halted))).isEmpty = false := by
    rw [List.isEmpty_eq_false_iff_exists_mem]
    exact ⟨n, hmem⟩
  have hleft : (((c.masked mask).filter (fun n => (c.ring? n).any (fun r => r.halted))).any
      (fun n => (c.ring? n).any (fun r => r.failed.any (fun f => f.effect)))) = true :=
    List.any_eq_true.2 ⟨n, hmem, by simp [hr, hfailed]⟩
  simp only [Device.resumeCmd, hsome, hleft]
  rfl

theorem cmdEffect_unknown {d : Device} {cmd : List Byte} (hcmd : bytesField cmd 0 1 ≠ 1)
    (h : d.ctx? (BitVec.ofNat 16 (bytesField cmd 2 2)) = none) : d.cmdEffect cmd true = (d, 0x050A) := by
  simp [Device.cmdEffect, hcmd, h]

/-! ### Enrolment (R424) -/

/-- A change that keeps a context's identifier keeps the list of them. -/
theorem updCtx_ids (d : Device) (id : Code) {f : Context → Context} (hf : ∀ c, (f c).id = c.id) :
    (d.updCtx id f).contexts.map (fun k => k.id) = d.contexts.map (fun k => k.id) := by
  have hlist (l : List Context) : (updCtxIn id f l).map (fun k => k.id) = l.map (fun k => k.id) := by
    induction l with
    | nil => rfl
    | cons c cs ih =>
      unfold updCtxIn
      split
      · simp [hf]
      · simp [ih]
  exact hlist d.contexts

theorem updRing_ids (d : Device) (id : Code) (n : RingId) (f : Ring → Ring) :
    (d.updRing id n f).contexts.map (fun k => k.id) = d.contexts.map (fun k => k.id) := updCtx_ids d id (fun _ => by rfl)

theorem newTail_ids (d : Device) (id : Code) (n : RingId) (tail : Nat) :
    (d.newTail id n tail).contexts.map (fun k => k.id) = d.contexts.map (fun k => k.id) := by
  have hcases {k : Prop} [Decidable k] {a b e : Device} (ha : a.contexts.map (fun k => k.id) = e.contexts.map (fun k => k.id))
      (hb : b.contexts.map (fun k => k.id) = e.contexts.map (fun k => k.id)) :
      (if k then a else b).contexts.map (fun k => k.id) = e.contexts.map (fun k => k.id) := by
    split
    · exact ha
    · exact hb
  unfold Device.newTail
  cases d.ring? id n with
  | none => rfl
  | some r => exact hcases ((updRing_ids _ _ _ _).trans (updRing_ids d _ _ _)) (updRing_ids d _ _ _)

/-- A doorbell that is read changes no context's identifier. -/
theorem readDoorbells_ids (d : Device) (id : Code) :
    (d.readDoorbells id).contexts.map (fun k => k.id) = d.contexts.map (fun k => k.id) := by
  refine foldl_enqueue (fun d => d.contexts.map (fun k => k.id)) (fun d n => ?_) _ d
  unfold Device.readDoorbell
  split
  · rfl
  · exact (newTail_ids _ _ _ _).trans (congrArg _ (hostFetch_contexts d _ _))

theorem holdDoorbells_contexts (d : Device) (c : Context) : (d.holdDoorbells c).contexts = d.contexts := by
  refine foldl_enqueue (fun d => d.contexts) (fun d r => ?_) _ d
  unfold Device.holdLine
  dsimp only
  split <;> rfl

/-- A context that was never swapped and holds no Gusset entry comes in without reads of device memory. -/
theorem swapInCtx_ids {d : Device} {c : Context} (h : d.contexts = [c]) (hfresh : c.pageCounts[9] = 0) (hgusset : c.gusset = []) :
    (d.swapInCtx c).contexts.map (fun k => k.id) = [c.id] := by
  let e := d.updCtx c.id (fun c => { c with resident := true, residentSince := d.now })
  have hcontexts : e.contexts = [{ c with resident := true, residentSince := d.now }] := by
    simp [e, Device.updCtx, h, updCtxIn]
  have hfront : e.gussetFront c.id = e := by
    simp [Device.gussetFront, Device.ctx?, hcontexts, hgusset]
  have hhold : (e.holdDoorbells c).contexts.map (fun k => k.id) = [c.id] := by
    rw [holdDoorbells_contexts, hcontexts]
    rfl
  unfold Device.swapInCtx
  simp only [hfresh, if_true]
  rw [hfront]
  split
  · exact (readDoorbells_ids _ _).trans hhold
  · exact hhold

/-- What an enrolment does once its frames are claimed. -/
def Device.enter (d : Device) (c : Context) : Device :=
  let d : Device := { d with contexts := d.contexts ++ [c] }
  let d := if c.pinned && d.slotsFull c.panel then
      match d.leaver c.panel with
      | some v => d.swapOutCtx v
      | none => d
    else d
  if d.slotsFull c.panel then d else d.swapInCtx c

theorem enroll_eq (d : Device) (rec_ setup : List Byte) :
    let c := { admittedContext rec_ setup with idleSince := d.now }
    d.enroll rec_ setup =
      ((d.namedFrames c.mapAddr c.mapEntries c.saveAddr c.saveBytes).foldl (fun d f => d.claim c.id c.confidential f) d).enter c :=
  rfl

theorem enter_first {d : Device} {c : Context} (h : d.contexts = []) (hout : c.resident = false) (hfresh : c.pageCounts[9] = 0)
    (hgusset : c.gusset = []) : (d.enter c).contexts.map (fun k => k.id) = [c.id] := by
  have hcontexts : d.contexts ++ [c] = [c] := by rw [h]; rfl
  have hroom : Device.slotsFull { d with contexts := d.contexts ++ [c] } c.panel = false := by
    simp [hcontexts, Device.slotsFull, Device.residents, hout]
  have hkeep : d.enter c = Device.swapInCtx { d with contexts := d.contexts ++ [c] } c := by
    simp [Device.enter, hroom]
  rw [hkeep]
  exact swapInCtx_ids hcontexts hfresh hgusset

/-- The enrolment of the first context. -/
theorem enroll_first {d : Device} (h : d.contexts = []) (rec_ setup : List Byte) :
    (d.enroll rec_ setup).contexts.map (fun k => k.id) = [BitVec.ofNat 16 (bytesField rec_ 2 2)] := by
  rw [enroll_eq]
  exact enter_first ((claims_contexts _ _ _ _).trans h) rfl (by simp [admittedContext]) rfl

/-- Settles O25: the refusals, the enrolment, and what ends with a context. -/
theorem admissionEffects : Obligations.AdmissionEffects := by
  intro d cmd c mask force rec_ setup
  refine ⟨fun h => admitCmd_escalated h (by decide) cmd true, fun hform hopen => admitCmd_form hopen cmd true hform,
    fun _ hnone => enroll_first hnone rec_ setup, leaveCmd_plain d c, leaveCmd_force d c, rfl, remapCmd_tlb,
    fun hctx => ⟨endContext_gone hctx, endContext_drops hctx⟩, fun hnone => resumeCmd_none hnone force,
    fun n hn hleft => resumeCmd_effect hn hleft, cmdEffect_unknown⟩

end Sys2Proof.Machine
end

section
/-! What reads and writes by a context's addresses leave unchanged. -/

namespace Sys2Proof.Machine

/-- A change of a context that keeps its identifier and its slot. -/
def KeepsSlot (f : Context → Context) : Prop := ∀ c, (f c).id = c.id ∧ (f c).resident = c.resident

/-- `g` sees nothing of what data accesses can change: beyond an access to module memory the bytes, the host's side but for the link's state, and
of the contexts all but their identifiers and slots. -/
structure BlindToData {α : Type} (g : Device → α) : Prop extends BlindToAccess g where
  mem (d : Device) (m : Memory) : g { d with mem := m } = g d
  hostSide (d : Device) (m : Memory) (h : HostLink) (hlink : h.link = d.host.link) : g { d with hostMem := m, host := h } = g d
  counters (d : Device) (c : Counters) : g { d with counters := c } = g d
  context (d : Device) (id : Code) (f : Context → Context) (hf : KeepsSlot f) : g (d.updCtx id f) = g d
  contexts (d : Device) (f : Context → Context) (hf : KeepsSlot f) : g { d with contexts := d.contexts.map f } = g d

section
variable {α β γ : Type} {g : Device → α}

/-- A step of a fold over accesses, each of which may fail. -/
theorem foldl_res_keeps {f : Device × Except Code β → γ → Device × Except Code β} (hf : ∀ r x, g (f r x).1 = g r.1)
    (l : List γ) (r : Device × Except Code β) : g (l.foldl f r).1 = g r.1 := by
  induction l generalizing r with
  | nil => rfl
  | cons x xs ih => exact (ih (f r x)).trans (hf r x)

theorem bindD_keeps {r : Res β} {f : Device → β → Res γ} (hf : ∀ d b, g (f d b).1 = g d) : g (bindD r f).1 = g r.1 := by
  unfold bindD
  split
  · rfl
  · exact hf _ _

theorem foldD_keeps {f : Device → β → γ → Res β} (hf : ∀ d b x, g (f d b x).1 = g d) (l : List γ) (d : Device) (b : β) :
    g (foldD l d b f).1 = g d :=
  foldl_res_keeps (g := g) (fun _ x => bindD_keeps (g := g) (fun d b => hf d b x)) l (d, .ok b)

end

/-- A request to the host leaves the link's state. -/
theorem request_link (h : HostLink) (write relaxed : Bool) (a n : Nat) : (h.request write relaxed a n).link = h.link := by
  have htranslate : (h.translate a n).link = h.link := by
    unfold HostLink.translate
    split <;> rfl
  exact htranslate

section
variable {α : Type} {g : Device → α} (hg : BlindToData g)
include hg

/-! ### Writes to module memory -/

theorem BlindToData.mergeReads (d : Device) (mpa n : Nat) (b : Blame) : g (d.mergeReads mpa n b).1 = g d :=
  foldl_enqueue g (fun d _ => (hg.raise _ _).trans (hg.latchUe d _)) _ d

theorem BlindToData.writeUnit (d : Device) (mpa n u : Nat) (bad : List Nat) (h : Hint) (c : ColourClass) (r : Requester) :
    g (d.writeUnit mpa n u bad h c r) = g d := by
  unfold Device.writeUnit
  dsimp only
  split
  · exact (hg.stackWritten _ _ _).trans ((hg.stackAccess _ _ _ _ _ _).trans (hg.panel d _ _))
  · exact hg.allocLine d _

theorem BlindToData.storeMpa (d : Device) (mpa : Nat) (bs : List Byte) (h : Hint) (c : ColourClass) (r : Requester) (b : Blame) :
    g (d.storeMpa mpa bs h c r b) = g d := by
  refine foldl_enqueue g (fun d s => ?_) _ d
  split
  · rfl
  · exact (foldl_enqueue g (fun d u => hg.writeUnit d s.1 s.2 u _ h c r) _ _).trans
      ((hg.mem _ _).trans ((hg.mergeReads _ _ _ _).trans (hg.yokeFlits d _ _ _ _ _)))

theorem BlindToData.storeBelow (d : Device) (mpa : Nat) (bs : List Byte) (c : ColourClass) (r : Requester) :
    g (d.storeBelow mpa bs c r) = g d :=
  (foldl_enqueue g (fun d u => hg.stackAccess d true u _ c r) _ _).trans (hg.mem d _)

theorem BlindToData.loadBelow (d : Device) (mpa n : Nat) (c : ColourClass) (r : Requester) (b : Blame) :
    g (d.loadBelow mpa n c r b).1 = g d :=
  (foldl_enqueue g (fun d a => hg.ueRead d a b) _ _).trans (foldl_enqueue g (fun d u => hg.stackAccess d false u _ c r) _ d)

theorem BlindToData.poisonStored (d : Device) (l : List Nat) : g (d.poisonStored l) = g d :=
  (foldl_enqueue g (fun d p => hg.panel d p _) _ _).trans (hg.bad d _ _)

/-! ### The host's side -/

theorem BlindToData.countHub (d : Device) (e : PmcEvent) (n : Nat) : g (d.countHub e n) = g d := by
  unfold Device.countHub
  split
  · rfl
  · exact hg.counters d _

theorem BlindToData.hostPut (d : Device) (relaxed : Bool) (a : Nat) (bs : List Byte) : g (d.hostPut relaxed a bs) = g d := by
  unfold Device.hostPut
  split
  · exact (hg.hostSide _ _ _ (request_link _ _ _ _ _)).trans (hg.countHub d _ _)
  · exact hg.hostSide d _ _ rfl
  · rfl

theorem BlindToData.hostFetch (d : Device) (a n : Nat) : g (d.hostFetch a n).1 = g d :=
  (hg.hostSide _ _ _ (request_link _ _ _ _ _)).trans (hg.countHub d _ _)

/-! ### Reads and writes by context address -/

theorem BlindToData.readMap (d : Device) (c : Context) (k : Nat) (r : Requester) (b : Blame) : g (d.readMap c k r b) = g d :=
  hg.loadMpa d _ _ _ _ _ _ _

theorem BlindToData.mapFault (d : Device) (c : Context) (ca : Nat) (r : Requester) (b : Blame) :
    g (d.mapFault c ca r b) = g d := by
  unfold Device.mapFault
  dsimp only
  split
  · exact hg.readMap d _ _ _ _
  · rfl

theorem BlindToData.cacheEntry (d : Device) (c : Context) (k : Nat) (r : Requester) (b : Blame) :
    g (d.cacheEntry c k r b) = g d := by
  unfold Device.cacheEntry
  split
  · rfl
  · exact (hg.context _ _ _ (fun _ => ⟨by rfl, by rfl⟩)).trans (hg.readMap d _ _ _ _)

theorem BlindToData.readPiece (d : Device) (a : Access) (ca n : Nat) : g (d.readPiece a ca n).1 = g d := by
  unfold Device.readPiece
  split
  · rfl
  · dsimp only
    split
    · exact hg.mapFault d _ _ _ _
    · split
      · split
        · exact (hg.loadBelow _ _ _ _ _ _).trans (hg.cacheEntry d _ _ _ _)
        · exact (hg.loadMpa _ _ _ _ _ _ _ _).trans (hg.cacheEntry d _ _ _ _)
      · split
        · exact hg.cacheEntry d _ _ _ _
        · exact hg.cacheEntry d _ _ _ _

theorem BlindToData.readCa (d : Device) (a : Access) (ca n : Nat) : g (d.readCa a ca n).1 = g d := by
  refine foldl_res_keeps (g := g) (fun r seg => ?_) _ (d, .ok [])
  split
  · rfl
  · exact hg.readPiece r.1 a _ _

theorem BlindToData.sealGranule (d : Device) (c : Context) (epoch ca addr : Nat) (plain : List Byte) :
    g (d.sealGranule c epoch ca addr plain).1 = g d := by
  unfold Device.sealGranule
  split
  · rfl
  · split
    · rfl
    · exact (hg.context _ _ _ (fun _ => ⟨by rfl, by rfl⟩)).trans ((hg.hostPut _ _ _ _).trans (hg.hostPut d _ _ _))

theorem BlindToData.writePiece (d : Device) (a : Access) (ca : Nat) (bs : List Byte) : g (d.writePiece a ca bs).1 = g d := by
  unfold Device.writePiece
  split
  · rfl
  · split
    · rfl
    · split
      · exact hg.mapFault d _ _ _ _
      · dsimp only
        split
        · split
          · exact (hg.storeBelow _ _ _ _ _).trans (hg.cacheEntry d _ _ _ _)
          · exact (hg.storeMpa _ _ _ _ _ _ _).trans (hg.cacheEntry d _ _ _ _)
        · split
          · exact (hg.hostPut _ _ _ _).trans (hg.cacheEntry d _ _ _ _)
          · refine (foldl_res_keeps (g := g) (fun r x => ?_) _ _).trans (hg.cacheEntry d _ _ _ _)
            split
            · rfl
            · split
              · exact hg.sealGranule _ _ _ _ _ _
              · split
                · rfl
                · exact hg.sealGranule _ _ _ _ _ _

theorem BlindToData.writeCa (d : Device) (a : Access) (ca : Nat) (bs : List Byte) : g (d.writeCa a ca bs).1 = g d := by
  refine foldl_res_keeps (g := g) (fun r seg => ?_) _ (d, .ok ())
  split
  · rfl
  · exact hg.writePiece r.1 a _ _

end

end Sys2Proof.Machine
end

section
/-! Contexts are swapped out and in, and the Bobbin is filled ahead. -/

namespace Sys2Proof.Machine

/-! ### Contexts and their slots -/

/-- The contexts' identifiers, each with whether it is resident. -/
def Device.slotsOf (d : Device) : List (Code × Bool) := d.contexts.map (fun k => (k.id, k.resident))

theorem slotsOf_updCtx (d : Device) (id : Code) {f : Context → Context} (hf : KeepsSlot f) :
    (d.updCtx id f).slotsOf = d.slotsOf := by
  have hlist (l : List Context) : (updCtxIn id f l).map (fun k => (k.id, k.resident)) = l.map (fun k => (k.id, k.resident)) := by
    induction l with
    | nil => rfl
    | cons c cs ih =>
      obtain ⟨hid, hslot⟩ := hf c
      unfold updCtxIn
      split
      · simp [hid, hslot]
      · simp [ih]
  exact hlist d.contexts

theorem slotsOf_map (d : Device) {f : Context → Context} (hf : KeepsSlot f) :
    Device.slotsOf { d with contexts := d.contexts.map f } = d.slotsOf := by
  refine List.map_map.trans (List.map_congr_left (fun c _ => ?_))
  obtain ⟨hid, hslot⟩ := hf c
  exact Prod.ext hid hslot

/-- No data access moves a context into or out of its slot. -/
theorem slots_blind : BlindToData Device.slotsOf where
  panel _ _ _ := rfl
  records _ _ := rfl
  bad _ _ _ := rfl
  lost _ _ := rfl
  mem _ _ := rfl
  hostSide _ _ _ _ := rfl
  counters _ _ := rfl
  context d id _ hf := slotsOf_updCtx d id hf
  contexts d _ hf := slotsOf_map d hf

/-- Whether a context is resident can be read off the slots. -/
theorem resident_of_slots (d : Device) (id : Code) :
    (d.ctx? id).map (fun k => k.resident) = (d.slotsOf.find? (fun k => k.1 = id)).map (fun k => k.2) := by
  simp [Device.ctx?, Device.slotsOf, List.find?_map, Function.comp_def]

/-- A context found after a change of its slot. -/
theorem resident_updCtx {d : Device} {id : Code} {b : Bool} {f : Context → Context} (hf : ∀ c, (f c).id = c.id)
    (hslot : ∀ c, (f c).resident = b) (h : (d.ctx? id).isSome = true) :
    ((d.updCtx id f).ctx? id).map (fun k => k.resident) = some b := by
  obtain ⟨c, hc⟩ := Option.isSome_iff_exists.1 h
  simp [updCtx_ctx d id hf, hc, hslot]

theorem isSome_of_slots {d e : Device} (h : e.slotsOf = d.slotsOf) (id : Code) : (e.ctx? id).isSome = (d.ctx? id).isSome := by
  have hsame : (e.ctx? id).map (fun k => k.resident) = (d.ctx? id).map (fun k => k.resident) := by
    rw [resident_of_slots, resident_of_slots, h]
  simpa using congrArg Option.isSome hsame

section
variable {α : Type} {g : Device → α} (hg : BlindToData g)
include hg

/-! ### What a swap writes and reads (R410) -/

theorem BlindToData.saveWrite (d : Device) (c : Context) (off : Nat) (bs : List Byte) : g (d.saveWrite c off bs) = g d :=
  hg.storeMpa d _ _ _ _ _ _

theorem BlindToData.savePass (d e : Device) (p : PanelId) (k : Fin 2) (h : d.savePass p k = some e) : g e = g d := by
  unfold Device.savePass at h
  dsimp only at h
  split at h
  · obtain rfl := Option.some.inj h
    exact hg.panel d p _
  · obtain ⟨s, -, rfl⟩ := Option.map_eq_some_iff.1 h
    exact (hg.panel _ _ _).trans ((hg.context _ _ _ (fun _ => ⟨by rfl, by rfl⟩)).trans
      ((hg.saveWrite _ _ _ _).trans (foldl_enqueue g (fun d q => hg.saveWrite d _ _ _) _ d)))

theorem BlindToData.savePasses (d : Device) (c : Context) : g ((d.savePasses c).getD d) = g d := by
  have hstep (l : List (Fin 2)) (r : Option Device) (hr : ∀ e, r = some e → g e = g d) :
      ∀ e, l.foldl (fun (r : Option Device) k => r.bind (fun d =>
        let b := (d.panel c.panel).array.slots[k]
        if !b.pass.any (fun p => p.ref.ctx = c.id) then some d
        else if d.passLives b then d.savePass c.panel k else some (d.setSlot c.panel k {}))) r = some e → g e = g d := by
    induction l generalizing r with
    | nil => exact hr
    | cons k ks ih =>
      refine ih _ (fun e he => ?_)
      obtain ⟨f, hf, he⟩ := Option.bind_eq_some_iff.1 he
      dsimp only at he
      split at he
      · exact Option.some.inj he ▸ hr f hf
      · split at he
        · exact (hg.savePass f e _ _ he).trans (hr f hf)
        · exact Option.some.inj he ▸ (hg.panel f _ _).trans (hr f hf)
  have hall := hstep [0, 1] (some d) (fun e he => congrArg g (Option.some.inj he).symm)
  cases hsaved : d.savePasses c with
  | none => rfl
  | some e => exact hall e hsaved

theorem BlindToData.saveItems (d : Device) (c : Context) : g (d.saveItems c) = g d := by
  unfold Device.saveItems
  refine (foldl_enqueue g (fun d e => ?_) _ _).trans ((hg.saveWrite _ _ _ _).trans
    ((foldl_enqueue g (fun d t => hg.saveWrite d _ _ _) _ _).trans
      ((foldl_enqueue g (fun d k => hg.saveWrite d _ _ _) _ _).trans (hg.saveWrite d _ _ _))))
  exact (hg.poisonStored _ _).trans (foldl_enqueue g (fun d i => hg.saveWrite d _ _ _) _ d)

theorem BlindToData.homeRead (d : Device) (a : Access) (at_ : Nat × Nat) (n : Nat) : g (d.homeRead a at_ n).1 = g d :=
  (bindD_keeps (g := g) (fun d _ => bindD_keeps (g := g) (fun _ _ => rfl) |>.trans (hg.readCa d _ _ _))).trans (hg.readCa d _ _ _)

theorem BlindToData.lineRead (d : Device) (a : Access) (e : GussetEntry) (line : Nat) : g (d.lineRead a e line).1 = g d := by
  unfold Device.lineRead
  split
  · split <;> rfl
  · exact hg.homeRead d _ _ _

theorem BlindToData.homeWrite (d : Device) (a : Access) (at_ : Nat × Nat) (ps : List (Nat × Int)) :
    g (d.homeWrite a at_ ps).1 = g d :=
  (bindD_keeps (g := g) (fun d _ => hg.writeCa d _ _ _)).trans (hg.writeCa d _ _ _)

theorem BlindToData.poisonCa (d : Device) (id : Code) (ca : Nat) : g (d.poisonCa id ca) = g d := by
  unfold Device.poisonCa
  split
  · rfl
  · split
    · exact hg.poisonStored d _
    · rfl

theorem BlindToData.gussetHome (d : Device) (id : Code) : g (d.gussetHome id) = g d := by
  unfold Device.gussetHome
  split
  · rfl
  · refine (hg.context _ _ _ (fun _ => ⟨by rfl, by rfl⟩)).trans (foldl_enqueue g (fun d e => foldl_enqueue g (fun d line => ?_) _ d) _ d)
    have hread := hg.lineRead d { ctx := id, cls := .slate } e line
    split
    · rename_i h
      rw [h] at hread
      exact (hg.homeWrite _ _ _ _).trans hread
    · rename_i h
      rw [h] at hread
      exact (hg.poisonCa _ _ _).trans hread

theorem BlindToData.writeCounterLines (d : Device) (c : Context) : g (d.writeCounterLines c) = g d :=
  foldl_enqueue g (fun d _ => hg.hostPut d _ _ _) _ d

theorem BlindToData.writePage (d : Device) (id : Code) : g (d.writePage id) = g d := by
  unfold Device.writePage
  split
  · rfl
  · split
    · rfl
    · exact (foldl_enqueue g (fun d p => hg.hostPut d _ _ _) _ _).trans (hg.context d _ _ (fun _ => ⟨by rfl, by rfl⟩))

theorem BlindToData.dropLines {β : Type} (a : β → Nat) (l : List β) (d : Device) :
    g (l.foldl (fun d x => d.dropLine (a x)) d) = g d :=
  foldl_enqueue g (fun d x => hg.hostSide d d.hostMem (d.dropLine (a x)).host rfl) l d

/-! ### What comes back with a context -/

theorem BlindToData.saveRead (d : Device) (c : Context) (off n : Nat) : g (d.saveRead c off n).1 = g d :=
  hg.loadMpa d _ _ _ _ _ _ _

theorem BlindToData.updStash (d : Device) (id : Code) (tag : Nat) (f : StashEntry → StashEntry) :
    g (d.updStash id tag f) = g d := hg.context d _ _ (fun _ => ⟨by rfl, by rfl⟩)

theorem BlindToData.updGusset (d : Device) (id : Code) (param : BitVec 32) (f : GussetEntry → GussetEntry) :
    g (d.updGusset id param f) = g d := hg.context d _ _ (fun _ => ⟨by rfl, by rfl⟩)

theorem BlindToData.updRing (d : Device) (id : Code) (n : RingId) (f : Ring → Ring) : g (d.updRing id n f) = g d :=
  hg.context d _ _ (fun _ => ⟨by rfl, by rfl⟩)

theorem BlindToData.updDesc (d : Device) (id : Code) (n : RingId) (seq : Nat) (f : Desc → Desc) :
    g (d.updDesc id n seq f) = g d := hg.updRing d _ _ _

theorem BlindToData.dropFill (d : Device) (id : Code) (x : Desc) : g (d.dropFill id x) = g d := by
  unfold Device.dropFill
  split
  · rfl
  · split
    · refine hg.context d _ _ (fun c => ?_)
      split <;> exact ⟨rfl, rfl⟩
    · rfl

theorem BlindToData.finish (d : Device) (id : Code) (n : RingId) (x : Desc) (status : Code) (addr : Nat) (ticket : Option Nat) :
    g (d.finish id n x status addr ticket) = g d := by
  unfold Device.finish
  dsimp only
  refine (hg.updDesc _ _ _ _ _).trans ?_
  split
  · rfl
  · split
    · split
      · rfl
      · exact hg.raiseNeeded d _
    · rfl

theorem BlindToData.discardRuns (hpanels : ∀ d f, g (d.mapPanels f) = g d) (d : Device) (f : DescRef → Bool) :
    g (d.discardRuns f) = g d := by
  unfold Device.discardRuns
  refine (foldl_enqueue g (fun d r => hg.enqueueRec d _ _) _ _).trans ((hpanels _ _).trans (hg.contexts d _ (fun c => ?_)))
  split <;> exact ⟨rfl, rfl⟩

theorem BlindToData.failSeq (hpanels : ∀ d f, g (d.mapPanels f) = g d) (d : Device) (id : Code) (n : RingId) (seq : Nat)
    (status : Code) : g (d.failSeq id n seq status) = g d := by
  unfold Device.failSeq
  split
  · rfl
  · split
    · rfl
    · exact (hg.finish _ _ _ _ _ _ _).trans ((hg.discardRuns hpanels _ _).trans (hg.dropFill d _ _))

theorem BlindToData.restoreItems (hpanels : ∀ d f, g (d.mapPanels f) = g d) (d : Device) (c : Context) :
    g (d.restoreItems c) = g d := by
  have hread (d : Device) (off n : Nat) {f : Context → Context} (hf : KeepsSlot f) :
      g ((d.saveRead c off n).1.updCtx c.id f) = g d := (hg.context _ _ _ hf).trans (hg.saveRead d _ _ _)
  have hrows (d : Device) : g (Device.saveRead (c.tables.foldl (fun d t =>
      let (d, bs, bad) := d.saveRead c (saveTables + 6272 * (t.1 % 8)) t.2.length
      d.updCtx c.id (fun c => { c with
        tables := c.tables.map (fun x => if x.1 = t.1 then (t.1, bs) else x)
        badTables := if bad then t.1 :: c.badTables else c.badTables })) d) c saveScans c.scans.length).1 = g d :=
    (hg.saveRead _ _ _ _).trans (foldl_enqueue g (fun d t => hread d _ _ (fun _ => ⟨by rfl, by rfl⟩)) _ d)
  have hchains (d : Device) : g (c.chains.foldl (fun d k =>
      let (d, bs, bad) := d.saveRead c (saveChains + 128 * (k.1 % 64)) 128
      d.updCtx c.id (fun c => { c with
        chains := c.chains.map (fun x => if x.1 = k.1 then (k.1, BitVec.ofNat 1024 (leNat bs)) else x)
        badChains := if bad then k.1 :: c.badChains else c.badChains })) d) = g d :=
    foldl_enqueue g (fun d k => hread d _ _ (fun _ => ⟨by rfl, by rfl⟩)) _ d
  unfold Device.restoreItems
  dsimp only
  have hpages (l : List (StashEntry × Nat)) (d : Device) : g (l.foldl (fun d e =>
      (List.range e.1.pages).foldl (fun d i => Device.updStash (d.saveRead c (savePages + 65536 * (e.2 + i)) 65536).1 c.id e.1.tag
        (fun x => { x with
          data := memWrite x.data (65536 * i) (d.saveRead c (savePages + 65536 * (e.2 + i)) 65536).2.1
          bad := (x.bad ++ badWords d (c.saveAddr + (savePages + 65536 * (e.2 + i))) (65536 * i)).eraseDups })) d) d) = g d :=
    foldl_enqueue g (fun d e => foldl_enqueue g (fun d i => (hg.updStash _ _ _ _).trans (hg.saveRead d _ _ _)) _ d) l d
  split
  · rw [hpages, hrows, hchains, hg.saveRead]
  · refine (foldl_enqueue g (fun d r => foldl_enqueue g (fun d x => hg.failSeq hpanels d _ _ _ _) _ d) _ _).trans ?_
    rw [hpages, hrows, hchains, hg.saveRead]

theorem BlindToData.gussetFront (d : Device) (id : Code) : g (d.gussetFront id) = g d := by
  unfold Device.gussetFront
  split
  · rfl
  · refine foldl_enqueue g (fun d e => ?_) _ d
    split
    · rfl
    · dsimp only
      have hread (l : List Nat) (a : Access) (e : GussetEntry) (d : Device) :
          g (foldD l d ([] : List (Nat × List (Nat × Int))) (fun d fr line =>
            bindD (d.homeRead a (e.homeOf line) (e.lineWidth line)) (fun d ps => (d, .ok (frontPut fr line ps))))).1 = g d :=
        foldD_keeps (fun d _ _ => (bindD_keeps (g := g) (fun _ _ => rfl)).trans (hg.homeRead d _ _ _)) l d []
      split
      · rename_i h
        exact (hg.updGusset _ _ _ _).trans ((congrArg (fun r => g r.1) h).symm.trans (hread _ _ _ d))
      · rename_i h
        exact (congrArg (fun r => g r.1) h).symm.trans (hread _ _ _ d)

theorem BlindToData.holdLine (d : Device) (a : Nat) : g (d.holdLine a) = g d := by
  unfold Device.holdLine
  dsimp only
  split
  · rfl
  · exact hg.hostSide d _ _ rfl

theorem BlindToData.holdDoorbells (d : Device) (c : Context) : g (d.holdDoorbells c) = g d := by
  unfold Device.holdDoorbells
  exact foldl_enqueue g (fun d (r : Ring) => hg.holdLine d r.dbAddr) c.rings d

theorem BlindToData.newTail (d : Device) (id : Code) (n : RingId) (tail : Nat) : g (d.newTail id n tail) = g d := by
  have hcases {k : Prop} [Decidable k] {a b : Device} (ha : g a = g d) (hb : g b = g d) : g (if k then a else b) = g d := by
    split
    · exact ha
    · exact hb
  unfold Device.newTail
  cases d.ring? id n with
  | none => rfl
  | some r => exact hcases ((hg.updRing _ _ _ _).trans (hg.updRing d _ _ _)) (hg.updRing d _ _ _)

theorem BlindToData.readDoorbells (d : Device) (id : Code) : g (d.readDoorbells id) = g d := by
  refine foldl_enqueue g (fun d n => ?_) _ d
  unfold Device.readDoorbell
  split
  · rfl
  · exact (hg.newTail _ _ _ _).trans (hg.hostFetch d _ _)

end

/-! ### The swaps -/

theorem swapOutCtx_resident {d : Device} {c : Context} (h : (d.ctx? c.id).isSome = true) :
    ((d.swapOutCtx c).ctx? c.id).map (fun k => k.resident) = some false := by
  have hg := slots_blind
  unfold Device.swapOutCtx
  dsimp only
  rw [resident_of_slots, hg.writePage, hg.count, hg.dropLines (fun r : Ring => r.dbAddr), ← resident_of_slots]
  refine resident_updCtx (fun _ => by rfl) (fun _ => by rfl) ?_
  rw [isSome_of_slots (d := d) ((hg.writeCounterLines _ _).trans ((hg.panel _ _ _).trans ((hg.gussetHome _ _).trans
    ((hg.saveItems _ _).trans (hg.savePasses d c)))))]
  exact h

theorem swapInCtx_resident {d : Device} {c : Context} (h : (d.ctx? c.id).isSome = true) :
    ((d.swapInCtx c).ctx? c.id).map (fun k => k.resident) = some true := by
  have hg := slots_blind
  have hslots : (d.swapInCtx c).slotsOf = (d.updCtx c.id (fun c => { c with resident := true, residentSince := d.now })).slotsOf := by
    have hread {k : Prop} [Decidable k] (e : Device) : (if k then e.readDoorbells c.id else e).slotsOf = e.slotsOf := by
      split
      · exact hg.readDoorbells e _
      · rfl
    have hrestored {k : Prop} [Decidable k] (e : Device) : (if k then e else e.restoreItems c).slotsOf = e.slotsOf := by
      split
      · rfl
      · exact hg.restoreItems (fun _ _ => rfl) e c
    unfold Device.swapInCtx
    dsimp only
    rw [hread, hg.holdDoorbells, hg.gussetFront, hrestored]
  rw [resident_of_slots, hslots, ← resident_of_slots]
  exact resident_updCtx (fun _ => by rfl) (fun _ => by rfl) h

theorem swapOut_chosen {d : Device} {id : Code} {c : Context} (h : d.noteReady.ctx? id = some c)
    (hfull : d.noteReady.slotsFull c.panel = true) (hready : (d.noteReady.firstReady c.panel).isSome = true)
    (hvictim : (d.noteReady.swapVictim c.panel).map (fun v => v.id) = some id) : d.swapOut id = d.noteReady.swapOutCtx c := by
  obtain ⟨v, hv, hid⟩ := Option.map_eq_some_iff.1 hvictim
  simp [Device.swapOut, h, hfull, hready, hv, hid]

theorem swapOut_not {d : Device} {id : Code} {c : Context} (h : d.noteReady.ctx? id = some c)
    (hnot : d.noteReady.slotsFull c.panel = false ∨ (d.noteReady.firstReady c.panel).isSome = false ∨
      (d.noteReady.swapVictim c.panel).map (fun v => v.id) ≠ some id) : d.swapOut id = d.noteReady := by
  have hcond : (d.noteReady.slotsFull c.panel && (d.noteReady.firstReady c.panel).isSome &&
      (d.noteReady.swapVictim c.panel).any (fun v => v.id = id)) = false := by
    obtain hno | hno | hno := hnot
    · simp [hno]
    · simp [hno]
    · cases hv : d.noteReady.swapVictim c.panel with
      | none => simp
      | some v => simpa [hv] using fun _ _ => by simpa [hv] using hno
  simp only [Device.swapOut, h, hcond]
  rfl

theorem swapIn_chosen {d : Device} {id : Code} {c : Context} (h : d.noteReady.ctx? id = some c) (hout : c.resident = false)
    (hroom : d.noteReady.slotsFull c.panel = false) (hmem : (d.noteReady.panel c.panel).memOn = true)
    (hfirst : (d.noteReady.firstFitting c.panel).map (fun v => v.id) = some id) : d.swapIn id = d.noteReady.swapInCtx c := by
  obtain ⟨v, hv, hid⟩ := Option.map_eq_some_iff.1 hfirst
  simp [Device.swapIn, h, hout, hroom, hmem, hv, hid]

theorem swapIn_not {d : Device} {id : Code} {c : Context} (h : d.noteReady.ctx? id = some c)
    (hnot : c.resident = true ∨ d.noteReady.slotsFull c.panel = true ∨ (d.noteReady.panel c.panel).memOn = false ∨
      (d.noteReady.firstFitting c.panel).map (fun v => v.id) ≠ some id) : d.swapIn id = d.noteReady := by
  have hcond : (!c.resident && !d.noteReady.slotsFull c.panel && (d.noteReady.firstFitting c.panel).any (fun v => v.id = id) &&
      (d.noteReady.panel c.panel).memOn) = false := by
    obtain hno | hno | hno | hno := hnot
    · simp [hno]
    · simp [hno]
    · simp [hno]
    · cases hv : d.noteReady.firstFitting c.panel with
      | none => simp
      | some v => 
        have hne : ¬ v.id = id := by simpa [hv] using hno
        simp [hne]
  simp only [Device.swapIn, h, hcond]
  rfl

/-! ### BOBBIN_PREFETCH (R240) -/

/-- A stash entry that has been spilled and may come back. -/
def StashEntry.spilled (e : StashEntry) : Bool := !e.bobbin && !e.spill.isEmpty && e.readable

/-- The newer of two entries, the first of them when they are of one age. -/
def newer (v : Option StashEntry) (e : StashEntry) : Option StashEntry :=
  match v with
  | none => some e
  | some w => if w.seq < e.seq then some e else some w

/-- The entry with the highest stash sequence number, the first of them. -/
def newest (l : List StashEntry) : Option StashEntry := l.foldl newer none

/-- An entry newer than all others is found. -/
theorem newest_of_max {l : List StashEntry} {e : StashEntry} (he : e ∈ l) (hmax : ∀ x ∈ l, x ≠ e → x.seq < e.seq) :
    newest l = some e := by
  have hkept (l : List StashEntry) (hl : ∀ x ∈ l, x ≠ e → x.seq < e.seq) : l.foldl newer (some e) = some e := by
    induction l with
    | nil => rfl
    | cons x xs ih =>
      have hx : ¬ e.seq < x.seq := by
        by_cases hxe : x = e
        · subst hxe
          exact Nat.lt_irrefl _
        · exact Nat.lt_asymm (hl x (by simp) hxe)
      simpa [newer, hx] using ih (fun y hy => hl y (by simp [hy]))
  have hfound (l : List StashEntry) (he : e ∈ l) (hl : ∀ x ∈ l, x ≠ e → x.seq < e.seq) (v : Option StashEntry)
      (hv : ∀ w, v = some w → w = e ∨ w.seq < e.seq) : l.foldl newer v = some e := by
    induction l generalizing v with
    | nil => exact absurd he (by simp)
    | cons x xs ih =>
      by_cases hxe : x = e
      · subst hxe
        have hfirst : newer v x = some x := by
          cases v with
          | none => rfl
          | some w => obtain rfl | hlt := hv w rfl <;> simp [newer, *]
        rw [List.foldl_cons, hfirst]
        exact hkept xs (fun y hy => hl y (by simp [hy]))
      · refine ih ((List.mem_cons.1 he).resolve_left (fun h => hxe h.symm)) (fun y hy => hl y (by simp [hy])) _ (fun w hw => ?_)
        have hlt := hl x (by simp) hxe
        cases v with
        | none => exact Option.some.inj hw ▸ .inr hlt
        | some u =>
          unfold newer at hw
          dsimp only at hw
          split at hw
          · exact Option.some.inj hw ▸ .inr hlt
          · exact Option.some.inj hw ▸ hv u rfl
  exact hfound l he hmax none (fun w hw => by simp at hw)

/-- What a prefetch of the entry `e` does. -/
def Device.bringBack (d : Device) (id : Code) (e : StashEntry) : Device :=
  match foldD (List.range e.pages) d ([] : List Byte) (fun d bs i =>
    bindD (d.stashRead { ctx := id, cls := .slate } e.tag (65536 * i) 65536) (fun d x => (d, .ok (bs ++ x)))) with
  | (f, .ok bs) => (f.updStash id e.tag (fun e => { e with bobbin := true, data := memWrite [] 0 bs })).countCtx id 0x04A e.pages
  | (f, .error _) => f

theorem prefetch_eq {d : Device} {id : Code} {c : Context} (h : d.ctx? id = some c) :
    d.prefetch id = match newest (c.stash.filter StashEntry.spilled) with
      | none => d
      | some e => if c.resident && c.releasedSince && e.pages ≤ c.shareFree then d.bringBack id e else d := by
  unfold Device.prefetch
  rw [h]
  rfl

/-- Settles O28: the swaps that R409 chooses, and the entry that comes back to the Bobbin. -/
theorem contextsAreSwapped : Obligations.ContextsAreSwapped := by
  intro s id c hrails hctx d
  obtain rfl : c.id = id := ctx?_id hctx
  have hsome : (d.ctx? c.id).isSome = true := by rw [hctx]; rfl
  refine ⟨fun hfull hready hvictim => ⟨exec_run rfl hrails (swapOut_chosen hctx hfull hready hvictim), swapOutCtx_resident hsome⟩,
    fun hnot => exec_run rfl hrails (swapOut_not hctx hnot),
    fun hout hroom hmem hfirst => ⟨exec_run rfl hrails (swapIn_chosen hctx hout hroom hmem hfirst), swapInCtx_resident hsome⟩,
    fun hnot => exec_run rfl hrails (swapIn_not hctx hnot), fun k hk => ?_⟩
  intro spilled
  have hfilter (e : StashEntry) : e ∈ k.stash.filter StashEntry.spilled ↔ spilled e := by
    simp [spilled, StashEntry.spilled, and_assoc]
  refine ⟨fun hnone => exec_run rfl hrails ?_, fun e he hmax => ?_⟩
  · have hempty : k.stash.filter StashEntry.spilled = [] :=
      List.eq_nil_iff_forall_not_mem.2 (fun e he => hnone e ((hfilter e).1 he))
    rw [prefetch_eq hk, hempty]
    rfl
  · have hnewest : newest (k.stash.filter StashEntry.spilled) = some e :=
      newest_of_max ((hfilter e).2 he) (fun x hx hne => hmax x ((hfilter x).1 hx) hne)
    refine ⟨fun hnot => exec_run rfl hrails ?_, fun hin hfree hroom => exec_run rfl hrails ?_⟩
    · rw [prefetch_eq hk, hnewest]
      refine if_neg ?_
      obtain hno | hno | hno := hnot
      · simp [hno]
      · simp [hno]
      · simp [Nat.not_le.2 hno]
    · rw [prefetch_eq hk, hnewest]
      exact if_pos (by simp [hin, hfree, hroom])

end Sys2Proof.Machine
end

section
/-! Memory reads back what was written. -/

namespace Sys2Proof.Machine

theorem memAbove_of_le {a b : Nat} (h : a ≤ b) {m : Memory} (hm : memAbove b m = true) : memAbove a m = true := by
  simp only [memAbove, List.all_eq_true, decide_eq_true_eq] at hm ⊢
  exact fun c hc => Nat.lt_of_le_of_lt h (hm c hc)

/-- A byte of a memory that keeps only some addresses. -/
theorem memGet_filter (p : Nat → Bool) {m : Memory} (h : memWf m = true) (a : Nat) :
    memGet (m.filter (fun c => p c.1)) a = if p a then memGet m a else 0 := by
  induction m with
  | nil => simp [memGet]
  | cons c m ih =>
    obtain ⟨b, v⟩ := c
    obtain ⟨-, habove, hm⟩ := (memWf_cons b v m).1 h
    by_cases hb : p b = true
    · rw [List.filter_cons_of_pos (p := fun c : Host.Cell => p c.1) hb]
      by_cases hba : b = a
      · subst hba
        simp [memGet, hb]
      · simp only [memGet, hba, if_false, ih hm]
        by_cases hlt : a < b <;> simp [hlt]
    · rw [List.filter_cons_of_neg (p := fun c : Host.Cell => p c.1) hb, ih hm]
      by_cases hpa : p a = true
      · have hba : ¬ b = a := fun he => hb (he ▸ hpa)
        simp only [hpa, if_true, memGet, hba, if_false]
        split
        · next hlt => exact memGet_below (memAbove_of_le (Nat.le_of_lt hlt) habove)
        · rfl
      · simp [hpa]

/-- A byte of a memory of which a range has been set to 0. -/
theorem memGet_zero {m : Memory} (h : memWf m = true) (a n b : Nat) :
    memGet (memZero m a n) b = if a ≤ b ∧ b < a + n then 0 else memGet m b := by
  rw [memZero, memGet_filter (fun x => decide (x < a) || decide (a + n ≤ x)) h]
  by_cases hin : a ≤ b ∧ b < a + n
  · have hno : (decide (b < a) || decide (a + n ≤ b)) = false := by
      simp only [Bool.or_eq_false_iff, decide_eq_false_iff_not]
      omega
    simp [hno, hin]
  · have hyes : (decide (b < a) || decide (a + n ≤ b)) = true := by
      simp only [Bool.or_eq_true, decide_eq_true_eq]
      omega
    simp [hyes, hin]

/-- Settles O29: reads after writes of a canonical memory. -/
theorem memoryReadsBack : Obligations.MemoryReadsBack := by
  intro m a n bs h
  exact ⟨memWrite_wf bs m a h, memRead_write bs m a h, fun b hb => memGet_write_other bs m a b h hb, memZero_wf m a n h,
    memGet_zero h a n⟩

end Sys2Proof.Machine
end

section
/-! The enable of a panel's memory, and its retire table. -/

namespace Sys2Proof.Machine

/-! ### Enables that run checks in order -/

/-- What a list of checks leads to: the first that fails shows its reason and register, and all passed lead to `Q`. -/
def Shows (l : List (Bool × Code × Nat)) (P : Code → Nat → Prop) (Q : Prop) : Prop :=
  match firstFailure l with
  | some (c, b) => P c b
  | none => Q

theorem shows_of_match {l : List (Bool × Code × Nat)} {P : Code → Nat → Prop} {Q : Prop}
    (hfail : ∀ c b, firstFailure l = some (c, b) → P c b) (hpass : firstFailure l = none → Q) : Shows l P Q := by
  unfold Shows
  split
  · exact hfail _ _ ‹_›
  · exact hpass ‹_›

/-- What holds whichever check fails, and when all pass. -/
theorem Shows.elim {l : List (Bool × Code × Nat)} {P : Code → Nat → Prop} {Q R : Prop} (h : Shows l P Q)
    (hfail : ∀ c b, P c b → R) (hpass : Q → R) : R := by
  unfold Shows at h
  split at h
  · exact hfail _ _ h
  · exact hpass h

theorem Shows.mono {l : List (Bool × Code × Nat)} {P P' : Code → Nat → Prop} {Q Q' : Prop} (h : Shows l P Q)
    (hfail : ∀ c b, P c b → P' c b) (hpass : Q → Q') : Shows l P' Q' := by
  unfold Shows at h ⊢
  split at h
  · exact hfail _ _ h
  · exact hpass h

/-- The first check, and what the others lead to. -/
theorem Shows.step {ok : Bool} {c : Code} {b : Nat} {l : List (Bool × Code × Nat)} {P : Code → Nat → Prop} {Q R K : Prop}
    [Decidable K] (h : Shows ((ok, c, b) :: l) P Q) (hk : ok = false ↔ K) (hrest : Shows l P Q → R) : if K then P c b else R := by
  unfold Shows firstFailure at h
  cases ok with
  | true =>
    rw [if_neg (fun k => by simpa using hk.2 k)]
    exact hrest h
  | false =>
    rw [if_pos (hk.1 rfl)]
    exact h

/-- A field out of its range. -/
theorem outOfRange_iff (lo hi x : Nat) : (decide (lo ≤ x) && decide (x ≤ hi)) = false ↔ x < lo ∨ hi < x := by
  simp only [Bool.and_eq_false_iff, decide_eq_false_iff_not, Nat.not_le]

theorem and_not_false_iff (a b : Bool) : (a && !b) = false ↔ a = false ∨ b = true := by
  cases a <;> cases b <;> decide

theorem not_or_false_iff (a b : Bool) : (!a || b) = false ↔ a = true ∧ b = false := by
  cases a <;> cases b <;> decide

/-! ### The memory enable (R400, R402, R887) -/

/-- The checks of the memory enable. -/
def memCheckList (d : Device) (q : Panel) : List (Bool × Code × Nat) :=
  [(q.mem.present, 0x0301, 0xFF),
   (q.mem.trained = 0xF, 0x0302, 0x01),
   (q.mem.loaded && !q.mem.loadBusy, 0x0307, 0x04),
   (1 ≤ fieldOf q.memScrub 7 0 && fieldOf q.memScrub 7 0 ≤ 168, 0x0303, 0x02),
   (!d.guarantee || bitOf q.memCtl 1, 0x0303, 0x00),
   (1 ≤ fieldOf q.memCtl 11 8 && fieldOf q.memCtl 11 8 ≤ 8, 0x0304, 0x00),
   (4 ≤ fieldOf q.spoolCfg 4 0 && fieldOf q.spoolCfg 4 0 ≤ 16, 0x0304, 0x0A)]

theorem memChecks_inService {d : Device} (h : d.escalationCode = none) (p : PanelId) :
    d.memChecks p = firstFailure (memCheckList d (d.panel p)) := by
  simp only [Device.memChecks, h, memCheckList]

/-- The panel after the fields of MEM_CTL have been written. -/
def Panel.withMemFields (q : Panel) (v : BitVec 32) : Panel :=
  { q with memCtl := mergeBits q.memCtl (v.setWidth 64) 0xF02 }

/-- A panel of which only a step of the memory enable has changed. -/
structure Device.PanelStep (d e : Device) (p : PanelId) (q : Panel) : Prop where
  panel : e.panel p = q
  others : ∀ o, o ≠ p → e.panel o = d.panel o
  mem : e.mem = d.mem
  contexts : e.contexts = d.contexts

theorem updPanel_step (d : Device) (p : PanelId) (f : Panel → Panel) : d.PanelStep (d.updPanel p f) p (f (d.panel p)) :=
  ⟨updPanel_panel d p f, fun _ h => updPanel_other d h f, rfl, rfl⟩

theorem Device.PanelStep.guard {d e : Device} {p : PanelId} {q : Panel} (h : d.PanelStep e p q) :
    d.PanelStep e.updateGuard p q := by
  obtain ⟨r, hr⟩ := updateGuard_eq e
  rw [hr]
  exact ⟨h.panel, h.others, h.mem, h.contexts⟩

theorem Device.PanelStep.trans {d e f : Device} {p : PanelId} {q r : Panel} (h : d.PanelStep e p q) (k : e.PanelStep f p r) :
    d.PanelStep f p r :=
  ⟨k.panel, fun o ho => (k.others o ho).trans (h.others o ho), k.mem.trans h.mem, k.contexts.trans h.contexts⟩

/-- The bits of a whole write. -/
theorem asked_of_write (old : BitVec 64) (v : BitVec 32) {i : Nat} (hi : i < 32) :
    bitOf (mergeBits old (v.setWidth 64) 0xFFFFFFFF) i = v.getLsbD i := by
  have hmask : (0xFFFFFFFF : BitVec 64).getLsbD i = true := by
    have : ∀ i < 32, (0xFFFFFFFF : BitVec 64).getLsbD i = true := by decide
    exact this i hi
  rw [bitOf_mergeBits, hmask, if_pos rfl, bitOf_setWidth]

theorem memCtlWrite_ask {d : Device} {p : PanelId} {v : BitVec 32} (hoff : (d.panel p).memOn = false) (hen : v.getLsbD 0 = true) :
    d.memCtlWrite p (v.setWidth 64) 0xFFFFFFFF =
      let e := d.updPanel p (fun q => q.withMemFields v)
      match e.memChecks p with
      | some (c, b) => e.memReason p c b
      | none => ((e.updPanel p (fun q => { q with
          memCtl := setBit q.memCtl 0 true
          mem := { (d.panel p).mem with spool := [], windowSince := d.now, rateCount := 0, rateRecorded := false, scrubbed := [] } })).memReason
            p 0 0).updateGuard := by
  unfold Device.memCtlWrite
  simp only [hoff, asked_of_write _ v (show 0 < 32 by decide), hen]
  rfl

theorem memCtlWrite_clear {d : Device} {p : PanelId} {v : BitVec 32} (hon : (d.panel p).memOn = true) (hclear : v.getLsbD 0 = false) :
    d.memCtlWrite p (v.setWidth 64) 0xFFFFFFFF = if (d.panel p).enabled then d else
      (d.updPanel p (fun q => { q with
        memCtl := setBit q.memCtl 0 false, mem := { (d.panel p).mem with rateCount := 0, rateRecorded := false } })).updateGuard := by
  unfold Device.memCtlWrite
  simp only [hon, asked_of_write _ v (show 0 < 32 by decide), hclear]
  rfl

/-- The panel after an enable whose checks have passed. -/
def Panel.memEnabled (q : Panel) (v : BitVec 32) (now : Nat) : Panel :=
  { q with
    memCtl := setBit (q.withMemFields v).memCtl 0 true
    mem := { q.mem with
      reason := 0, badReg := 0, spool := [], windowSince := now, rateCount := 0, rateRecorded := false, scrubbed := [] } }

/-- The enable shows its first failed check on its panel, or enables it. -/
theorem memEnable_shows {d : Device} {p : PanelId} {v : BitVec 32} (hoff : (d.panel p).memOn = false) (hen : v.getLsbD 0 = true)
    (hservice : d.escalationCode = none) :
    let e := d.memCtlWrite p (v.setWidth 64) 0xFFFFFFFF
    Shows (memCheckList d ((d.panel p).withMemFields v))
      (fun c b => d.PanelStep e p { (d.panel p).withMemFields v with mem := { (d.panel p).mem with reason := c, badReg := b } })
      (d.PanelStep e p ((d.panel p).memEnabled v d.now)) := by
  intro e
  have hfields := updPanel_step d p (fun q => q.withMemFields v)
  have hchecks : (d.updPanel p (fun q => q.withMemFields v)).memChecks p = firstFailure (memCheckList d ((d.panel p).withMemFields v)) := by
    rw [memChecks_inService (d := d.updPanel p (fun q => q.withMemFields v)) hservice, updPanel_panel]
    rfl
  have hwrite := memCtlWrite_ask hoff hen
  refine shows_of_match (fun c b hfail => ?_) (fun hpass => ?_)
  · have he : e = (d.updPanel p (fun q => q.withMemFields v)).memReason p c b := by
      simp only [e, hwrite, hchecks, hfail]
    have hstep := hfields.trans (updPanel_step _ p (fun q => { q with mem := { q.mem with reason := c, badReg := b } }))
    rw [hfields.panel] at hstep
    rw [he]
    exact hstep
  · let f : Panel → Panel := fun q => { q with
      memCtl := setBit q.memCtl 0 true
      mem := { (d.panel p).mem with spool := [], windowSince := d.now, rateCount := 0, rateRecorded := false, scrubbed := [] } }
    have he : e = (((d.updPanel p (fun q => q.withMemFields v)).updPanel p f).memReason p 0 0).updateGuard := by
      simp only [e, hwrite, hchecks, hpass]
      rfl
    have hset := hfields.trans (updPanel_step _ p f)
    have hstep := hset.trans (updPanel_step _ p (fun q => { q with mem := { q.mem with reason := 0, badReg := 0 } }))
    rw [hset.panel, hfields.panel] at hstep
    rw [he]
    exact hstep.guard

/-! ### The retire table (R388, R389, R926) -/

theorem updPanel_updPanel (d : Device) (p : PanelId) (f g : Panel → Panel) :
    (d.updPanel p f).updPanel p g = d.updPanel p (fun q => g (f q)) := by
  simp [Device.updPanel, Device.panel]

/-- A change of a panel is known by what it does to that panel. -/
theorem updPanel_congr {d : Device} {p : PanelId} {f g : Panel → Panel} (h : f (d.panel p) = g (d.panel p)) :
    d.updPanel p f = d.updPanel p g := by
  simp [Device.updPanel, h]

theorem updPMem_only (d : Device) (p : PanelId) (f : PanelMem → PanelMem) :
    d.OnlyPanel (d.updPMem p f) p ∧ (d.updPMem p f).panel p = { d.panel p with mem := f (d.panel p).mem } :=
  ⟨updPanel_onlyPanel d p _, updPanel_panel d p _⟩

theorem mask13 (i : Nat) (hi : i < 64) : (0xFFFFFFFF &&& 0x1FFF : BitVec 64).getLsbD i = decide (i < 13) := by
  have : ∀ i < 64, (0xFFFFFFFF &&& 0x1FFF : BitVec 64).getLsbD i = decide (i < 13) := by decide
  exact this i hi

/-- The count of a table reads back from MEM_RETIRE_CTL. -/
theorem retireCount_of_write (old : BitVec 64) (v : BitVec 32) :
    fieldOf (mergeBits old (v.setWidth 64) (0xFFFFFFFF &&& 0x1FFF)) 12 0 = v.toNat % 2 ^ 13 := by
  refine Nat.eq_of_testBit_eq (fun i => ?_)
  rw [fieldOf, Nat.shiftRight_zero, Nat.testBit_mod_two_pow, Nat.testBit_mod_two_pow]
  by_cases hi : i < 13
  · have hbit := bitOf_mergeBits old (v.setWidth 64) (0xFFFFFFFF &&& 0x1FFF) i
    rw [mask13 i (by omega), bitOf_setWidth] at hbit
    simpa [hi, bitOf, BitVec.getLsbD] using hbit
  · simp [hi]

theorem risesStrictly_iff (l : List Nat) : risesStrictly l = true ↔ l.Pairwise (fun a b => a < b) := by
  rw [← List.isChain_iff_pairwise]
  induction l with
  | nil => simp [risesStrictly]
  | cons a l ih =>
    cases l with
    | nil => simp [risesStrictly]
    | cons b l => simpa [risesStrictly] using fun _ => ih

/-- A page enters a rising table in its place. -/
theorem insertPage_rises {page : Nat} {t : List Nat} (h : t.Pairwise (fun a b => a < b)) :
    (insertPage page t).Pairwise (fun a b => a < b) := by
  refine List.pairwise_append.2 ⟨h.filter _, List.pairwise_cons.2 ⟨fun x hx => ?_, h.filter _⟩, fun a ha b hb => ?_⟩
  · simpa using (List.mem_filter.1 hx).2
  · have hlow : a < page := by simpa using (List.mem_filter.1 ha).2
    obtain rfl | hb := List.mem_cons.1 hb
    · exact hlow
    · exact hlow.trans (by simpa using (List.mem_filter.1 hb).2)

theorem mem_insertPage {page : Nat} {t : List Nat} (e : Nat) : e ∈ insertPage page t ↔ e = page ∨ e ∈ t := by
  simp only [insertPage, List.mem_append, List.mem_filter, List.mem_cons, decide_eq_true_eq]
  constructor
  · rintro (⟨h, -⟩ | h | ⟨h, -⟩)
    · exact .inr h
    · exact .inl h
    · exact .inr h
  · rintro (h | h)
    · exact .inr (.inl h)
    · obtain hlt | heq | hgt := Nat.lt_trichotomy e page
      · exact .inl ⟨h, hlt⟩
      · exact .inr (.inl heq)
      · exact .inr (.inr ⟨h, hgt⟩)

/-- The list of the host that a load takes. -/
theorem retireImage_eq (d : Device) (p : PanelId) :
    let loading := (d.panel p).mem.loading
    let list := (List.range loading.2).map (fun i => leNat (d.hostRead (loading.1 + 4 * i) 4))
    let good := d.host.link = .l0 ∧ loading.2 ≤ 4096 ∧ (∀ e ∈ list, e < 5242880) ∧ list.Pairwise (fun a b => a < b)
    (good → d.retireImage p = some list) ∧ (¬ good → d.retireImage p = none) := by
  intro loading list good
  have hcond : (d.hostUp && loading.2 ≤ 4096 && list.all (fun e => e ≤ 5242879) && risesStrictly list) = true ↔ good := by
    simp only [Bool.and_eq_true, Device.hostUp, decide_eq_true_eq, List.all_eq_true, risesStrictly_iff, and_assoc, good]
    refine and_congr_right (fun _ => and_congr_right (fun _ => and_congr_left (fun _ => ?_)))
    exact forall_congr' (fun e => imp_congr_right (fun _ => Nat.lt_succ_iff.symm))
  exact ⟨fun h => if_pos (hcond.2 h), fun h => if_neg (fun k => h (hcond.1 k))⟩

/-- A row that changes one panel's memory state alone. -/
theorem completes_updPMem {c : Instr} {s : State} {p : PanelId} {g : Device → Device} {f : PanelMem → PanelMem}
    (hc : exec c s = s.run g) (hrails : s.pins.railsOn = true) (h : g s.dev = s.dev.updPMem p f) :
    Completes c s (fun t => t.OnlyDevice s ∧ s.dev.OnlyPanel t.dev p ∧
      t.dev.panel p = { s.dev.panel p with mem := f (s.dev.panel p).mem }) :=
  completes_updPanel hc hrails h

theorem retireCtlWrite_on {d : Device} {p : PanelId} {v : BitVec 32} (hon : (d.panel p).memOn = true) (hload : v.getLsbD 31 = true) :
    d.retireCtlWrite p (v.setWidth 64) 0xFFFFFFFF = d.updPMem p (fun m => { m with reason := 0x0308 }) := by
  have hask : bitOf (v.setWidth 64 &&& 0xFFFFFFFF) 31 = true := by simpa [bitOf] using hload
  simp only [Device.retireCtlWrite, hask, hon, if_true]

/-- The panel after the count of a table has been written. -/
def Panel.withCount (q : Panel) (v : BitVec 32) : Panel :=
  { q with memRetireCtl := mergeBits q.memRetireCtl (v.setWidth 64) (0xFFFFFFFF &&& 0x1FFF) }

theorem retireCtlWrite_off {d : Device} {p : PanelId} {v : BitVec 32} (hoff : (d.panel p).memOn = false) :
    d.retireCtlWrite p (v.setWidth 64) 0xFFFFFFFF = d.updPanel p (fun q => { q.withCount v with
      mem := if v.getLsbD 31 = true ∧ q.mem.loadBusy = false then
        { q.mem with loadBusy := true, loading := (q.memRetireBase.toNat / 64 * 64, v.toNat % 2 ^ 13) } else q.mem }) := by
  have hask : bitOf (v.setWidth 64 &&& 0xFFFFFFFF) 31 = v.getLsbD 31 := by simp [bitOf]
  have hfields : (d.updPanel p (fun q => q.withCount v)).panel p = (d.panel p).withCount v := updPanel_panel _ _ _
  have hcount : fieldOf ((d.panel p).withCount v).memRetireCtl 12 0 = v.toNat % 2 ^ 13 := retireCount_of_write _ v
  unfold Device.retireCtlWrite
  simp only [hask, hoff, Bool.false_eq_true, if_false]
  change (if (v.getLsbD 31 && !((d.updPanel p (fun q => q.withCount v)).panel p).mem.loadBusy) = true
    then (d.updPanel p (fun q => q.withCount v)).updPMem p (fun m => { m with
      loadBusy := true
      loading := (((d.updPanel p (fun q => q.withCount v)).panel p).memRetireBase.toNat / 64 * 64,
        fieldOf ((d.updPanel p (fun q => q.withCount v)).panel p).memRetireCtl 12 0) }) else d.updPanel p (fun q => q.withCount v)) = _
  rw [hfields]
  by_cases hload : v.getLsbD 31 = true ∧ (d.panel p).mem.loadBusy = false
  · rw [if_pos (by simpa [Panel.withCount] using hload), Device.updPMem, updPanel_updPanel]
    refine updPanel_congr ?_
    rw [if_pos hload, hcount]
    rfl
  · rw [if_neg (by simpa [Panel.withCount] using hload)]
    refine updPanel_congr ?_
    rw [if_neg hload]
    rfl

theorem retireLoadDone_idle {d : Device} {p : PanelId} (h : (d.panel p).mem.loadBusy = false ∨ d.host.link = .recovery) :
    d.retireLoadDone p = d := by
  refine if_pos ?_
  obtain h | h := h
  · simp [h]
  · simp [h]

theorem retireLoadDone_busy {d : Device} {p : PanelId} (hbusy : (d.panel p).mem.loadBusy = true) (hlink : d.host.link ≠ .recovery) :
    d.retireLoadDone p = match d.retireImage p with
      | some t => d.updPMem p (fun m => { m with loadBusy := false, loaded := true, retired := t })
      | none => d.updPMem p PanelMem.loadFailed :=
  if_neg (by simp [hbusy, hlink])

/-- A page that cannot enter the table. -/
theorem retireAdd_refused {d : Device} {p : PanelId} {page : Nat} (h : (d.panel p).memOn = false ∨ 5242880 ≤ page) :
    d.retireAdd p page = d.updPMem p (fun m => { m with reason := 0x0308 }) := by
  refine if_pos ?_
  obtain h | h := h
  · simp [h]
  · simp only [Bool.or_eq_true, decide_eq_true_eq]
    exact .inr h

/-- A page of an enabled memory: in the table already, or entered while there is room. -/
theorem retireAdd_page {d : Device} {p : PanelId} {page : Nat} (hon : (d.panel p).memOn = true) (hpage : page < 5242880) :
    d.retireAdd p page = if page ∈ (d.panel p).mem.retired then d
      else if 4096 ≤ (d.panel p).mem.retired.length then d.updPMem p (fun m => { m with reason := 0x0315 })
      else d.updPMem p (fun m => { m with retired := insertPage page m.retired }) := by
  have hok : (!(d.panel p).memOn || decide (5242879 < page)) = false := by
    simp only [hon, Bool.not_true, Bool.false_or, decide_eq_false_iff_not]
    omega
  unfold Device.retireAdd
  simp only [hok, List.contains_iff_mem]
  rfl

/-- Settles O30: the checks of the memory enable, and what enters the retire table. -/
theorem memoryEnableAndRetireTable : Obligations.MemoryEnableAndRetireTable := by
  refine ⟨fun s p v hrails hservice => ⟨fun hoff hen => ?_, fun hon hpanel hclear => ?_, fun hon hpanel hclear => ?_⟩,
    fun s p v hrails => ?_⟩
  · have h := memEnable_shows hoff hen hservice
    obtain ⟨q, hstep⟩ : ∃ q, s.dev.PanelStep (s.dev.memCtlWrite p (v.setWidth 64) 0xFFFFFFFF) p q :=
      h.elim (fun _ _ hstep => ⟨_, hstep⟩) (fun hstep => ⟨_, hstep⟩)
    refine completes_run rfl hrails ⟨rfl, hstep.others, hstep.mem, hstep.contexts, ?_⟩
    refine (h.mono (fun _ _ hstep => hstep.panel) (fun hstep => hstep.panel)).step Iff.rfl fun h =>
      h.step decide_eq_false_iff_not fun h => h.step (and_not_false_iff _ _) fun h => h.step (outOfRange_iff 1 168 _) fun h =>
      h.step (not_or_false_iff _ _) fun h => h.step (outOfRange_iff 1 8 _) fun h => h.step (outOfRange_iff 4 16 _) fun h => ?_
    rw [show _ = _ from h]
    exact ⟨bitOf_setBit _ 0 0 true (by decide), rfl⟩
  · exact exec_run rfl hrails ((memCtlWrite_clear hon hclear).trans (if_pos hpanel))
  · have hwrite := (memCtlWrite_clear hon hclear).trans (if_neg (Bool.eq_false_iff.1 hpanel))
    have hstep := (updPanel_step s.dev p (fun q => { q with
      memCtl := setBit q.memCtl 0 false, mem := { (s.dev.panel p).mem with rateCount := 0, rateRecorded := false } })).guard
    rw [← hwrite] at hstep
    refine completes_run rfl hrails ⟨rfl, ?_, hstep.others, hstep.mem⟩
    rw [hstep.panel]
    exact bitOf_setBit _ 0 0 false (by decide)
  · intro q list good page only
    obtain ⟨htaken, hrefused⟩ := retireImage_eq s.dev p
    have hlist (hbusy : q.mem.loadBusy = true) (hgood : good) :
        s.dev.retireLoadDone p = s.dev.updPMem p (fun m => { m with loadBusy := false, loaded := true, retired := list }) := by
      rw [retireLoadDone_busy hbusy (by rw [hgood.1]; decide), htaken hgood]
    have hfailed (hbusy : q.mem.loadBusy = true) (hlink : s.dev.host.link ≠ .recovery) (hbad : ¬ good) :
        s.dev.retireLoadDone p = s.dev.updPMem p PanelMem.loadFailed := by
      rw [retireLoadDone_busy hbusy hlink, hrefused hbad]
    have hfullTable (hon : q.memOn = true) (hpage : page < 5242880) (hnew : page ∉ q.mem.retired) (hfull : 4096 ≤ q.mem.retired.length) :
        s.dev.retireAdd p page = s.dev.updPMem p (fun m => { m with reason := 0x0315 }) := by
      rw [retireAdd_page hon hpage, if_neg hnew, if_pos hfull]
    have hentered (hon : q.memOn = true) (hpage : page < 5242880) (hnew : page ∉ q.mem.retired) (hroom : q.mem.retired.length < 4096) :
        s.dev.retireAdd p page = s.dev.updPMem p (fun m => { m with retired := insertPage page m.retired }) := by
      rw [retireAdd_page hon hpage, if_neg hnew, if_neg (Nat.not_le.2 hroom)]
    refine ⟨fun hon hload => completes_updPMem (g := fun d => d.retireCtlWrite p (v.setWidth 64) 0xFFFFFFFF) rfl hrails (retireCtlWrite_on hon hload), fun hoff => ?_,
      fun hno => exec_run rfl hrails (retireLoadDone_idle hno), fun hbusy hgood => completes_updPMem (g := fun d => d.retireLoadDone p) rfl hrails (hlist hbusy hgood),
      fun hbusy hlink hbad => completes_updPMem (g := fun d => d.retireLoadDone p) rfl hrails (hfailed hbusy hlink hbad),
      fun hno => completes_updPMem (g := fun d => d.retireAdd p page) rfl hrails (retireAdd_refused hno),
      fun hon hpage hin => exec_run rfl hrails ((retireAdd_page hon hpage).trans (if_pos hin)),
      fun hon hpage hnew hfull => 
        completes_updPMem (g := fun d => d.retireAdd p page) rfl hrails (hfullTable hon hpage hnew hfull),
      fun hon hpage hnew hroom hrises => ?_⟩
    · obtain ⟨t, hexec, honly, hother, hpanel⟩ := completes_updPanel (c := .retireLoad p v)
        (g := fun d => d.retireCtlWrite p (v.setWidth 64) 0xFFFFFFFF) rfl hrails (retireCtlWrite_off hoff)
      refine ⟨t, hexec, honly, hother, ?_⟩
      rw [hpanel]
      refine ⟨rfl, fun i hi => ?_⟩
      simp only [Panel.withCount, bitOf_mergeBits, mask13 i hi, bitOf_setWidth, decide_eq_true_eq]
      rfl
    · obtain ⟨t, hexec, honly, hother, hpanel⟩ := completes_updPMem (c := .memRetireAdd p v) (g := fun d => d.retireAdd p page)
        rfl hrails (hentered hon hpage hnew hroom)
      refine ⟨t, hexec, honly, hother, ?_⟩
      rw [hpanel]
      exact ⟨insertPage_rises hrises, fun e => mem_insertPage e⟩

end Sys2Proof.Machine
end

section
/-! What ECC finds in an access of an enabled memory. -/

namespace Sys2Proof.Machine

/-! ### Addresses of an access -/

theorem panelBytes_pos : 0 < panelBytes := by decide

theorem panel_of_lt {mpa : Nat} (h : mpa < mpaEnd) : (panelOf mpa).val = mpa / panelBytes := by
  have hend : mpaEnd = panelBytes * 8 := by decide
  exact Nat.mod_eq_of_lt (Nat.div_lt_of_lt_mul (hend ▸ h))

/-- The access of an address, by its panel. -/
theorem access_place {mpa : Nat} (h : mpa < mpaEnd) :
    (panelOf mpa).val * panelBytes + ppaOf mpa / 64 * 64 = 64 * (mpa / 64) := by
  have hdiv : panelBytes = 64 * (panelBytes / 64) := by decide
  have hsplit : mpa = panelBytes * (mpa / panelBytes) + ppaOf mpa := (Nat.div_add_mod mpa panelBytes).symm
  have hmul : panelBytes * (mpa / panelBytes) = 64 * (panelBytes / 64 * (mpa / panelBytes)) := by
    rw [← Nat.mul_assoc, ← hdiv]
  rw [panel_of_lt h, Nat.mul_comm]
  omega

theorem ppaOf_lt (mpa : Nat) : ppaOf mpa < panelBytes := Nat.mod_lt _ panelBytes_pos

/-- The first address of an access lies in the same panel and page. -/
theorem access_panel {mpa : Nat} (h : mpa < mpaEnd) :
    panelOf (64 * (mpa / 64)) = panelOf mpa ∧ ppaOf (64 * (mpa / 64)) = ppaOf mpa / 64 * 64 := by
  have hle : ppaOf mpa / 64 * 64 < panelBytes := Nat.lt_of_le_of_lt (Nat.div_mul_le_self _ _) (ppaOf_lt mpa)
  have hplace := access_place h
  have hlt : 64 * (mpa / 64) < mpaEnd := Nat.lt_of_le_of_lt (Nat.mul_div_le mpa 64) h
  constructor
  · refine Fin.ext ?_
    rw [panel_of_lt hlt, ← hplace, Nat.add_comm, Nat.add_mul_div_right _ _ panelBytes_pos, Nat.div_eq_of_lt hle, Nat.zero_add]
  · rw [ppaOf, ← hplace, Nat.mul_add_mod', Nat.mod_eq_of_lt hle]

/-! ### One symbol in error (R377, R378) -/

theorem symbolErrors_one {sy : Fin 18} {v : BitVec 32} (hv : v ≠ 0#32) :
    symbolErrors { flips := [(sy, v)], from_ := none } 0#64 = [(sy, v)] := by
  have hone : ∀ sy : Fin 18, (List.finRange 18).filter (fun s => decide (s = sy)) = [sy] := by decide
  have hwrong (s : Fin 18) : (if s.val = 16 then (0#64).setWidth 32
      else if s.val = 17 then (0#64 >>> 32).setWidth 32 else 0) = 0#32 := by
    split
    · decide
    · split <;> decide
  have hstep (s : Fin 18) :
      (if (([(sy, v)] : List (Fin 18 × BitVec 32)).filter (fun p => p.1 = s)).foldl (fun v p => v ^^^ p.2) 0 ^^^ 0#32 = 0 then none
        else some (s, (([(sy, v)] : List (Fin 18 × BitVec 32)).filter (fun p => p.1 = s)).foldl (fun v p => v ^^^ p.2) 0 ^^^ 0#32)) =
        if s = sy then some (s, v) else none := by
    by_cases hs : sy = s
    · subst hs
      simp [hv]
    · simp [hs, Ne.symm hs]
  have hmap (l : List (Fin 18)) : l.filterMap (fun s => if s = sy then some (s, v) else none) =
      (l.filter (fun s => decide (s = sy))).map (fun s => (s, v)) := by
    rw [← List.filterMap_eq_filter, List.map_filterMap]
    refine List.filterMap_congr (fun s _ => ?_)
    by_cases hs : s = sy <;> simp [Option.guard, hs]
  unfold symbolErrors
  simp only [hwrong]
  rw [List.filterMap_congr (fun s _ => hstep s), hmap, hone]
  rfl

/-- The decoder corrects one symbol in error, and reads the stored bytes. -/
theorem decodeRead_one {d : Device} {mpa : Nat} (h : mpa < mpaEnd) {e : ReadError} (hown : e.from_ = none) {sy : Fin 18}
    {v : BitVec 32} (hv : v ≠ 0#32) (hflips : e.flips = [(sy, v)]) :
    d.decodeRead mpa e = { data := memRead d.mem (64 * (mpa / 64)) 64, symbol := some sy.val } := by
  obtain ⟨flips, from_⟩ := e
  obtain rfl : from_ = none := hown
  obtain rfl : flips = [(sy, v)] := hflips
  have hsame : ppaOf mpa / 64 * 64 / 64 * 64 = ppaOf mpa / 64 * 64 := by omega
  simp only [Device.decodeRead, Option.getD_none, hsame, BitVec.xor_self, symbolErrors_one hv, access_place h]

/-! ### Rewriting what is there -/

theorem memPut_get {m : Memory} (h : memWf m = true) (a : Nat) : memPut m a (memGet m a) = m := by
  induction m with
  | nil => simp [memGet, memPut]
  | cons c m ih =>
    obtain ⟨b, v⟩ := c
    obtain ⟨hv, -, hm⟩ := (memWf_cons b v m).1 h
    unfold memGet memPut
    by_cases hba : b = a
    · subst hba
      simp [show ¬ v = 0#8 from hv]
    · by_cases hlt : a < b
      · simp [hba, hlt]
      · simp [hba, hlt, Ne.symm hba, ih hm]

/-- Bytes that are written back as they stand change nothing. -/
theorem memWrite_read {m : Memory} (h : memWf m = true) (a n : Nat) : memWrite m a (memRead m a n) = m := by
  induction n generalizing a with
  | zero => rfl
  | succ n ih =>
    have hsplit : memRead m a (n + 1) = memGet m a :: memRead m (a + 1) n := by
      simp [memRead, List.range_succ_eq_map, List.map_map, Function.comp_def, Nat.add_comm, Nat.add_left_comm]
    rw [hsplit, memWrite, memPut_get h, ih]

/-! ### What a panel's memory counts -/

/-- The counts and latches of a panel's memory that ECC keeps, with the accesses scrubbed. -/
structure EccCounts where
  corr : Nat
  rate : Nat
  uncorr : Nat
  uePage : Option Nat
  scrubbed : List Nat

/-- What ECC keeps of a panel. -/
def Device.ecc (d : Device) (p : PanelId) : EccCounts :=
  let m := (d.panel p).mem
  ⟨m.corr, m.rateCount, m.uncorr, m.uePage, m.scrubbed⟩

theorem ecc_updPMem (d : Device) (p : PanelId) {f : PanelMem → PanelMem}
    (h : ∀ m, (f m).corr = m.corr ∧ (f m).rateCount = m.rateCount ∧ (f m).uncorr = m.uncorr ∧ (f m).uePage = m.uePage ∧
      (f m).scrubbed = m.scrubbed) (o : PanelId) : (d.updPMem p f).ecc o = d.ecc o := by
  by_cases ho : o = p
  · subst ho
    obtain ⟨hcorr, hrate, huncorr, hpage, hscrubbed⟩ := h (d.panel o).mem
    simp [Device.ecc, (updPMem_only d o f).2, hcorr, hrate, huncorr, hpage, hscrubbed]
  · have hpanel : (d.updPMem p f).panel o = d.panel o := updPanel_other d ho _
    rw [Device.ecc, hpanel]
    rfl

theorem ecc_count (d : Device) (p : PanelId) (e : PmcEvent) (n : Nat) (o : PanelId) : (d.count p e n).ecc o = d.ecc o := by
  by_cases ho : o = p
  · subst ho
    rw [Device.ecc, count_panel]
    rfl
  · rw [Device.ecc, count_other d ho]
    rfl

theorem ecc_raise (d : Device) (r : ErrRec) (o : PanelId) : (d.raise r).ecc o = d.ecc o := by
  rw [Device.ecc, Device.panel, raise_panels]
  rfl

theorem setQueue_ecc (m : PanelMem) (ch : Nat) (q : List MemRequest) :
    (m.setQueue ch q).corr = m.corr ∧ (m.setQueue ch q).rateCount = m.rateCount ∧ (m.setQueue ch q).uncorr = m.uncorr ∧
      (m.setQueue ch q).uePage = m.uePage ∧ (m.setQueue ch q).scrubbed = m.scrubbed := ⟨rfl, rfl, rfl, rfl, rfl⟩

theorem ecc_enqueueMem (d : Device) (a : Nat) (c : ColourClass) (w : Bool) (r : Requester) (o : PanelId) :
    (d.enqueueMem a c w r).ecc o = d.ecc o := by
  refine ecc_updPMem d _ (fun m => ?_) o
  unfold PanelMem.enqueue
  dsimp only
  split
  · exact setQueue_ecc m _ _
  · exact ⟨rfl, rfl, rfl, rfl, rfl⟩

theorem ecc_stackAccess (d : Device) (w : Bool) (u : Nat) (l : List Nat) (c : ColourClass) (r : Requester) (o : PanelId) :
    (d.stackAccess w u l c r).ecc o = d.ecc o :=
  (foldl_enqueue (fun d => d.ecc o) (fun d a => ecc_enqueueMem d (a * 64) c w r o) l _).trans (ecc_count _ _ _ _ _)

theorem ecc_dequeueMem (d : Device) (mpa : Nat) (r : Requester) (o : PanelId) : (d.dequeueMem mpa r).ecc o = d.ecc o :=
  ecc_updPMem d _ (fun m => setQueue_ecc m _ _) o

theorem ecc_latchUe (d : Device) (mpa : Nat) : (d.latchUe mpa).ecc (panelOf mpa) =
    { d.ecc (panelOf mpa) with
      uncorr := satTo 16 ((d.ecc (panelOf mpa)).uncorr + 1), uePage := some (pageOf (ppaOf mpa)) } := by
  simp only [Device.ecc, Device.latchUe, (updPMem_only d (panelOf mpa) _).2]

/-! ### Corrected accesses (R378, R379) -/

/-- A corrected access counts, and its bytes stand. -/
structure Device.Corrected (d e : Device) (p : PanelId) : Prop where
  ecc : e.ecc p = { d.ecc p with corr := satTo 48 ((d.ecc p).corr + 1), rate := (d.ecc p).rate + 1 }
  mem : e.mem = d.mem
  contexts : e.contexts = d.contexts

theorem correctedAccess_counts {d : Device} {mpa : Nat} (hwf : memWf d.mem = true) {r : EccRead}
    (hdata : r.data = memRead d.mem (64 * (mpa / 64)) 64) (symbol : Nat) (b : Blame) :
    d.Corrected (d.correctedAccess mpa r symbol b) (panelOf mpa) := by
  have hstored : (if (d.lineOf (mpa / 64)).isSome then d else { d with mem := memWrite d.mem (64 * (mpa / 64)) r.data }) = d := by
    rw [hdata, memWrite_read hwf]
    split <;> rfl
  unfold Device.correctedAccess
  dsimp only
  rw [hstored]
  have hcount : d.Corrected ((d.updPMem (panelOf mpa) (fun m => { m with
      corr := satTo 48 (m.corr + 1), rateCount := m.rateCount + 1 })).stackAccess true (mpa / 256) [mpa / 64] .ivory .nobody) (panelOf mpa) := by
    refine ⟨?_, (mem_blind.stackAccess _ _ _ _ _ _), (contexts_blind.stackAccess _ _ _ _ _ _)⟩
    rw [ecc_stackAccess]
    simp only [Device.ecc, (updPMem_only d (panelOf mpa) _).2]
  split
  · refine ⟨?_, (mem_blind.raise _ _).trans hcount.mem, (contexts_blind.raise _ _).trans hcount.contexts⟩
    rw [ecc_raise]
    exact (ecc_updPMem _ _ (fun _ => ⟨by rfl, by rfl, by rfl, by rfl, by rfl⟩) _).trans hcount.ecc
  · exact hcount

theorem returned_keeps (d : Device) (by_ : Requester) (r : EccRead) (p : PanelId) :
    (d.returned by_ r).ecc p = d.ecc p ∧ (d.returned by_ r).mem = d.mem ∧ (d.returned by_ r).contexts = d.contexts := by
  unfold Device.returned
  split <;> exact ⟨rfl, rfl, rfl⟩

/-! ### Reads (R378) -/

/-- An error of one symbol, of the access's own data. -/
def OneSymbol (e : ReadError) : Prop := e.from_ = none ∧ ∃ sy v, v ≠ 0 ∧ e.flips = [(sy, v)]

theorem OneSymbol.decode {e : ReadError} (h : OneSymbol e) {d : Device} {mpa : Nat} (hmpa : mpa < mpaEnd) :
    ∃ sy : Fin 18, d.decodeRead mpa e = { data := memRead d.mem (64 * (mpa / 64)) 64, symbol := some sy.val } := by
  obtain ⟨hown, sy, v, hv, hflips⟩ := h
  exact ⟨sy, decodeRead_one hmpa hown hv hflips⟩

theorem dequeueMem_blind {α : Type} {g : Device → α} (hg : BlindToAccess g) (d : Device) (mpa : Nat) (r : Requester) :
    g (d.dequeueMem mpa r) = g d := by
  unfold Device.dequeueMem Device.updPMem
  exact hg.panel d _ _

theorem readReturn_one {d : Device} {mpa : Nat} {e : ReadError} (hmpa : mpa < mpaEnd) (hon : (d.panel (panelOf mpa)).memOn = true)
    (hwf : memWf d.mem = true) (hpoison : d.isPoison (mpa / 64) = false) (hfaulty : mpa / 64 ∉ d.faulty) (hone : OneSymbol e)
    (by_ : Requester) : d.Corrected (d.readReturn mpa e by_) (panelOf mpa) := by
  obtain ⟨sy, hread⟩ := hone.decode (d := d) hmpa
  have hin : (decide (mpaEnd ≤ mpa) || !(d.panel (panelOf mpa)).memOn) = false := by simp [hon, Nat.not_le.2 hmpa]
  have hsound : (d.dequeueMem mpa by_).isPoison (mpa / 64) = false := hpoison
  have hnot : (d.dequeueMem mpa by_).faulty.contains (mpa / 64) = false := 
    Bool.eq_false_iff.2 (fun h => hfaulty (List.contains_iff_mem.1 h))
  have hcounts := correctedAccess_counts (d := d.dequeueMem mpa by_) (mpa := mpa) hwf
    (r := { data := memRead d.mem (64 * (mpa / 64)) 64, symbol := some sy.val }) rfl sy.val ((d.dequeueMem mpa by_).blameOf by_)
  have hanswer : d.readReturn mpa e by_ = ((d.dequeueMem mpa by_).correctedAccess mpa
      { data := memRead d.mem (64 * (mpa / 64)) 64, symbol := some sy.val } sy.val ((d.dequeueMem mpa by_).blameOf by_)).returned by_
        { data := memRead d.mem (64 * (mpa / 64)) 64, symbol := some sy.val } := by
    unfold Device.readReturn
    simp only [hin, hread, hsound, hnot, Bool.or_self, Bool.false_eq_true, if_false]
  obtain ⟨hecc, hmem, hcontexts⟩ := returned_keeps ((d.dequeueMem mpa by_).correctedAccess mpa
    { data := memRead d.mem (64 * (mpa / 64)) 64, symbol := some sy.val } sy.val ((d.dequeueMem mpa by_).blameOf by_)) by_
    { data := memRead d.mem (64 * (mpa / 64)) 64, symbol := some sy.val } (panelOf mpa)
  rw [hanswer]
  refine ⟨?_, hmem.trans hcounts.mem, hcontexts.trans hcounts.contexts⟩
  rw [hecc, hcounts.ecc, ecc_dequeueMem]

/-- An uncorrectable access counts, latches its page, and writes its record. -/
structure Device.Recorded (d e : Device) (p : PanelId) (page : Nat) (reason : Code) : Prop where
  uncorr : (e.ecc p).uncorr = satTo 16 ((d.ecc p).uncorr + 1)
  page : (e.ecc p).uePage = some page
  mem : e.mem = d.mem
  record : ∃ r, e.err.queue = d.err.queue ++ [⟨r, false, none⟩] ∧ r.reason = reason ∧ r.panel = p.val

/-- The latch and the record of an access. -/
theorem latch_recorded {d : Device} (hroom : d.err.general < 64) {mpa : Nat} (reason : Code) (outcome symbol : Nat) (b : Blame) :
    d.Recorded ((d.latchUe mpa).raise (memRecord mpa reason outcome symbol b)) (panelOf mpa) (pageOf (ppaOf mpa)) reason where
  uncorr := by rw [ecc_raise, ecc_latchUe]
  page := by rw [ecc_raise, ecc_latchUe]
  mem := mem_blind.raise _ _
  record := by
    have hsame := stampRec_sameFault (d.latchUe mpa) (memRecord mpa reason outcome symbol b)
    exact ⟨_, raise_queue (d := d.latchUe mpa) hroom _, hsame.reason, hsame.panel⟩

theorem Device.Recorded.of_same {d d' e : Device} {p : PanelId} {page : Nat} {reason : Code} (h : d'.Recorded e p page reason)
    (hecc : d'.ecc p = d.ecc p) (hmem : d'.mem = d.mem) (herr : d'.err = d.err) : d.Recorded e p page reason where
  uncorr := by rw [h.uncorr, hecc]
  page := h.page
  mem := h.mem.trans hmem
  record := by
    obtain ⟨r, hr, hreason⟩ := h.record
    exact ⟨r, by rw [hr, herr], hreason⟩

theorem ecc_updSpool (d : Device) (p : PanelId) (f : List SpoolLine → List SpoolLine) (o : PanelId) :
    (d.updPanel p (fun q => q.updSpool f)).ecc o = d.ecc o :=
  ecc_updPMem d p (f := fun m => { m with spool := f m.spool }) (fun _ => ⟨rfl, rfl, rfl, rfl, rfl⟩) o

theorem markFaulty_ecc (d : Device) (a : Nat) (p : PanelId) : (d.markFaulty a).ecc p = d.ecc p := by
  unfold Device.markFaulty
  exact ecc_updSpool d _ _ p

theorem mem_markFaulty (d : Device) (a : Nat) : a ∈ (d.markFaulty a).faulty := by
  unfold Device.markFaulty
  dsimp only
  split
  · next h => exact List.contains_iff_mem.1 h
  · simp

theorem readReturn_lost {d : Device} {mpa : Nat} {e : ReadError} (hmpa : mpa < mpaEnd) (hon : (d.panel (panelOf mpa)).memOn = true)
    (hroom : d.err.general < 64) (hpoison : d.isPoison (mpa / 64) = false)
    (hlost : mpa / 64 ∈ d.faulty ∨ (d.decodeRead mpa e).uncorrectable = true) :
    d.Recorded (d.readReturn mpa e .nobody) (panelOf mpa) (pageOf (ppaOf mpa)) 0x0311 ∧
      mpa / 64 ∈ (d.readReturn mpa e .nobody).faulty := by
  obtain ⟨hpanel, hppa⟩ := access_panel hmpa
  have hpage : pageOf (ppaOf mpa / 64 * 64) = pageOf (ppaOf mpa) := by
    unfold pageOf
    omega
  have hin : (decide (mpaEnd ≤ mpa) || !(d.panel (panelOf mpa)).memOn) = false := by simp [hon, Nat.not_le.2 hmpa]
  have hsound : (d.dequeueMem mpa .nobody).isPoison (mpa / 64) = false := hpoison
  have hbad : ((d.dequeueMem mpa .nobody).faulty.contains (mpa / 64) || (d.decodeRead mpa e).uncorrectable) = true := by
    obtain h | h := hlost
    · have hmem : (d.dequeueMem mpa .nobody).faulty.contains (mpa / 64) = true := List.contains_iff_mem.2 h
      rw [hmem, Bool.true_or]
    · rw [h, Bool.or_true]
  have hanswer : d.readReturn mpa e .nobody = ((d.dequeueMem mpa .nobody).markFaulty (mpa / 64)).ueRead (mpa / 64) {} := by
    unfold Device.readReturn
    simp only [hin, hsound, hbad, Bool.false_eq_true, if_false, if_true]
    rfl
  let marked := (d.dequeueMem mpa .nobody).markFaulty (mpa / 64)
  have hrecord : marked.ueRead (mpa / 64) {} = (marked.latchUe (64 * (mpa / 64))).raise (memRecord (64 * (mpa / 64)) 0x0311 1 0xFF {}) := by
    rw [Nat.mul_comm 64]
    rfl
  have hroom' : marked.err.general < 64 := hroom
  have hrec := latch_recorded hroom' (mpa := 64 * (mpa / 64)) 0x0311 1 0xFF {}
  rw [hpanel, hppa, hpage] at hrec
  rw [hanswer, hrecord]
  refine ⟨hrec.of_same ((markFaulty_ecc _ _ _).trans (ecc_dequeueMem d _ _ _)) rfl rfl, ?_⟩
  rw [raise_faulty]
  exact mem_markFaulty _ _

/-! ### Scrubbing (R383) -/

/-- An access is scrubbed: it is not retired, and has not been scrubbed in this period. -/
def Device.scrubs (d : Device) (p : PanelId) (access : Nat) : Prop :=
  bitOf (d.panel p).memCtl 1 = true ∧ (d.panel p).retires (access * 64) = false ∧ access ∉ (d.panel p).mem.scrubbed

/-- The device once the access has been noted and counted. -/
def Device.noteScrub (d : Device) (p : PanelId) (access : Nat) : Device :=
  (d.updPMem p (fun m => { m with scrubbed := access :: m.scrubbed })).count p
    { code := 0x044, cls := some .ivory, unit := some (interleave (access * 64)).stack } 1

theorem scrubRead_not {d : Device} {p : PanelId} {access : Nat} (h : ¬ d.scrubs p access) (e : ReadError) :
    d.scrubRead p access e = d := by
  refine if_pos ?_
  by_contra hno
  simp only [Bool.or_eq_true, not_or, Bool.not_eq_true, Bool.not_eq_false', decide_eq_true_eq] at hno
  obtain ⟨⟨⟨⟨-, hscrub⟩, -⟩, hretired⟩, hdone⟩ := hno
  exact h ⟨hscrub, hretired, by simpa using hdone⟩

theorem scrubRead_scrubs {d : Device} {p : PanelId} {access : Nat} (hon : (d.panel p).memOn = true) (hin : access * 64 < panelBytes)
    (h : d.scrubs p access) (e : ReadError) :
    d.scrubRead p access e =
      let mpa := p.val * panelBytes + access * 64
      let r := d.decodeRead mpa e
      let n := d.noteScrub p access
      if n.isPoison (mpa / 64) then n
      else if n.faulty.contains (mpa / 64) || r.uncorrectable then
        ((n.latchUe mpa).raise (memRecord mpa 0x0314 1 0xFF {})).poisonAccesses [mpa / 64]
      else match r.symbol with
        | some s => n.correctedAccess mpa r s {}
        | none => n := by
  obtain ⟨hscrub, hretired, hdone⟩ := h
  have hdone' : (d.panel p).mem.scrubbed.contains access = false := by simpa using hdone
  refine if_neg ?_
  simp only [hon, hscrub, hretired, hdone', Nat.not_le.2 hin, decide_false, Bool.not_true, Bool.or_self]
  decide

end Sys2Proof.Machine
end

section
/-! Scrubbed accesses, windows, and the events of a panel's stacks. -/

namespace Sys2Proof.Machine

/-! ### Scrubbed accesses (R383) -/

theorem noteScrub_ecc (d : Device) (p : PanelId) (access : Nat) :
    (d.noteScrub p access).ecc p = { d.ecc p with scrubbed := access :: (d.ecc p).scrubbed } := by
  unfold Device.noteScrub
  rw [ecc_count]
  simp only [Device.ecc, (updPMem_only d p _).2]

/-- Noting a scrubbed access changes its panel alone. -/
theorem noteScrub_err (d : Device) (p : PanelId) (access : Nat) : (d.noteScrub p access).err = d.err := count_err _ _ _ _
theorem noteScrub_mem (d : Device) (p : PanelId) (access : Nat) : (d.noteScrub p access).mem = d.mem := count_mem _ _ _ _
theorem noteScrub_contexts (d : Device) (p : PanelId) (access : Nat) : (d.noteScrub p access).contexts = d.contexts :=
  count_contexts _ _ _ _
theorem noteScrub_faulty (d : Device) (p : PanelId) (access : Nat) : (d.noteScrub p access).faulty = d.faulty :=
  count_faulty _ _ _ _
theorem noteScrub_isPoison (d : Device) (p : PanelId) (access a : Nat) : (d.noteScrub p access).isPoison a = d.isPoison a := by
  simp [Device.isPoison, Device.noteScrub]

/-- The access of an address, as the scrubber names it. -/
structure Scrubbed (mpa : Nat) (p : PanelId) (access : Nat) : Prop where
  below : mpa < mpaEnd
  panel : p = panelOf mpa
  access : access = ppaOf mpa / 64

section
variable {mpa access : Nat} {p : PanelId} (hm : Scrubbed mpa p access)
include hm

theorem Scrubbed.address : p.val * panelBytes + access * 64 = 64 * (mpa / 64) := by
  rw [hm.panel, hm.access]
  exact access_place hm.below

theorem Scrubbed.inPanel : access * 64 < panelBytes := by
  rw [hm.access]
  exact Nat.lt_of_le_of_lt (Nat.div_mul_le_self _ _) (ppaOf_lt mpa)

/-- The decoder sees the same access. -/
theorem Scrubbed.decode (d : Device) (e : ReadError) : d.decodeRead (64 * (mpa / 64)) e = d.decodeRead mpa e := by
  obtain ⟨hpanel, hppa⟩ := access_panel hm.below
  have hsame : ppaOf mpa / 64 * 64 / 64 * 64 = ppaOf mpa / 64 * 64 := by omega
  simp only [Device.decodeRead, hpanel, hppa, hsame]

theorem Scrubbed.page : pageOf (ppaOf (64 * (mpa / 64))) = pageOf (ppaOf mpa) := by
  rw [(access_panel hm.below).2]
  unfold pageOf
  omega

end

variable {d : Device} {mpa access : Nat} {p : PanelId} {e : ReadError}

/-- A scrubbed access of one symbol in error is corrected. -/
theorem scrubRead_one (hm : Scrubbed mpa p access) (hon : (d.panel p).memOn = true) (hwf : memWf d.mem = true)
    (h : d.scrubs p access) (hpoison : d.isPoison (mpa / 64) = false) (hfaulty : mpa / 64 ∉ d.faulty) (hone : OneSymbol e) :
    (d.noteScrub p access).Corrected (d.scrubRead p access e) p := by
  obtain ⟨sy, hread⟩ := hone.decode (d := d) hm.below
  have hback : 64 * (mpa / 64) / 64 = mpa / 64 := Nat.mul_div_cancel_left _ (by decide)
  have hsound : (d.noteScrub p access).isPoison (mpa / 64) = false :=
    (noteScrub_isPoison _ _ _ _).trans hpoison
  have hnot : (d.noteScrub p access).faulty.contains (mpa / 64) = false := by
    rw [noteScrub_faulty]
    exact Bool.eq_false_iff.2 (fun h => hfaulty (List.contains_iff_mem.1 h))
  have hmem : (d.noteScrub p access).mem = d.mem := noteScrub_mem d p access
  have hcounts := correctedAccess_counts (d := d.noteScrub p access) (mpa := 64 * (mpa / 64)) (by rw [hmem]; exact hwf)
    (r := { data := memRead d.mem (64 * (mpa / 64)) 64, symbol := some sy.val }) (by rw [hmem, hback]) sy.val {}
  rw [(access_panel hm.below).1, ← hm.panel] at hcounts
  have hscrub := scrubRead_scrubs hon hm.inPanel h e
  simp only [hm.address, hm.decode, hback, hread, hsound, hnot, Bool.or_self, Bool.false_eq_true, if_false] at hscrub
  rw [hscrub]
  exact hcounts

/-- A scrubbed access that ECC cannot correct is left with the poison code. -/
theorem scrubRead_lost (hm : Scrubbed mpa p access) (hon : (d.panel p).memOn = true) (hroom : d.err.general < 64)
    (h : d.scrubs p access) (hpoison : d.isPoison (mpa / 64) = false)
    (hlost : mpa / 64 ∈ d.faulty ∨ (d.decodeRead mpa e).uncorrectable = true) :
    (d.noteScrub p access).Recorded (d.scrubRead p access e) p (pageOf (ppaOf mpa)) 0x0314 ∧
      (d.scrubRead p access e).isPoison (mpa / 64) = true ∧
      ((d.scrubRead p access e).ecc p).scrubbed = ((d.noteScrub p access).ecc p).scrubbed := by
  have hback : 64 * (mpa / 64) / 64 = mpa / 64 := Nat.mul_div_cancel_left _ (by decide)
  have hsound : (d.noteScrub p access).isPoison (mpa / 64) = false :=
    (noteScrub_isPoison _ _ _ _).trans hpoison
  have hbad : ((d.noteScrub p access).faulty.contains (mpa / 64) || (d.decodeRead mpa e).uncorrectable) = true := by
    obtain h | h := hlost
    · have hmem : (d.noteScrub p access).faulty.contains (mpa / 64) = true := by
        rw [noteScrub_faulty]
        exact List.contains_iff_mem.2 h
      rw [hmem, Bool.true_or]
    · rw [h, Bool.or_true]
  have hscrub := scrubRead_scrubs hon hm.inPanel h e
  simp only [hm.address, hm.decode, hback, hsound, hbad, Bool.false_eq_true, if_false, if_true] at hscrub
  have hrec := latch_recorded (d := d.noteScrub p access) (by rw [noteScrub_err]; exact hroom) (mpa := 64 * (mpa / 64)) 0x0314 1 0xFF {}
  have hlatch := ecc_latchUe (d.noteScrub p access) (64 * (mpa / 64))
  rw [(access_panel hm.below).1, ← hm.panel] at hrec hlatch
  rw [hm.page] at hrec
  rw [hscrub]
  refine ⟨⟨hrec.uncorr, hrec.page, hrec.mem, hrec.record⟩, ?_, ?_⟩
  · unfold Device.isPoison Device.poisonAccesses
    dsimp only
    rw [Bool.or_eq_true]
    refine .inl (List.contains_iff_mem.2 ?_)
    by_cases hin : mpa / 64 ∈ (((d.noteScrub p access).latchUe (64 * (mpa / 64))).raise
        (memRecord (64 * (mpa / 64)) 0x0314 1 0xFF {})).poison
    · exact List.mem_append_left _ hin
    · exact List.mem_append_right _ (List.mem_filter.2 ⟨by simp, by simpa using hin⟩)
  · refine (congrArg EccCounts.scrubbed (ecc_raise _ _ p)).trans ?_
    rw [hlatch]

/-! ### Windows and scrub passes (R379) -/

theorem rateWindowEnd_due {d : Device} {p : PanelId} (hon : (d.panel p).memOn = true)
    (hdue : (d.panel p).windowNs ≤ d.now - (d.panel p).mem.windowSince) :
    d.rateWindowEnd p = d.updPMem p (fun m => { m with
      windowSince := m.windowSince + (d.panel p).windowNs, rateCount := 0, rateRecorded := false, scrubbed := [] }) :=
  if_pos (by simp [hon, hdue])

theorem rateWindowEnd_early {d : Device} {p : PanelId} (hearly : d.now - (d.panel p).mem.windowSince < (d.panel p).windowNs) :
    d.rateWindowEnd p = d :=
  if_neg (by simp [Nat.not_le.2 hearly])

/-! ### Refresh and maintenance (R367, R369) -/

theorem timeOf_timeSet (l : List (Nat × Nat)) (ch t : Nat) : timeOf (timeSet l ch t) ch = some t := by
  simp [timeOf, timeSet]

/-- A record leaves the panels and the bytes as they are. -/
theorem raise_frame (d : Device) (r : ErrRec) (o : PanelId) :
    (d.raise r).panel o = d.panel o ∧ (d.raise r).mem = d.mem := by
  refine ⟨?_, raise_mem d r⟩
  rw [Device.panel, raise_panels]
  rfl

/-- The device after a change of one panel's memory state, with a record or without. -/
theorem updPMem_maybeRaise {d e : Device} {p : PanelId} {f : PanelMem → PanelMem} {r : ErrRec}
    (h : e = d.updPMem p f ∨ e = (d.updPMem p f).raise r) :
    (e.panel p).mem = f (d.panel p).mem ∧ (∀ o, o ≠ p → e.panel o = d.panel o) ∧ e.mem = d.mem := by
  have hmem : ((d.updPMem p f).panel p).mem = f (d.panel p).mem := by rw [(updPMem_only d p f).2]
  have hothers (o : PanelId) (ho : o ≠ p) : (d.updPMem p f).panel o = d.panel o := updPanel_other d ho _
  obtain rfl | rfl := h
  · exact ⟨hmem, hothers, rfl⟩
  · refine ⟨?_, fun o ho => ?_, (raise_frame _ _ p).2⟩
    · rw [(raise_frame _ _ p).1, hmem]
    · rw [(raise_frame _ _ o).1, hothers o ho]

theorem refresh_due {d : Device} {p : PanelId} {s : Fin 4} {ch : Fin 128} (htrained : (d.panel p).mem.trained.getLsbD s.val = true)
    (hdue : dueSince (d.panel p).mem.refreshed (128 * s.val + ch.val) d.now (refreshNs (d.panel p).mem.stackStates[s.val].refresh) = true) :
    let f (m : PanelMem) : PanelMem := { m.updStack s (fun x => { x with refresh := x.refreshNext }) with
      refreshed := timeSet m.refreshed (128 * s.val + ch.val) d.now }
    d.refresh p s ch = d.updPMem p f ∨ d.refresh p s ch = (d.updPMem p f).raise (stackRecord p s 0x0316) := by
  intro f
  unfold Device.refresh
  simp only [htrained, hdue, Bool.not_true, Bool.or_self, Bool.false_eq_true, if_false]
  split
  · exact .inl rfl
  · exact .inr rfl

theorem refresh_not {d : Device} {p : PanelId} {s : Fin 4} {ch : Fin 128}
    (h : (d.panel p).mem.trained.getLsbD s.val = false ∨ dueSince (d.panel p).mem.refreshed (128 * s.val + ch.val) d.now
      (refreshNs (d.panel p).mem.stackStates[s.val].refresh) = false) : d.refresh p s ch = d := by
  refine if_pos ?_
  obtain h | h := h
  · simp only [h, Bool.not_false, Bool.true_or]
  · simp only [h, Bool.not_false, Bool.or_true]

theorem maintain_due {d : Device} {p : PanelId} {s : Fin 4} {ch : Fin 128} (htrained : (d.panel p).mem.trained.getLsbD s.val = true)
    (hdue : dueSince (d.panel p).mem.maintained (128 * s.val + ch.val) d.now 2000 = true)
    (hapart : ∀ r, timeOf (d.panel p).mem.refreshed (128 * s.val + ch.val) = some r →
      r + 400 ≤ d.now ∧ d.now + 400 ≤ r + refreshNs (d.panel p).mem.stackStates[s.val].refresh) :
    d.maintain p s ch = d.updPMem p (fun m => { m with maintained := timeSet m.maintained (128 * s.val + ch.val) d.now }) := by
  unfold Device.maintain
  cases htime : timeOf (d.panel p).mem.refreshed (128 * s.val + ch.val) with
  | none => simp only [htrained, hdue, htime, Bool.and_self, if_true]
  | some r =>
    obtain ⟨hafter, hbefore⟩ := hapart r htime
    simp only [htrained, hdue, htime, hafter, hbefore, decide_true, Bool.and_self, if_true]

theorem maintain_not {d : Device} {p : PanelId} {s : Fin 4} {ch : Fin 128}
    (h : (d.panel p).mem.trained.getLsbD s.val = false ∨
      dueSince (d.panel p).mem.maintained (128 * s.val + ch.val) d.now 2000 = false) : d.maintain p s ch = d := by
  refine if_neg ?_
  obtain h | h := h
  · simp only [h, Bool.false_and, Bool.false_eq_true, not_false_eq_true]
  · simp only [h, Bool.and_false, Bool.false_and, Bool.false_eq_true, not_false_eq_true]

/-! ### Sensor samples (R365, R368) -/

theorem stackSample_sampled (d : Device) (p : PanelId) (s : Fin 4) (t : Nat) :
    let f (m : PanelMem) : PanelMem := m.updStack s (fun x => { x with
      temp := t, throttled := decide (92 < t) || ((d.panel p).mem.stackStates[s.val].throttled && decide (89 < t))
      refreshNext := refreshAfter x.refreshNext t })
    d.stackSample p s t = d.updPMem p f ∨ d.stackSample p s t = (d.updPMem p f).raise (stackRecord p s 0x0317) := by
  intro f
  unfold Device.stackSample
  dsimp only
  split
  · exact .inl rfl
  · exact .inr rfl

theorem refreshAfter_cases (cur t : Nat) : (95 < t → refreshAfter cur t = 2) ∧
    (85 < t → t ≤ 92 → refreshAfter cur t = 1) ∧ (t ≤ 82 → refreshAfter cur t = 0) := by
  refine ⟨fun h => ?_, fun h k => ?_, fun h => ?_⟩
  · simp [refreshAfter, h]
  · have hhot : ¬ 95 < t := by omega
    have hstays : ¬ 92 < t := by omega
    simp [refreshAfter, h, hhot, hstays]
  · have hhot : ¬ 95 < t := by omega
    have hstays : ¬ 92 < t := by omega
    have hwarm : ¬ 85 < t := by omega
    have hleft : ¬ 82 < t := by omega
    simp [refreshAfter, hhot, hstays, hwarm, hleft]

/-! ### Promotion (R362, R366) -/

theorem queueOf_setQueue (m : PanelMem) (ch : Nat) (q : List MemRequest) : (m.setQueue ch q).queueOf ch = q := by
  have hrest : (m.queues.filter (fun x => x.1 != ch)).find? (fun x => x.1 = ch) = none :=
    List.find?_eq_none.2 (fun x hx => by simpa using (List.mem_filter.1 hx).2)
  unfold PanelMem.setQueue PanelMem.queueOf
  cases q with
  | nil => simp [hrest]
  | cons r rs => simp

theorem promoteFirst_taken {f : MemRequest → Bool} {pre rest : List MemRequest} {r : MemRequest} (hpre : ∀ x ∈ pre, f x = false)
    (hr : f r = true) : promoteFirst f (pre ++ r :: rest) = pre ++ { r with promoted := true } :: rest := by
  induction pre with
  | nil => simp [promoteFirst, hr]
  | cons x xs ih => simp [promoteFirst, hpre x (by simp), ih (fun y hy => hpre y (by simp [hy]))]

theorem promoteFirst_none {f : MemRequest → Bool} {q : List MemRequest} (h : ∀ x ∈ q, f x = false) : promoteFirst f q = q := by
  induction q with
  | nil => rfl
  | cons x xs ih => simp [promoteFirst, h x (by simp), ih (fun y hy => h y (by simp [hy]))]

theorem count_onlyPanel (d : Device) (p : PanelId) (e : PmcEvent) (n : Nat) : d.OnlyPanel (d.count p e n) p := by
  unfold Device.count
  split
  · exact ⟨rfl, fun _ _ => rfl⟩
  · exact updPanel_onlyPanel d p _

theorem Device.OnlyPanel.trans {d e f : Device} {p : PanelId} (h : d.OnlyPanel e p) (k : e.OnlyPanel f p) : d.OnlyPanel f p := by
  obtain ⟨he, hothers⟩ := h
  obtain ⟨hf, hothers'⟩ := k
  refine ⟨?_, fun o ho => (hothers' o ho).trans (hothers o ho)⟩
  rw [hf, he]

/-- A promotion changes its panel alone: the queue's first request that may be promoted is. -/
theorem promote_queue (d : Device) (p : PanelId) (ch : Fin 512) :
    let q := (d.panel p).mem.queueOf ch.val
    let takes (r : MemRequest) : Bool := d.mayPromote (d.panel p).mem ch.val r &&
      (r.write || decide ((q.filter (fun r => r.promoted && !r.write)).length < 8))
    d.OnlyPanel (d.promote p ch) p ∧ ((d.promote p ch).panel p).mem.queueOf ch.val = promoteFirst takes q := by
  intro q takes
  have hmodel (e : Device) (hcounted : d.OnlyPanel e p) :
      d.OnlyPanel (e.updPMem p (fun m => m.setQueue ch.val (promoteFirst takes q))) p ∧
        ((e.updPMem p (fun m => m.setQueue ch.val (promoteFirst takes q))).panel p).mem.queueOf ch.val = promoteFirst takes q := by
    obtain ⟨honly, hpanel⟩ := updPMem_only e p (fun m => m.setQueue ch.val (promoteFirst takes q))
    exact ⟨hcounted.trans honly, by rw [hpanel]; exact queueOf_setQueue _ _ _⟩
  unfold Device.promote
  dsimp only
  split
  · exact hmodel _ (count_onlyPanel _ _ _ _)
  · exact hmodel d ⟨rfl, fun _ _ => rfl⟩

/-- Settles O31: what ECC finds and the scrubber leaves, and the stacks' own events. -/
theorem eccAndStackEvents : Obligations.EccAndStackEvents := by
  refine ⟨fun s p mpa by_ e hrails hmpa hroom hp hon hwf => ?_, fun s p k ch c temp hrails => ?_⟩
  · intro m access one lost scrubs corrected recorded
    have hm : Scrubbed mpa p access := ⟨hmpa, hp, rfl⟩
    have hlt : s.dev.err.general < 64 := Nat.lt_succ_of_lt hroom
    have hnot : ¬ scrubs → exec (.scrubRead p access e) s = .next s := fun h => exec_run rfl hrails (scrubRead_not h e)
    refine ⟨fun hpoison hfaulty hone => ?_, fun hpoison hlost => ?_, fun hscrubs hpoison hfaulty hone => ?_,
      fun hscrubs hpoison hlost => ?_, hnot, fun hdue => ?_, fun hearly => ?_⟩
    · subst hp
      have h := readReturn_one hmpa hon hwf hpoison hfaulty hone by_
      exact completes_run rfl hrails ⟨congrArg EccCounts.corr h.ecc, congrArg EccCounts.rate h.ecc, h.mem, h.contexts⟩
    · subst hp
      obtain ⟨h, hin⟩ := readReturn_lost hmpa hon hlt hpoison hlost
      exact completes_run rfl hrails ⟨⟨h.uncorr, h.page, h.mem, h.record⟩, hin⟩
    · have h := scrubRead_one hm hon hwf hscrubs hpoison hfaulty hone
      have hecc := h.ecc
      rw [noteScrub_ecc] at hecc
      exact completes_run rfl hrails ⟨⟨congrArg EccCounts.corr hecc, congrArg EccCounts.rate hecc,
        h.mem.trans (noteScrub_mem _ _ _), h.contexts.trans (noteScrub_contexts _ _ _)⟩, congrArg EccCounts.scrubbed hecc⟩
    · obtain ⟨h, hpoisoned, hscrubbed⟩ := scrubRead_lost hm hon hlt hscrubs hpoison hlost
      obtain ⟨huncorr, hpage, hmem, hrecord⟩ := h
      rw [noteScrub_ecc] at huncorr hscrubbed
      rw [noteScrub_err] at hrecord
      exact completes_run rfl hrails ⟨⟨huncorr, hpage, hmem.trans (noteScrub_mem _ _ _), hrecord⟩, hpoisoned, hscrubbed⟩
    · obtain ⟨t, hexec, honly, hpanels, hpanel⟩ := completes_updPMem (c := .rateWindowEnd p) (g := fun d => d.rateWindowEnd p)
        rfl hrails (rateWindowEnd_due hon hdue)
      exact ⟨t, hexec, honly, hpanels, by rw [hpanel]⟩
    · exact exec_run rfl hrails (rateWindowEnd_early hearly)
  · intro m st n takes
    obtain ⟨hsample, hothers, hmem⟩ := updPMem_maybeRaise (stackSample_sampled s.dev p k temp.toNat)
    have hstack : ((s.dev.stackSample p k temp.toNat).panel p).mem.stackStates[k.val] = { st with
        temp := temp.toNat, throttled := decide (92 < temp.toNat) || (st.throttled && decide (89 < temp.toNat))
        refreshNext := refreshAfter st.refreshNext temp.toNat } := by
      rw [hsample]
      exact Vector.getElem_set_self _
    obtain ⟨hhot, hwarm, hcold⟩ := refreshAfter_cases st.refreshNext temp.toNat
    obtain ⟨hpromote, hqueue⟩ := promote_queue s.dev p c
    refine ⟨fun htrained hdue => ?_, fun htrained hdue hapart => ?_, fun hno => exec_run rfl hrails (refresh_not hno),
      fun hno => exec_run rfl hrails (maintain_not hno), completes_run rfl hrails ⟨rfl, hothers, hmem, ?_, ?_, fun h => ?_, fun h h' => ?_, fun h => ?_⟩,
      fun pre r rest hq hpre hr => completes_run rfl hrails ⟨rfl, hpromote, ?_⟩,
      fun hnone => completes_run rfl hrails ⟨rfl, hpromote, hqueue.trans (promoteFirst_none hnone)⟩⟩
    · obtain ⟨hrefresh, hothers, hmem⟩ := updPMem_maybeRaise (refresh_due htrained hdue)
      refine completes_run rfl hrails ⟨rfl, ?_, ?_, hothers, hmem⟩
      · rw [hrefresh]
        exact timeOf_timeSet _ _ _
      · rw [hrefresh]
        exact congrArg StackState.refresh (Vector.getElem_set_self _)
    · obtain ⟨t, hexec, honly, hpanels, hpanel⟩ := completes_updPMem (c := .interfaceMaintenance p k ch)
        (g := fun d => d.maintain p k ch) rfl hrails (maintain_due htrained hdue hapart)
      exact ⟨t, hexec, honly, hpanels, by rw [hpanel], by rw [hpanel]; exact timeOf_timeSet _ _ _⟩
    · rw [hstack]
    · rw [hstack]
      simp
    · rw [hstack]
      exact hhot h
    · rw [hstack]
      exact hwarm h h'
    · rw [hstack]
      exact hcold h
    · refine hqueue.trans ?_
      change promoteFirst takes (m.queueOf c.val) = _
      rw [hq]
      exact promoteFirst_taken hpre hr

end Sys2Proof.Machine
end

section
/-! Ports are enabled, stopped and drained. -/

namespace Sys2Proof.Machine

/-! ### One port -/

theorem updPort_onlyPort (d : Device) (n : PortId) (f : Port → Port) : d.OnlyPort (d.updPort n f) n :=
  ⟨rfl, fun _ h => updPort_other d h f⟩

theorem Device.OnlyPort.trans {d e f : Device} {n : PortId} (h : d.OnlyPort e n) (k : e.OnlyPort f n) : d.OnlyPort f n := by
  obtain ⟨he, hothers⟩ := h
  obtain ⟨hf, hothers'⟩ := k
  refine ⟨?_, fun o ho => (hothers' o ho).trans (hothers o ho)⟩
  rw [hf, he]

/-- Only port `n` and the fabric have changed. -/
structure Device.PortStep (d e : Device) (n : PortId) (q : Port) : Prop where
  port : e.port n = q
  others : ∀ m, m ≠ n → e.port m = d.port m
  frame : e = { d with ports := e.ports, fabric := e.fabric }

theorem updPort_step (d : Device) (n : PortId) (f : Port → Port) : d.PortStep (d.updPort n f) n (f (d.port n)) :=
  ⟨updPort_port d n f, fun _ h => updPort_other d h f, rfl⟩

theorem Device.PortStep.trans {d e f : Device} {n : PortId} {q r : Port} (h : d.PortStep e n q) (k : e.PortStep f n r) :
    d.PortStep f n r :=
  ⟨k.port, fun m hm => (k.others m hm).trans (h.others m hm), by rw [k.frame, h.frame]⟩

/-- The fabric changes, and no port. -/
theorem Device.PortStep.fabric {d e : Device} {n : PortId} {q : Port} (h : d.PortStep e n q) (f : Fabric) :
    d.PortStep { e with fabric := f } n q :=
  ⟨h.port, h.others, by rw [h.frame]⟩

/-! ### The enable (R507 to R509, R887) -/

/-- The fields of CTL that a write takes while a port is not enabled. -/
def Port.withCtlFields (q : Port) (v : BitVec 32) : Port := { q with ctl := mergeBits q.ctl (v.setWidth 64) (0xFFFFFFFF &&& 6) }

/-- The checks of a port's enable. -/
def portCheckList (d : Device) (n : PortId) (q : Port) : List (Bool × Code × Nat) :=
  let res (v : Nat) : Nat := fieldOf q.creditRes (11 * v + 10) (11 * v)
  let w (v : Nat) : Nat := fieldOf q.arb (4 * v + 3) (4 * v)
  let age := fieldOf d.regs.fabCfg 27 16
  let c := d.cart (cartOf n)
  [(d.enabled, 0x0405, 0xFF),
   (decide (res 0 + res 1 + res 2 + res 3 + res 4 + fieldOf q.creditShr 10 0 ≤ 1024), 0x0401, 0x01),
   (4 ≤ res 0 && 17 ≤ res 1 && 17 ≤ res 2 && 17 ≤ res 3 && 17 ≤ res 4, 0x0402, 0x01),
   (1 ≤ w 0 && 1 ≤ w 1 && 1 ≤ w 2, 0x0406, 0x03),
   (d.fabric.active.isSome, 0x0403, 0xFF),
   (50 ≤ age && age ≤ 4000 && 2 * age + 10 ≤ fieldOf d.regs.fabCfg 45 32, 0x0407, 0xFF),
   (c.present && !c.fault && !d.removeAsked (cartOf n), 0x0404, 0xFF)]

theorem escalationCode_inService {d : Device} (h : d.reset.escalation = .inService) : d.escalationCode = none := by
  simp [Device.escalationCode, h]

theorem portChecks_inService {d : Device} (h : d.escalationCode = none) (n : PortId) :
    d.portChecks n = firstFailure (portCheckList d n (d.port n)) := by
  simp only [Device.portChecks, h, portCheckList]

/-- The port after an enable whose checks have passed. -/
def Port.started (q : Port) (now : Nat) : Port :=
  { q with ctl := setBit q.ctl 0 true, reason := 0, badReg := 0, state := .waitLaser, since := now, peer := none }

theorem portCtlWrite_ask {d : Device} {n : PortId} {v : BitVec 32} (hoff : (d.port n).enabled = false) (hen : v.getLsbD 0 = true) :
    d.portCtlWrite n (v.setWidth 64) 0xFFFFFFFF =
      let e := d.updPort n (fun q => q.withCtlFields v)
      match e.portChecks n with
      | some (c, b) => e.updPort n (fun q => { q with reason := c, badReg := b })
      | none => (e.updPort n (fun q => q.started d.now)).portTrain n := by
  unfold Device.portCtlWrite
  simp only [hoff, asked_of_write _ v (show 0 < 32 by decide), hen]
  rfl

/-- An enabled port trains when the lasers of its cartridge are locked. -/
theorem portTrain_started {d : Device} {n : PortId} (hstate : (d.port n).state = .waitLaser) :
    d.OnlyPort (d.portTrain n) n ∧ ((d.portTrain n).port n).ctl = (d.port n).ctl ∧ ((d.portTrain n).port n).reason = (d.port n).reason ∧
      ((d.portTrain n).port n).badReg = (d.port n).badReg ∧
      ((d.portTrain n).port n).state = if (d.cart (cartOf n)).ready then .training else .waitLaser := by
  unfold Device.portTrain
  cases hready : (d.cart (cartOf n)).ready with
  | false =>
    rw [if_neg (by simp)]
    exact ⟨⟨rfl, fun _ _ => rfl⟩, rfl, rfl, rfl, hstate⟩
  | true =>
    simp only [hstate, decide_true, Bool.and_self, if_true]
    refine ⟨updPort_onlyPort _ _ _, ?_⟩
    simp [Port.emptied]

/-- What a port `r` shows of a failed check of its enable, where `q` is the port before. -/
def Port.ShowsRefusal (r q : Port) (reason : Code) (reg : Nat) : Prop :=
  r.reason = reason ∧ r.badReg = reg ∧ r.enabled = false ∧ r.state = q.state

/-- What an enable whose checks pass leaves of its port. -/
def Port.ShowsEnabled (r : Port) (state : PortState) : Prop := r.enabled = true ∧ r.reason = 0 ∧ r.badReg = 0 ∧ r.state = state

theorem withCtlFields_enabled (q : Port) (v : BitVec 32) : (q.withCtlFields v).enabled = q.enabled := by
  have hmask : (0xFFFFFFFF &&& 6 : BitVec 64).getLsbD 0 = false := by decide
  simp only [Port.enabled, Port.withCtlFields, bitOf_mergeBits, hmask, Bool.false_eq_true, if_false]

theorem portEnable_shows {d : Device} {n : PortId} {v : BitVec 32} (hoff : (d.port n).enabled = false) (hen : v.getLsbD 0 = true)
    (hservice : d.escalationCode = none) :
    let f := d.portCtlWrite n (v.setWidth 64) 0xFFFFFFFF
    d.OnlyPort f n ∧ Shows (portCheckList d n (d.port n)) ((f.port n).ShowsRefusal (d.port n))
      ((f.port n).ShowsEnabled (if (d.cart (cartOf n)).ready then .training else .waitLaser)) := by
  let e := d.updPort n (fun q => q.withCtlFields v)
  have hfields : e.port n = (d.port n).withCtlFields v := updPort_port _ _ _
  have hchecks : e.portChecks n = firstFailure (portCheckList d n (d.port n)) := by
    rw [portChecks_inService (d := e) hservice, hfields]
    rfl
  intro f
  have hwrite := portCtlWrite_ask hoff hen
  cases hfirst : firstFailure (portCheckList d n (d.port n)) with
  | some x =>
    obtain ⟨c, b⟩ := x
    have hf : f = e.updPort n (fun q => { q with reason := c, badReg := b }) := by
      simp only [f, hwrite, show (d.updPort n fun q => q.withCtlFields v).portChecks n = _ from hchecks, hfirst]
      rfl
    have hshown : f.port n = { (d.port n).withCtlFields v with reason := c, badReg := b } := by rw [hf, updPort_port, hfields]
    refine ⟨hf ▸ (updPort_onlyPort d n _).trans (updPort_onlyPort e n _), ?_⟩
    rw [Shows, hfirst, hshown]
    exact ⟨rfl, rfl, (withCtlFields_enabled (d.port n) v).trans hoff, rfl⟩
  | none =>
    have hf : f = (e.updPort n (fun q => q.started d.now)).portTrain n := by
      simp only [f, hwrite, show (d.updPort n fun q => q.withCtlFields v).portChecks n = _ from hchecks, hfirst]
      rfl
    have hstarted : (e.updPort n (fun q => q.started d.now)).port n = ((d.port n).withCtlFields v).started d.now := by
      rw [updPort_port, hfields]
    obtain ⟨honly, hctl, hreason, hbad, hstate⟩ := portTrain_started (d := e.updPort n (fun q => q.started d.now)) (n := n)
      (by rw [hstarted]; rfl)
    rw [hstarted] at hctl hreason hbad
    rw [← hf] at honly hctl hreason hbad hstate
    refine ⟨((updPort_onlyPort d n _).trans (updPort_onlyPort e n _)).trans honly, ?_⟩
    rw [Shows, hfirst]
    exact ⟨(congrArg (fun v => bitOf v 0) hctl).trans (bitOf_setBit _ 0 0 true (by decide)), hreason, hbad, hstate⟩

/-! ### Stops and drains (R510, R511, R537) -/

theorem packets_nil {q : Port} (h : q.packets = []) : q.replayBuf = [] ∧ ∀ l ∈ q.queues.toList, l = [] := by
  have hall : q.replayBuf.map (fun f => f.pkt) ++ q.queues.toList.flatMap (fun l => l.map (fun e => e.pkt)) = [] := by
    by_contra hne
    obtain ⟨x, hx⟩ := List.exists_mem_of_ne_nil _ hne
    exact absurd (List.mem_eraseDups.2 hx) (by rw [show List.eraseDups _ = [] from h]; exact List.not_mem_nil)
  obtain ⟨hreplay, hqueues⟩ := List.append_eq_nil_iff.1 hall
  refine ⟨by simpa using hreplay, fun l hl => ?_⟩
  simpa using List.flatMap_eq_nil_iff.1 hqueues l hl

theorem packets_of_empty {q : Port} (hreplay : q.replayBuf = []) (hqueues : ∀ l ∈ q.queues.toList, l = []) : q.packets = [] := by
  have hall : q.queues.toList.flatMap (fun l => l.map (fun e => e.pkt)) = [] :=
    List.flatMap_eq_nil_iff.2 (fun l hl => by rw [hqueues l hl]; rfl)
  rw [Port.packets, hreplay, hall]
  rfl

/-- A port that holds no packet stops: it is emptied, and its routes enter the hold. -/
theorem portStop_empty {d : Device} {n : PortId} (h : (d.port n).packets = []) (new : PortState) (cause : Bool) :
    ∃ sent, d.PortStep (d.portStop n new cause) n { (d.port n).emptied with state := new, since := d.now, lastSent := sent } := by
  obtain ⟨-, hqueues⟩ := packets_nil h
  have hqueued : (d.port n).queues.toList.flatMap id = [] := List.flatMap_eq_nil_iff.2 hqueues
  refine ⟨if decide ((d.port n).state = .up) || decide ((d.port n).state = .draining)
    then some (.linkCtl (.down cause), ⟨0, (d.port n).lastAck, false, none⟩) else (d.port n).lastSent, ?_⟩
  unfold Device.portStop
  simp only [h, hqueued, List.foldl_nil]
  exact (updPort_step d n _).fabric _

theorem portCtlWrite_enabled {d : Device} {n : PortId} (v : BitVec 32) (hon : (d.port n).enabled = true) :
    d.portCtlWrite n (v.setWidth 64) 0xFFFFFFFF = if v.getLsbD 0 = false then
      (d.updPort n (fun q => { q with ctl := setBit (setBit q.ctl 1 (v.getLsbD 1)) 0 false })).portStop n .disabled false
    else
      let e := d.updPort n (fun q => { q with ctl := setBit q.ctl 1 (v.getLsbD 1) })
      if v.getLsbD 1 then e.portDrainStart n else e.portUndrain n := by
  unfold Device.portCtlWrite
  simp only [hon, asked_of_write _ v (show 0 < 32 by decide), asked_of_write _ v (show 1 < 32 by decide), if_true,
    Bool.not_eq_true']

theorem portDisable_empty {d : Device} {n : PortId} {v : BitVec 32} (hon : (d.port n).enabled = true) (hclear : v.getLsbD 0 = false)
    (hempty : (d.port n).packets = []) :
    ∃ q, d.PortStep (d.portCtlWrite n (v.setWidth 64) 0xFFFFFFFF) n q ∧ q.enabled = false ∧ q.state = .disabled ∧ q.replayBuf = [] := by
  have hwrite := (portCtlWrite_enabled v hon).trans (if_pos hclear)
  have hset := updPort_step d n (fun q => { q with ctl := setBit (setBit q.ctl 1 (v.getLsbD 1)) 0 false })
  obtain ⟨sent, hstop⟩ := portStop_empty (d := d.updPort n (fun q => { q with ctl := setBit (setBit q.ctl 1 (v.getLsbD 1)) 0 false }))
    (n := n) (by rw [hset.port]; exact hempty) .disabled false
  rw [hset.port] at hstop
  rw [hwrite]
  refine ⟨_, hset.trans hstop, ?_, rfl, rfl⟩
  exact bitOf_setBit _ 0 0 false (by decide)

theorem portDrain_up {d : Device} {n : PortId} {v : BitVec 32} (hon : (d.port n).enabled = true) (hen : v.getLsbD 0 = true)
    (hdrain : v.getLsbD 1 = true) (hup : (d.port n).state = .up) :
    d.PortStep (d.portCtlWrite n (v.setWidth 64) 0xFFFFFFFF) n
      { d.port n with ctl := setBit (d.port n).ctl 1 true, state := .draining } := by
  let e := d.updPort n (fun q => { q with ctl := setBit q.ctl 1 (v.getLsbD 1) })
  have hset := updPort_step d n (fun q => { q with ctl := setBit q.ctl 1 (v.getLsbD 1) })
  have hwrite : d.portCtlWrite n (v.setWidth 64) 0xFFFFFFFF = (e.updPort n (fun q => { q with state := .draining })).holdRoutes n := by
    rw [portCtlWrite_enabled v hon, if_neg (by simp only [hen, Bool.true_eq_false, not_false_eq_true])]
    simp only [hdrain, if_true]
    unfold Device.portDrainStart
    rw [← hdrain]
    refine if_pos ?_
    rw [updPort_port]
    exact hup
  have hstep := (hset.trans (updPort_step e n (fun q => { q with state := .draining }))).fabric
    (((e.updPort n (fun q => { q with state := .draining })).holdRoutes n).fabric)
  rw [hset.port, hdrain] at hstep
  rw [hwrite]
  exact hstep

theorem portUndrain_draining {d : Device} {n : PortId} {v : BitVec 32} (hon : (d.port n).enabled = true) (hen : v.getLsbD 0 = true)
    (hclear : v.getLsbD 1 = false) (hdraining : (d.port n).state = .draining) (hasked : d.removeAsked (cartOf n) = false) :
    d.PortStep (d.portCtlWrite n (v.setWidth 64) 0xFFFFFFFF) n { d.port n with ctl := setBit (d.port n).ctl 1 false, state := .up } := by
  let e := d.updPort n (fun q => { q with ctl := setBit q.ctl 1 (v.getLsbD 1) })
  have hset := updPort_step d n (fun q => { q with ctl := setBit q.ctl 1 (v.getLsbD 1) })
  have hbit : bitOf (setBit (d.port n).ctl 1 false) 1 = false := bitOf_setBit _ 1 1 false (by decide)
  have hport : e.port n = { d.port n with ctl := setBit (d.port n).ctl 1 false } := by rw [hset.port, hclear]
  have hwrite : d.portCtlWrite n (v.setWidth 64) 0xFFFFFFFF = e.updPort n (fun q => { q with state := .up }) := by
    rw [portCtlWrite_enabled v hon, if_neg (by simp only [hen, Bool.true_eq_false, not_false_eq_true])]
    simp only [hclear, Bool.false_eq_true, if_false]
    have hcond : ((e.port n).state = .draining && !bitOf (e.port n).ctl 1 && !e.removeAsked (cartOf n)) = true := by
      have hsame : e.removeAsked (cartOf n) = false := hasked
      simp only [hport, hdraining, hbit, hsame, decide_true, Bool.not_false, Bool.and_self]
    rw [← hclear]
    exact if_pos hcond
  have hstep := hset.trans (updPort_step e n (fun q => { q with state := .up }))
  rw [hset.port, hclear] at hstep
  rw [hwrite]
  exact hstep

theorem drainDone_drained {d : Device} {n : PortId} (hdraining : (d.port n).state = .draining) (hdrained : (d.port n).drained = true)
    (hasked : d.removeAsked (cartOf n) = true) : ∃ q, d.PortStep (d.drainDone n) n q ∧ q.state = .safe := by
  obtain ⟨hreplay, hqueues⟩ := Bool.and_eq_true_iff.1 hdrained
  have hempty : (d.port n).packets = [] :=
    packets_of_empty (by simpa using hreplay) (fun l hl => by simpa using List.all_eq_true.1 hqueues l hl)
  obtain ⟨sent, hstop⟩ := portStop_empty hempty .safe false
  have hdone : d.drainDone n = (d.portStop n .safe false).lasersOff (cartOf n) :=
    if_pos (by simp only [hdraining, hdrained, hasked, decide_true, Bool.and_self])
  refine ⟨_, (?_ : d.PortStep (d.drainDone n) n { (d.port n).emptied with state := .safe, since := d.now, lastSent := sent }), rfl⟩
  rw [hdone]
  unfold Device.lasersOff
  dsimp only
  split
  · exact hstop.fabric _
  · exact hstop

theorem drainDone_other {d : Device} {n : PortId} (h : (d.port n).state ≠ .draining) : d.drainDone n = d :=
  if_neg (by simp only [h, decide_false, Bool.false_and, Bool.false_eq_true, not_false_eq_true])

/-- Settles O33: the checks of a port's enable, and how a port stops and drains. -/
theorem portsEnableAndDrain : Obligations.PortsEnableAndDrain := by
  refine ⟨fun s n v hrails hservice hoff hen => ?_, fun s n v hrails hon => ?_⟩
  · obtain ⟨honly, hshows⟩ := portEnable_shows hoff hen (escalationCode_inService hservice)
    refine completes_run rfl hrails ⟨rfl, honly, ?_⟩
    have hthree (a b c : Bool) : (a && !b && !c) = false ↔ a = false ∨ b = true ∨ c = true := by
      cases a <;> cases b <;> cases c <;> decide
    refine hshows.step Iff.rfl fun h => h.step (decide_eq_false_iff_not.trans Nat.not_le) fun h => h.step ?_ fun h => h.step ?_ fun h =>
      h.step (by simp) fun h => h.step ?_ fun h => h.step (hthree _ _ _) fun h => h
    all_goals simp only [Bool.and_eq_false_iff, decide_eq_false_iff_not, Nat.not_le, or_assoc]
  · intro q same
    have hsame {e : Device} {r : Port} (h : s.dev.PortStep e n r) : same { s with dev := e } :=
      ⟨rfl, h.others, by rw [h.frame], by rw [h.frame], by rw [h.frame]⟩
    refine ⟨fun hempty hclear => ?_, fun hup hen hdrain => ?_, fun hdraining hen hclear hasked => ?_, fun hdraining hdrained hasked => ?_,
      fun hnot => exec_run rfl hrails (drainDone_other hnot)⟩
    · obtain ⟨r, hstep, hoff, hstate, hreplay⟩ := portDisable_empty hon hclear hempty
      exact completes_run rfl hrails ⟨hsame hstep, by rw [hstep.port]; exact hoff, by rw [hstep.port]; exact hstate,
        by rw [hstep.port]; exact hreplay⟩
    · have hstep := portDrain_up hon hen hdrain hup
      exact completes_run rfl hrails ⟨hsame hstep, by rw [hstep.port], by rw [hstep.port]; exact bitOf_setBit _ 1 1 true (by decide)⟩
    · have hstep := portUndrain_draining hon hen hclear hdraining hasked
      exact completes_run rfl hrails ⟨hsame hstep, by rw [hstep.port], by rw [hstep.port]; exact bitOf_setBit _ 1 1 false (by decide)⟩
    · obtain ⟨r, hstep, hstate⟩ := drainDone_drained hdraining hdrained hasked
      exact completes_run rfl hrails ⟨hsame hstep, by rw [hstep.port]; exact hstate⟩

end Sys2Proof.Machine
end

section
/-! Cartridges, their lasers, and the ports that they feed. -/

namespace Sys2Proof.Machine

/-! ### A step for every port of a cartridge -/

/-- Outside the ports, the error records and the routes' uses nothing has changed. -/
structure Device.PortsFrame (d e : Device) : Prop where
  carts : e.fabric.carts = d.fabric.carts
  regs : e.regs = d.regs
  contexts : e.contexts = d.contexts
  mem : e.mem = d.mem

theorem Device.PortsFrame.refl (d : Device) : d.PortsFrame d := ⟨rfl, rfl, rfl, rfl⟩

theorem Device.PortsFrame.trans {d e f : Device} (h : d.PortsFrame e) (k : e.PortsFrame f) : d.PortsFrame f :=
  ⟨k.carts.trans h.carts, k.regs.trans h.regs, k.contexts.trans h.contexts, k.mem.trans h.mem⟩

/-- Steps that each change one port lead each port of the list where its own step leads it. -/
theorem foldl_ports {d : Device} {f : Device → PortId → Device} {P : PortId → Port → Prop} {l : List PortId} (hl : l.Nodup)
    (hstep : ∀ e n, n ∈ l → d.PortsFrame e → e.port n = d.port n →
      d.PortsFrame (f e n) ∧ (∀ m, m ≠ n → (f e n).port m = e.port m) ∧ P n ((f e n).port n)) :
    d.PortsFrame (l.foldl f d) ∧ (∀ n, n ∉ l → (l.foldl f d).port n = d.port n) ∧ ∀ n ∈ l, P n ((l.foldl f d).port n) := by
  have hall (r : List PortId) (hr : r.Nodup) (hsub : ∀ n ∈ r, n ∈ l) (e : Device) (hframe : d.PortsFrame e)
      (hports : ∀ n ∈ r, e.port n = d.port n) : d.PortsFrame (r.foldl f e) ∧ (∀ n, n ∉ r → (r.foldl f e).port n = e.port n) ∧
        ∀ n ∈ r, P n ((r.foldl f e).port n) := by
    induction r generalizing e with
    | nil => exact ⟨hframe, fun _ _ => rfl, by simp⟩
    | cons n ns ih =>
      obtain ⟨hnew, hns⟩ := List.nodup_cons.1 hr
      obtain ⟨hf, hothers, hP⟩ := hstep e n (hsub n (by simp)) hframe (hports n (by simp))
      obtain ⟨hrest, hout, hin⟩ := ih hns (fun m hm => hsub m (by simp [hm])) (f e n) hf (fun m hm =>
        (hothers m (fun h => hnew (h ▸ hm))).trans (hports m (by simp [hm])))
      refine ⟨hrest, fun m hm => ?_, fun m hm => ?_⟩
      · obtain ⟨hmn, hms⟩ := not_or.1 (List.mem_cons.not.1 hm)
        exact (hout m hms).trans (hothers m hmn)
      · obtain rfl | hms := List.mem_cons.1 hm
        · exact (hout m hnew).symm ▸ hP
        · exact hin m hms
  exact hall l hl (fun _ h => h) d (.refl d) (fun _ _ => rfl)

/-- Steps that change nothing, for every element of the list. -/
theorem foldl_fixed_mem {α β : Type} {f : α → β → α} {a : α} {l : List β} (h : ∀ b ∈ l, f a b = a) : l.foldl f a = a := by
  induction l with
  | nil => rfl
  | cons b bs ih => rw [List.foldl_cons, h b (by simp), ih (fun c hc => h c (by simp [hc]))]

/-- Of all steps only one changes anything, and the others leave what it has made. -/
theorem foldl_single {α β : Type} {f : α → β → α} {a : α} {b : β} {l : List β} (hl : l.Nodup) (hb : b ∈ l)
    (hbefore : ∀ c ∈ l, c ≠ b → f a c = a) (hafter : ∀ c ∈ l, c ≠ b → f (f a b) c = f a b) : l.foldl f a = f a b := by
  induction l with
  | nil => exact absurd hb (by simp)
  | cons c cs ih =>
    obtain ⟨hnew, hcs⟩ := List.nodup_cons.1 hl
    obtain rfl | hin := List.mem_cons.1 hb
    · exact foldl_fixed_mem (fun x hx => hafter x (by simp [hx]) (fun h => hnew (h ▸ hx)))
    · rw [List.foldl_cons, hbefore c (by simp) (fun h => hnew (h ▸ hin))]
      exact ih hcs hin (fun x hx => hbefore x (by simp [hx])) (fun x hx => hafter x (by simp [hx]))

theorem portsOf_nodup (k : CartId) : (portsOf k).Nodup := (List.nodup_finRange 24).filter _

theorem mem_portsOf {k : CartId} {n : PortId} : n ∈ portsOf k ↔ cartOf n = k := by
  simp [portsOf]

/-! ### One cartridge -/

theorem updCart_cart (d : Device) (k : CartId) (f : Cartridge → Cartridge) : (d.updCart k f).cart k = f (d.cart k) := by
  simp [Device.updCart, Device.cart]

theorem updCart_other (d : Device) {j k : CartId} (h : j ≠ k) (f : Cartridge → Cartridge) : (d.updCart k f).cart j = d.cart j := by
  have hne : k.val ≠ j.val := fun e => h (Fin.ext e.symm)
  simp [Device.updCart, Device.cart, hne]

theorem cart_of_frame {d e : Device} (h : d.PortsFrame e) (j : CartId) : e.cart j = d.cart j := by
  rw [Device.cart, h.carts]
  rfl

/-- The ports that a cartridge feeds carry no light and hold no packet. -/
def Device.Dark (d : Device) (k : CartId) : Prop :=
  ∀ n, cartOf n = k → ((d.port n).state = .waitLaser ∨ (d.port n).state = .disabled) ∧ (d.port n).packets = []

/-- The lasers of a dark cartridge with a removal request go off. -/
theorem lasersOff_dark {d : Device} {k : CartId} (hasked : d.removeAsked k = true) (hdark : d.Dark k) :
    d.lasersOff k = d.updCart k (fun c => { c with lasers := false, ready := false }) := by
  refine if_pos (Bool.and_eq_true_iff.2 ⟨hasked, List.all_eq_true.2 (fun n _ => ?_)⟩)
  by_cases hn : cartOf n = k
  · obtain hstate | hstate := (hdark n hn).1 <;> simp [hstate]
  · simp [hn]

/-- A removal request of a dark cartridge. -/
theorem removeStart_dark {d : Device} {k : CartId} (hasked : d.removeAsked k = true) (hdark : d.Dark k) :
    d.removeStart k = d.updCart k (fun c => { c with lasers := false, ready := false }) := by
  unfold Device.removeStart
  rw [foldl_fixed_mem (fun n hn => ?_)]
  · exact lasersOff_dark hasked hdark
  · obtain hstate | hstate := (hdark n (mem_portsOf.1 hn)).1 <;> simp [hstate]

/-- The end of the request of a dark cartridge. -/
theorem removeEnd_dark {d : Device} {k : CartId} (hdark : d.Dark k) (genuine : Bool) :
    d.removeEnd k genuine = d.updCart k (fun c => { c with
      genuine := genuine, lasers := c.present && genuine, fault := c.present && !genuine
      ready := c.ready && c.present && genuine, since := d.now }) := by
  unfold Device.removeEnd
  refine foldl_fixed_mem (fun n hn => ?_)
  have hport : (d.updCart k (fun c => { c with
      genuine := genuine, lasers := c.present && genuine, fault := c.present && !genuine
      ready := c.ready && c.present && genuine, since := d.now })).port n = d.port n := rfl
  rw [hport]
  obtain hstate | hstate := (hdark n (mem_portsOf.1 hn)).1 <;> simp [hstate]

/-- A write of LC_CTL that changes one cartridge's request. -/
theorem lcCtlWrite_one {d : Device} {k : CartId} {v : BitVec 32} {b : Bool} (g : BitVec 8)
    (hv : ∀ j : CartId, v.getLsbD j.val = if j = k then b else bitOf d.regs.lcCtl j.val) (hold : bitOf d.regs.lcCtl k.val = !b) :
    ∃ lcCtl, bitOf lcCtl k.val = b ∧
      d.lcCtlWrite (v.setWidth 64) 0xFFFFFFFF g =
        let e : Device := { d with regs := { d.regs with lcCtl := lcCtl } }
        if b then e.removeStart k else e.removeEnd k (g.getLsbD k.val) := by
  have hnew (j : CartId) : bitOf (mergeBits d.regs.lcCtl (v.setWidth 64) (0xFFFFFFFF &&& 0xFF)) j.val =
      if j = k then b else bitOf d.regs.lcCtl j.val := by
    have hmask : (0xFFFFFFFF &&& 0xFF : BitVec 64).getLsbD j.val = true := by
      have : ∀ j : CartId, (0xFFFFFFFF &&& 0xFF : BitVec 64).getLsbD j.val = true := by decide
      exact this j
    rw [bitOf_mergeBits, hmask, if_pos rfl, bitOf_setWidth, hv]
  have hset : bitOf (mergeBits d.regs.lcCtl (v.setWidth 64) (0xFFFFFFFF &&& 0xFF)) k.val = b := by rw [hnew, if_pos rfl]
  refine ⟨mergeBits d.regs.lcCtl (v.setWidth 64) (0xFFFFFFFF &&& 0xFF), hset, ?_⟩
  have hsame (j : CartId) (hj : j ≠ k) :
      bitOf (mergeBits d.regs.lcCtl (v.setWidth 64) (0xFFFFFFFF &&& 0xFF)) j.val = bitOf d.regs.lcCtl j.val := by rw [hnew, if_neg hj]
  unfold Device.lcCtlWrite
  refine (foldl_single (b := k) (List.nodup_finRange 8) (List.mem_finRange k) (fun j _ hj => ?_) (fun j _ hj => ?_)).trans ?_
  · simp only [hsame j hj, Bool.and_not_self, Bool.not_and_self, Bool.false_eq_true, if_false]
  · simp only [hsame j hj, Bool.and_not_self, Bool.not_and_self, Bool.false_eq_true, if_false]
  · simp only [hset, hold]
    cases b <;> simp only [Bool.not_false, Bool.not_true, Bool.and_self, Bool.false_eq_true, if_true, if_false]

/-- The ports of a cartridge whose lasers lock. -/
theorem trainPorts (d : Device) (k : CartId) (hready : (d.cart k).ready = true) :
    let e := (portsOf k).foldl (fun d n => d.portTrain n) d
    d.PortsFrame e ∧ (∀ n, cartOf n ≠ k → e.port n = d.port n) ∧ ∀ n, cartOf n = k →
      (e.port n).state = if (d.port n).state = .waitLaser then .training else (d.port n).state := by
  have hstep : ∀ (e : Device) (n : PortId), n ∈ portsOf k → d.PortsFrame e → e.port n = d.port n →
      d.PortsFrame (e.portTrain n) ∧ (∀ m, m ≠ n → (e.portTrain n).port m = e.port m) ∧
        ((e.portTrain n).port n).state = if (d.port n).state = .waitLaser then .training else (d.port n).state := by
    intro e n hn hframe hport
    have hlit : (e.cart (cartOf n)).ready = true := by rw [mem_portsOf.1 hn, cart_of_frame hframe, hready]
    rw [← hport]
    by_cases hwait : (e.port n).state = .waitLaser
    · obtain ⟨⟨hrest, hothers⟩, -, -, -, hstate⟩ := portTrain_started hwait
      refine ⟨hframe.trans (by rw [hrest]; exact ⟨rfl, rfl, rfl, rfl⟩), hothers, ?_⟩
      rw [hstate, if_pos hlit, if_pos hwait]
    · have hfixed : e.portTrain n = e := if_neg (by simp only [hwait, decide_false, Bool.false_and, Bool.false_eq_true, not_false_eq_true])
      rw [hfixed, if_neg hwait]
      exact ⟨hframe, fun _ _ => rfl, rfl⟩
  obtain ⟨hframe, hout, hin⟩ := foldl_ports (f := fun d n => d.portTrain n)
    (P := fun n q => q.state = if (d.port n).state = .waitLaser then .training else (d.port n).state) (portsOf_nodup k) hstep
  exact ⟨hframe, fun n hn => hout n (fun h => hn (mem_portsOf.1 h)), fun n hn => hin n (mem_portsOf.2 hn)⟩

/-- A stop of a port that holds no packet leaves the cartridges. -/
theorem portStop_carts {d : Device} {n : PortId} (h : (d.port n).packets = []) (new : PortState) (cause : Bool) :
    (d.portStop n new cause).fabric.carts = d.fabric.carts := by
  obtain ⟨-, hqueues⟩ := packets_nil h
  have hqueued : (d.port n).queues.toList.flatMap id = [] := List.flatMap_eq_nil_iff.2 hqueues
  unfold Device.portStop
  simp only [h, hqueued, List.foldl_nil]
  rfl

/-- A port that waits for its laser, and holds no packet, goes DOWN with its reason. -/
theorem portDown_waiting {d : Device} {n : PortId} (hwait : (d.port n).state = .waitLaser) (hempty : (d.port n).packets = [])
    (reason : Code) (lane : Nat) :
    d.PortsFrame (d.portDown n reason lane) ∧ (∀ m, m ≠ n → (d.portDown n reason lane).port m = d.port m) ∧
      ((d.portDown n reason lane).port n).state = .down ∧ ((d.portDown n reason lane).port n).reason = reason := by
  obtain ⟨sent, hstop⟩ := portStop_empty hempty .down false
  let e := d.portStop n .down false
  have hset := hstop.trans (updPort_step e n (fun q => { q with reason := reason, downCount := satTo 8 (q.downCount + 1) }))
  have hdown : d.portDown n reason lane =
      (e.updPort n (fun q => { q with reason := reason, downCount := satTo 8 (q.downCount + 1) })).raise (d.portRecord n reason lane 1) :=
    if_neg (by simp only [hwait, reduceCtorEq, decide_false, Bool.or_self, Bool.false_eq_true, not_false_eq_true])
  have hports (m : PortId) : (d.portDown n reason lane).port m =
      (e.updPort n (fun q => { q with reason := reason, downCount := satTo 8 (q.downCount + 1) })).port m := by
    rw [hdown, Device.port, raise_ports]
    rfl
  refine ⟨?_, fun m hm => (hports m).trans (hset.others m hm), ?_, ?_⟩
  · obtain ⟨err, herr⟩ := raise_eq (e.updPort n (fun q => { q with reason := reason, downCount := satTo 8 (q.downCount + 1) }))
      (d.portRecord n reason lane 1)
    rw [hdown, herr]
    refine ⟨portStop_carts hempty .down false, ?_, ?_, ?_⟩ <;> rw [hset.frame]
  · rw [hports, hset.port, hstop.port]
  · rw [hports, hset.port]

/-- A cartridge that has been taken out. -/
def Cartridge.takenOut (c : Cartridge) : Cartridge := { c with present := false, lasers := false, ready := false, fault := false }

/-- Where the ports of a dark cartridge go when it is taken out without a request: those that wait for it go DOWN. -/
def Port.AfterLoss (q r : Port) : Prop := (q.state = .disabled → r = q) ∧ (q.state = .waitLaser → r.state = .down ∧ r.reason = 0x0418)

theorem latchOpen_asked {d : Device} {k : CartId} (hin : (d.cart k).present = true) (hasked : d.removeAsked k = true) (hdark : d.Dark k) :
    d.latchOpen k = d.updCart k Cartridge.takenOut := by
  have hkept : (d.updCart k Cartridge.takenOut).removeAsked k = true := hasked
  unfold Device.latchOpen
  rw [if_neg (by simp only [hin, Bool.not_true, Bool.false_eq_true, not_false_eq_true])]
  refine foldl_fixed_mem (fun n hn => ?_)
  have hport : (d.updCart k (fun c => { c with present := false, lasers := false, ready := false, fault := false })).port n = d.port n := rfl
  rw [hport]
  obtain hstate | hstate := (hdark n (mem_portsOf.1 hn)).1
  · rw [hstate]
    exact if_pos hkept
  · rw [hstate]

theorem latchOpen_unasked {d : Device} {k : CartId} (hin : (d.cart k).present = true) (hasked : d.removeAsked k = false) (hdark : d.Dark k) :
    (d.updCart k Cartridge.takenOut).PortsFrame (d.latchOpen k) ∧ (∀ n, cartOf n ≠ k → (d.latchOpen k).port n = d.port n) ∧
      ∀ n, cartOf n = k → (d.port n).AfterLoss ((d.latchOpen k).port n) := by
  have hkeep {P : Device → Prop} (h : ∀ f : Device → PortId → Device, (∀ e n, n ∈ portsOf k → (d.updCart k Cartridge.takenOut).PortsFrame e →
      e.port n = d.port n → f e n = if (e.port n).state = .waitLaser then e.portDown n 0x0418 0 else e) →
      P ((portsOf k).foldl f (d.updCart k Cartridge.takenOut))) : P (d.latchOpen k) := by
    unfold Device.latchOpen
    rw [if_neg (by simp only [hin, Bool.not_true, Bool.false_eq_true, not_false_eq_true])]
    refine h _ (fun e n hn hframe hport => ?_)
    have hkept : e.removeAsked k = false := by rw [Device.removeAsked, hframe.regs]; exact hasked
    obtain hstate | hstate := (hdark n (mem_portsOf.1 hn)).1
    · rw [hport, hstate, if_pos rfl]
      exact if_neg (by rw [hkept]; exact Bool.false_ne_true)
    · rw [hport, hstate]
      rfl
  refine hkeep (P := fun e => (d.updCart k Cartridge.takenOut).PortsFrame e ∧ (∀ n, cartOf n ≠ k → e.port n = d.port n) ∧
    ∀ n, cartOf n = k → (d.port n).AfterLoss (e.port n)) (fun f hf => ?_)
  have hstep : ∀ (e : Device) (n : PortId), n ∈ portsOf k → (d.updCart k Cartridge.takenOut).PortsFrame e → e.port n = d.port n →
      (d.updCart k Cartridge.takenOut).PortsFrame (f e n) ∧ (∀ m, m ≠ n → (f e n).port m = e.port m) ∧
        (d.port n).AfterLoss ((f e n).port n) := by
    intro e n hn hframe hport
    obtain ⟨-, hempty⟩ := hdark n (mem_portsOf.1 hn)
    rw [hf e n hn hframe hport]
    by_cases hwait : (e.port n).state = .waitLaser
    · obtain ⟨hrest, hothers, hdown, hreason⟩ := portDown_waiting hwait (hport ▸ hempty) 0x0418 0
      rw [if_pos hwait]
      exact ⟨hframe.trans hrest, hothers, fun h => absurd ((hport ▸ hwait).symm.trans h) (by decide), fun _ => ⟨hdown, hreason⟩⟩
    · rw [if_neg hwait]
      exact ⟨hframe, fun _ _ => rfl, fun _ => hport, fun h => absurd (hport ▸ h) hwait⟩
  obtain ⟨hframe, hout, hall⟩ := foldl_ports (f := f) (P := fun n r => (d.port n).AfterLoss r) (portsOf_nodup k) hstep
  exact ⟨hframe, fun n hn => hout n (fun h => hn (mem_portsOf.1 h)), fun n hn => hall n (mem_portsOf.2 hn)⟩

/-- Settles O34: each event of a cartridge changes that cartridge, and the ports that it feeds. -/
theorem cartridgeEvents : Obligations.CartridgeEvents := by
  intro s k v g hrails hdark c rest out
  have hrest {e : Device} {f : Cartridge → Cartridge} (h : (s.dev.updCart k f).PortsFrame e)
      (hports : ∀ n, cartOf n ≠ k → e.port n = s.dev.port n) : rest { s with dev := e } ∧ e.cart k = f c :=
    ⟨⟨rfl, fun j hj => (cart_of_frame h j).trans (updCart_other s.dev hj f), hports, h.contexts, h.mem⟩,
      (cart_of_frame h k).trans (updCart_cart s.dev k f)⟩
  have hsame (f : Cartridge → Cartridge) := hrest (f := f) (.refl _) (fun _ _ => rfl)
  refine ⟨fun hv hold => ?_, fun hv hold => ?_, fun hin hgenuine hlit hfault hready hasked => ?_, fun hin hlit hready hlate => ?_,
    fun hin hasked => ?_, fun hin hasked => ?_, fun hout => ?_⟩
  · obtain ⟨lcCtl, hbit, hwrite⟩ := lcCtlWrite_one (d := s.dev) (k := k) (v := v) (b := true) 0xFF
      (fun j => by rw [hv]; by_cases h : j = k <;> simp [h]) hold
    refine completes_run rfl hrails ?_
    rw [hwrite, if_pos rfl, removeStart_dark (d := { s.dev with regs := { s.dev.regs with lcCtl := lcCtl } }) hbit hdark]
    exact ⟨⟨rfl, fun j hj => updCart_other _ hj _, fun _ _ => rfl, rfl, rfl⟩, hbit, updCart_cart _ _ _⟩
  · obtain ⟨lcCtl, hbit, hwrite⟩ := lcCtlWrite_one (d := s.dev) (k := k) (v := v) (b := false) g
      (fun j => by rw [hv]; by_cases h : j = k <;> simp [h]) hold
    refine completes_run rfl hrails ?_
    rw [hwrite, if_neg Bool.false_ne_true, removeEnd_dark (d := { s.dev with regs := { s.dev.regs with lcCtl := lcCtl } }) hdark]
    refine ⟨⟨rfl, fun j hj => updCart_other _ hj _, fun _ _ => rfl, rfl, rfl⟩, hbit, ?_, ?_, ?_⟩ <;> rw [updCart_cart] <;> rfl
  · obtain ⟨hframe, hports, htrain⟩ := trainPorts (s.dev.updCart k (fun c => { c with ready := true })) k (by rw [updCart_cart])
    have hlocked : s.dev.lasersLocked k = (portsOf k).foldl (fun d n => d.portTrain n) (s.dev.updCart k (fun c => { c with ready := true })) :=
      if_pos (by simp only [c] at hin hgenuine hlit hfault hready
                 simp only [hin, hgenuine, hlit, hfault, hready, hasked, Bool.not_false, Bool.and_self])
    obtain ⟨hkept, hcart⟩ := hrest hframe hports
    refine completes_run rfl hrails ?_
    rw [hlocked]
    exact ⟨hkept, hcart, htrain⟩
  · have htimeout : s.dev.lockTimeout2s k = s.dev.updCart k (fun c => { c with fault := true }) :=
      if_pos (by simp only [c] at hin hlit hready hlate
                 simp only [hin, hlit, hready, hlate, Bool.not_false, Bool.and_self, decide_true])
    refine completes_run rfl hrails ?_
    rw [htimeout]
    exact ⟨(hsame _).1, rfl, (hsame _).2⟩
  · refine completes_run rfl hrails ?_
    rw [latchOpen_asked hin hasked hdark]
    exact ⟨(hsame _).1, rfl, (hsame _).2⟩
  · obtain ⟨hframe, hports, hloss⟩ := latchOpen_unasked hin hasked hdark
    obtain ⟨hkept, hcart⟩ := hrest hframe hports
    exact completes_run rfl hrails ⟨hkept, hcart, hloss⟩
  · have hclose : s.dev.latchClose k = s.dev.updCart k (fun c => { c with
        present := true, since := s.dev.now, lasers := s.dev.thimble.booted && c.genuine && !s.dev.removeAsked k }) :=
      if_neg (by simp only [c] at hout
                 simp only [hout, Bool.false_eq_true, not_false_eq_true])
    refine completes_run rfl hrails ?_
    rw [hclose]
    exact ⟨(hsame _).1, rfl, by rw [(hsame _).2]⟩

end Sys2Proof.Machine
end

section
/-! Training of a port, from the lock of its receiver to its peer's credits. -/

namespace Sys2Proof.Machine

/-- A port without packets that is refused in training goes DOWN, with its reason and its count, and no record. -/
theorem portRefused_empty {d : Device} {n : PortId} (hempty : (d.port n).packets = []) (reason : Code) :
    ∃ q, d.PortStep (d.portRefused n reason) n q ∧ q.state = .down ∧ q.reason = reason ∧
      q.downCount = satTo 8 ((d.port n).downCount + 1) := by
  obtain ⟨sent, hstop⟩ := portStop_empty hempty .down false
  have hset := hstop.trans (updPort_step (d.portStop n .down false) n
    (fun q => { q with reason := reason, downCount := satTo 8 (q.downCount + 1) }))
  exact ⟨_, hset, by rw [hstop.port], rfl, by rw [hstop.port]; rfl⟩

theorem peerRefusal_refused {d : Device} {n : PortId} {p : PeerIdentity} (h : p.trusted = false ∨
    (p.debugOpen = true ∧ d.thimble.debugOpen = false) ∨ (d.thimble.debugOpen = true ∧ p.debugOpen = false ∧ p.ext = false)) :
    d.peerRefusal n p = some 0x0412 := by
  unfold Device.peerRefusal
  dsimp only
  rw [if_pos]
  obtain h | ⟨hp, hd⟩ | ⟨hd, hp, hext⟩ := h
  · simp only [h, Bool.not_false, Bool.true_or]
  · simp only [hp, hd, Bool.not_false, Bool.and_self, Bool.or_true, Bool.true_or]
  · simp only [hp, hd, hext, Bool.not_false, Bool.and_self, Bool.or_true]

theorem peerRefusal_accepted {d : Device} {n : PortId} {p : PeerIdentity} (h : ¬ (p.trusted = false ∨
    (p.debugOpen = true ∧ d.thimble.debugOpen = false) ∨ (d.thimble.debugOpen = true ∧ p.debugOpen = false ∧ p.ext = false))) :
    d.peerRefusal n p = if (bitOf (d.port n).peerExpect 31 = true ∧ fieldOf (d.port n).peerExpect 14 0 ≠ p.modNum.toNat) ∨
      p.identity = ownIdentity then some 0x0411 else none := by
  obtain ⟨htrusted, hopen, hprod⟩ : p.trusted = true ∧ (p.debugOpen = true → d.thimble.debugOpen = true) ∧
      (d.thimble.debugOpen = true → p.debugOpen = false → p.ext = true) := by
    simpa only [not_or, not_and, Bool.not_eq_false] using h
  unfold Device.peerRefusal
  dsimp only
  rw [if_neg]
  · simp only [Bool.or_eq_true, Bool.and_eq_true, bne_iff_ne, ne_eq, decide_eq_true_eq]
  · cases hd : d.thimble.debugOpen <;> cases hp : p.debugOpen <;> simp_all

/-- The identity of a peer that is refused, on a port that waits for it. -/
theorem linkIdentity_some {d : Device} {n : PortId} {p : PeerIdentity} {c : Code} (hstate : (d.port n).state = .training)
    (hlocked : (d.port n).locked = true) (hnew : (d.port n).identified = false) (h : d.peerRefusal n p = some c) :
    d.linkIdentity n p = (d.updPort n (fun q => { q with peer := some p })).portRefused n c := by
  unfold Device.linkIdentity
  simp only [hstate, hlocked, hnew, decide_true, Bool.not_false, Bool.and_self, Bool.not_true, Bool.false_eq_true, if_false, h]

/-- The identity of a peer that is taken. -/
theorem linkIdentity_none {d : Device} {n : PortId} {p : PeerIdentity} (hstate : (d.port n).state = .training)
    (hlocked : (d.port n).locked = true) (hnew : (d.port n).identified = false) (h : d.peerRefusal n p = none) :
    d.linkIdentity n p = d.updPort n (fun q => { q with peer := some p, rtt := p.rtt100ps, identified := true }) := by
  unfold Device.linkIdentity
  simp only [hstate, hlocked, hnew, decide_true, Bool.not_false, Bool.and_self, Bool.not_true, Bool.false_eq_true, if_false, h]

theorem linkIdentity_refused {d : Device} {n : PortId} {p : PeerIdentity} {c : Code} (hstate : (d.port n).state = .training)
    (hlocked : (d.port n).locked = true) (hnew : (d.port n).identified = false) (hempty : (d.port n).packets = [])
    (h : d.peerRefusal n p = some c) :
    ∃ q, d.PortStep (d.linkIdentity n p) n q ∧ q.state = .down ∧ q.reason = c ∧ q.downCount = satTo 8 ((d.port n).downCount + 1) := by
  have hset := updPort_step d n (fun q => { q with peer := some p })
  obtain ⟨q, hstep, hstate', hreason, hcount⟩ :=
    portRefused_empty (d := d.updPort n (fun q => { q with peer := some p })) (n := n) (by rw [hset.port]; exact hempty) c
  refine ⟨q, ?_, hstate', hreason, by rw [hcount, hset.port]⟩
  rw [linkIdentity_some hstate hlocked hnew h]
  exact hset.trans hstep

/-- The keys of an exchange are taken. -/
theorem keyExchange_ok {d : Device} {n : PortId} (hstate : (d.port n).state = .training) (hid : (d.port n).identified = true) :
    d.PortStep { d.keyExchange n true with fresh := d.fresh } n
      { (d.port n).withKeys d.fresh with
        state := .securing, keyed := true, linkCtlOut := (d.port n).linkCtlOut ++ [.credits (d.port n).ownCredits] } := by
  unfold Device.keyExchange
  simp only [hstate, hid, decide_true, Bool.and_self, Bool.not_true, Bool.false_eq_true, if_false]
  exact updPort_step d n (fun q => { q.withKeys d.fresh with
    state := .securing, keyed := true, linkCtlOut := q.linkCtlOut ++ [.credits q.ownCredits] })

/-- A port whose training is complete, before a drain. -/
def Port.trained (q : Port) (c : PeerCredits) (now : Nat) : Port :=
  { q with state := .up, credits := c.reserved, creditsShared := c.shared, sharedOut := Vector.replicate 5 0, txSeq := 0, rxSeq := 0,
           lastAck := 0xFFFF, lastGood := now, ackSince := now }

theorem trainingComplete_secured {d : Device} {n : PortId} {c : PeerCredits} (hstate : (d.port n).state = .securing)
    (hkeyed : (d.port n).keyed = true) :
    ∃ e, d.PortStep e n ((d.port n).trained c d.now) ∧
      d.trainingComplete n c = if bitOf (d.port n).ctl 1 || d.removeAsked (cartOf n) then e.portDrainStart n else e := by
  refine ⟨_, (updPort_step d n (fun q => q.trained c d.now)).fabric { d.fabric with
    deadMods := d.fabric.deadMods.filter (fun m => some m != (d.port n).peer.map (fun p => p.modNum)) }, ?_⟩
  unfold Device.trainingComplete
  simp only [hstate, hkeyed, decide_true, Bool.and_self, Bool.not_true, Bool.false_eq_true, if_false]
  rfl

theorem portDrainStart_up {d : Device} {n : PortId} (hup : (d.port n).state = .up) :
    d.PortStep (d.portDrainStart n) n { d.port n with state := .draining } := by
  unfold Device.portDrainStart
  rw [if_pos hup]
  exact (updPort_step d n _).fabric _

theorem trainTimeout_due {d : Device} {n : PortId} (h : (d.port n).state = .training ∨ (d.port n).state = .securing) :
    d.trainTimeout n = if 100000000 ≤ d.now - (d.port n).since then d.portRefused n 0x0410 else d := by
  have hstate : (decide ((d.port n).state = .training) || decide ((d.port n).state = .securing)) = true := by
    simpa only [Bool.or_eq_true, decide_eq_true_eq] using h
  unfold Device.trainTimeout
  simp only [hstate, Bool.true_and, decide_eq_true_eq]

/-- Settles O35: each step of a port's training, and what ends it. -/
theorem linkTraining : Obligations.LinkTraining := by
  intro s n peer credits hrails hempty q same downWith refused wrong digest
  have hsame {e : Device} {r : Port} (h : s.dev.PortStep e n r) : same { s with dev := e } :=
    ⟨rfl, h.others, by rw [h.frame], by rw [h.frame], by rw [h.frame]⟩
  have hdown {e : Device} {code : Code} (h : ∃ r, s.dev.PortStep e n r ∧ r.state = .down ∧ r.reason = code ∧
      r.downCount = satTo 8 (q.downCount + 1)) : downWith { s with dev := e } code := by
    obtain ⟨r, hstep, hstate, hreason, hcount⟩ := h
    refine ⟨hsame hstep, ?_, ?_, ?_⟩ <;> rw [hstep.port] <;> assumption
  refine ⟨fun hstate hlocked => ?_, fun hstate hlocked hnew => ⟨fun h => ?_, fun h hwrong => ?_, fun h hwrong => ?_⟩,
    fun hstate hid => ⟨?_, ?_⟩, fun hstate hkeyed hdrain hasked => ?_, fun hstate hkeyed hdrain => ?_, fun h hlate => ?_,
    fun h hearly => ?_⟩
  · have hlock : s.dev.codewordLock n = s.dev.updPort n (fun q => { q with
        locked := true, lastGood := s.dev.now, linkCtlOut := q.linkCtlOut ++ [.identity (s.dev.ownPeer n)] }) :=
      if_pos (by simp only [q] at hstate hlocked
                 simp only [hstate, hlocked, decide_true, Bool.not_false, Bool.and_self])
    have hstep := updPort_step s.dev n (fun q => { q with
      locked := true, lastGood := s.dev.now, linkCtlOut := q.linkCtlOut ++ [.identity (s.dev.ownPeer n)] })
    rw [← hlock] at hstep
    exact completes_run rfl hrails ⟨hsame hstep, by rw [hstep.port], by rw [hstep.port]⟩
  · exact completes_run rfl hrails (hdown (linkIdentity_refused hstate hlocked hnew hempty (peerRefusal_refused h)))
  · exact completes_run rfl hrails (hdown (linkIdentity_refused hstate hlocked hnew hempty ((peerRefusal_accepted h).trans (if_pos hwrong))))
  · have hstep := updPort_step s.dev n (fun q => { q with peer := some peer, rtt := peer.rtt100ps, identified := true })
    have hnone : s.dev.peerRefusal n peer = none := (peerRefusal_accepted h).trans (if_neg hwrong)
    rw [← linkIdentity_none hstate hlocked hnew hnone] at hstep
    exact completes_run rfl hrails ⟨hsame hstep, hstep.port⟩
  · have hrefused : s.dev.keyExchange n false = s.dev.portRefused n 0x0413 := by
      simp only [q] at hstate hid
      unfold Device.keyExchange
      simp only [hstate, hid, decide_true, Bool.and_self, Bool.not_true, Bool.false_eq_true, if_false, Bool.not_false, if_true]
    exact completes_run rfl hrails (hdown (by rw [hrefused]; exact portRefused_empty hempty 0x0413))
  · have hstep := keyExchange_ok hstate hid
    refine completes_run rfl hrails ⟨?_, ?_⟩
    · exact hsame (e := { s.dev.keyExchange n true with fresh := s.dev.fresh }) hstep
    · have hport : (s.dev.keyExchange n true).port n = _ := hstep.port
      rw [hport]
      exact ⟨rfl, rfl, rfl, rfl, rfl, rfl, rfl, rfl, rfl⟩
  · obtain ⟨e, hstep, hdone⟩ := trainingComplete_secured (c := credits) hstate hkeyed
    rw [if_neg (by simp only [q] at hdrain
                   simp only [hdrain, hasked, Bool.or_self, Bool.false_eq_true, not_false_eq_true])] at hdone
    refine completes_run rfl hrails ?_
    rw [hdone]
    refine ⟨hsame hstep, ?_⟩
    rw [hstep.port]
    exact ⟨rfl, rfl, rfl, rfl, rfl⟩
  · obtain ⟨e, hstep, hdone⟩ := trainingComplete_secured (c := credits) hstate hkeyed
    rw [if_pos (by simpa only [Bool.or_eq_true] using hdrain)] at hdone
    have hall := hstep.trans (portDrainStart_up (d := e) (n := n) (by rw [hstep.port]; rfl))
    refine completes_run rfl hrails ?_
    rw [hdone]
    exact ⟨hsame hall, by rw [hall.port]⟩
  · refine completes_run rfl hrails (hdown ?_)
    rw [(trainTimeout_due h).trans (if_pos hlate)]
    exact portRefused_empty hempty 0x0410
  · exact exec_run rfl hrails ((trainTimeout_due h).trans (if_neg (Nat.not_le.2 hearly)))

end Sys2Proof.Machine
end

section
/-! Codewords sent and received, and what takes a port down. -/

namespace Sys2Proof.Machine

/-! ### A port that is written -/

theorem updPort_updPort (d : Device) (n : PortId) (f g : Port → Port) : (d.updPort n f).updPort n g = d.updPort n (fun q => g (f q)) := by
  simp [Device.updPort, Device.port]

/-- Two writes of a port, with events counted in between. -/
theorem updPort_counted (d : Device) (n : PortId) (f g : Port → Port) (c : Counters) :
    ({ d.updPort n f with counters := c } : Device).updPort n g = { d.updPort n (fun q => g (f q)) with counters := c } :=
  congrArg (fun e : Device => { e with counters := c }) (updPort_updPort d n f g)

theorem updPort_same {d : Device} {n : PortId} {f : Port → Port} (h : f (d.port n) = d.port n) : d.updPort n f = d := by
  have hset : d.ports.set n.val (d.port n) n.isLt = d.ports := by simp [Device.port]
  rw [Device.updPort, h, hset]

/-- A port that is in use and holds no packet goes DOWN with its reason, its count and one record. -/
theorem portDown_empty {d : Device} {n : PortId} (hused : (d.port n).state ≠ .disabled) (hdown : (d.port n).state ≠ .down)
    (hempty : (d.port n).packets = []) (reason : Code) (lane : Nat) :
    ∃ e q, d.PortStep e n q ∧ q.state = .down ∧ q.reason = reason ∧ q.downCount = satTo 8 ((d.port n).downCount + 1) ∧
      q.queues = Vector.replicate 5 [] ∧ e.fabric.deadMods = d.fabric.deadMods ∧
      d.portDown n reason lane = e.raise (d.portRecord n reason lane 1) := by
  obtain ⟨sent, hstop⟩ := portStop_empty hempty .down false
  have hdead : (d.portStop n .down false).fabric.deadMods = d.fabric.deadMods := by
    obtain ⟨-, hqueues⟩ := packets_nil hempty
    have hqueued : (d.port n).queues.toList.flatMap id = [] := List.flatMap_eq_nil_iff.2 hqueues
    unfold Device.portStop
    simp only [hempty, hqueued, List.foldl_nil]
    rfl
  refine ⟨_, _, hstop.trans (updPort_step (d.portStop n .down false) n
    (fun q => { q with reason := reason, downCount := satTo 8 (q.downCount + 1) })), by rw [hstop.port], rfl,
    by rw [hstop.port]; rfl, by rw [hstop.port]; rfl, hdead, ?_⟩
  exact if_neg (by simp only [hused, hdown, decide_false, Bool.or_self, Bool.false_eq_true, not_false_eq_true])

/-! ### Codewords sent (R500, R523) -/

theorem ageOut_fresh {d : Device} {n : PortId}
    (h : ∀ v : Fin 5, ∀ e ∈ (d.port n).queues[v.val], e.sent = 0 → d.tooOld (e.age d.now) = false) : d.ageOut n = d := by
  have hkept : ∀ l ∈ (d.port n).queues.toList, ∀ e ∈ l, (decide (e.sent = 0) && d.tooOld (e.age d.now)) = false := by
    intro l hl e he
    obtain ⟨i, hi, rfl⟩ := List.mem_iff_getElem.1 hl
    have hold := h ⟨i, by simpa using hi⟩ e he
    by_cases hsent : e.sent = 0
    · rw [hold hsent, Bool.and_false]
    · simp only [hsent, decide_false, Bool.false_and]
  have hgone : (d.port n).queues.toList.flatMap (fun l => l.filter (fun e => decide (e.sent = 0) && d.tooOld (e.age d.now))) = [] :=
    List.flatMap_eq_nil_iff.2 (fun l hl => List.filter_eq_nil_iff.2 (fun e he => by rw [hkept l hl e he]; exact Bool.false_ne_true))
  have hsame : (d.port n).queues.map (fun l => l.filter (fun e => !(decide (e.sent = 0) && d.tooOld (e.age d.now)))) =
      (d.port n).queues := by
    refine Vector.ext (fun i hi => ?_)
    rw [Vector.getElem_map]
    exact List.filter_eq_self.2 (fun e he => by simp only [hkept _ (Vector.mem_toList_iff.2 (Vector.getElem_mem hi)) e he, Bool.not_false])
  unfold Device.ageOut
  simp only [hgone, List.foldl_nil]
  exact updPort_same (by rw [hsame])

/-- The choice of a codeword moves the port's indexes and state nowhere. -/
theorem choose_keeps (q : Port) (now : Nat) :
    (q.choose now).1.state = q.state ∧ (q.choose now).1.txIndex = q.txIndex ∧ (q.choose now).1.rxIndex = q.rxIndex := by
  unfold Port.choose
  split
  · exact ⟨rfl, rfl, rfl⟩
  · split
    · exact ⟨rfl, rfl, rfl⟩
    · split
      · exact ⟨rfl, rfl, rfl⟩
      · dsimp only
        split
        · unfold Port.sendFlit Port.takeCredit
          dsimp only
          split <;> exact ⟨rfl, rfl, rfl⟩
        · exact ⟨rfl, rfl, rfl⟩

theorem choose_marker {q : Port} {m : Marker} (h : q.markerOut = some m) (now : Nat) :
    q.choose now = ({ q with markerOut := none }, .marker m) := by
  unfold Port.choose
  rw [h]

theorem choose_linkCtl {q : Port} {l : LinkCtl} {ls : List LinkCtl} (hmarker : q.markerOut = none) (h : q.linkCtlOut = l :: ls) (now : Nat) :
    q.choose now = ({ q with linkCtlOut := ls }, .linkCtl l) := by
  unfold Port.choose
  rw [hmarker]
  dsimp only
  rw [h]

theorem nextOf_empty {q : Port} {v : Fin 5} (h : q.queues[v.val] = []) : q.nextOf v = none := by
  unfold Port.nextOf
  simp only [h]
  rfl

theorem pickChannel_empty {q : Port} (h : ∀ v : Fin 5, q.queues[v.val] = []) : q.pickChannel = (none, q.wrrLeft) := by
  have hready (v : Fin 5) : q.channelReady v = false := by
    rw [Port.channelReady, nextOf_empty (h v)]
    rfl
  unfold Port.pickChannel Port.pickWeighted
  simp only [hready, Bool.false_eq_true, if_false, Bool.false_and, List.filter_false, List.find?_nil]

theorem choose_idle {q : Port} (hmarker : q.markerOut = none) (hctl : q.linkCtlOut = []) (hreplay : q.replayCursor = none)
    (h : ∀ v : Fin 5, q.queues[v.val] = []) (now : Nat) : q.choose now = (q, .idle) := by
  unfold Port.choose
  rw [hmarker]
  dsimp only
  rw [hctl]
  dsimp only
  have hnone : { q with markerOut := none, linkCtlOut := [], replayCursor := none } = q := by rw [← hmarker, ← hctl, ← hreplay]
  simp only [Option.bind_none, pickChannel_empty h, hreplay]
  exact congrArg (fun x => (x, SentCodeword.idle)) hnone

/-- The port after a slot in which it sends the codeword of `r`. -/
def Port.afterSlot (q : Port) (r : Port × SentCodeword) (trailer : SentTrailer) (wire : List Byte) : Port :=
  { r.1.sentOne with nakOut := false, toReturn := q.toReturn.drop 1, lastSent := some (r.2, trailer), wire := wire }

theorem countHub_counters (d : Device) (e : PmcEvent) (k : Nat) : d.countHub e k = { d with counters := (d.countHub e k).counters } := by
  unfold Device.countHub
  split <;> rfl

theorem countSent_only (d : Device) (n : PortId) (q : Port) (w : SentCodeword) :
    d.countSent n q w = { d with counters := (d.countSent n q w).counters } := by
  unfold Device.countSent
  dsimp only
  split
  · split <;> exact countHub_counters _ _ _
  · exact countHub_counters _ _ _
  · rfl
  · split
    · exact countHub_counters _ _ _
    · rfl

/-- What a slot of a port that is UP and lit does first: its codeword leaves, and is counted. -/
def Device.SlotSent (d e : Device) (n : PortId) (r : Port × SentCodeword) (seq : BitVec 16) : Prop :=
  ∃ wire c, e = { d.updPort n (fun q => q.afterSlot r ⟨seq, q.lastAck, q.nakOut, q.toReturn.head?⟩ wire) with counters := c }

/-- With nothing to send the codeword is idle. -/
theorem nextCodeword_idle {d : Device} {n : PortId} (hup : (d.port n).state = .up) (hready : (d.cart (cartOf n)).ready = true)
    (hage : d.ageOut n = d) (h : (d.port n).choose d.now = (d.port n, .idle)) :
    d.SlotSent (d.nextCodeword n) n (d.port n, .idle) 0 := by
  unfold Device.nextCodeword
  simp only [hage, hup, hready, Bool.not_true, Bool.or_self, Bool.false_eq_true, if_false, decide_true, Bool.true_or, if_true, h]
  exact ⟨_, _, countSent_only _ _ _ _⟩

/-- With any codeword, a new flit frees the credit of the packet that it belongs to. -/
theorem nextCodeword_up {d : Device} {n : PortId} (hup : (d.port n).state = .up) (hready : (d.cart (cartOf n)).ready = true)
    (hage : d.ageOut n = d) :
    ∃ e seq, d.SlotSent e n ((d.port n).choose d.now) seq ∧ (d.nextCodeword n = e ∨ ∃ i v, d.nextCodeword n = e.freed i v 1) := by
  rcases hr : (d.port n).choose d.now with ⟨q, w⟩
  unfold Device.nextCodeword
  simp only [hage, hup, hready, Bool.not_true, Bool.or_self, Bool.false_eq_true, if_false, decide_true, Bool.true_or, if_true, hr]
  cases w with
  | flit seq p i =>
    dsimp only
    split
    · exact ⟨_, seq, ⟨_, _, countSent_only _ _ _ _⟩, .inl rfl⟩
    · exact ⟨_, seq, ⟨_, _, countSent_only _ _ _ _⟩, .inr ⟨_, _, rfl⟩⟩
  | marker m => exact ⟨_, 0, ⟨_, _, countSent_only _ _ _ _⟩, .inl rfl⟩
  | linkCtl l => exact ⟨_, 0, ⟨_, _, countSent_only _ _ _ _⟩, .inl rfl⟩
  | idle => exact ⟨_, 0, ⟨_, _, countSent_only _ _ _ _⟩, .inl rfl⟩

theorem freed_port (d : Device) (i : Fin 25) (v : Fin 5) (k : Nat) (n : PortId) :
    ∃ o r, (d.freed i v k).port n = { d.port n with occupied := o, toReturn := r } := by
  unfold Device.freed
  split
  next h =>
    by_cases hn : n = ⟨i.val, h⟩
    · subst hn
      exact ⟨_, _, updPort_port _ _ _⟩
    · exact ⟨_, _, updPort_other _ hn _⟩
  next => exact ⟨_, _, rfl⟩

theorem freed_rest (d : Device) (i : Fin 25) (v : Fin 5) (k : Nat) : d.freed i v k = { d with ports := (d.freed i v k).ports } := by
  unfold Device.freed
  split <;> rfl

/-- What a slot leaves of its port, and of the module. -/
theorem nextCodeword_sends {d : Device} {n : PortId} (hup : (d.port n).state = .up) (hready : (d.cart (cartOf n)).ready = true)
    (hage : d.ageOut n = d) : ∃ trailer wire o l,
      (d.nextCodeword n).port n =
        { (d.port n).afterSlot ((d.port n).choose d.now) trailer wire with occupied := o, toReturn := l } ∧
      (d.nextCodeword n).contexts = d.contexts ∧ (d.nextCodeword n).mem = d.mem := by
  obtain ⟨e, seq, ⟨wire, c, he⟩, h⟩ := nextCodeword_up hup hready hage
  have hport : e.port n = (d.port n).afterSlot ((d.port n).choose d.now)
      ⟨seq, (d.port n).lastAck, (d.port n).nakOut, (d.port n).toReturn.head?⟩ wire := by
    rw [he]
    exact updPort_port d n (fun q => q.afterSlot ((d.port n).choose d.now) ⟨seq, q.lastAck, q.nakOut, q.toReturn.head?⟩ wire)
  obtain h | ⟨i, v, h⟩ := h
  · rw [h]
    exact ⟨_, _, _, _, hport, by rw [he]; rfl, by rw [he]; rfl⟩
  · obtain ⟨o, l, hfreed⟩ := freed_port e i v 1 n
    rw [h]
    refine ⟨_, _, o, l, by rw [hfreed, hport], ?_, ?_⟩
    · rw [freed_rest, he]
      rfl
    · rw [freed_rest, he]
      rfl

/-! ### Codewords received (R496 to R500) -/

/-- The port after a codeword that decodes. -/
def Port.decoded (q : Port) (cw : Codeword) : Port :=
  { q.gotOne with corrSymbols := satTo 40 (q.corrSymbols + cw.symbols), uncorrRun := 0 }

/-- The port after a codeword that does not. -/
def Port.undecoded (q : Port) : Port :=
  { q.gotOne with uncorrCw := satTo 32 (q.uncorrCw + 1), uncorrRun := q.uncorrRun + 1 }

theorem receive_undecoded {d : Device} {n : PortId} {cw : Codeword} (hlive : (d.port n).live = true) (h : 8 < cw.symbols) :
    d.codewordReceive n cw = if 8 ≤ (d.port n).uncorrRun + 1 then (d.updPort n Port.undecoded).portDown n 0x0414 0
      else d.updPort n Port.undecoded := by
  unfold Device.codewordReceive
  simp only [hlive, Bool.not_true, Bool.false_eq_true, if_false, h, if_true, updPort_updPort, updPort_port]
  rfl

/-- A codeword that decodes, before its trailer and its body. -/
theorem receive_decoded {d : Device} {n : PortId} {cw : Codeword} (hlive : (d.port n).live = true) (h : cw.symbols ≤ 8) :
    (cw.crcOk = false → d.codewordReceive n cw = d.updPort n (fun q => q.decoded cw)) ∧
    (cw.crcOk = true → cw.tagOk = false → d.codewordReceive n cw =
      (d.updPort n (fun q => { q.decoded cw with authFails := satTo 8 (q.authFails + 1) })).portDown n 0x0416 0) := by
  unfold Device.codewordReceive
  simp only [hlive, Bool.not_true, Bool.false_eq_true, if_false, Nat.not_lt.2 h, updPort_updPort]
  refine ⟨fun hcrc => ?_, fun hcrc htag => ?_⟩
  · simp only [hcrc, Bool.not_false, if_true]
    rfl
  · simp only [hcrc, htag, Bool.not_false, Bool.not_true, Bool.false_eq_true, if_true, if_false]
    rfl

/-- The codeword decodes, its tag is right, and its trailer asks for nothing. -/
def PlainCodeword (cw : Codeword) : Prop :=
  cw.symbols ≤ 8 ∧ cw.crcOk = true ∧ cw.tagOk = true ∧ cw.ackSeq = none ∧ cw.credit = none ∧ cw.nak = false

theorem takeTrailer_plain {d : Device} {n : PortId} {cw : Codeword} (h : PlainCodeword cw) : d.takeTrailer n cw = d := by
  obtain ⟨-, -, -, hack, hcredit, hnak⟩ := h
  unfold Device.takeTrailer
  simp only [hack, hcredit, hnak, Bool.false_eq_true, if_false]
  exact updPort_same rfl

theorem receive_plain {d : Device} {n : PortId} {cw : Codeword} (hlive : (d.port n).live = true) (h : PlainCodeword cw) :
    let e := d.updPort n (fun q => { q.decoded cw with lastGood := d.now })
    (cw.body = .idle → d.codewordReceive n cw = e) ∧
    (∀ pkt i, cw.body = .flit pkt i → cw.txSeq ≠ (d.port n).rxSeq →
      d.codewordReceive n cw = d.updPort n (fun q => { q.decoded cw with lastGood := d.now, nakOut := true })) ∧
    (∀ pkt i, cw.body = .flit pkt i → cw.txSeq = (d.port n).rxSeq → (d.port n).peer.any (fun p => p.ext) = false →
      d.codewordReceive n cw = (e.countHub { code := 0x118 + pkt.body.vc.val, unit := some n.val } 1).acceptFlit n pkt i) := by
  obtain ⟨hsymbols, hcrc, htag, -, -, -⟩ := id h
  unfold Device.codewordReceive
  simp only [hlive, Bool.not_true, Bool.false_eq_true, if_false, Nat.not_lt.2 hsymbols, updPort_updPort, hcrc, htag, takeTrailer_plain h]
  refine ⟨fun hbody => ?_, fun pkt i hbody hout => ?_, fun pkt i hbody hin hext => ?_⟩
  · rw [hbody]
    rfl
  · rw [hbody]
    dsimp only
    rw [if_neg]
    · rfl
    · simp only [updPort_port, Bool.and_eq_true, decide_eq_true_eq]
      exact fun hand => hout hand.1
  · rw [hbody]
    dsimp only
    rw [if_pos, if_neg]
    · rfl
    · simp only [updPort_port, Bool.and_eq_true, not_and, Bool.not_eq_true]
      exact fun _ => hext
    · simp only [updPort_port, Bool.and_eq_true, decide_eq_true_eq]
      exact ⟨hin, hlive⟩

/-- The first of several flits of a packet enters the receive buffer. -/
def Port.withFirst (q : Port) (pkt : Packet) : Port :=
  { q with rxSeq := q.rxSeq + 1, lastAck := q.rxSeq
           occupied := q.occupied.set pkt.body.vc.val (q.occupied[pkt.body.vc.val] + 1) pkt.body.vc.isLt
           recv := q.recv.filter (fun r => r.1 != pkt) ++ [(pkt, 1)] }

theorem acceptFlit_first {d : Device} {n : PortId} {pkt : Packet} (h : 1 < pkt.flits) :
    d.acceptFlit n pkt 0 = d.updPort n (fun q => q.withFirst pkt) := by
  unfold Device.acceptFlit
  simp only [if_true, if_pos h]
  rfl

theorem startReplay_waiting {d : Device} {n : PortId} {f : ReplayFlit} {fs : List ReplayFlit} (h : (d.port n).replayBuf = f :: fs)
    (hfew : ∀ g ∈ f :: fs, g.resends < 8) : d.startReplay n = d.updPort n (fun q => { q with
      replayCursor := some 0, replays := satTo 24 (q.replays + 1), ackSince := d.now }) := by
  have hany : (f :: fs).any (fun g => decide (8 ≤ g.resends)) = false :=
    List.any_eq_false.2 (fun g hg => by simpa using hfew g hg)
  unfold Device.startReplay
  simp only [h, hany, List.isEmpty_cons, Bool.false_eq_true, if_false]

theorem stampRec_unit (d : Device) (r : ErrRec) : (d.stampRec r).unit = r.unit := by
  have hredact (q : ErrRec) : (redact q).unit = q.unit := by
    unfold redact
    split
    · rfl
    · split <;> rfl
  unfold Device.stampRec
  dsimp only
  cases d.ctx? r.ctx with
  | none => rfl
  | some c =>
    dsimp only
    split
    · rw [hredact]
    · rfl

/-- What the DOWN of a port reports. -/
structure Device.Down (d e : Device) (n : PortId) (code : Code) : Prop where
  others : ∀ m, m ≠ n → e.port m = d.port m
  state : (e.port n).state = .down
  reason : (e.port n).reason = code
  downCount : (e.port n).downCount = satTo 8 ((d.port n).downCount + 1)
  queues : (e.port n).queues = Vector.replicate 5 []
  contexts : e.contexts = d.contexts
  mem : e.mem = d.mem
  record : ∃ r, e.err.queue = d.err.queue ++ [⟨r, false, none⟩] ∧ r.reason = code ∧ r.mech = 7 ∧ r.unit = n.val

theorem portDown_down {d d₁ : Device} {n : PortId} {q : Port} (hstep : d.PortStep d₁ n q) (hgeneral : d.err.general < 64)
    (hup : q.state = .up) (hcount : q.downCount = (d.port n).downCount) (hempty : q.packets = []) (code : Code) (lane : Nat) :
    d.Down (d₁.portDown n code lane) n code ∧ (d₁.portDown n code lane).fabric.deadMods = d₁.fabric.deadMods := by
  obtain ⟨e, r, hdown, hstate, hreason, hdowns, hqueues, hdead, hportDown⟩ := portDown_empty (d := d₁) (n := n)
    (by rw [hstep.port, hup]; decide) (by rw [hstep.port, hup]; decide) (by rw [hstep.port]; exact hempty) code lane
  have hall := hstep.trans hdown
  have herr : e.err = d.err := by rw [hall.frame]
  have hports (m : PortId) : (d₁.portDown n code lane).port m = e.port m := by
    rw [hportDown, Device.port, raise_ports]
    rfl
  rw [hstep.port, hcount] at hdowns
  refine ⟨⟨fun m hm => (hports m).trans (hall.others m hm), ?_, ?_, ?_, ?_, ?_, ?_, ?_⟩, ?_⟩
  · rw [hports, hall.port, hstate]
  · rw [hports, hall.port, hreason]
  · rw [hports, hall.port, hdowns]
  · rw [hports, hall.port, hqueues]
  · rw [hportDown, raise_contexts, hall.frame]
  · rw [hportDown, raise_mem, hall.frame]
  · have hsame := stampRec_sameFault e (d₁.portRecord n code lane 1)
    refine ⟨_, ?_, hsame.reason, hsame.mech, stampRec_unit _ _⟩
    rw [hportDown, raise_queue (by rw [herr]; exact hgeneral), herr]
  · rw [hportDown, raise_fabric, hdead]

theorem peerDown_live {d : Device} {n : PortId} (hlive : (d.port n).live = true) (moduleCause : Bool) :
    (moduleCause = false → d.peerDown n moduleCause = d.portDown n 0x0417 0) ∧
    ∀ p, moduleCause = true → (d.port n).peer = some p →
      ∃ cs, d.peerDown n moduleCause = { d.portDown n 0x0417 0 with
        contexts := cs
        fabric := { (d.portDown n 0x0417 0).fabric with
          deadMods := p.modNum :: (d.portDown n 0x0417 0).fabric.deadMods.filter (fun m => m != p.modNum) } } := by
  unfold Device.peerDown
  simp only [hlive, Bool.true_or, Bool.not_true, Bool.false_eq_true, if_false]
  refine ⟨fun h => ?_, fun p h hpeer => ?_⟩
  · cases (d.port n).peer with
    | none => rfl
    | some p => simp only [h, Bool.false_eq_true, if_false]
  · simp only [hpeer, h, if_true]
    exact ⟨_, rfl⟩

/-- Settles O36: what the codewords of a port do, and what takes it down. -/
theorem codewordsAndPortsDown : Obligations.CodewordsAndPortsDown := by
  refine ⟨fun s n cw hrails hup => ?_, fun s n lane cw hrails hgeneral hempty => ?_⟩
  · intro q got only counted plain empty
    have hlive : (s.dev.port n).live = true := by simp only [Port.live, hup, decide_true, Bool.true_or]
    have hreceive {e : Device} (h : s.dev.codewordReceive n cw = e) : exec (.codewordReceive n cw) s = .next { s with dev := e } :=
      exec_run rfl hrails h
    have honly {cmd : Instr} {f : Port → Port} {r : Port} (h : exec cmd s = .next { s with dev := s.dev.updPort n f }) (hr : f q = r) :
        only cmd (fun x => x = r) := ⟨_, h, rfl, updPort_onlyPort _ _ _, by rw [updPort_port]; exact hr⟩
    refine ⟨fun hbad hrun => ?_, fun hsymbols hcrc => ?_, fun hplain hbody => ?_, fun pkt i hplain hbody hout => ?_,
      fun pkt hplain hbody hin hext hflits => ?_, fun hready hage => ?_, fun hready hmarker hctl hreplay hqueues => ?_,
      fun hready hqueues => ?_, fun f fs hbuf hfew hlate => ?_, fun hearly => ?_⟩
    · exact honly (hreceive ((receive_undecoded hlive hbad).trans (if_neg (Nat.not_le.2 (Nat.succ_lt_succ hrun))))) rfl
    · exact honly (hreceive ((receive_decoded hlive hsymbols).1 hcrc)) rfl
    · exact honly (hreceive ((receive_plain hlive hplain).1 hbody)) rfl
    · exact honly (hreceive ((receive_plain hlive hplain).2.1 pkt i hbody hout)) rfl
    · have hflit := (receive_plain hlive hplain).2.2 pkt 0 hbody hin hext
      rw [countHub_counters, acceptFlit_first hflits, updPort_counted] at hflit
      refine ⟨_, hreceive hflit, rfl, ?_, ?_⟩
      · exact updPort_onlyPort s.dev n (fun q => Port.withFirst { q.decoded cw with lastGood := s.dev.now } pkt)
      · have hport : (s.dev.updPort n (fun q => Port.withFirst { q.decoded cw with lastGood := s.dev.now } pkt)).port n =
            Port.withFirst { q.decoded cw with lastGood := s.dev.now } pkt := updPort_port _ _ _
        refine hport ▸ ⟨rfl, rfl, ?_, ?_, rfl⟩
        · simp [Port.withFirst]
        · simp [Port.withFirst, Port.decoded, Port.gotOne]
    · obtain ⟨trailer, wire, o, l, hport, hcontexts, hmem⟩ := nextCodeword_sends hup hready (ageOut_fresh hage)
      obtain ⟨hstate, htx, hrx⟩ := choose_keeps (s.dev.port n) s.dev.now
      refine completes_run rfl hrails ⟨rfl, hcontexts, hmem, ?_, ?_, ?_, ?_, fun m hm => ?_, fun k ks hmarker hctl => ?_⟩
      · rw [hport]
        exact congrArg (· + 1) htx
      · rw [hport]
        rfl
      · rw [hport]
        exact hstate.trans hup
      · rw [hport]
        exact hrx
      · rw [hport, choose_marker hm]
        exact ⟨rfl, rfl⟩
      · rw [hport, choose_linkCtl hmarker hctl]
        exact ⟨rfl, rfl⟩
    · have hage : s.dev.ageOut n = s.dev := ageOut_fresh (fun v e he => absurd he (by rw [hqueues v]; exact List.not_mem_nil))
      obtain ⟨wire, c, hslot⟩ := nextCodeword_idle hup hready hage (choose_idle hmarker hctl hreplay hqueues s.dev.now)
      refine completes_run rfl hrails ?_
      rw [hslot]
      let f (q : Port) : Port := q.afterSlot (s.dev.port n, .idle) ⟨0, q.lastAck, q.nakOut, q.toReturn.head?⟩ wire
      have hport : (s.dev.updPort n f).port n = f q := updPort_port _ _ _
      exact ⟨rfl, updPort_onlyPort s.dev n f, hport ▸ ⟨rfl, rfl, rfl⟩⟩
    · have hfixed : s.dev.nextCodeword n = s.dev := by
        have hage : s.dev.ageOut n = s.dev := ageOut_fresh (fun v e he => absurd he (by rw [hqueues v]; exact List.not_mem_nil))
        unfold Device.nextCodeword
        rw [hage]
        exact if_pos (by rw [hready]; simp)
      exact exec_run rfl hrails hfixed
    · have hreplay : s.dev.replayTimeout n = s.dev.startReplay n := if_pos (by
        simp only [q] at hbuf hlate
        simp only [hlive, hbuf, hlate, List.isEmpty_cons, Bool.not_false, decide_true, Bool.and_self])
      exact honly (exec_run (c := .replayTimeout n) (f := fun d => d.replayTimeout n) rfl hrails (hreplay.trans (startReplay_waiting hbuf hfew))) rfl
    · have hkept : s.dev.replayTimeout n = s.dev := if_neg (by
        simp only [q] at hearly
        simp only [Nat.not_le.2 hearly, decide_false, Bool.and_false, Bool.false_eq_true, not_false_eq_true])
      exact exec_run rfl hrails hkept
  · intro q down
    have hreceive {e : Device} (h : s.dev.codewordReceive n cw = e) : exec (.codewordReceive n cw) s = .next { s with dev := e } :=
      exec_run rfl hrails h
    have hself : s.dev.PortStep s.dev n q := ⟨rfl, fun _ _ => rfl, rfl⟩
    have hdown {cmd : Instr} {code : Code} {d₁ : Device} {r : Port} {l : Nat} (hstep : s.dev.PortStep d₁ n r)
        (hexec : exec cmd s = .next { s with dev := d₁.portDown n code l }) (hup : r.state = .up) (hcount : r.downCount = q.downCount)
        (hnone : r.packets = []) : down cmd code := by
      obtain ⟨h, -⟩ := portDown_down hstep hgeneral hup hcount hnone code l
      exact ⟨_, hexec, rfl, h.others, h.state, h.reason, h.downCount, h.queues, h.contexts, h.mem, h.record⟩
    have hlive (hup : q.state = .up) : (s.dev.port n).live = true := by
      simp only [q] at hup
      simp only [Port.live, hup, decide_true, Bool.true_or]
    refine ⟨fun hup => ?_, fun p hup hpeer => ?_, fun hup hlate => ?_, fun hup hearly => ?_, fun hup => ?_, fun hup => ?_,
      fun hup hdraining => ?_, fun hup hbad hrun => ?_, fun hup hsymbols hcrc htag => ?_, fun hstate hen hauto hlate => ?_⟩
    · exact hdown hself (exec_run rfl hrails ((peerDown_live (hlive hup) false).1 rfl)) hup rfl hempty
    · obtain ⟨h, hdead⟩ := portDown_down hself hgeneral hup rfl hempty 0x0417 0
      obtain ⟨cs, hpeerDown⟩ := (peerDown_live (hlive hup) true).2 p rfl hpeer
      have hexec := exec_run (c := .linkCtlDown n true) (f := fun d => d.peerDown n true) rfl hrails hpeerDown
      refine ⟨_, hexec, rfl, h.state, fun m => ?_, h.mem⟩
      rw [List.mem_cons, hdead, List.mem_filter, bne_iff_ne]
      by_cases hm : m = p.modNum <;> simp only [hm, true_or, false_or, ne_eq, not_false_eq_true, and_true, not_true_eq_false]
    · refine hdown hself (exec_run rfl hrails (if_pos ?_)) hup rfl hempty
      simp only [q] at hlate
      simp only [hlive hup, hlate, decide_true, Bool.and_self]
    · refine exec_run rfl hrails (if_neg ?_)
      simp only [q] at hearly
      simp only [Nat.not_le.2 hearly, decide_false, Bool.and_false, Bool.false_eq_true, not_false_eq_true]
    · refine hdown hself (exec_run rfl hrails (if_pos ?_)) hup rfl hempty
      simp only [hlive hup, Bool.true_or]
    · exact hdown hself (exec_run rfl hrails (if_pos (hlive hup))) hup rfl hempty
    · refine exec_run rfl hrails (if_neg ?_)
      simp only [q] at hup hdraining
      simp only [Port.live, hup, hdraining, decide_false, Bool.or_self, Bool.false_eq_true, not_false_eq_true]
    · exact hdown (updPort_step s.dev n Port.undecoded)
        (hreceive ((receive_undecoded (hlive hup) hbad).trans (if_pos (Nat.succ_le_succ hrun)))) hup rfl hempty
    · exact hdown (updPort_step s.dev n (fun q => { q.decoded cw with authFails := satTo 8 (q.authFails + 1) }))
        (hreceive ((receive_decoded (hlive hup) hsymbols).2 hcrc htag)) hup rfl hempty
    · have hretrain : s.dev.autoRetrain n = (s.dev.updPort n (fun q => { q with state := .waitLaser, since := s.dev.now })).portTrain n :=
        if_pos (by simp only [q] at hstate hen hauto hlate
                   simp only [hstate, hen, hauto, hlate, decide_true, Bool.and_self])
      obtain ⟨honly, -, -, -, htrain⟩ := portTrain_started (n := n)
        (d := s.dev.updPort n (fun q => { q with state := .waitLaser, since := s.dev.now })) (by rw [updPort_port])
      refine completes_run rfl hrails ?_
      rw [hretrain]
      exact ⟨rfl, (updPort_onlyPort s.dev n _).trans honly, htrain⟩

end Sys2Proof.Machine
end

section
/-! Route tables, and the way of a packet through this module. -/

namespace Sys2Proof.Machine

/-! ### Route tables (R534) -/

theorem asked_of_full (v : BitVec 32) {i : Nat} (hi : i < 32) : bitOf (v.setWidth 64 &&& 0xFFFFFFFF) i = v.getLsbD i := by
  have hmask : (0xFFFFFFFF : BitVec 64).getLsbD i = true := by
    have : ∀ i < 32, (0xFFFFFFFF : BitVec 64).getLsbD i = true := by decide
    exact this i hi
  rw [bitOf, BitVec.getLsbD_and, hmask, Bool.and_true]
  exact bitOf_setWidth v i

theorem routeCtlWrite_load {d : Device} {v : BitVec 32} (hload : v.getLsbD 31 = true) (hswap : v.getLsbD 30 = false)
    (hidle : d.fabric.loadBusy = false) :
    d.routeCtlWrite (v.setWidth 64) 0xFFFFFFFF = { d with fabric := { d.fabric with loadBusy := true, standby := none } } := by
  unfold Device.routeCtlWrite
  simp only [asked_of_full v (show 30 < 32 by decide), asked_of_full v (show 31 < 32 by decide), hload, hswap, hidle,
    Bool.not_false, Bool.and_self, if_true]

theorem routeCtlWrite_swap {d : Device} {v : BitVec 32} {tab : RouteTable} (hload : v.getLsbD 31 = false) (hswap : v.getLsbD 30 = true)
    (hstandby : d.fabric.standby = some tab) :
    d.routeCtlWrite (v.setWidth 64) 0xFFFFFFFF = { d with fabric := { d.fabric with active := some tab, standby := none } } := by
  unfold Device.routeCtlWrite
  simp only [asked_of_full v (show 30 < 32 by decide), asked_of_full v (show 31 < 32 by decide), hload, hswap, hstandby,
    Bool.false_and, Bool.false_eq_true, if_false]

/-- A number of `n` bytes in the route image that the host holds. -/
def Device.imageWord (d : Device) (o n : Nat) : Nat := leNat (d.hostRead (d.regs.fabRouteBase.toNat / 64 * 64 + o) n)

/-- The table of the route image. -/
def Device.imageTable (d : Device) : RouteTable :=
  { turn := (List.range 50).map (fun i => BitVec.ofNat 32 (d.imageWord (16 + 4 * i) 4))
    route := (List.range (min (d.imageWord 4 4) 32768)).map (fun i => BitVec.ofNat 32 (d.imageWord (256 + 4 * i) 4)) }

/-- The end of a route load, by what is wrong with the image. -/
theorem routeLoadDone_busy {d : Device} (hbusy : d.fabric.loadBusy = true) :
    d.routeLoadDone =
      let fault := if d.hostUp then routeImageFault d (d.imageWord 0 2) (d.imageWord 2 2) (d.imageWord 4 4)
        (d.imageWord 8 8 = 0 && (List.range 5).all (fun i => d.imageWord (216 + 8 * i) 8 = 0)) d.imageTable else some 0x0408
      { d with fabric := { d.fabric with
          loadBusy := false, reason := fault.getD 0, standby := if fault.isNone then some d.imageTable else none } } := by
  unfold Device.routeLoadDone
  cases d.hostUp <;>
    simp only [hbusy, Bool.not_true, Bool.not_false, Bool.false_eq_true, if_false, if_true] <;> rfl

/-- An image of another version is refused. -/
theorem routeImageFault_version {d : Device} {version modnum entries : Nat} (h : version ≠ 1) (reserved : Bool) (t : RouteTable) :
    routeImageFault d version modnum entries reserved t = some 0x0408 := by
  unfold routeImageFault
  simp only [h, decide_false, Bool.false_and, firstFailure, Bool.false_eq_true, if_false, Option.map_some]

/-- The image passes every check of R534. -/
structure Device.GoodImage (d : Device) (t : RouteTable) : Prop where
  version : d.imageWord 0 2 = 1
  modnum : d.imageWord 2 2 = d.modNum.toNat
  some_entry : 1 ≤ d.imageWord 4 4
  few_entries : d.imageWord 4 4 ≤ 32768
  reserved_head : d.imageWord 8 8 = 0
  reserved_turns : ∀ i < 5, d.imageWord (216 + 8 * i) 8 = 0
  masks : ∀ m ∈ t.turn, m.toNat < 2 ^ 24
  own_listed : d.modNum.toNat < d.imageWord 4 4
  no_return : ∀ i < 24, (t.turn.getD (2 * i) 0).getLsbD i = false ∧ (t.turn.getD (2 * i + 1) 0).getLsbD i = false
  words : ∀ w ∈ t.route, w &&& 0x07FF83E0 = 0 ∧ fieldOf (w.setWidth 64) 4 0 ≤ 23 ∧ fieldOf (w.setWidth 64) 14 10 ≤ 23
  locals : ∀ i < d.imageWord 4 4, (t.route.getD i 0).getLsbD 30 = true ↔ i = d.modNum.toNat
  own_valid : (t.route.getD d.modNum.toNat 0).getLsbD 31 = true
  injects : ∀ w ∈ t.route, w.getLsbD 31 = true → w.getLsbD 30 = false →
    (t.turn.getD 48 0).getLsbD (fieldOf (w.setWidth 64) 4 0) = true ∧
      (w.getLsbD 28 = true → (t.turn.getD 48 0).getLsbD (fieldOf (w.setWidth 64) 14 10) = true)

theorem field_pri (w : BitVec 32) : fieldOf (w.setWidth 64) 4 0 = w.toNat % 32 := by
  rw [fieldOf, BitVec.toNat_setWidth_of_le (by decide)]
  rfl

theorem field_alt (w : BitVec 32) : fieldOf (w.setWidth 64) 14 10 = w.toNat / 2 ^ 10 % 32 := by
  rw [fieldOf, BitVec.toNat_setWidth_of_le (by decide), Nat.shiftRight_eq_div_pow]
  rfl

theorem imageTable_few {d : Device} (h : d.imageWord 4 4 ≤ 32768) :
    d.imageTable = { turn := (List.range 50).map (fun i => BitVec.ofNat 32 (d.imageWord (16 + 4 * i) 4))
                     route := (List.range (d.imageWord 4 4)).map (fun i => BitVec.ofNat 32 (d.imageWord (256 + 4 * i) 4)) } := by
  rw [Device.imageTable, Nat.min_eq_left h]

theorem routeImageFault_good {d : Device} {t : RouteTable} (h : d.GoodImage t) (hlen : t.route.length = d.imageWord 4 4) :
    routeImageFault d (d.imageWord 0 2) (d.imageWord 2 2) (d.imageWord 4 4)
      (d.imageWord 8 8 = 0 && (List.range 5).all (fun i => d.imageWord (216 + 8 * i) 8 = 0)) t = none := by
  have hown : d.modNum.toNat < t.route.length := hlen ▸ h.own_listed
  have hreserved : (List.range 5).all (fun i => d.imageWord (216 + 8 * i) 8 = 0) = true :=
    List.all_eq_true.2 (fun i hi => decide_eq_true (h.reserved_turns i (List.mem_range.1 hi)))
  have hmasks : t.turn.all (fun m => m.toNat < 2 ^ 24) = true :=
    List.all_eq_true.2 (fun m hm => decide_eq_true (h.masks m hm))
  have hwords : t.route.all (fun w => w &&& 0x07FF83E0 = 0) = true :=
    List.all_eq_true.2 (fun w hw => decide_eq_true (h.words w hw).1)
  have hself : (t.route[d.modNum.toNat]?).any (fun w => w.getLsbD 31 && w.getLsbD 30) = true := by
    have hlocal := (h.locals _ h.own_listed).2 rfl
    have hvalid := h.own_valid
    rw [List.getD_eq_getElem?_getD, List.getElem?_eq_getElem hown, Option.getD_some] at hlocal hvalid
    rw [List.getElem?_eq_getElem hown, Option.any_some, hlocal, hvalid]
    rfl
  have honly : t.route.zipIdx.all (fun w => !w.1.getLsbD 30 || decide (w.2 = d.modNum.toNat)) = true := by
    refine List.all_eq_true.2 (fun ⟨w, i⟩ hw => ?_)
    have hget := List.mem_zipIdx_iff_getElem?.1 hw
    have hi : i < d.imageWord 4 4 := hlen ▸ (List.getElem?_eq_some_iff.1 hget).1
    have hlocal := h.locals i hi
    rw [List.getD_eq_getElem?_getD, hget, Option.getD_some] at hlocal
    cases hbit : w.getLsbD 30 with
    | false => rfl
    | true => simpa only [hbit, Bool.not_true, Bool.false_or, decide_eq_true_eq] using hlocal.1 hbit
  have hports : t.route.all (fun w => decide (w.toNat % 32 ≤ 23) && decide (w.toNat / 2 ^ 10 % 32 ≤ 23)) = true := by
    refine List.all_eq_true.2 (fun w hw => ?_)
    obtain ⟨-, hpri, halt⟩ := h.words w hw
    rw [field_pri] at hpri
    rw [field_alt] at halt
    exact Bool.and_eq_true_iff.2 ⟨decide_eq_true hpri, decide_eq_true halt⟩
  have hturns : (List.range 24).all (fun i => !((t.turn[2 * i]?).getD 0).getLsbD i &&
      !((t.turn[2 * i + 1]?).getD 0).getLsbD i) = true := by
    refine List.all_eq_true.2 (fun i hi => ?_)
    obtain ⟨hlow, hhigh⟩ := h.no_return i (List.mem_range.1 hi)
    rw [List.getD_eq_getElem?_getD] at hlow hhigh
    rw [hlow, hhigh]
    rfl
  have hinjects : t.route.all (fun w => !w.getLsbD 31 || w.getLsbD 30 ||
      (((t.turn[48]?).getD 0).getLsbD (w.toNat % 32) &&
        (!w.getLsbD 28 || ((t.turn[48]?).getD 0).getLsbD (w.toNat / 2 ^ 10 % 32)))) = true := by
    refine List.all_eq_true.2 (fun w hw => ?_)
    have hinj := h.injects w hw
    rw [field_pri, field_alt, List.getD_eq_getElem?_getD] at hinj
    cases hvalid : w.getLsbD 31 with
    | false => rfl
    | true =>
      cases hlocal : w.getLsbD 30 with
      | true => rfl
      | false =>
        obtain ⟨hpri, halt⟩ := hinj hvalid hlocal
        rw [hpri]
        cases hup : w.getLsbD 28 with
        | false => rfl
        | true =>
          rw [halt hup]
          rfl
  unfold routeImageFault
  simp only [h.version, h.modnum, h.some_entry, h.few_entries, h.reserved_head, hreserved, hmasks, hwords, hself, honly, hports, hturns, hinjects,
    decide_true, Bool.and_self, firstFailure, if_true, Option.map_none]

/-! ### Packets that arrive (R519, R529, R531, R589) -/

/-- A packet of an ingress, older by the delay of its link. -/
def Device.arrived (d : Device) (i : Fin 25) (p : Packet) : Packet :=
  { p with head := { p.head with age := addAge p.head.age (if h : i.val < 24 then (d.port ⟨i.val, h⟩).rtt.toNat / 20 else 0) } }

/-- A packet leaves its ingress, and nothing but that port and the fabric changes. -/
structure Device.TakenIn (d e : Device) (i : Fin 25) (f : Fabric) : Prop where
  ports : ∀ m : PortId, m.val ≠ i.val → e.port m = d.port m
  fabric : e.fabric = f
  contexts : e.contexts = d.contexts
  mem : e.mem = d.mem

theorem freed_other (d : Device) {i : Fin 25} (v : Fin 5) (k : Nat) {m : PortId} (h : m.val ≠ i.val) : (d.freed i v k).port m = d.port m := by
  unfold Device.freed
  split
  next hi => exact updPort_other d (fun he => h (by rw [he])) _
  next => rfl

theorem freed_taken (d : Device) (f : Fabric) (i : Fin 25) (v : Fin 5) (k : Nat) :
    d.TakenIn (({ d with fabric := f } : Device).freed i v k) i f := by
  refine ⟨fun m hm => freed_other _ v k hm, ?_, ?_, ?_⟩ <;> rw [freed_rest]

theorem arrive_flood {d : Device} {i : Fin 25} {p : Packet} (h : isFlood p.body = true) :
    d.arrive i p = ({ d with fabric := { d.fabric with inbox := d.fabric.inbox ++ [(i, d.arrived i p)] } } : Device).freed i p.body.vc p.flits :=
  if_pos h

theorem arrive_fresh {d : Device} {i : Fin 25} {p : Packet} (h : isFlood p.body = false) (hage : d.tooOld (d.arrived i p).head.age = false) :
    d.arrive i p = d.forward i (d.arrived i p) :=
  (if_neg (by rw [h]; exact Bool.false_ne_true)).trans (if_neg (fun hold => Bool.false_ne_true (hage.symm.trans hold)))

theorem arrive_old {d : Device} {i : Fin 25} {p : Packet} (h : isFlood p.body = false) (hage : d.tooOld (d.arrived i p).head.age = true) :
    d.TakenIn (d.arrive i p) i { d.fabric with ageDiscards := satTo 24 (d.fabric.ageDiscards + 1) } := by
  have harrive : d.arrive i p = if hi : i.val < 24 then (d.freed i p.body.vc p.flits).ageDiscard ⟨i.val, hi⟩
      else { d.freed i p.body.vc p.flits with fabric := { (d.freed i p.body.vc p.flits).fabric with
        ageDiscards := satTo 24 ((d.freed i p.body.vc p.flits).fabric.ageDiscards + 1) } } :=
    (if_neg (by rw [h]; exact Bool.false_ne_true)).trans (if_pos hage)
  obtain ⟨hports, hfabric, hcontexts, hmem⟩ := freed_taken d d.fabric i p.body.vc p.flits
  rw [harrive]
  split
  next hi =>
    have hother (e : Device) (g : Port → Port) (m : PortId) (hm : m.val ≠ i.val) : (e.updPort ⟨i.val, hi⟩ g).port m = e.port m :=
      updPort_other e (fun he => hm (by rw [he])) g
    unfold Device.ageDiscard
    dsimp only
    split
    · exact ⟨hports, congrArg (fun f : Fabric => { f with ageDiscards := satTo 24 (f.ageDiscards + 1) }) hfabric, hcontexts, hmem⟩
    · refine ⟨fun m hm => ?_, ?_, ?_, ?_⟩
      · rw [Device.port, raise_ports]
        exact (hother _ _ m hm).trans (hports m hm)
      · rw [raise_fabric]
        exact congrArg (fun f : Fabric => { f with ageDiscards := satTo 24 (f.ageDiscards + 1) }) hfabric
      · rw [raise_contexts]
        exact hcontexts
      · rw [raise_mem]
        exact hmem
  next => exact ⟨hports, congrArg (fun f : Fabric => { f with ageDiscards := satTo 24 (f.ageDiscards + 1) }) hfabric, hcontexts, hmem⟩

/-! ### Packets that go on (R527 to R529) -/

theorem forward_routed {d e : Device} {i : Fin 25} {p : Packet} (h : d.route i p = (e, none)) : d.forward i p = e := by
  unfold Device.forward
  rw [h]

/-- A packet for this module enters the inbox. -/
theorem forward_own {d : Device} {i : Fin 25} {p : Packet} (hdst : p.head.dstMod = d.modNum)
    (hlocal : i.val = 24 ∨ (d.routeWord d.modNum).any (fun w => w.getLsbD 30) = true) :
    d.forward i p = ({ d with fabric := { d.fabric with inbox := d.fabric.inbox ++ [(i, p)] } } : Device).freed i p.body.vc p.flits := by
  have hroute : d.route i p =
      (({ d with fabric := { d.fabric with inbox := d.fabric.inbox ++ [(i, p)] } } : Device).freed i p.body.vc p.flits, none) := by
    refine if_pos ?_
    obtain h | h := hlocal
    · simp only [hdst, h, decide_true, Bool.and_self, Bool.or_true]
    · simp only [hdst, h, decide_true, Bool.and_self, Bool.true_or]
  exact forward_routed hroute

/-- The route of a packet for another module, by the first hop of its word. -/
theorem route_hop {d : Device} {i : Fin 25} {p : Packet} {w : BitVec 32} (hdst : p.head.dstMod ≠ d.modNum)
    (halive : p.head.dstMod ∉ d.fabric.deadMods) (hword : d.routeWord p.head.dstMod = some w)
    (husable : d.portUsable (portOf (w.toNat % 32)) p.body.vc = true) :
    d.route i p = if d.turnAllows i p.head.layer (portOf (w.toNat % 32)) then
        (d.queueVia (portOf (w.toNat % 32)) i { p with head := { p.head with layer := p.head.layer || w.getLsbD 29 } }, none)
      else (d.countTurnDrop (if h : i.val < 24 then ⟨i.val, h⟩ else portOf (w.toNat % 32)), some 0x0420) := by
  have hhop : d.hop p.head.dstMod p.body.vc = some (portOf (w.toNat % 32), w.getLsbD 29) := by
    unfold Device.hop
    have hcontains : d.fabric.deadMods.contains p.head.dstMod = false := by simpa using halive
    simp only [hcontains, hword, husable, Bool.false_eq_true, if_false, if_true]
  unfold Device.route
  cases hturn : d.turnAllows i p.head.layer (portOf (w.toNat % 32)) <;>
    simp only [hturn, hdst, hhop, decide_false, Bool.false_and, Bool.and_false, Bool.or_self, Bool.false_eq_true, if_false, if_true, Bool.not_true,
      Bool.not_false]

/-- A packet whose destination no route use knows waits at its egress. -/
theorem queueVia_first {d : Device} {e : PortId} {i : Fin 25} {p : Packet} (h : d.fabric.uses.find? (fun u => u.dst = p.head.dstMod) = none) :
    d.queueVia e i p = (d.setUse { dst := p.head.dstMod, egress := e, lastQueued := d.now }).queueAt e i p := by
  unfold Device.queueVia
  simp only [h]

/-- A packet of another module whose turn is not permitted, and that is no request, is gone. -/
theorem forward_turned {d e : Device} {i : Fin 25} {p : Packet} (h : d.route i p = (e, some 0x0420)) (hmod : e.modNum = d.modNum)
    (hsrc : p.head.srcMod ≠ d.modNum) (hrequest : p.body.isRequest = false) : d.forward i p = e.freed i p.body.vc p.flits := by
  have hkept : (e.freed i p.body.vc p.flits).modNum = d.modNum := by
    rw [freed_rest]
    exact hmod
  unfold Device.forward
  rw [h]
  refine if_pos ?_
  rw [hkept, hrequest, bne_iff_ne.2 hsrc]
  rfl

theorem queueAt_queue (d : Device) (e : PortId) (i : Fin 25) (p : Packet) :
    ((d.queueAt e i p).port e).queues[p.body.vc.val] =
      (d.port e).queues[p.body.vc.val] ++ [{ input := i, pkt := p, sent := 0, since := d.now }] := by
  rw [Device.queueAt, updPort_port]
  exact Vector.getElem_set_self _

/-- A packet that is not carried on is counted at its ingress, which it leaves. -/
theorem turnDrop_freed (d : Device) (i : Fin 25) (h : i.val < 24) (v : Fin 5) (k : Nat) :
    d.TakenIn ((d.countTurnDrop ⟨i.val, h⟩).freed i v k) i d.fabric ∧
      (((d.countTurnDrop ⟨i.val, h⟩).freed i v k).port ⟨i.val, h⟩).turnDrops = satTo 16 ((d.port ⟨i.val, h⟩).turnDrops + 1) := by
  refine ⟨⟨fun m hm => (freed_other _ v k hm).trans (updPort_other d (fun he => hm (by rw [he])) _), ?_, ?_, ?_⟩, ?_⟩
  · rw [freed_rest]; rfl
  · rw [freed_rest]; rfl
  · rw [freed_rest]; rfl
  · obtain ⟨o, r, hport⟩ := freed_port (d.countTurnDrop ⟨i.val, h⟩) i v k ⟨i.val, h⟩
    rw [hport, Device.countTurnDrop, updPort_port]

/-- Settles O37: route loads, and the places that a packet can go to. -/
theorem routesAndPackets : Obligations.RoutesAndPackets := by
  intro s v tab ing pkt dst u until_ hrails f only image turns routes injects good late arrived others
  have honly {cmd : Instr} {g : Fabric} (h : exec cmd s = .next { s with dev := { s.dev with fabric := g } }) :
      only cmd (fun x => x = g) := ⟨_, h, rfl, rfl, rfl⟩
  have hgoes {e : Device} (h : s.dev.arrive ing pkt = e) : exec (.packetForward ing pkt) s = .next { s with dev := e } :=
    exec_run rfl hrails h
  refine ⟨fun hload hswap hidle => ?_, fun hbusy hdown => ?_, fun hbusy hup hversion => ?_, fun hbusy hup hgood => ?_,
    fun hswap hload hstandby => ?_, fun hdst hlocal hflood hage => ?_, fun hflood hage => ?_, fun hflood => ?_,
    fun w hflood hage hdst halive hword hlocal husable => ⟨fun hturn huse => ?_, fun hi hturn hsrc hrequest => ?_⟩,
    fun huse huntil hearly => ?_, fun huse huntil hlate hheld => ?_⟩
  · exact honly (exec_run rfl hrails (routeCtlWrite_load hload hswap hidle))
  · have hup : s.dev.hostUp = false := decide_eq_false hdown
    refine honly (exec_run (c := .routeLoadDone) (f := fun d => d.routeLoadDone) rfl hrails ((routeLoadDone_busy hbusy).trans ?_))
    simp only [hup, Bool.false_eq_true, if_false]
    rfl
  · have hl0 : s.dev.hostUp = true := decide_eq_true hup
    refine honly (exec_run (c := .routeLoadDone) (f := fun d => d.routeLoadDone) rfl hrails ((routeLoadDone_busy hbusy).trans ?_))
    simp only [hl0, if_true, routeImageFault_version (show s.dev.imageWord 0 2 ≠ 1 from hversion)]
    rfl
  · have hl0 : s.dev.hostUp = true := decide_eq_true hup
    obtain ⟨h0, h1, h2, h3, h4, h5, h6, h7, h8, h9, h10, h11, h12⟩ := hgood
    have hgood : s.dev.GoodImage ⟨turns, routes⟩ := ⟨h0, h1, h2, h3, h4, h5, h6, h7, h8, h9, h10, h11, h12⟩
    have hlen : routes.length = s.dev.imageWord 4 4 := (List.length_map _).trans List.length_range
    have htable : s.dev.imageTable = ⟨turns, routes⟩ := imageTable_few h3
    refine honly (exec_run (c := .routeLoadDone) (f := fun d => d.routeLoadDone) rfl hrails ((routeLoadDone_busy hbusy).trans ?_))
    rw [htable, if_pos hl0, routeImageFault_good hgood hlen]
    rfl
  · exact honly (exec_run rfl hrails (routeCtlWrite_swap hload hswap hstandby))
  · have hin := (arrive_fresh hflood hage).trans (forward_own (p := s.dev.arrived ing pkt) hdst hlocal)
    obtain ⟨hports, hfabric, hcontexts, hmem⟩ := freed_taken s.dev { f with inbox := f.inbox ++ [(ing, s.dev.arrived ing pkt)] } ing
      pkt.body.vc pkt.flits
    exact ⟨_, hgoes hin, rfl, hports, hfabric, hcontexts, hmem⟩
  · obtain ⟨hports, hfabric, hcontexts, hmem⟩ := arrive_old hflood hage
    exact completes_run rfl hrails ⟨rfl, hports, hfabric, hcontexts, hmem⟩
  · obtain ⟨hports, hfabric, hcontexts, hmem⟩ := freed_taken s.dev { f with inbox := f.inbox ++ [(ing, s.dev.arrived ing pkt)] } ing
      pkt.body.vc pkt.flits
    exact ⟨_, hgoes (arrive_flood hflood), rfl, hports, hfabric, hcontexts, hmem⟩
  · have hroute := (route_hop (p := s.dev.arrived ing pkt) hdst halive hword husable).trans (if_pos hturn)
    rw [queueVia_first (by exact huse)] at hroute
    refine ⟨_, hgoes ((arrive_fresh hflood hage).trans (forward_routed hroute)), rfl, fun m hm => ?_, rfl, rfl, ?_⟩
    · exact updPort_other _ (fun he => hm (congrArg Fin.val he)) _
    · exact queueAt_queue (s.dev.setUse _) _ ing { s.dev.arrived ing pkt with
        head := { (s.dev.arrived ing pkt).head with layer := pkt.head.layer || w.getLsbD 29 } }
  · have hroute := (route_hop (p := s.dev.arrived ing pkt) hdst halive hword husable).trans
      (if_neg (fun h => Bool.false_ne_true (hturn.symm.trans h)))
    rw [dif_pos hi] at hroute
    obtain ⟨⟨hports, hfabric, hcontexts, hmem⟩, hdrops⟩ := turnDrop_freed s.dev ing hi pkt.body.vc (s.dev.arrived ing pkt).flits
    exact ⟨_, hgoes ((arrive_fresh hflood hage).trans (forward_turned hroute rfl hsrc hrequest)), rfl, hports, hfabric, hcontexts, hmem,
      hdrops⟩
  · refine exec_run rfl hrails ?_
    unfold Device.holdExpiry
    simp only [f] at huse
    simp only [huse, huntil, if_pos hearly]
  · refine honly (exec_run (c := .routeHoldExpiry dst) (f := fun d => d.holdExpiry dst) rfl hrails ?_)
    unfold Device.holdExpiry
    simp only [f] at huse
    simp only [huse, huntil, Nat.not_lt.2 hlate, if_false, hheld, List.foldl_nil]
    rfl

end Sys2Proof.Machine
end

section
/-! Packets of a communicator: what each does at the member that it comes to. -/

namespace Sys2Proof.Machine

/-! ### A packet that waits for its context (R407, R411) -/

/-- A packet of a communicator waits in the inbox while its context is swapped out. -/
theorem forResident_swapped {d : Device} {p : Packet} {q : Context} (f : Device → Device) (hctx : d.ctx? p.head.dstCtx = some q)
    (hpanel : q.panel = p.head.dstPanel) (hout : q.resident = false) :
    d.forResident p f = { d with fabric := { d.fabric with inbox := d.fabric.inbox ++ [(24, p)] } } :=
  if_pos (by simp only [hctx, Option.any_some, hpanel, hout, decide_true, Bool.not_false, Bool.and_self])

/-- The context that a packet is for has a slot, if there is one. -/
def Device.InSlot (d : Device) (h : PktHead) : Prop := ∀ q, d.ctx? h.dstCtx = some q → q.resident = true

theorem forResident_inSlot {d : Device} {p : Packet} (f : Device → Device) (h : d.InSlot p.head) : d.forResident p f = f d := by
  refine if_neg ?_
  cases hctx : d.ctx? p.head.dstCtx with
  | none => simp
  | some q => simp [h q hctx]

/-! ### Refusals (R557, R655) -/

/-- A packet of no bulk channel that is refused is counted. -/
theorem refuseComm_small (d : Device) {p : Packet} (h : p.body.vc = 0) (e : Code) : d.refuseComm p e = d.countRefused :=
  if_neg (by rw [h]; simp)

/-- A bulk packet that is refused for a fenced panel is answered. -/
theorem refuseComm_bulk (d : Device) {p : Packet} (h : p.body.vc = 3 ∨ p.body.vc = 4) (e : Code) :
    d.refuseComm p e = if e = 0x0221 then d.countRefused.emit (p.reply (.refusal 0x0221)) else d.countRefused := by
  have hvc : (decide (p.body.vc = 3) || decide (p.body.vc = 4)) = true := by simpa using h
  unfold Device.refuseComm
  simp only [hvc, Bool.and_true, decide_eq_true_eq]

/-- A run before the ones that a packet goes to is none that it goes to. -/
theorem findSome_first {α β : Type} {f : α → Option β} {pre post : List α} {a : α} {b : β} (hpre : ∀ x ∈ pre, f x = none) (ha : f a = some b) :
    (pre ++ a :: post).findSome? f = some b := by
  rw [List.findSome?_append, List.findSome?_eq_none_iff.2 hpre, List.findSome?_cons, ha]
  rfl

section
variable {d : Device} {h : PktHead} (hslot : d.InSlot h)
include hslot

/-! ### Join notices (R556) -/

theorem joinNotice_refused {n : JoinNotice} {e : Code} (he : e ≠ 0x0810)
    (hrefused : (d.commRead h n.commId n.rank).commFor h n.commId n.rank = .error e) :
    d.joinNotice h n = (d.commRead h n.commId n.rank).countRefused := by
  unfold Device.joinNotice
  rw [forResident_inSlot _ hslot]
  dsimp only
  rw [hrefused]
  split
  next heq => exact absurd (Except.error.inj heq) he
  next => rfl
  next heq => exact absurd heq (by simp)

/-- A notice of another tenant fails a join that has not ended. -/
theorem joinNotice_tenant {n : JoinNotice} {k : Comm}
    (hrefused : (d.commRead h n.commId n.rank).commFor h n.commId n.rank = .error 0x0810)
    (hcomm : ((d.commRead h n.commId n.rank).ctx? h.dstCtx).bind (fun q => q.comm? n.commId) = some k) :
    d.joinNotice h n = if k.joined then (d.commRead h n.commId n.rank).countRefused
      else (d.commRead h n.commId n.rank).countRefused.joinFailed h.dstCtx k 0x0810 := by
  unfold Device.joinNotice
  rw [forResident_inSlot _ hslot]
  dsimp only
  rw [hrefused]
  split
  next => simp only [hcomm]
  next hother heq => exact (hother (Except.error.inj heq).symm).elim
  next heq => exact absurd heq (by simp)

/-- A notice of a neighbour of the same tenant. -/
theorem joinNotice_neighbour {n : JoinNotice} {c : Context} {k : Comm}
    (hok : (d.commRead h n.commId n.rank).commFor h n.commId n.rank = .ok (c, k)) (hrank : n.rank ∈ neighbours k.size k.rank) :
    let e := d.commRead h n.commId n.rank
    d.joinNotice h n =
      if k.notices.contains n.rank then e
      else if !noticesAgree k.notice n then if k.joined then e.countRefused else e.joinFailed c.id k 0x0A07
      else ((e.updComm c.id k.commId (fun q => { q with notices := q.notices ++ [n.rank] })).sendRank c k n.rank .indigo
        (.joinNotice k.notice)).joinCheck c.id k.commId := by
  have hin : (neighbours k.size k.rank).contains n.rank = true := List.contains_iff_mem.2 hrank
  unfold Device.joinNotice
  rw [forResident_inSlot _ hslot]
  simp only [hok, hin, Bool.not_true, Bool.false_eq_true, if_false]

/-! ### Exponents (R567, R568) -/

theorem exponentPair_refused {p : ExponentPair} {e : Code} (hrefused : (d.commRead h p.commId p.rank).commFor h p.commId p.rank = .error e) :
    d.exponentPair h p = (d.commRead h p.commId p.rank).countRefused := by
  unfold Device.exponentPair
  rw [forResident_inSlot _ hslot]
  simp only [hrefused]
  exact refuseComm_small _ rfl e

theorem exponentResult_refused {p : ExponentPair} {e : Code} (hrefused : (d.commRead h p.commId p.rank).commFor h p.commId p.rank = .error e) :
    d.exponentResult h p = (d.commRead h p.commId p.rank).countRefused := by
  unfold Device.exponentResult
  rw [forResident_inSlot _ hslot]
  simp only [hrefused]
  exact refuseComm_small _ rfl e

/-- The exponents of a child: they join its reduction when they agree with it, and end it when they are of none or of other
elements. -/
theorem exponentPair_child {p : ExponentPair} {c : Context} {k : Comm} {j : RJob}
    (hok : (d.commRead h p.commId p.rank).commFor h p.commId p.rank = .ok (c, k))
    (hjob : (d.commRead h p.commId p.rank).rjob? c.id k.commId p.exch = some j) (hjoined : k.joined = true)
    (hchild : p.rank ∈ childrenOf k.size k.rank) :
    let e := d.commRead h p.commId p.rank
    (p.elements ≠ 0 → j.agrees p = true → d.exponentPair h p =
      (e.updRed j (fun q => { q with pairs := (p.rank, p.eLoc, p.nonFinite) :: q.pairs.filter (fun x => x.1 != p.rank) })).settle) ∧
    (p.elements = 0 ∨ p.elements ≠ j.elements → d.exponentPair h p = e.reductionMismatch j) := by
  have hin : (childrenOf k.size k.rank).contains p.rank = true := List.contains_iff_mem.2 hchild
  unfold Device.exponentPair
  rw [forResident_inSlot _ hslot]
  simp only [hok, hjob, hjoined, hin, Bool.not_true, Bool.or_self, Bool.false_eq_true, if_false]
  refine ⟨fun hsome hagrees => if_neg ?_, fun hbad => if_pos ?_⟩
  · have hsame : p.elements = j.elements := by
      have hparts := hagrees
      simp only [RJob.agrees, Bool.and_eq_true, decide_eq_true_eq] at hparts
      exact hparts.1.1
    simp only [hagrees, Bool.not_true, Bool.and_false, hsame ▸ hsome, hsame, decide_false, bne_self_eq_false, Bool.or_self,
      Bool.false_eq_true, not_false_eq_true]
  · obtain hzero | hother := hbad
    · simp only [hzero, decide_true, Bool.true_or]
    · simp only [bne_iff_ne.2 hother, Bool.or_true]

/-- The result of the parent. -/
theorem exponentResult_parent {p : ExponentPair} {c : Context} {k : Comm} {j : RJob}
    (hok : (d.commRead h p.commId p.rank).commFor h p.commId p.rank = .ok (c, k))
    (hjob : (d.commRead h p.commId p.rank).rjob? c.id k.commId p.exch = some j) (hroot : k.rank ≠ 0) (hparent : p.rank = parentOf k.rank)
    (hsent : j.red.sentUp = true) (hopen : j.red.agreed = none) :
    let e := d.commRead h p.commId p.rank
    d.exponentResult h p =
      if !j.agrees p then (e.sendChildren j (.exponentResult (j.pair 0 false 0))).reductionFailed j 0x0A07
      else ((e.sendChildren j (.exponentResult (j.pair p.eLoc p.nonFinite j.elements))).updRed j
        (fun q => { q with agreed := some (p.eLoc, p.nonFinite) })).settle := by
  unfold Device.exponentResult
  rw [forResident_inSlot _ hslot]
  have hfrom : (p.rank != parentOf k.rank) = false := by rw [hparent, bne_self_eq_false]
  simp only [hok, hjob, hroot, hfrom, hsent, hopen, decide_false, Bool.or_self, Bool.not_true, Option.isSome_none,
    Bool.false_eq_true, if_false]

/-! ### Tallies and norms (R571, R575) -/

theorem tallyWords_refused {w : TallyPacket} {e : Code} (hrefused : (d.commRead h w.commId w.rank).commFor h w.commId w.rank = .error e) :
    d.tallyWords h w = (d.commRead h w.commId w.rank).refuseComm ⟨h, .tally w⟩ e := by
  unfold Device.tallyWords
  rw [forResident_inSlot _ hslot]
  simp only [hrefused]

theorem noiseStatistic_refused {n : NoisePacket} {e : Code} (hrefused : (d.commRead h n.commId n.rank).commFor h n.commId n.rank = .error e) :
    d.noiseStatistic h n = (d.commRead h n.commId n.rank).countRefused := by
  unfold Device.noiseStatistic
  rw [forResident_inSlot _ hslot]
  simp only [hrefused]
  exact refuseComm_small _ rfl e

/-- The norms of a child, and the totals of the parent. -/
theorem noiseStatistic_taken {n : NoisePacket} {c : Context} {k : Comm} {j : RJob}
    (hok : (d.commRead h n.commId n.rank).commFor h n.commId n.rank = .ok (c, k))
    (hjob : (d.commRead h n.commId n.rank).rjob? c.id k.commId (.bucket n.bucket) = some j) (hjoined : k.joined = true) :
    let e := d.commRead h n.commId n.rank
    (n.down = false → n.rank ∈ j.children → d.noiseStatistic h n =
      (e.updRed j (fun q => { q with noise := (n.rank, n.a.toNat, n.q.toNat) :: q.noise.filter (fun x => x.1 != n.rank) })).settle) ∧
    (n.down = true → k.rank ≠ 0 → n.rank = parentOf k.rank → j.step = n.step.toNat → j.red.noiseUp = true → d.noiseStatistic h n =
      ((e.updRed j (fun q => { q with totals := some (n.a.toNat, n.q.toNat) })).sendChildren j
        (.noise (j.noiseMsg n.bucket true n.a.toNat n.q.toNat))).settle) := by
  unfold Device.noiseStatistic
  rw [forResident_inSlot _ hslot]
  simp only [hok, hjob, hjoined, Bool.not_true, Bool.false_eq_true, if_false]
  refine ⟨fun hup hchild => ?_, fun hdown hroot hparent hstep hsent => ?_⟩
  · have hin : j.children.contains n.rank = true := List.contains_iff_mem.2 hchild
    simp only [hup, hin, Bool.not_true, Bool.false_eq_true, if_false]
  · simp only [hdown, if_true, hroot, hparent, hstep, hsent, decide_false, bne_self_eq_false, Bool.not_true, Bool.or_self,
      Bool.false_eq_true, if_false]

/-! ### Data and grants (R583, R597, R598) -/

theorem returnData_refused {r : ReturnPacket} {e : Code} (hrefused : (d.commRead h r.commId r.rank).commFor h r.commId r.rank = .error e) :
    d.returnData h r = (d.commRead h r.commId r.rank).refuseComm ⟨h, .returnData r⟩ e := by
  unfold Device.returnData
  rw [forResident_inSlot _ hslot]
  simp only [hrefused]

theorem collGrant_refused {g : CollGrant} {e : Code} (hrefused : (d.commRead h g.commId g.rank).commFor h g.commId g.rank = .error e) :
    d.collGrant h g = (d.commRead h g.commId g.rank).countRefused := by
  unfold Device.collGrant
  rw [forResident_inSlot _ hslot]
  simp only [hrefused]
  exact refuseComm_small _ rfl e

theorem collData_refused {m : CollData} {e : Code} (hrefused : (d.commRead h m.commId m.rank).commFor h m.commId m.rank = .error e) :
    d.collData h m = (d.commRead h m.commId m.rank).refuseComm ⟨h, .collData m⟩ e := by
  unfold Device.collData
  rw [forResident_inSlot _ hslot]
  simp only [hrefused]

/-- Tally words of this member's slice, for an exchange that is open. -/
theorem tallyWords_open {w : TallyPacket} {c : Context} {k : Comm} {j : RJob}
    (hok : (d.commRead h w.commId w.rank).commFor h w.commId w.rank = .ok (c, k))
    (hjob : (d.commRead h w.commId w.rank).rjob? c.id k.commId w.exch = some j) (hjoined : k.joined = true)
    (hon : (d.commRead h w.commId w.rank).exchangeOn c.id k.commId w.exch = true) (hstep : j.step = w.step.toNat) (hopen : j.red.sumQ = none)
    (hlow : (sliceOf j.elements k.size k.rank).1 ≤ w.first)
    (hhigh : w.first + w.words.length / (k.width / 8) ≤ (sliceOf j.elements k.size k.rank).1 + (sliceOf j.elements k.size k.rank).2) :
    d.tallyWords h w = match (d.commRead h w.commId w.rank).addTallies j (w.first - (sliceOf j.elements k.size k.rank).1)
        ((List.range (w.words.length / (k.width / 8))).map (fun i => signedOf (8 * (k.width / 8)) (bytesField w.words (k.width / 8 * i) (k.width / 8)))) with
      | (e, .ok _) => ((e.updRed j (fun q => { q with received := countIn q.received w.rank (w.words.length / (k.width / 8)) })).emit
          ((⟨h, .tally w⟩ : Packet).reply .writeAck)).settle
      | (e, .error code) => ((e.emit ((⟨h, .tally w⟩ : Packet).reply .writeAck)).reductionFailed j code).settle := by
  unfold Device.tallyWords
  rw [forResident_inSlot _ hslot]
  have hstep' : (j.step != w.step.toNat) = false := by rw [hstep, bne_self_eq_false]
  simp only [hok, hjob, hjoined, hon, hstep', hopen, Nat.not_lt.2 hlow, Nat.not_lt.2 hhigh, decide_false, Bool.or_self, Bool.not_true,
    Option.isSome_none, Bool.false_eq_true, if_false]
  rcases (d.commRead h w.commId w.rank).addTallies j (w.first - (sliceOf j.elements k.size k.rank).1)
    ((List.range (w.words.length / (k.width / 8))).map
      (fun i => signedOf (8 * (k.width / 8)) (bytesField w.words (k.width / 8 * i) (k.width / 8)))) with ⟨e, code | u⟩ <;> rfl

/-- A returned slice of a bucket lands at its run. -/
theorem returnData_found {r : ReturnPacket} {c : Context} {k : Comm} {pre post : List CollRun} {q : CollRun} {x : Desc} {at_ b : Nat}
    (hok : (d.commRead h r.commId r.rank).commFor h r.commId r.rank = .ok (c, k)) (hexch : r.exch = .bucket b)
    (hcolls : (d.commRead h r.commId r.rank).fabric.colls = pre ++ q :: post) (hctx : q.ctx = c.id) (hcomm : q.commId = k.commId)
    (hpre : ∀ y ∈ pre, y.ctx ≠ c.id ∨ y.commId ≠ k.commId ∨ ∀ z, (d.commRead h r.commId r.rank).collDesc? y = some z →
      ¬ (z.op? = some .returnSlice ∧ z.f 72 2 = b ∧ r.rank ∈ y.grantsOut))
    (hdesc : (d.commRead h r.commId r.rank).collDesc? q = some x) (hop : x.op? = some .returnSlice) (hbucket : x.f 72 2 = b)
    (hgranted : r.rank ∈ q.grantsOut) (hat : c.returnAt x r.first = some at_) :
    d.returnData h r = if x.f 124 4 ≠ r.step.toNat then (d.commRead h r.commId r.rank).failSeq c.id q.ring q.seq 0x0A07 else
      match (d.commRead h r.commId r.rank).writeCa (x.collWrite c.id q.ring) at_ r.data with
      | (e, .ok _) => ((e.landBytes c.id q.ring q.seq r.rank r.data.length).emit ((⟨h, .returnData r⟩ : Packet).reply .writeAck)).settle
      | (e, .error code) => e.failSeq c.id q.ring q.seq code := by
  unfold Device.returnData
  rw [forResident_inSlot _ hslot]
  dsimp only
  rw [hok]
  dsimp only
  rw [hcolls, findSome_first (b := (q, x, at_)) (fun y hy => ?_) ?_]
  · dsimp only
    by_cases hstep : x.f 124 4 = r.step.toNat
    · refine (if_neg (by rw [hstep, bne_self_eq_false]; exact Bool.false_ne_true)).trans (Eq.trans ?_ (if_neg (not_not.2 hstep)).symm)
      rcases (d.commRead h r.commId r.rank).writeCa (x.collWrite c.id q.ring) at_ r.data with ⟨e, code | u⟩ <;> rfl
    · rw [if_pos (bne_iff_ne.2 hstep), if_pos hstep]
  · rw [if_neg (by simp [hctx, hcomm]), hdesc, hexch, Option.bind_some, hop]
    simp [hbucket, hgranted, hat]
  · rw [hexch]
    obtain hother | hother | hnone := hpre y hy
    · exact if_pos (by simp [hother])
    · exact if_pos (by simp [hother])
    · split
      · rfl
      · cases hz : (d.commRead h r.commId r.rank).collDesc? y with
        | none => rfl
        | some z =>
          have hnot := hnone z hz
          rw [Option.bind_some]
          split
          next heq hz' =>
            cases heq
            exact if_neg (by simpa using fun hb hg => hnot ⟨hz', hb, hg⟩)
          next heq _ => cases heq
          next => rfl

/-- A grant of a run, or one that comes before everything. -/
theorem collGrant_run {g : CollGrant} {c : Context} {k : Comm} (hok : (d.commRead h g.commId g.rank).commFor h g.commId g.rank = .ok (c, k))
    (hjoined : k.joined = true) :
    let e := d.commRead h g.commId g.rank
    let tell : Packet := { (⟨h, .collGrant g⟩ : Packet).reply (.collGrant g) with body := .collGrant { g with rank := k.rank, bytes := 0 } }
    (∀ q x, e.grantedRun? c k g true = some (q, x) →
      d.collGrant h g =
        if (if x.op? = some .returnSlice then ((k.returnSlice x).map (fun l => 2 * l.2)).getD 0 else x.f 64 8) ≠ g.bytes ∨
          g.step.toNat ≠ x.f 124 4 then (e.emit tell).failSeq c.id q.ring q.seq 0x0A07
        else (e.updRun q.ctx q.ring q.seq (fun y => { y with grantsIn := y.grantsIn ++ [g.rank] })).settle) ∧
    (e.grantedRun? c k g true = none → e.grantedFitting? c k g = none → e.grantedRun? c k g false = none →
      d.collGrant h g = e.updComm c.id k.commId (fun y => { y with early := y.early ++ [⟨h, .collGrant g⟩] })) := by
  unfold Device.collGrant
  rw [forResident_inSlot _ hslot]
  simp only [hok, hjoined, Bool.not_true, Bool.false_eq_true, if_false]
  refine ⟨fun q x hrun => ?_, fun hrun hfitting hlate => ?_⟩
  · simp only [hrun]
    simp only [Bool.or_eq_true, bne_iff_ne]
    split
    next hslice =>
      rw [if_pos hslice]
      rfl
    next hother =>
      rw [if_neg hother]
      rfl
  · simp only [hrun, hfitting, hlate]
    rfl

/-- Data of a collective lands at its run. -/
theorem collData_found {m : CollData} {c : Context} {k : Comm} {pre post : List CollRun} {q : CollRun} {x : Desc}
    (hok : (d.commRead h m.commId m.rank).commFor h m.commId m.rank = .ok (c, k))
    (hcolls : (d.commRead h m.commId m.rank).fabric.colls = pre ++ q :: post) (hctx : q.ctx = c.id) (hcomm : q.commId = k.commId)
    (hpre : ∀ y ∈ pre, y.ctx ≠ c.id ∨ y.commId ≠ k.commId ∨ ∀ z, (d.commRead h m.commId m.rank).collDesc? y = some z →
      ¬ (y.nth = m.nth ∧ z.f 44 4 = m.rank ∧
        (z.op? = some .recv ∧ m.kind = .send ∨ z.op? = some .broadcast ∧ m.kind = .broadcast ∧ k.rank ≠ m.rank)))
    (hdesc : (d.commRead h m.commId m.rank).collDesc? q = some x) (hnth : q.nth = m.nth) (hroot : x.f 44 4 = m.rank)
    (hkind : x.op? = some .recv ∧ m.kind = .send ∨ x.op? = some .broadcast ∧ m.kind = .broadcast ∧ k.rank ≠ m.rank)
    (hfits : m.offset + m.data.length ≤ x.f 64 8) :
    d.collData h m = match (d.commRead h m.commId m.rank).writeCa (x.collWrite c.id q.ring) (x.f 56 8 + m.offset) m.data with
      | (e, .ok _) => ((e.landBytes c.id q.ring q.seq m.rank m.data.length).emit ((⟨h, .collData m⟩ : Packet).reply .writeAck)).settle
      | (e, .error code) => e.failSeq c.id q.ring q.seq code := by
  unfold Device.collData
  rw [forResident_inSlot _ hslot]
  dsimp only
  rw [hok]
  dsimp only
  rw [hcolls, findSome_first (b := (q, x)) (fun y hy => ?_) ?_]
  · dsimp only
    refine (if_neg (Nat.not_lt.2 hfits)).trans ?_
    rcases (d.commRead h m.commId m.rank).writeCa (x.collWrite c.id q.ring) (x.f 56 8 + m.offset) m.data with ⟨e, code | u⟩ <;> rfl
  · rw [if_neg (by simp [hctx, hcomm, hnth]), hdesc, Option.bind_some]
    obtain ⟨hop, hsend⟩ | ⟨hop, hcast, hne⟩ := hkind
    · rw [hop, hsend]
      exact if_pos hroot
    · rw [hop, hcast]
      exact if_pos (by simp [hroot, hne])
  · obtain hother | hother | hnone := hpre y hy
    · exact if_pos (by simp [hother])
    · exact if_pos (by simp [hother])
    · split
      · rfl
      next hin =>
        have hsame : y.nth = m.nth := by
          by_contra hne
          exact hin (by simp [hne])
        cases hz : (d.commRead h m.commId m.rank).collDesc? y with
        | none => rfl
        | some z =>
          have hnot := hnone z hz
          rw [Option.bind_some]
          split
          next hop hkind' => exact if_neg (fun hfrom => hnot ⟨hsame, hfrom, .inl ⟨hop, hkind'⟩⟩)
          next hop hkind' =>
            refine if_neg (fun hfrom => hnot ⟨hsame, ?_⟩)
            obtain ⟨hfrom, hne⟩ : z.f 44 4 = m.rank ∧ k.rank ≠ m.rank := by simpa using hfrom
            exact ⟨hfrom, .inr ⟨hop, hkind', hne⟩⟩
          next => rfl

end

/-- Settles O40: each packet of a communicator waits, is refused, or goes where its row says. -/
theorem communicatorPackets : Obligations.CommunicatorPackets := by
  intro s h c k jn p w n r g m hrails next rd ok waits before
  have hwaits {cmd : Instr} {b : PktBody} {f : Device → Device} {q : Context} (hctx : s.dev.ctx? h.dstCtx = some q)
      (hpanel : q.panel = h.dstPanel) (hout : q.resident = false) (hc : exec cmd s = s.run (fun d => d.forResident ⟨h, b⟩ f)) :
      next cmd (waits b) := exec_run hc hrails (forResident_swapped (p := ⟨h, b⟩) f hctx hpanel hout)
  refine ⟨fun q hctx hpanel hout => ?_, fun hslot => ⟨fun e => ?_, ?_, fun j => ?_, fun j => ?_, fun j => ?_, fun pre post q x at_ b => ?_, ?_,
    fun pre post q x => ?_⟩⟩
  · exact ⟨hwaits hctx hpanel hout rfl, hwaits hctx hpanel hout rfl, hwaits hctx hpanel hout rfl, hwaits hctx hpanel hout rfl,
      hwaits hctx hpanel hout rfl, hwaits hctx hpanel hout rfl, hwaits hctx hpanel hout rfl, hwaits hctx hpanel hout rfl⟩
  · refine ⟨fun he href => exec_run rfl hrails (joinNotice_refused hslot he href), fun href => ⟨?_, ?_⟩, fun href => ?_, fun href => ?_,
      fun href => ?_, fun href => ?_, fun href => ?_⟩
    · exact exec_run rfl hrails (exponentPair_refused hslot href)
    · exact exec_run rfl hrails (exponentResult_refused hslot href)
    · exact exec_run rfl hrails ((tallyWords_refused hslot href).trans (refuseComm_bulk _ (.inl rfl) e))
    · exact exec_run rfl hrails (noiseStatistic_refused hslot href)
    · exact exec_run rfl hrails ((returnData_refused hslot href).trans (refuseComm_bulk _ (.inl rfl) e))
    · exact exec_run rfl hrails (collGrant_refused hslot href)
    · exact exec_run rfl hrails ((collData_refused hslot href).trans (refuseComm_bulk _ (.inr rfl) e))
  · intro d failed
    refine ⟨fun href hcomm => exec_run rfl hrails (joinNotice_tenant hslot href hcomm), fun hok hrank hid => ?_⟩
    have hjoin := joinNotice_neighbour hslot hok hrank
    dsimp only at hjoin
    rw [hid] at hjoin
    refine ⟨fun hknown => exec_run rfl hrails (hjoin.trans (if_pos (List.contains_iff_mem.2 hknown))), fun hnew hagree => ?_,
      fun hnew hdiffers => ?_⟩
    · rw [if_neg (List.contains_iff_mem.not.2 hnew), if_neg (by rw [hagree]; decide)] at hjoin
      rw [hid]
      exact exec_run rfl hrails hjoin
    · rw [if_neg (List.contains_iff_mem.not.2 hnew), if_pos (by rw [hdiffers]; decide)] at hjoin
      exact exec_run rfl hrails hjoin
  · intro d none_ hok hjob
    refine ⟨fun hjoined hchild => ?_, fun hroot hparent hsent hopen => ?_⟩
    · obtain ⟨hjoins, hends⟩ := exponentPair_child hslot hok hjob hjoined hchild
      exact ⟨fun hsome hagrees => exec_run rfl hrails (hjoins hsome hagrees), fun hbad => exec_run rfl hrails (hends hbad)⟩
    · have hresult := exponentResult_parent hslot hok hjob hroot hparent hsent hopen
      refine ⟨fun hagrees => exec_run rfl hrails (hresult.trans (if_neg (by rw [hagrees]; decide))),
        fun hdiffers => exec_run rfl hrails (hresult.trans (if_pos (by rw [hdiffers]; decide)))⟩
  · intro d hok hjob hjoined hon hstep hopen wb cnt own ack hlow hhigh
    exact exec_run rfl hrails (tallyWords_open hslot hok hjob hjoined hon hstep hopen hlow hhigh)
  · intro d hok hjob hjoined
    obtain ⟨hchild, hparent⟩ := noiseStatistic_taken hslot hok hjob hjoined
    exact ⟨fun hup hin => exec_run rfl hrails (hchild hup hin),
      fun hdown hroot hfrom hstep hsent => exec_run rfl hrails (hparent hdown hroot hfrom hstep hsent)⟩
  · intro d hok hexch hbefore hdesc hop hbucket hgranted hat
    obtain ⟨hcolls, hctx, hcomm, hpre⟩ := hbefore
    exact exec_run rfl hrails (returnData_found hslot hok hexch hcolls hctx hcomm hpre hdesc hop hbucket hgranted hat)
  · intro d tell hok hjoined
    obtain ⟨hrun, hearly⟩ := collGrant_run hslot hok hjoined
    refine ⟨fun q x hgranted => ?_, fun hnone hfitting hlate => exec_run rfl hrails (hearly hnone hfitting hlate)⟩
    intro bytes
    refine ⟨fun hbytes hstep => exec_run rfl hrails ((hrun q x hgranted).trans (if_neg ?_)),
      fun hbad => exec_run rfl hrails ((hrun q x hgranted).trans (if_pos hbad))⟩
    exact not_or.2 ⟨not_not.2 hbytes, not_not.2 hstep⟩
  · intro d lands hok hbefore hdesc hlands hfits
    obtain ⟨hcolls, hctx, hcomm, hpre⟩ := hbefore
    obtain ⟨hnth, hroot, hkind⟩ := hlands
    exact exec_run rfl hrails (collData_found hslot hok hcolls hctx hcomm hpre hdesc hnth hroot hkind hfits)

end Sys2Proof.Machine
end

section
/-! Answers to transfers of this module, and the packets of relays. -/

namespace Sys2Proof.Machine

/-! ### Answers (R516, R518, R533, R538) -/

/-- The transfers under way without those of a transaction tag. -/
def Device.withoutTag (d : Device) (t : BitVec 32) : Device :=
  { d with fabric := { d.fabric with outstanding := d.fabric.outstanding.filter (fun y => y.xtag != t) } }

theorem acknowledged_some {d : Device} {t : BitVec 32} {o : Outstanding} (h : d.fabric.outstanding.find? (fun y => y.xtag = t) = some o) :
    d.acknowledged t = (d.withoutTag t, some o) := by
  unfold Device.acknowledged
  rw [h]
  rfl

theorem acknowledged_none {d : Device} {t : BitVec 32} (h : d.fabric.outstanding.find? (fun y => y.xtag = t) = none) :
    d.acknowledged t = (d, none) := by
  unfold Device.acknowledged
  rw [h]

/-- A transfer that fails ends its descriptor, unless a communicator learns of the loss. -/
theorem exchangeFailed_desc (d : Device) {o : Outstanding} {code : Code}
    (h : o.comm = none ∨ ¬ (code = 0x0420 ∨ code = 0x0421 ∨ code = 0x0422)) :
    d.exchangeFailed o code = (d.withoutTag o.xtag).failSeq o.ctx o.ring o.seq code := by
  unfold Device.exchangeFailed
  dsimp only
  cases hcomm : o.comm with
  | none => rfl
  | some k =>
    have hcode : ¬ (code = 0x0420 ∨ code = 0x0421 ∨ code = 0x0422) := h.resolve_left (by rw [hcomm]; simp)
    exact if_neg (by simpa only [Bool.or_eq_true, decide_eq_true_eq, or_assoc] using hcode)

theorem exchangeFailed_comm (d : Device) {o : Outstanding} {code : Code} {k : BitVec 32} (hcomm : o.comm = some k)
    (h : code = 0x0420 ∨ code = 0x0421 ∨ code = 0x0422) :
    d.exchangeFailed o code = (d.withoutTag o.xtag).learnLost o.ctx k o.dstMod := by
  unfold Device.exchangeFailed
  rw [hcomm]
  exact if_pos (by simpa only [Bool.or_eq_true, decide_eq_true_eq, or_assoc] using h)

theorem response_other {d : Device} {h : PktHead} (hdst : h.dstMod ≠ d.modNum) : d.response h = d := if_pos (bne_iff_ne.2 hdst)

theorem response_own {d : Device} {h : PktHead} (hdst : h.dstMod = d.modNum) : d.response h = (d.acknowledged h.xtag).1.settle :=
  if_neg (by rw [hdst, bne_self_eq_false]; exact Bool.false_ne_true)

theorem refused_other {d : Device} {h : PktHead} (hdst : h.dstMod ≠ d.modNum) (code : Code) : d.refused h code = d := if_pos (bne_iff_ne.2 hdst)

theorem refused_some {d : Device} {h : PktHead} {o : Outstanding} (hdst : h.dstMod = d.modNum)
    (ho : d.fabric.outstanding.find? (fun y => y.xtag = h.xtag) = some o) (code : Code) :
    d.refused h code = (d.exchangeFailed o code).settle := by
  unfold Device.refused
  rw [if_neg (by rw [hdst, bne_self_eq_false]; exact Bool.false_ne_true), ho]

theorem refused_none {d : Device} {h : PktHead} (hdst : h.dstMod = d.modNum)
    (ho : d.fabric.outstanding.find? (fun y => y.xtag = h.xtag) = none) (code : Code) : d.refused h code = d := by
  unfold Device.refused
  rw [if_neg (by rw [hdst, bne_self_eq_false]; exact Bool.false_ne_true), ho]

theorem responseLate_some {d : Device} {t : BitVec 32} {o : Outstanding} (ho : d.fabric.outstanding.find? (fun y => y.xtag = t) = some o) :
    d.responseLate t = if o.deadline ≤ d.now then (d.exchangeFailed o 0x0422).settle else d := by
  unfold Device.responseLate
  rw [ho]

/-! ### Relays (R540 to R545) -/

/-- The next step of a relay, when it is ready. -/
theorem relaySend_found {d : Device} {ctx : Code} {ring : RingId} {r : RelayRun} {x : Desc} {c : Context}
    (hr : d.fabric.relays.find? (fun y => y.ctx = ctx && y.ring = ring) = some r) (hx : d.relayDesc? r = some x) (hc : d.ctx? ctx = some c) :
    d.relaySend ctx ring = if c.resident = false ∨ d.relayReady r x = false then d else
      match ((if x.startEn && d.isLate (x.startAt + r.sent * x.f 72 4) then d.addFlags ctx ring r.seq flagLate else d).updRelay ctx ring r.seq
          (fun q => { q with sent := r.sent + 1 })).readCa (x.access ctx ring 0 (x.bits 39 1 1 0))
          (if r.sent = 0 then x.f 48 8 else x.slotAddr (r.sent - 1)) x.slotBytes with
      | (e, .error code) => e.failSeq ctx ring r.seq code
      | (e, .ok bs) => (piecesOf 4096 bs).foldl (fun (e' : Device) q =>
          e'.emit ⟨{ e.headTo c x.relayNext (classOf (x.bits 39 1 1 0)) with xtag := e.fabric.nextXtag },
            .relayBlock ⟨BitVec.ofNat 32 (x.f 32 4), r.sent, q.1, q.2⟩⟩)
          (e.track x.relayNext.mod { xtag := 0, ctx := ctx, ring := ring, seq := r.seq, step := some r.sent, dstMod := 0, deadline := 0 }) := by
  unfold Device.relaySend
  rw [hr]
  dsimp only
  rw [hx, hc]
  refine ite_congr (by simp only [Bool.or_eq_true, Bool.not_eq_true']) (fun _ => rfl) (fun _ => ?_)
  rcases Device.readCa _ _ _ _ with ⟨e, code | bs⟩ <;> rfl

section
variable {d : Device} {h : PktHead} (hslot : d.InSlot h)
include hslot

theorem takeGrant_strange (g : RelayGrant) (htarget : d.relayTarget h = false) : d.takeGrant h g = d.countRefused := by
  unfold Device.takeGrant
  rw [forResident_inSlot _ hslot]
  exact if_pos (by rw [htarget]; rfl)

theorem takeGrant_early {g : RelayGrant} (htarget : d.relayTarget h = true) (hnone : d.relayOf? h.dstCtx g.relayId = none) :
    d.takeGrant h g = { d with fabric := { d.fabric with relayEarly := d.fabric.relayEarly ++ [⟨h, .relayGrant g⟩] } } := by
  unfold Device.takeGrant
  rw [forResident_inSlot _ hslot, if_neg (by rw [htarget]; decide), hnone]

theorem takeGrant_relay {g : RelayGrant} {r : RelayRun} {x : Desc} (htarget : d.relayTarget h = true)
    (hrelay : d.relayOf? h.dstCtx g.relayId = some (r, x)) (hfrom : PktHeadFrom h x.relayNext = true) :
    d.takeGrant h g = if g.steps ≠ x.relaySteps ∨ g.slotBytes ≠ x.slotBytes then d.failSeq r.ctx r.ring r.seq 0x0431
      else d.updRelay r.ctx r.ring r.seq (fun q => { q with grantsIn := if q.grantsIn.contains g.step then q.grantsIn else q.grantsIn ++ [g.step] }) := by
  unfold Device.takeGrant
  rw [forResident_inSlot _ hslot, if_neg (by rw [htarget]; decide), hrelay]
  dsimp only
  rw [if_neg (by rw [hfrom]; decide)]
  simp only [Bool.or_eq_true, bne_iff_ne]

theorem takeBlock_strange (b : RelayBlock) (htarget : d.relayTarget h = false) :
    d.takeBlock h b = if (d.panel h.dstPanel).fenced then d.countRefused.emit ((⟨h, .relayBlock b⟩ : Packet).reply (.refusal 0x0221))
      else d.countRefused := by
  unfold Device.takeBlock
  dsimp only
  rw [forResident_inSlot _ hslot, if_pos (by rw [htarget]; rfl)]
  rfl

/-- The relay has had a block of a relay's step. -/
def Device.blockLanded (d : Device) (r : RelayRun) (b : RelayBlock) : Device :=
  (d.updDesc r.ctx r.ring r.seq (fun y => { y with effect := true })).updRelay r.ctx r.ring r.seq
    (fun q => { q with recvBytes := countIn q.recvBytes b.step b.data.length })

/-- The relay has had the last block of a step. -/
def Device.stepReceived (d : Device) (h : PktHead) (r : RelayRun) (x : Desc) (b : RelayBlock) : Device :=
  ((((d.updRelay r.ctx r.ring r.seq (fun q => { q with received := q.received + 1 })).countCtx r.ctx 0x04F 1).signalEc r.ctx (x.f 76 1) 1).emit
    ((⟨h, .relayBlock b⟩ : Packet).reply (.relayAck ⟨b.relayId, b.step⟩))).relaySettle

theorem takeBlock_expected {b : RelayBlock} {r : RelayRun} {x : Desc} (htarget : d.relayTarget h = true)
    (hrelay : d.relayOf? h.dstCtx b.relayId = some (r, x)) (hfrom : PktHeadFrom h x.relayPrev = true) (hgranted : b.step ∈ r.grantsOut)
    (hstep : b.step = r.received) (hfits : b.offset + b.data.length ≤ x.slotBytes) :
    d.takeBlock h b = match d.writeCa (x.access r.ctx r.ring 0 (x.bits 39 1 3 2)) (x.slotAddr b.step + b.offset) b.data with
      | (e, .error code) => e.failSeq r.ctx r.ring r.seq code
      | (e, .ok _) => if ((r.recvBytes.find? (fun q => q.1 = b.step)).map (fun q => q.2)).getD 0 + b.data.length < x.slotBytes
          then e.blockLanded r b else (e.blockLanded r b).stepReceived h r x b := by
  unfold Device.takeBlock
  dsimp only
  rw [forResident_inSlot _ hslot, if_neg (by rw [htarget]; decide), hrelay]
  dsimp only
  refine (if_neg ?_).trans ?_
  · simp [hfrom, hstep ▸ hgranted, hstep, Nat.not_lt.2 hfits]
  · rcases d.writeCa (x.access r.ctx r.ring 0 (x.bits 39 1 3 2)) (x.slotAddr b.step + b.offset) b.data with ⟨e, code | u⟩ <;> rfl

theorem takeBlock_unexpected {b : RelayBlock} {r : RelayRun} {x : Desc} (htarget : d.relayTarget h = true)
    (hrelay : d.relayOf? h.dstCtx b.relayId = some (r, x))
    (hbad : PktHeadFrom h x.relayPrev = false ∨ b.step ∉ r.grantsOut ∨ b.step ≠ r.received) : d.takeBlock h b = d.countRefused := by
  unfold Device.takeBlock
  dsimp only
  rw [forResident_inSlot _ hslot, if_neg (by rw [htarget]; decide), hrelay]
  dsimp only
  refine if_pos ?_
  obtain hbad | hbad | hbad := hbad <;> simp [hbad]

end

theorem takeAck_some {d : Device} {h : PktHead} {a : RelayAck} {o : Outstanding}
    (ho : d.fabric.outstanding.find? (fun y => y.xtag = h.xtag) = some o) :
    d.takeAck h a = if o.step = some a.step then ((d.withoutTag h.xtag).updRelay o.ctx o.ring o.seq
        (fun q => { q with acked := if q.acked.contains a.step then q.acked else q.acked ++ [a.step] })).relaySettle
      else d.withoutTag h.xtag := by
  unfold Device.takeAck
  rw [acknowledged_some ho]

/-- Settles O41: what answers, their absence, and the packets of a relay do. -/
theorem answersAndRelays : Obligations.AnswersAndRelays := by
  intro s h o code tag data g b a ctx ring c r x hrails d next answered lostCode
  have hlate {e : Device} (h : d.responseLate tag = e) : next (.responseTimeout tag) e := exec_run rfl hrails h
  have hlost {e : Device} (he : d.refused h 0x0420 = e) : next (.lossNotice h) e := exec_run rfl hrails he
  have hrefused {e : Device} (he : d.refused h code = e) : next (.refusal h code) e := exec_run rfl hrails he
  have hresponse {e : Device} (he : d.response h = e) : next (.remoteResponse h data) e :=
    exec_run (c := .remoteResponse h data) (f := fun d => d.response h) rfl hrails he
  have hgrant {e : Device} (he : d.takeGrant h g = e) : next (.relayGrant h g) e := exec_run rfl hrails he
  have hblock {e : Device} (he : d.takeBlock h b = e) : next (.relayBlock h b) e := exec_run rfl hrails he
  refine ⟨fun hdst => ⟨?_, ?_, ?_⟩,
    fun hdst ho htag => ⟨?_, fun hkind => ?_, fun hcomm => ?_, fun k hcomm => ?_⟩,
    fun hdst ho => ⟨?_, ?_, ?_⟩,
    fun ho htag => ⟨fun hearly => ?_, fun hpast hcomm => ?_, fun k hpast hcomm => ?_⟩,
    fun hr hx hc => ⟨fun hnot => ?_, fun hin hready => ?_⟩, fun hslot => ⟨fun htarget => ?_, fun htarget hnone => ?_,
      fun htarget hrelay hfrom => ⟨fun hsteps hbytes => ?_, fun hbad => ?_⟩, fun htarget hrelay hfrom hgranted hstep hfits => ?_,
      fun htarget hrelay hbad => ?_, fun htarget => ?_⟩, fun ho => ⟨fun hstep => ?_, fun hstep => ?_⟩⟩
  · exact hresponse (response_other hdst)
  · exact hrefused (refused_other hdst code)
  · exact hlost (refused_other hdst _)
  · exact hresponse ((response_own hdst).trans (by rw [acknowledged_some ho]; rfl))
  · have hfail := exchangeFailed_desc d (o := o) (code := code) hkind
    rw [htag] at hfail
    exact hrefused ((refused_some hdst ho code).trans (congrArg Device.settle hfail))
  · have hfail := exchangeFailed_desc d (o := o) (code := 0x0420) (.inl hcomm)
    rw [htag] at hfail
    exact hlost ((refused_some hdst ho _).trans (congrArg Device.settle hfail))
  · have hfail := exchangeFailed_comm d (code := 0x0420) hcomm (.inl rfl)
    rw [htag] at hfail
    exact hlost ((refused_some hdst ho _).trans (congrArg Device.settle hfail))
  · exact hresponse ((response_own hdst).trans (by rw [acknowledged_none ho]))
  · exact hrefused (refused_none hdst ho code)
  · exact hlost (refused_none hdst ho _)
  · exact hlate ((responseLate_some ho).trans (if_neg (Nat.not_le.2 hearly)))
  · have hfail := exchangeFailed_desc d (o := o) (code := 0x0422) (.inl hcomm)
    rw [htag] at hfail
    exact hlate (((responseLate_some ho).trans (if_pos hpast)).trans (congrArg Device.settle hfail))
  · have hfail := exchangeFailed_comm d (code := 0x0422) hcomm (.inr (.inr rfl))
    rw [htag] at hfail
    exact hlate (((responseLate_some ho).trans (if_pos hpast)).trans (congrArg Device.settle hfail))
  · exact exec_run rfl hrails ((relaySend_found hr hx hc).trans (if_pos hnot))
  · exact exec_run rfl hrails ((relaySend_found hr hx hc).trans (if_neg (by simp [hin, hready])))
  · exact hgrant (takeGrant_strange hslot g htarget)
  · exact hgrant (takeGrant_early hslot htarget hnone)
  · exact hgrant ((takeGrant_relay hslot htarget hrelay hfrom).trans (if_neg (by simp [hsteps, hbytes])))
  · exact hgrant ((takeGrant_relay hslot htarget hrelay hfrom).trans (if_pos hbad))
  · exact hblock (takeBlock_expected hslot htarget hrelay hfrom hgranted hstep hfits)
  · exact hblock (takeBlock_unexpected hslot htarget hrelay hbad)
  · exact hblock (takeBlock_strange hslot b htarget)
  · exact exec_run rfl hrails ((takeAck_some ho).trans (if_pos hstep))
  · exact exec_run rfl hrails ((takeAck_some ho).trans (if_neg hstep))

end Sys2Proof.Machine
end

section
/-! Reads of a context do not see the commit state: what they answer, and what they do, is the same whatever it is. -/

namespace Sys2Proof.Machine

/-- The device with another commit state. -/
def Device.withCommit (d : Device) (k : Commit) : Device := { d with commit := k }

section
variable (d : Device) (k : Commit)

/-- Steps that do not see the commit state, one after the other. -/
theorem foldl_withCommit {α : Type} {f : Device → α → Device} (hf : ∀ d a, f (Device.withCommit d k) a = (f d a).withCommit k) (l : List α) :
    l.foldl f (d.withCommit k) = (l.foldl f d).withCommit k := by
  induction l generalizing d with
  | nil => rfl
  | cons a as ih => rw [List.foldl_cons, List.foldl_cons, hf, ih]

theorem ite_withCommit {c : Prop} [Decidable c] (e : Device) :
    (if c then d.withCommit k else e.withCommit k) = (if c then d else e).withCommit k :=
  (apply_ite (fun d => Device.withCommit d k) c d e).symm

theorem count_withCommit (p : PanelId) (e : PmcEvent) (n : Nat) : (d.withCommit k).count p e n = (d.count p e n).withCommit k :=
  ite_withCommit d k (d.updPanel p (fun q => { q with pmc := countAll q.pmc e n }))

theorem enqueueRec_withCommit (r : ErrRec) (needed : Bool) : (d.withCommit k).enqueueRec r needed = (d.enqueueRec r needed).withCommit k := by
  unfold Device.enqueueRec
  dsimp only [Device.withCommit]
  split
  · rfl
  · split <;> rfl

theorem raise_withCommit (r : ErrRec) : (d.withCommit k).raise r = (d.raise r).withCommit k := enqueueRec_withCommit d k _ _

theorem raiseNeeded_withCommit (r : ErrRec) : ((d.withCommit k).raiseNeeded r).1 = (d.raiseNeeded r).1.withCommit k :=
  enqueueRec_withCommit d k _ _

theorem ueRead_withCommit (a : Nat) (b : Blame) : (d.withCommit k).ueRead a b = (d.ueRead a b).withCommit k := by
  unfold Device.ueRead
  dsimp only
  have hlatch : (d.withCommit k).latchUe (a * 64) = (d.latchUe (a * 64)).withCommit k := rfl
  rw [hlatch, raise_withCommit, raiseNeeded_withCommit]
  exact ite_withCommit _ k _

theorem stackAccess_withCommit (w : Bool) (u : Nat) (l : List Nat) (c : ColourClass) (r : Requester) :
    (d.withCommit k).stackAccess w u l c r = (d.stackAccess w u l c r).withCommit k := by
  unfold Device.stackAccess
  rw [count_withCommit]
  exact foldl_withCommit _ k (fun _ _ => rfl) l

theorem rewrote_withCommit (a n : Nat) : (d.withCommit k).rewrote a n = (d.rewrote a n).withCommit k :=
  ite_withCommit d k { d with lostStacks := d.lostStacks.map (fun l => (l.1, (a, n) :: l.2)) }

theorem stackWritten_withCommit (s b : List Nat) : (d.withCommit k).stackWritten s b = (d.stackWritten s b).withCommit k := by
  unfold Device.stackWritten
  rw [foldl_withCommit d k (fun d a => rewrote_withCommit d k a 1)]
  rfl

theorem writeBack_withCommit (l : List SpoolLine) : (d.withCommit k).writeBack l = (d.writeBack l).withCommit k := by
  refine foldl_withCommit d k (fun e a => ?_) _
  dsimp only
  rw [count_withCommit, stackAccess_withCommit, stackWritten_withCommit]

theorem allocLine_withCommit (l : SpoolLine) : (d.withCommit k).allocLine l = (d.allocLine l).withCommit k := by
  unfold Device.allocLine
  exact writeBack_withCommit (d.updPanel (panelOf (l.unit * 256)) (fun q => q.putLine l)) k _

theorem readUnit_withCommit (mpa n u : Nat) (h : Hint) (last : Bool) (c : ColourClass) (r : Requester) (b : Blame) :
    (d.withCommit k).readUnit mpa n u h last c r b = (d.readUnit mpa n u h last c r b).withCommit k := by
  have hread (d : Device) (l : List Nat) : l.foldl (fun d a => d.ueRead a b) (d.withCommit k) = (l.foldl (fun d a => d.ueRead a b) d).withCommit k :=
    foldl_withCommit d k (fun d a => ueRead_withCommit d k a b) l
  have hline : ((d.withCommit k).panel (panelOf (u * 256))).line? u = (d.panel (panelOf (u * 256))).line? u := rfl
  unfold Device.readUnit
  dsimp only
  rw [hline]
  cases (d.panel (panelOf (u * 256))).line? u with
  | some l =>
    dsimp only
    rw [count_withCommit]
    rfl
  | none =>
    dsimp only
    rw [count_withCommit, stackAccess_withCommit]
    have hfills : ((d.withCommit k).panel (panelOf (u * 256))).allocates u h last = (d.panel (panelOf (u * 256))).allocates u h last := rfl
    rw [hfills, hread, allocLine_withCommit]
    exact ite_withCommit _ k _

theorem yokeFlits_withCommit (p : PanelId) (n : Nat) (t : Bool) (c : ColourClass) (r : Requester) :
    (d.withCommit k).yokeFlits p n t c r = (d.yokeFlits p n t c r).withCommit k := by
  have hfor : (d.withCommit k).panelFor r = d.panelFor r := rfl
  unfold Device.yokeFlits
  dsimp only
  rw [hfor, count_withCommit]
  split
  · rfl
  · cases d.panelFor r with
    | none => rfl
    | some q => exact count_withCommit _ k _ _ _

theorem loadMpa_withCommit (mpa n : Nat) (h : Hint) (last : Nat → Bool) (c : ColourClass) (r : Requester) (b : Blame) :
    (d.withCommit k).loadMpa mpa n h last c r b =
      ((d.loadMpa mpa n h last c r b).1.withCommit k, (d.loadMpa mpa n h last c r b).2) := by
  unfold Device.loadMpa
  dsimp only
  rw [yokeFlits_withCommit, foldl_withCommit _ k (fun d u => readUnit_withCommit d k mpa n u h (last u) c r b)]
  rfl

theorem loadBelow_withCommit (mpa n : Nat) (c : ColourClass) (r : Requester) (b : Blame) :
    (d.withCommit k).loadBelow mpa n c r b = ((d.loadBelow mpa n c r b).1.withCommit k, (d.loadBelow mpa n c r b).2) := by
  unfold Device.loadBelow
  dsimp only
  rw [foldl_withCommit d k (fun d u => stackAccess_withCommit d k false u (touchedIn mpa n u) c r)]
  exact congrArg (fun e => (e, _)) (foldl_withCommit _ k (fun d a => ueRead_withCommit d k a b) _)

theorem readMap_withCommit (c : Context) (n : Nat) (r : Requester) (b : Blame) :
    (d.withCommit k).readMap c n r b = (d.readMap c n r b).withCommit k := by
  unfold Device.readMap
  rw [loadMpa_withCommit]

theorem mapFault_withCommit (c : Context) (ca : Nat) (r : Requester) (b : Blame) :
    (d.withCommit k).mapFault c ca r b = (d.mapFault c ca r b).withCommit k := by
  unfold Device.mapFault
  dsimp only
  rw [readMap_withCommit]
  exact ite_withCommit _ k _

theorem cacheEntry_withCommit (c : Context) (n : Nat) (r : Requester) (b : Blame) :
    (d.withCommit k).cacheEntry c n r b = (d.cacheEntry c n r b).withCommit k := by
  unfold Device.cacheEntry
  rw [readMap_withCommit]
  split <;> rfl

/-- A read that answers the same, and goes on from the same device but for its commit state. -/
theorem readPiece_withCommit (a : Access) (ca n : Nat) :
    (d.withCommit k).readPiece a ca n = ((d.readPiece a ca n).1.withCommit k, (d.readPiece a ca n).2) := by
  have hctx : (d.withCommit k).ctx? a.ctx = d.ctx? a.ctx := rfl
  unfold Device.readPiece
  rw [hctx]
  cases d.ctx? a.ctx with
  | none => rfl
  | some c =>
    dsimp only
    have htranslate : (d.withCommit k).translate c (viewTarget c.sets a.views ca) false = d.translate c (viewTarget c.sets a.views ca) false := rfl
    rw [htranslate]
    cases d.translate c (viewTarget c.sets a.views ca) false with
    | error e =>
      dsimp only
      rw [mapFault_withCommit]
    | ok p =>
      dsimp only
      rw [cacheEntry_withCommit]
      cases p with
      | dev mpa =>
        dsimp only
        rw [loadBelow_withCommit, loadMpa_withCommit]
        split <;> rfl
      | host addr =>
        dsimp only
        split <;> rfl

theorem readCa_withCommit (a : Access) (ca n : Nat) :
    (d.withCommit k).readCa a ca n = ((d.readCa a ca n).1.withCommit k, (d.readCa a ca n).2) := by
  unfold Device.readCa
  generalize cutAt 65536 ca n = l
  generalize (Except.ok [] : Except Code (List Byte)) = r
  induction l generalizing d r with
  | nil => rfl
  | cons seg rest ih =>
    rw [List.foldl_cons, List.foldl_cons]
    cases r with
    | error e => exact ih d (.error e)
    | ok bs =>
      dsimp only
      rw [readPiece_withCommit]
      exact ih (d.readPiece a seg.1 seg.2).1 _

/-- The members of a communicator are read from its table. -/
theorem member?_withCommit (ctx : Code) (q : Comm) (r : Nat) : (d.withCommit k).member? ctx q r = d.member? ctx q r := by
  unfold Device.member?
  rw [readCa_withCommit]

theorem isRoot_withCommit : (d.withCommit k).isRoot = d.isRoot := by
  unfold Device.isRoot Device.commitRoot?
  have hmembers : (d.withCommit k).commitMembers = d.commitMembers := rfl
  rw [hmembers, funext (fun ck : Context × Comm => member?_withCommit d k ck.1.id ck.2 0)]
  rfl

theorem commitModules_withCommit : (d.withCommit k).commitModules = d.commitModules := by
  unfold Device.commitModules
  have hmembers : (d.withCommit k).commitMembers = d.commitMembers := rfl
  rw [hmembers]
  cases d.commitMembers.head? with
  | none => rfl
  | some ck =>
    dsimp only
    rw [funext (fun r => congrArg (Option.map (fun m : Member => m.mod)) (member?_withCommit d k ck.1.id ck.2 r))]

end

end Sys2Proof.Machine
end

section
/-! Votes, commits and aborts of a step. -/

namespace Sys2Proof.Machine

/-! ### Flooding and aborts that are issued (R589, R590) -/

/-- What a flood, a vote or an abort of this module leaves as it was. -/
structure Device.StoresKept (d e : Device) : Prop where
  contexts : e.contexts = d.contexts
  mem : e.mem = d.mem
  hostMem : e.hostMem = d.hostMem
  panels : e.panels = d.panels

theorem flood_stores (d : Device) (from_ : Option PortId) (job step : BitVec 32) (abort : Bool) (body : PktBody) :
    d.StoresKept (d.flood from_ job step abort body) :=
  ⟨flood_keeps (fun d => d.contexts) d from_ job step abort body (fun _ _ _ => rfl) (fun _ _ => rfl),
    flood_keeps (fun d => d.mem) d from_ job step abort body (fun _ _ _ => rfl) (fun _ _ => rfl),
    flood_keeps (fun d => d.hostMem) d from_ job step abort body (fun _ _ _ => rfl) (fun _ _ => rfl),
    flood_keeps (fun d => d.panels) d from_ job step abort body (fun _ _ _ => rfl) (fun _ _ => rfl)⟩

/-- Of the commit state a flood only notes itself. -/
theorem flood_commit (d : Device) (from_ : Option PortId) (job step : BitVec 32) (abort : Bool) (body : PktBody) :
    ∃ fl, (d.flood from_ job step abort body).commit = { d.commit with flooded := fl } := by
  have hkeep := flood_keeps (fun d => { d.commit with flooded := [] }) d from_ job step abort body (fun _ _ _ => rfl) (fun _ _ => rfl)
  exact ⟨(d.flood from_ job step abort body).commit.flooded,
    congrArg (fun k : Commit => { k with flooded := (d.flood from_ job step abort body).commit.flooded }) hkeep⟩

theorem issueAbort_stores (d : Device) (t : BitVec 32) (reason : Code) (lost : BitVec 16) :
    d.StoresKept (d.issueAbort t reason lost) := by
  unfold Device.issueAbort
  obtain ⟨hcontexts, hmem, hhost, hpanels⟩ := flood_stores (d.latchAbort _) none _ _ true (.abort _)
  exact ⟨hcontexts, hmem, hhost, hpanels⟩

/-- The module prepares a step, or has voted for it. -/
def Commit.Preparing (k : Commit) : Prop := k.state = .preparing ∨ k.state = .voted

/-- An abort of the step that is prepared is for the next step once its update stitch is too near. -/
theorem issueAbort_preparing {d : Device} (h : d.commit.Preparing) (reason : Code) (lost : BitVec 16) :
    (d.issueAbort d.commit.step reason lost).commit.pendingAbort =
      some ⟨d.jobId, if d.commit.update < d.needle.stitch + 2 then d.commit.step + 1 else d.commit.step,
        BitVec.ofNat 48 (d.needle.stitch + 2), reason, lost⟩ := by
  have hkeep := flood_keeps (fun d => d.commit.pendingAbort)
  unfold Device.issueAbort
  refine (hkeep _ _ _ _ _ _ (fun _ _ _ => rfl) (fun _ _ => rfl)).trans ?_
  obtain h | h := h <;> simp only [h, decide_true, Bool.and_true, decide_eq_true_eq] <;> rfl

/-! ### Votes (R586 to R588) -/

/-- The root with a READY more. -/
def Device.withReady (d : Device) (entry : BitVec 15 × BitVec 32 × Nat) : Device :=
  { d with commit := { d.commit with ready := entry :: d.commit.ready.filter (fun q => q != entry) } }

theorem mem_withReady {d : Device} {entry q : BitVec 15 × BitVec 32 × Nat} :
    q ∈ (d.withReady entry).commit.ready ↔ q = entry ∨ q ∈ d.commit.ready := by
  show q ∈ entry :: d.commit.ready.filter (fun q => q != entry) ↔ _
  rw [List.mem_cons, List.mem_filter, bne_iff_ne]
  by_cases h : q = entry <;> simp only [h, true_or, false_or, ne_eq, not_false_eq_true, and_true]

theorem takeReady_strange {d : Device} {r : ReadyPacket} (h : d.isRoot = false ∨ r.modNum ∉ d.commitModules) :
    d.takeReady r = d.countRefused := by
  refine if_pos ?_
  obtain h | h := h <;> simp [h]

/-- Some READY for the step names another update stitch. -/
def Commit.Differs (k : Commit) : Prop := ∃ q ∈ k.ready, q.2.1 = k.step ∧ q.2.2 ≠ k.update

theorem differs_any (k : Commit) : k.ready.any (fun q => q.2.1 = k.step && q.2.2 != k.update) = true ↔ k.Differs := by
  simp only [List.any_eq_true, Bool.and_eq_true, decide_eq_true_eq, bne_iff_ne, Commit.Differs]

/-- A READY that the root awaits: another update stitch aborts the step, and else the root may decide. -/
theorem takeReady_awaited {d : Device} {r : ReadyPacket} (hroot : d.isRoot = true) (hmod : r.modNum ∈ d.commitModules) :
    let e := d.withReady (r.modNum, r.step, r.update.toNat)
    (d.commit.Preparing → e.commit.Differs → d.abortHeld d.commit.step = false → d.takeReady r = e.issueAbort d.commit.step 0x0A0D 0xFFFF) ∧
    (¬ e.commit.Differs → d.takeReady r = e.tryDecide) := by
  have hin : d.commitModules.contains r.modNum = true := List.contains_iff_mem.2 hmod
  have hdiffers := differs_any (d.withReady (r.modNum, r.step, r.update.toNat)).commit
  unfold Device.takeReady
  rw [if_neg (by rw [hroot, hin]; decide)]
  refine ⟨fun hprep hdiff hnone => ?_, fun hsame => if_neg ?_⟩
  · refine (if_pos ?_).trans (if_neg (fun hheld => Bool.false_ne_true (hnone.symm.trans hheld)))
    rw [Bool.and_eq_true]
    refine ⟨?_, hdiffers.2 hdiff⟩
    obtain h | h := hprep <;> simp only [h]
  · rw [Bool.and_eq_true]
    exact fun hand => hsame (hdiffers.1 hand.2)

/-- Every module of the member table has sent its READY for the step. -/
def Device.AllReady (d : Device) : Prop := ∀ m ∈ d.commitModules, (m, d.commit.step, d.commit.update) ∈ d.commit.ready

theorem allReady_all (d : Device) : d.commitModules.all (fun m => d.commit.ready.any
    (fun r => r.1 = m && r.2.1 = d.commit.step && r.2.2 = d.commit.update)) = true ↔ d.AllReady := by
  simp only [List.all_eq_true, List.any_eq_true, Bool.and_eq_true, decide_eq_true_eq, Device.AllReady]
  refine forall₂_congr (fun m _ => ⟨fun ⟨⟨a, b, c⟩, hr, ⟨h1, h2⟩, h3⟩ => ?_, fun h => ⟨_, h, ⟨rfl, rfl⟩, rfl⟩⟩)
  obtain rfl : a = m := h1
  obtain rfl : b = _ := h2
  obtain rfl : c = _ := h3
  exact hr

/-- The root decides. -/
theorem tryDecide_all {d : Device} (hvoted : d.commit.state = .voted) (hroot : d.isRoot = true) (hall : d.AllReady)
    (hnone : d.abortHeld d.commit.step = false) :
    d.StoresKept d.tryDecide ∧ ∃ fl, d.tryDecide.commit = { d.commit with
      state := .decided, decided := d.commit.step :: d.commit.decided, flooded := fl } := by
  have hdecide : d.tryDecide = ({ d with commit := { d.commit with
      state := .decided, decided := d.commit.step :: d.commit.decided } } : Device).flood none d.jobId d.commit.step false
        (.decide { jobId := d.jobId, step := d.commit.step }) := by
    refine if_pos ?_
    rw [hvoted, hroot, hnone, show List.all _ _ = true from (allReady_all d).2 hall]
    rfl
  rw [hdecide]
  obtain ⟨hcontexts, hmem, hhost, hpanels⟩ := flood_stores ({ d with commit := { d.commit with
    state := .decided, decided := d.commit.step :: d.commit.decided } } : Device) none d.jobId d.commit.step false
    (.decide { jobId := d.jobId, step := d.commit.step })
  exact ⟨⟨hcontexts, hmem, hhost, hpanels⟩, flood_commit _ none d.jobId d.commit.step false _⟩

theorem tryDecide_missing {d : Device} (h : ¬ d.AllReady) : d.tryDecide = d := by
  refine if_neg (fun hcond => h ?_)
  simp only [Bool.and_eq_true] at hcond
  obtain ⟨⟨-, hall⟩, -⟩ := hcond
  exact (allReady_all d).1 hall

/-- A DECIDE is taken once. -/
theorem takeDecide_known {d : Device} {p : DecidePacket} (port : Option PortId)
    (h : p.jobId ≠ d.jobId ∨ (p.jobId, false, p.step) ∈ d.commit.flooded) : d.takeDecide port p = d := by
  refine if_pos ?_
  obtain h | h := h <;> simp [h]

theorem takeDecide_new {d : Device} {p : DecidePacket} (port : Option PortId) (hjob : p.jobId = d.jobId)
    (hnew : (p.jobId, false, p.step) ∉ d.commit.flooded) :
    d.StoresKept (d.takeDecide port p) ∧ (d.takeDecide port p).commit.decided = p.step :: d.commit.decided ∧
      (d.commit.Preparing → d.commit.step = p.step → (d.takeDecide port p).commit.state = .decided) ∧
      (¬ (d.commit.Preparing ∧ d.commit.step = p.step) → (d.takeDecide port p).commit.state = d.commit.state) := by
  obtain ⟨fl, hcommit⟩ := flood_commit d port p.jobId p.step false (.decide p)
  obtain ⟨hcontexts, hmem, hhost, hpanels⟩ := flood_stores d port p.jobId p.step false (.decide p)
  unfold Device.takeDecide
  rw [if_neg (by simp [hjob, hjob ▸ hnew])]
  dsimp only
  rw [hcommit]
  refine ⟨⟨hcontexts, hmem, hhost, hpanels⟩, rfl, fun hprep hstep => ?_, fun hnot => ?_⟩
  · obtain h | h := hprep <;> simp only [h, hstep, decide_true, if_true]
  · refine if_neg (fun hactive => hnot ?_)
    split at hactive
    next h => exact ⟨.inl h, of_decide_eq_true hactive⟩
    next h => exact ⟨.inr h, of_decide_eq_true hactive⟩
    next => exact absurd hactive Bool.false_ne_true

/-! ### The vote deadline (R588) -/

theorem voteDeadline_idle {d : Device} (h : d.isRoot = false ∨
    (d.commit.state ≠ .idle ∧ (¬ d.commit.Preparing ∨ d.reached ((d.commit.update - 2) * 4096) = false)) ∨
    (d.commit.state = .idle ∧ d.commit.ready = [])) : d.voteDeadline = d := by
  have hlacked (hnone : d.isRoot = true → d.lackedSteps = []) (hnot : ¬ (d.commit.Preparing ∧ d.isRoot = true ∧
      d.reached ((d.commit.update - 2) * 4096) = true)) : d.voteDeadline = d := by
    refine (if_neg (fun hactive => hnot ?_)).trans ?_
    · simp only [Bool.and_eq_true] at hactive
      obtain ⟨⟨⟨hwaiting, hroot⟩, hdue⟩, -⟩ := hactive
      refine ⟨?_, hroot, hdue⟩
      split at hwaiting
      next h => exact .inl h
      next h => exact .inr h
      next => exact absurd hwaiting Bool.false_ne_true
    · split
      next hroot => rw [hnone hroot]; rfl
      next => rfl
  obtain hroot | ⟨hbusy, hnot⟩ | ⟨hidle, hempty⟩ := h
  · exact hlacked (fun h => absurd (hroot.symm.trans h) Bool.false_ne_true) (fun hand => absurd (hroot.symm.trans hand.2.1) Bool.false_ne_true)
  · refine hlacked (fun _ => if_neg hbusy) (fun ⟨hprep, _, hdue⟩ => ?_)
    exact hnot.elim (fun h => h hprep) (fun h => Bool.false_ne_true (h.symm.trans hdue))
  · refine hlacked (fun _ => ?_) (fun ⟨hprep, _⟩ => ?_)
    · unfold Device.lackedSteps
      rw [if_pos hidle, hempty]
      rfl
    · obtain h | h := hprep <;> exact absurd (hidle.symm.trans h) (by decide)

/-- A root that has prepared nothing aborts the step of a READY whose deadline has come. -/
theorem voteDeadline_lacked {d : Device} {q : BitVec 15 × BitVec 32 × Nat} (hidle : d.commit.state = .idle) (hroot : d.isRoot = true)
    (hready : d.commit.ready = [q]) (hdue : d.reached ((q.2.2 - 2) * 4096) = true) (hnone : d.abortHeld q.2.1 = false)
    (hopen : q.2.1 ∉ d.commit.decided) : d.voteDeadline = d.issueAbort q.2.1 0x0A12 0xFFFF := by
  have hlacked : d.lackedSteps = [q.2.1] := by
    have hcontains : d.commit.decided.contains q.2.1 = false := by simpa using hopen
    unfold Device.lackedSteps
    rw [if_pos hidle, hready]
    simp only [List.filter_cons, hdue, hnone, hcontains, Bool.not_false, Bool.and_self, if_true, List.filter_nil, List.map_cons, List.map_nil]
    rfl
  unfold Device.voteDeadline
  simp only [hidle, Bool.false_and, Bool.false_eq_true, if_false, hroot, if_true, hlacked, List.foldl_cons, List.foldl_nil]

theorem voteDeadline_preparing {d : Device} (hprep : d.commit.Preparing) (hroot : d.isRoot = true)
    (hdue : d.reached ((d.commit.update - 2) * 4096) = true) (hnone : d.abortHeld d.commit.step = false) :
    d.voteDeadline = d.issueAbort d.commit.step 0x0A12 0xFFFF := by
  unfold Device.voteDeadline
  obtain h | h := hprep <;> simp only [h, hroot, hdue, hnone, Bool.not_false, Bool.and_self, if_true]

/-! ### What ends with a descriptor (R591) -/

/-- What a commit reads of its contexts: their identifiers, their communicators and their commit sets. -/
def Device.standing (d : Device) : List (Code × List Comm × List CommitSet) := d.contexts.map (fun c => (c.id, c.comms, c.sets))

/-- Descriptors have ended, and records been raised; nothing else has changed. -/
def Device.EndedOnly (d e : Device) : Prop := ∃ err cs, e = { d with err := err, contexts := cs } ∧ e.standing = d.standing

theorem Device.EndedOnly.refl (d : Device) : d.EndedOnly d := ⟨d.err, d.contexts, rfl, rfl⟩

theorem Device.EndedOnly.trans {d e f : Device} (h : d.EndedOnly e) (k : e.EndedOnly f) : d.EndedOnly f := by
  obtain ⟨err, cs, rfl, hs⟩ := h
  obtain ⟨err', cs', rfl, ht⟩ := k
  exact ⟨err', cs', rfl, ht.trans hs⟩

theorem foldl_ended {α : Type} {f : Device → α → Device} (hf : ∀ d a, Device.EndedOnly d (f d a)) (l : List α) (d : Device) :
    d.EndedOnly (l.foldl f d) := by
  induction l generalizing d with
  | nil => exact .refl d
  | cons a as ih => exact (hf d a).trans (ih (f d a))

theorem standing_updCtx (d : Device) (id : Code) {f : Context → Context} (hid : ∀ c, (f c).id = c.id) (hcomms : ∀ c, (f c).comms = c.comms)
    (hsets : ∀ c, (f c).sets = c.sets) : (d.updCtx id f).standing = d.standing := by
  have hall (l : List Context) : (updCtxIn id f l).map (fun c => (c.id, c.comms, c.sets)) = l.map (fun c => (c.id, c.comms, c.sets)) := by
    induction l with
    | nil => rfl
    | cons c cs ih =>
      unfold updCtxIn
      split
      · rw [List.map_cons, List.map_cons, hid, hcomms, hsets]
      · rw [List.map_cons, List.map_cons, ih]
  exact hall d.contexts

theorem updDesc_ended (d : Device) (id : Code) (n : RingId) (seq : Nat) (f : Desc → Desc) : d.EndedOnly (d.updDesc id n seq f) :=
  ⟨_, _, rfl, standing_updCtx d id (fun _ => rfl) (fun _ => rfl) (fun _ => rfl)⟩

theorem err_ended (d : Device) (e : ErrRing) : d.EndedOnly { d with err := e } := ⟨e, d.contexts, rfl, rfl⟩

theorem raiseNeeded_ended (d : Device) (r : ErrRec) : d.EndedOnly (d.raiseNeeded r).1 := by
  obtain ⟨e, he⟩ := enqueueRec_eq d (d.stampRec r) true
  unfold Device.raiseNeeded
  rw [he]
  exact err_ended d e

theorem finish_ended (d : Device) (id : Code) (n : RingId) (x : Desc) (status : Code) (addr : Nat) (ticket : Option Nat) :
    d.EndedOnly (d.finish id n x status addr ticket) := by
  unfold Device.finish
  dsimp only
  refine Device.EndedOnly.trans ?_ (updDesc_ended _ _ _ _ _)
  split
  · exact .refl d
  · split
    · split
      · exact .refl d
      · exact raiseNeeded_ended d _
    · exact .refl d

theorem endCommits_ended (d : Device) (status : Code) : d.EndedOnly (d.endCommits status) := by
  refine foldl_ended (fun d ck => foldl_ended (fun d n => ?_) _ d) _ d
  split
  · exact finish_ended _ _ _ _ _ _ _
  · exact .refl d

/-- The members of the commit communicator, by their contexts. -/
theorem memberIds_standing (d : Device) : d.commitMembers.map (fun m => m.1.id) =
    d.standing.flatMap (fun c => (c.2.1.filter (fun k => k.joined && k.commitComm)).map (fun _ => c.1)) := by
  unfold Device.commitMembers Device.standing
  rw [List.map_flatMap, List.flatMap_map]
  exact List.flatMap_congr (fun c _ => by rw [List.map_map]; rfl)

/-- The commit sets of a context. -/
theorem sets_standing (d : Device) (id : Code) : (d.ctx? id).map (fun c => c.sets) = (d.standing.find? (fun c => c.1 = id)).map (fun c => c.2.2) := by
  unfold Device.ctx? Device.standing
  rw [List.find?_map, Option.map_map]
  rfl

/-! ### The update stitch (R591) -/

theorem foldl_updCtx_only (f : Context → Context) (ids : List Code) (d : Device) :
    ∃ cs, ids.foldl (fun d id => d.updCtx id f) d = { d with contexts := cs } := by
  induction ids generalizing d with
  | nil => exact ⟨d.contexts, rfl⟩
  | cons id rest ih =>
    obtain ⟨cs, h⟩ := ih (d.updCtx id f)
    exact ⟨cs, h⟩

/-- A change made once for each identifier of a list. -/
theorem foldl_updCtx_ctx? {f : Context → Context} (hf : ∀ c, (f c).id = c.id) {ids : List Code} (hids : ids.Nodup) (d : Device) (j : Code) :
    (ids.foldl (fun d id => d.updCtx id f) d).ctx? j = if j ∈ ids then (d.ctx? j).map f else d.ctx? j := by
  induction ids generalizing d with
  | nil => rfl
  | cons id rest ih =>
    obtain ⟨hnew, hrest⟩ := List.nodup_cons.1 hids
    rw [List.foldl_cons, ih hrest]
    by_cases hj : j = id
    · subst hj
      rw [if_neg hnew, if_pos (by simp), updCtx_ctx _ _ hf]
    · rw [updCtx_other _ hj hf]
      by_cases hin : j ∈ rest
      · rw [if_pos hin, if_pos (by simp [hin])]
      · rw [if_neg hin, if_neg (by simp [hj, hin])]

/-- A step is under way at this module: prepared, voted for or decided. -/
def Commit.Active (k : Commit) : Prop := k.Preparing ∨ k.state = .decided

theorem abortDue_none {d : Device} (h : d.commit.pendingAbort = none) : d.abortDue = d := by
  unfold Device.abortDue
  rw [h]

theorem abortHeld_none {d : Device} (h : d.commit.pendingAbort = none) (t : BitVec 32) : d.abortHeld t = false := by
  unfold Device.abortHeld
  rw [h]
  rfl

theorem updateCommit_early {d : Device} (hnone : d.commit.pendingAbort = none)
    (h : d.reached (d.commit.update * 4096) = false ∨ ¬ d.commit.Active) : d.updateCommit = d := by
  unfold Device.updateCommit
  rw [abortDue_none hnone]
  refine if_pos ?_
  obtain h | h := h
  · simp only [h, Bool.not_false, Bool.or_true, Bool.true_or]
  · rw [Bool.or_eq_true, Bool.or_eq_true]
    refine .inl (.inl ?_)
    split
    next hs => exact absurd (.inl (.inl hs)) h
    next hs => exact absurd (.inl (.inr hs)) h
    next hs => exact absurd (.inr hs) h
    next => rfl

/-- At the update stitch, without an abort. -/
theorem updateCommit_due {d : Device} (hnone : d.commit.pendingAbort = none) (hactive : d.commit.Active)
    (hdue : d.reached (d.commit.update * 4096) = true) :
    d.updateCommit = if d.commit.decided.contains d.commit.step then
      let e := d.endCommits 0
      let f := (e.commitMembers.map (fun ck => ck.1.id)).foldl
        (fun d id => d.updCtx id (fun c => { c with sets := c.sets.map (fun s => { s with commits := s.commits + 1 }) })) e
      { f with commit := { f.commit with
          state := .idle, lastStep := d.commit.step, applied := true, commits := satTo 32 (f.commit.commits + 1)
          ready := f.commit.ready.filter (fun r => r.2.1 != d.commit.step) } }
    else
      let e := (d.endCommits 0x0A0E).breakCommit
      { e with commit := { e.commit with state := .uncertain, reason := 0x0A0E, lostSelf := true } }.raise
        { reason := 0x0A0E, mech := 0x11, outcome := 1 } := by
  unfold Device.updateCommit
  rw [abortDue_none hnone]
  refine if_neg ?_
  rw [abortHeld_none hnone, hdue]
  obtain (h | h) | h := hactive <;> simp only [h] <;> decide

/-- What an applied step leaves. -/
theorem updateCommit_applied {d : Device} (hnone : d.commit.pendingAbort = none) (hactive : d.commit.Active)
    (hdue : d.reached (d.commit.update * 4096) = true) (hdecided : d.commit.step ∈ d.commit.decided)
    (hids : (d.commitMembers.map (fun m => m.1.id)).Nodup) :
    d.updateCommit.mem = d.mem ∧
    d.updateCommit.commit = { d.commit with
      state := .idle, lastStep := d.commit.step, applied := true, commits := satTo 32 (d.commit.commits + 1)
      ready := d.commit.ready.filter (fun r => r.2.1 != d.commit.step) } ∧
    ∀ id c, d.ctx? id = some c → ∀ c', d.updateCommit.ctx? id = some c' →
      c'.sets = if id ∈ d.commitMembers.map (fun m => m.1.id) then c.sets.map (fun q => { q with commits := q.commits + 1 }) else c.sets := by
  rw [updateCommit_due hnone hactive hdue, if_pos (List.contains_iff_mem.2 hdecided)]
  obtain ⟨err, cs, hended, hstanding⟩ := endCommits_ended d 0
  have hmembers : (d.endCommits 0).commitMembers.map (fun m => m.1.id) = d.commitMembers.map (fun m => m.1.id) := by
    rw [memberIds_standing, memberIds_standing, hstanding]
  have hsets (id : Code) : ((d.endCommits 0).ctx? id).map (fun c => c.sets) = (d.ctx? id).map (fun c => c.sets) := by
    rw [sets_standing, sets_standing, hstanding]
  dsimp only
  rw [hmembers]
  obtain ⟨cs', hfold⟩ := foldl_updCtx_only (fun c => { c with sets := c.sets.map (fun s => { s with commits := s.commits + 1 }) })
    (d.commitMembers.map (fun m => m.1.id)) (d.endCommits 0)
  refine ⟨?_, ?_, fun id c hc c' hc' => ?_⟩
  · rw [hfold, hended]
  · rw [hfold, hended]
  · have hctx := foldl_updCtx_ctx? (f := fun c => { c with sets := c.sets.map (fun s => { s with commits := s.commits + 1 }) })
      (fun _ => rfl) hids (d.endCommits 0) id
    have hfound : ((d.commitMembers.map (fun m => m.1.id)).foldl (fun d id => d.updCtx id
      (fun c => { c with sets := c.sets.map (fun s => { s with commits := s.commits + 1 }) })) (d.endCommits 0)).ctx? id = some c' := hc'
    rw [hfound] at hctx
    have hold := hsets id
    rw [hc] at hold
    obtain ⟨b, hb, hbsets⟩ := Option.map_eq_some_iff.1 hold
    have hbsets : b.sets = c.sets := hbsets
    rw [hb] at hctx
    by_cases hin : id ∈ d.commitMembers.map (fun m => m.1.id)
    · rw [if_pos hin] at hctx ⊢
      rw [Option.some.inj hctx, ← hbsets]
    · rw [if_neg hin] at hctx ⊢
      rw [Option.some.inj hctx, hbsets]

/-- Every commit communicator is broken. -/
def Device.CommitBroken (d : Device) : Prop := ∀ c ∈ d.contexts, ∀ q ∈ c.comms, q.commitComm = true → q.broken = true

theorem breakCommit_broken (d : Device) : d.breakCommit.CommitBroken := by
  intro c hc q hq hcommit
  obtain ⟨b, -, rfl⟩ := List.mem_map.1 hc
  obtain ⟨k, -, rfl⟩ := List.mem_map.1 hq
  by_cases hk : k.commitComm = true
  · simp only [hk, if_true]
  · simp only [hk] at hcommit
    exact absurd hcommit hk

theorem updateCommit_undecided {d : Device} (hnone : d.commit.pendingAbort = none) (hactive : d.commit.Active)
    (hdue : d.reached (d.commit.update * 4096) = true) (hopen : d.commit.step ∉ d.commit.decided) :
    d.updateCommit.mem = d.mem ∧ d.updateCommit.CommitBroken ∧ d.updateCommit.commit.state = .uncertain ∧
      d.updateCommit.commit.reason = 0x0A0E ∧ d.updateCommit.commit.lastStep = d.commit.lastStep := by
  rw [updateCommit_due hnone hactive hdue, if_neg (fun h => hopen (List.contains_iff_mem.1 h))]
  obtain ⟨err, cs, hended, -⟩ := endCommits_ended d 0x0A0E
  have hbroken := breakCommit_broken (d.endCommits 0x0A0E)
  dsimp only
  rw [raise_commit, raise_mem, Device.CommitBroken, raise_contexts]
  refine ⟨?_, hbroken, rfl, rfl, ?_⟩
  · rw [hended]; rfl
  · rw [hended]; rfl

/-! ### Aborts that arrive and aborts that act (R592, R693) -/

theorem abortPacket_known {d : Device} {a : AbortPacket} (port : Option PortId)
    (h : a.jobId ≠ d.jobId ∨ (a.jobId, true, a.step) ∈ d.commit.flooded) : d.abortPacket port a = d := by
  refine if_pos ?_
  obtain h | h := h <;> simp [h]

/-- The communicators that an abort tells of what is lost. -/
def Device.learntOf (d : Device) (a : AbortPacket) : Device :=
  if a.lost = 0xFFFF then d
  else { d with contexts := d.contexts.map (fun c => { c with comms := c.comms.map (fun k =>
    if d.hasModule c.id k a.lost.toNat && !k.lostMods.contains a.lost.toNat then
      { k with lostMods := a.lost.toNat :: k.lostMods } else k) }) }

/-- An abort that is taken for the first time. -/
theorem abortPacket_new {d : Device} {a : AbortPacket} (port : Option PortId) (hjob : a.jobId = d.jobId)
    (hnew : (a.jobId, true, a.step) ∉ d.commit.flooded) :
    let e := (d.flood port a.jobId a.step true (.abort a)).learntOf a
    d.abortPacket port a = if e.commit.applied && a.step.toNat ≤ e.commit.lastStep.toNat then
      let f := (e.latchAbort a).breakCommit
      { f with commit := { f.commit with pendingAbort := none, reason := 0x0A0F, state := .split } }.raise
        { reason := 0x0A0F, mech := 0x11, outcome := 1 }
    else
      ((if e.needle.state.schedules && decide (a.stitch.toNat * 4096 < e.position) then e.raise (lateAbortRecord a) else e).latchAbort a).abortDue :=
  if_neg (by simp [hjob, hjob ▸ hnew])

/-- The communicators of a module that an abort names know that it is lost. -/
def Device.Learnt (d e : Device) (a : AbortPacket) : Prop :=
  a.lost ≠ 0xFFFF → ∀ c ∈ d.contexts, ∀ q ∈ c.comms, d.hasModule c.id q a.lost.toNat = true →
    ∃ c' ∈ e.contexts, ∃ q' ∈ c'.comms, q'.commId = q.commId ∧ a.lost.toNat ∈ q'.lostMods

theorem learntOf_learnt (d : Device) (a : AbortPacket) : d.Learnt (d.learntOf a) a := by
  intro hlost c hc q hq hhas
  unfold Device.learntOf
  rw [if_neg hlost]
  refine ⟨_, List.mem_map_of_mem hc, _, List.mem_map_of_mem hq, ?_⟩
  rw [hhas, Bool.true_and]
  by_cases hknown : a.lost.toNat ∈ q.lostMods
  · rw [if_neg (by simpa using hknown)]
    exact ⟨rfl, hknown⟩
  · rw [if_pos (by simpa using hknown)]
    exact ⟨rfl, List.mem_cons_self⟩

theorem learntOf_none (d : Device) {a : AbortPacket} (h : a.lost = 0xFFFF) : d.learntOf a = d := if_pos h

/-- Only communicators learn of a loss. -/
theorem learntOf_only (d : Device) (a : AbortPacket) : ∃ cs, d.learntOf a = { d with contexts := cs } := by
  unfold Device.learntOf
  split
  · exact ⟨_, rfl⟩
  · exact ⟨_, rfl⟩

theorem learntOf_memberIds (d : Device) (a : AbortPacket) :
    (d.learntOf a).commitMembers.map (fun m => m.1.id) = d.commitMembers.map (fun m => m.1.id) := by
  unfold Device.learntOf
  split
  · rfl
  · unfold Device.commitMembers
    rw [List.flatMap_map, List.map_flatMap, List.map_flatMap]
    refine List.flatMap_congr (fun c _ => ?_)
    rw [List.filter_map, List.map_map, List.map_map, List.map_map]
    have hkinds (k : Comm) : ((if d.hasModule c.id k a.lost.toNat && !k.lostMods.contains a.lost.toNat then
        { k with lostMods := a.lost.toNat :: k.lostMods } else k).joined && (if d.hasModule c.id k a.lost.toNat &&
          !k.lostMods.contains a.lost.toNat then { k with lostMods := a.lost.toNat :: k.lostMods } else k).commitComm) =
        (k.joined && k.commitComm) := by split <;> rfl
    exact congrArg (List.map (fun _ => c.id)) (List.filter_congr (fun k _ => hkinds k))

/-- What an abort that is taken finds: the module as it was, but for its flood and what it has told. -/
structure Device.AbortTaken (d e : Device) : Prop where
  mem : e.mem = d.mem
  err : e.err = d.err
  commit : ∃ fl, e.commit = { d.commit with flooded := fl }
  reached : ∀ n, e.reached n = d.reached n
  position : e.position = d.position
  schedules : e.needle.state.schedules = d.needle.state.schedules
  members : e.commitMembers.map (fun m => m.1.id) = d.commitMembers.map (fun m => m.1.id)

theorem abort_taken (d : Device) (port : Option PortId) (a : AbortPacket) :
    d.AbortTaken ((d.flood port a.jobId a.step true (.abort a)).learntOf a) := by
  have hkeep {β : Type} (g : Device → β) (hport : ∀ (d : Device) n f, g (d.updPort n f) = g d)
      (hnote : ∀ (d : Device) l, g { d with commit := { d.commit with flooded := l } } = g d)
      (hctx : ∀ (d : Device) cs, g { d with contexts := cs } = g d) :
      g ((d.flood port a.jobId a.step true (.abort a)).learntOf a) = g d := by
    obtain ⟨cs, h⟩ := learntOf_only (d.flood port a.jobId a.step true (.abort a)) a
    rw [h, hctx]
    exact flood_keeps g d port a.jobId a.step true (.abort a) hport hnote
  refine ⟨hkeep (fun d => d.mem) (fun _ _ _ => rfl) (fun _ _ => rfl) (fun _ _ => rfl),
    hkeep (fun d => d.err) (fun _ _ _ => rfl) (fun _ _ => rfl) (fun _ _ => rfl), ?_,
    fun n => hkeep (fun d => d.reached n) (fun _ _ _ => rfl) (fun _ _ => rfl) (fun _ _ => rfl),
    hkeep (fun d => d.position) (fun _ _ _ => rfl) (fun _ _ => rfl) (fun _ _ => rfl),
    hkeep (fun d => d.needle.state.schedules) (fun _ _ _ => rfl) (fun _ _ => rfl) (fun _ _ => rfl), ?_⟩
  · obtain ⟨cs, h⟩ := learntOf_only (d.flood port a.jobId a.step true (.abort a)) a
    rw [h]
    exact flood_commit d port a.jobId a.step true (.abort a)
  · rw [learntOf_memberIds]
    exact flood_keeps (fun d => d.commitMembers.map (fun m => m.1.id)) d port a.jobId a.step true (.abort a) (fun _ _ _ => rfl)
      (fun _ _ => rfl)

/-- A broken communicator still knows what is lost. -/
theorem breakCommit_learnt {d e : Device} {a : AbortPacket} (h : d.Learnt e a) : d.Learnt e.breakCommit a := by
  intro hlost c hc q hq hhas
  obtain ⟨c', hc', q', hq', hid, hmods⟩ := h hlost c hc q hq hhas
  refine ⟨_, List.mem_map_of_mem hc', _, List.mem_map_of_mem hq', ?_⟩
  split
  · exact ⟨hid, hmods⟩
  · exact ⟨hid, hmods⟩

/-- The abort of a step that has been applied splits the communicator. -/
theorem abortPacket_applied {d : Device} {a : AbortPacket} (port : Option PortId) (hjob : a.jobId = d.jobId)
    (hnew : (a.jobId, true, a.step) ∉ d.commit.flooded) (happlied : d.commit.applied = true) (hstep : a.step.toNat ≤ d.commit.lastStep.toNat) :
    let e := d.abortPacket port a
    e.mem = d.mem ∧ e.CommitBroken ∧ (d.flood port a.jobId a.step true (.abort a)).Learnt e a ∧
      e.commit.state = .split ∧ e.commit.reason = 0x0A0F ∧ e.commit.pendingAbort = none := by
  have htaken := abort_taken d port a
  obtain ⟨fl, hcommit⟩ := htaken.commit
  have hlearnt := learntOf_learnt (d.flood port a.jobId a.step true (.abort a)) a
  let f := (((d.flood port a.jobId a.step true (.abort a)).learntOf a).latchAbort a).breakCommit
  have habort : d.abortPacket port a = ({ f with commit := { f.commit with pendingAbort := none, reason := 0x0A0F, state := .split } }).raise
      { reason := 0x0A0F, mech := 0x11, outcome := 1 } :=
    (abortPacket_new port hjob hnew).trans (if_pos (by simp only [hcommit, happlied, hstep, decide_true, Bool.and_self]))
  have hbroken : f.CommitBroken := breakCommit_broken _
  have hknown : (d.flood port a.jobId a.step true (.abort a)).Learnt f a := breakCommit_learnt hlearnt
  dsimp only
  rw [habort, raise_mem, raise_commit, Device.CommitBroken, Device.Learnt, raise_contexts]
  exact ⟨htaken.mem, hbroken, hknown, rfl, rfl, rfl⟩

/-- The abort of a step that has not been applied is latched, with its record when it is late. -/
theorem abortPacket_open {d : Device} {a : AbortPacket} (port : Option PortId) (hjob : a.jobId = d.jobId)
    (hnew : (a.jobId, true, a.step) ∉ d.commit.flooded) (h : d.commit.applied = false ∨ d.commit.lastStep.toNat < a.step.toNat) :
    let e := (d.flood port a.jobId a.step true (.abort a)).learntOf a
    d.abortPacket port a = ((if d.needle.state.schedules && decide (a.stitch.toNat * 4096 < d.position) then e.raise (lateAbortRecord a)
      else e).latchAbort a).abortDue := by
  have htaken := abort_taken d port a
  obtain ⟨fl, hcommit⟩ := htaken.commit
  refine (abortPacket_new port hjob hnew).trans ((if_neg ?_).trans ?_)
  · rw [hcommit]
    obtain h | h := h
    · simp only [h, Bool.false_and, Bool.false_eq_true, not_false_eq_true]
    · simp only [Nat.not_le.2 h, decide_false, Bool.and_false, Bool.false_eq_true, not_false_eq_true]
  · rw [htaken.schedules, htaken.position]

/-- An abort that comes before its stitch waits for it. -/
theorem abortPacket_early {d : Device} {a : AbortPacket} (port : Option PortId) (hjob : a.jobId = d.jobId)
    (hnew : (a.jobId, true, a.step) ∉ d.commit.flooded) (h : d.commit.applied = false ∨ d.commit.lastStep.toNat < a.step.toNat)
    (hearly : d.reached (a.stitch.toNat * 4096) = false) :
    d.abortPacket port a = ((d.flood port a.jobId a.step true (.abort a)).learntOf a).latchAbort a := by
  have hlate : (d.needle.state.schedules && decide (a.stitch.toNat * 4096 < d.position)) = false := by
    unfold Device.reached at hearly
    cases hrun : d.needle.state.schedules with
    | false => rfl
    | true =>
      rw [hrun, Bool.true_and, decide_eq_false_iff_not] at hearly
      rw [Bool.true_and, decide_eq_false_iff_not]
      exact fun hlt => hearly (Nat.le_of_lt hlt)
  have hreached := (abort_taken d port a).reached (a.stitch.toNat * 4096)
  rw [abortPacket_open port hjob hnew h, hlate]
  rw [if_neg Bool.false_ne_true]
  unfold Device.abortDue
  exact if_neg (fun hdue => Bool.false_ne_true (hearly.symm.trans (hreached.symm.trans hdue)))

theorem abortDue_early {d : Device} {a : AbortPacket} (h : d.commit.pendingAbort = some a) (hearly : d.reached (a.stitch.toNat * 4096) = false) :
    d.abortDue = d := by
  unfold Device.abortDue
  rw [h]
  exact if_neg (fun hdue => Bool.false_ne_true (hearly.symm.trans hdue))

theorem abortDue_due {d : Device} {a : AbortPacket} (h : d.commit.pendingAbort = some a) (hdue : d.reached (a.stitch.toNat * 4096) = true) :
    d.abortDue = d.applyAbort := by
  unfold Device.abortDue
  rw [h]
  exact if_pos hdue

/-- An abort that comes at its stitch or after it acts at once, with its record when it is late. -/
theorem abortPacket_due {d : Device} {a : AbortPacket} (port : Option PortId) (hjob : a.jobId = d.jobId)
    (hnew : (a.jobId, true, a.step) ∉ d.commit.flooded) (h : d.commit.applied = false ∨ d.commit.lastStep.toNat < a.step.toNat)
    (hdue : d.reached (a.stitch.toNat * 4096) = true) :
    ∃ e, d.abortPacket port a = (Device.latchAbort e a).applyAbort ∧ e.commit.aborts = d.commit.aborts ∧
      e.commitMembers.map (fun m => m.1.id) = d.commitMembers.map (fun m => m.1.id) ∧
      (a.stitch.toNat * 4096 < d.position → d.err.general < 64 → e.err.queue = d.err.queue ++
        [⟨((d.flood port a.jobId a.step true (.abort a)).learntOf a).stampRec (lateAbortRecord a), false, none⟩]) := by
  have htaken := abort_taken d port a
  obtain ⟨fl, hcommit⟩ := htaken.commit
  have hruns : d.needle.state.schedules = true := (Bool.and_eq_true_iff.1 hdue).1
  let e := (d.flood port a.jobId a.step true (.abort a)).learntOf a
  have hacts {f : Device} (hreached : f.reached (a.stitch.toNat * 4096) = e.reached (a.stitch.toNat * 4096)) :
      (f.latchAbort a).abortDue = (f.latchAbort a).applyAbort :=
    abortDue_due (d := f.latchAbort a) rfl ((show (f.latchAbort a).reached _ = f.reached _ from rfl).trans
      (hreached.trans ((htaken.reached _).trans hdue)))
  rw [abortPacket_open port hjob hnew h, hruns, Bool.true_and]
  by_cases hlate : a.stitch.toNat * 4096 < d.position
  · obtain ⟨err, hraise⟩ := raise_eq e (lateAbortRecord a)
    rw [if_pos (decide_eq_true hlate)]
    refine ⟨_, hacts (f := e.raise (lateAbortRecord a)) (by rw [hraise]; rfl), ?_, ?_, fun _ hgeneral => ?_⟩
    · rw [raise_commit, hcommit]
    · rw [show (e.raise (lateAbortRecord a)).commitMembers = e.commitMembers from by rw [hraise]; rfl]
      exact htaken.members
    · rw [raise_queue (by rw [htaken.err]; exact hgeneral), htaken.err]
  · rw [if_neg (by rw [decide_eq_false hlate]; exact Bool.false_ne_true)]
    exact ⟨_, hacts (f := e) rfl, by rw [hcommit], htaken.members, fun h => absurd h hlate⟩

/-- What an abort does when it acts. -/
theorem applyAbort_some {d : Device} {a : AbortPacket} (h : d.commit.pendingAbort = some a) :
    let ids := (d.commitMembers.map (fun ck => ck.1.id)).eraseDups
    let e := ids.foldl (fun d id => d.abortContext id) d
    d.applyAbort.contexts = e.contexts ∧ d.applyAbort.err = e.err ∧ d.applyAbort.commit.pendingAbort = none ∧
      d.applyAbort.commit.aborts = satTo 32 (e.commit.aborts + 1) ∧
      (d.applyAbort.commit.state = .idle ∨ d.applyAbort.commit.state = .uncertain ∨ d.applyAbort.commit.state = .split) := by
  unfold Device.applyAbort
  rw [h]
  refine ⟨rfl, rfl, rfl, rfl, ?_⟩
  dsimp only
  split
  next hkeep =>
    rw [Bool.or_eq_true, decide_eq_true_eq, decide_eq_true_eq] at hkeep
    exact .inr hkeep
  next => exact .inl rfl

/-- A context that an abort has ended holds no stash and no filled bucket. -/
def Context.Cleared (c : Context) : Prop := c.stash = [] ∧ ∀ q ∈ c.comms, ∀ b ∈ q.buckets, b.state = .idle ∧ b.staged = []

theorem abortContext_cleared {d : Device} {id : Code} {c : Context} (h : (d.abortContext id).ctx? id = some c) : c.Cleared := by
  unfold Device.abortContext at h
  split at h
  next hnone => exact absurd (hnone.symm.trans h) (by simp)
  next =>
    dsimp only at h
    rw [updCtx_ctx _ _ (fun _ => by rfl)] at h
    obtain ⟨b, -, rfl⟩ := Option.map_eq_some_iff.1 h
    refine ⟨rfl, fun q hq b hb => ?_⟩
    obtain ⟨k, -, rfl⟩ := List.mem_map.1 hq
    obtain ⟨x, -, rfl⟩ := List.mem_map.1 hb
    exact ⟨rfl, rfl⟩

/-- The last context of an abort. -/
theorem abortContexts_last {ids : List Code} {id : Code} {d : Device} {c : Context} (hlast : ids.getLast? = some id)
    (h : (ids.foldl (fun d id => d.abortContext id) d).ctx? id = some c) : c.Cleared := by
  obtain ⟨init, rfl⟩ := List.getLast?_eq_some_iff.1 hlast
  rw [List.foldl_append] at h
  exact abortContext_cleared h

/-- A record of the power and reset mechanism keeps its detail when it is stamped, also for a confidential context. -/
theorem stampRec_detail (d : Device) {r : ErrRec} (h : r.mech = 0x11) : (d.stampRec r).detail = r.detail := by
  have hredact (q : ErrRec) (hq : q.mech = 0x11) : (redact q).detail = q.detail := by
    unfold redact
    rw [hq]
    rfl
  unfold Device.stampRec
  dsimp only
  split
  · rfl
  · split
    · exact hredact _ h
    · rfl

/-- Settles O42: votes, decisions, commits and aborts of a step. -/
theorem stepCommits : Obligations.StepCommits := by
  intro s h rp dp ap port hrails d k now same broken preparing entry differs members
  have hsame {e : Device} (h : d.StoresKept e) : same { s with dev := e } := ⟨h.contexts, h.mem, h.hostMem, h.panels⟩
  have hready : ∀ q, q ∈ (d.withReady entry).commit.ready ↔ q ∈ entry :: k.ready := fun q => by
    rw [mem_withReady, List.mem_cons]
  have hdiffers : (d.withReady entry).commit.Differs ↔ differs := by
    exact ⟨fun ⟨q, hq, hstep⟩ => ⟨q, (hready q).1 hq, hstep⟩, fun ⟨q, hq, hstep⟩ => ⟨q, (hready q).2 hq, hstep⟩⟩
  have hroots : (d.withReady entry).isRoot = d.isRoot := isRoot_withCommit d _
  have hmodules : (d.withReady entry).commitModules = d.commitModules := commitModules_withCommit d _
  have hall : (d.withReady entry).AllReady ↔ ∀ m ∈ d.commitModules, (m, k.step, k.update) ∈ entry :: k.ready :=
    ⟨fun h m hm => (hready _).1 (h m (hmodules ▸ hm)), fun h m hm => (hready _).2 (h m (hmodules ▸ hm))⟩
  refine ⟨fun hstrange => ?_, fun hroot hmod => ⟨fun hprep hdiff hnone => ?_, fun hvoted hnot hnone hevery => ?_, fun hvoted hnot hlacks => ?_⟩,
    fun hknown => ?_, fun hjob hnew => ?_, fun hidle => ?_, fun q hidle hroot hone hdue hnone hopen => ?_, fun hprep hroot hdue hnone => ?_,
    fun hnone hearly => ?_, fun hnone hactive hdue => ⟨fun hdecided hids => ?_, fun hopen => ?_⟩, fun hknown => ?_,
    fun hjob hnew => ?_, fun a ha => ⟨fun hearly => ?_, fun hdue => ?_⟩, fun hnone => ?_⟩
  · exact exec_run rfl hrails (takeReady_strange hstrange)
  · have htake := (takeReady_awaited hroot hmod).1 hprep (hdiffers.2 hdiff) hnone
    have hstores := issueAbort_stores (d.withReady entry) k.step 0x0A0D 0xFFFF
    exact ⟨_, exec_run (c := .commitReady h rp) (f := fun d => d.takeReady rp) rfl hrails htake,
      hsame ⟨hstores.contexts, hstores.mem, hstores.hostMem, hstores.panels⟩, issueAbort_preparing (d := d.withReady entry) hprep 0x0A0D 0xFFFF⟩
  · have htake := (takeReady_awaited hroot hmod).2 (mt hdiffers.1 hnot)
    obtain ⟨hkept, fl, hcommit⟩ := tryDecide_all (d := d.withReady entry) hvoted (hroots.trans hroot) (hall.2 hevery) hnone
    refine ⟨_, exec_run (c := .commitReady h rp) (f := fun d => d.takeReady rp) rfl hrails htake,
      hsame ⟨hkept.contexts, hkept.mem, hkept.hostMem, hkept.panels⟩, ?_, ?_, fun q => ?_⟩
    · exact congrArg Commit.state hcommit
    · exact congrArg Commit.decided hcommit
    · exact (iff_of_eq (congrArg (fun c : Commit => q ∈ c.ready) hcommit)).trans mem_withReady
  · have htake := (takeReady_awaited hroot hmod).2 (mt hdiffers.1 hnot)
    have hmissing : ¬ (d.withReady entry).AllReady := by
      obtain ⟨m, hm, hlack⟩ := hlacks
      exact fun h => hlack (hall.1 h m hm)
    exact ⟨_, exec_run (c := .commitReady h rp) (f := fun d => d.takeReady rp) rfl hrails (htake.trans (tryDecide_missing hmissing)),
      ⟨rfl, rfl, rfl, rfl⟩, hvoted, rfl⟩
  · exact exec_run rfl hrails (takeDecide_known port hknown)
  · obtain ⟨hkept, hdecided, hdone, hstate⟩ := takeDecide_new port hjob hnew
    exact completes_run rfl hrails ⟨hsame hkept, hdecided, hdone, hstate⟩
  · exact exec_run rfl hrails (voteDeadline_idle hidle)
  · exact ⟨_, exec_run (c := .commitVoteDeadline) (f := Device.voteDeadline) rfl hrails
        (voteDeadline_lacked hidle hroot hone hdue hnone hopen),
      hsame (issueAbort_stores d q.2.1 0x0A12 0xFFFF), issueAbort_idle hidle q.2.1 0x0A12 0xFFFF⟩
  · exact ⟨_, exec_run (c := .commitVoteDeadline) (f := Device.voteDeadline) rfl hrails
        (voteDeadline_preparing hprep hroot hdue hnone),
      hsame (issueAbort_stores d k.step 0x0A12 0xFFFF), issueAbort_preparing hprep 0x0A12 0xFFFF⟩
  · exact exec_run rfl hrails (updateCommit_early hnone hearly)
  · exact completes_run rfl hrails (updateCommit_applied hnone hactive hdue hdecided hids)
  · exact completes_run rfl hrails (updateCommit_undecided hnone hactive hdue hopen)
  · exact exec_run rfl hrails (abortPacket_known port hknown)
  · intro fl learnt
    have hlearnt {e : Device} (h : fl.Learnt e ap) : learnt { s with dev := e } := fun hlost c hc =>
      h hlost c ((flood_stores d port ap.jobId ap.step true (.abort ap)).contexts.symm ▸ hc)
    have hexec {e : Device} (h : d.abortPacket port ap = e) : exec (.stepAbortPacket port ap) s = .next { s with dev := e } :=
      exec_run rfl hrails h
    refine ⟨fun happlied hstep => ?_, fun hopen => ⟨fun hearly => ?_, fun hdue => ?_⟩⟩
    · obtain ⟨hmem, hbroken, hknown, hstate⟩ := abortPacket_applied port hjob hnew happlied hstep
      exact ⟨_, hexec rfl, hmem, hbroken, hlearnt hknown, hstate⟩
    · obtain ⟨fl', hcommit⟩ := (abort_taken d port ap).commit
      refine ⟨_, hexec (abortPacket_early port hjob hnew hopen hearly), fun hnone => ?_, hlearnt (learntOf_learnt fl ap), rfl, ?_, rfl⟩
      · rw [show d.flood port ap.jobId ap.step true (.abort ap) = fl from rfl, learntOf_none fl hnone]
        have hstores := flood_stores d port ap.jobId ap.step true (.abort ap)
        exact ⟨hstores.contexts, hstores.mem, hstores.hostMem, hstores.panels⟩
      · have hstate := congrArg Commit.state hcommit
        exact hstate
    · obtain ⟨e, hdone, hcommit, hmembers, herr⟩ := abortPacket_due port hjob hnew hopen hdue
      obtain ⟨-, hqueue, hpending, haborts, -⟩ := applyAbort_some (d := e.latchAbort ap) (a := ap) rfl
      have hlone (hnone : members = []) : (((e.latchAbort ap).commitMembers).map (fun m => m.1.id)).eraseDups = [] :=
        (congrArg List.eraseDups hmembers).trans hnone
      refine ⟨_, hexec hdone, hpending, fun hnone => ?_, fun hnone hgeneral hlate => ?_⟩
      · rw [hlone hnone, List.foldl_nil] at haborts
        rw [haborts]
        exact congrArg (fun n => satTo 32 (n + 1)) hcommit
      · rw [hlone hnone, List.foldl_nil] at hqueue
        have hsame := stampRec_sameFault ((d.flood port ap.jobId ap.step true (.abort ap)).learntOf ap) (lateAbortRecord ap)
        refine ⟨_, ?_, hsame.reason, hsame.mech, ?_⟩
        · rw [hqueue]
          exact herr hlate hgeneral
        · exact stampRec_detail _ rfl
  · exact exec_run rfl hrails (abortDue_early ha hearly)
  · obtain ⟨hcontexts, -, hpending, haborts, hstate⟩ := applyAbort_some ha
    refine ⟨_, exec_run (c := .stepAbortApply) (f := Device.abortDue) rfl hrails (abortDue_due ha hdue), hpending, fun hnone => ?_, hstate,
      fun id hlast c' hc' => ?_⟩
    · rw [haborts, show List.eraseDups _ = [] from hnone]
      rfl
    · exact abortContexts_last hlast (d := d) ((congrArg (List.find? _) hcontexts.symm).trans hc')
  · exact exec_run rfl hrails (abortDue_none hnone)

end Sys2Proof.Machine
end

section
/-! A panel's reset, up to its logic reset: what fencing the panel, writing its record and going on leave of the device. -/

namespace Sys2Proof.Machine

/-! ### Written-back Spool lines -/

/-- The device after a write to the stacks: the panels' memory state and counters may differ, and what is known of bad
accesses. -/
structure Device.WroteStacks (d e : Device) : Prop where
  eq : e = { d with panels := e.panels, poison := e.poison, faulty := e.faulty, lostStacks := e.lostStacks }
  panel : ∀ p, e.panel p = { d.panel p with mem := (e.panel p).mem, pmc := (e.panel p).pmc }

theorem Device.WroteStacks.refl (d : Device) : d.WroteStacks d := ⟨rfl, fun _ => rfl⟩

theorem Device.WroteStacks.trans {d e f : Device} (h : d.WroteStacks e) (k : e.WroteStacks f) : d.WroteStacks f where
  eq := by rw [k.eq, h.eq]
  panel p := by rw [k.panel p, h.panel p]

/-- A step on one panel's memory state and counters. -/
theorem Device.OnlyPanel.wroteStacks {d e : Device} {p : PanelId} (h : d.OnlyPanel e p)
    (hpanel : e.panel p = { d.panel p with mem := (e.panel p).mem, pmc := (e.panel p).pmc }) : d.WroteStacks e where
  eq := by
    obtain ⟨heq, -⟩ := h
    rw [heq]
  panel o := by
    obtain ⟨-, hothers⟩ := h
    by_cases ho : o = p
    · exact ho ▸ hpanel
    · rw [hothers o ho]

theorem Device.WroteStacks.err {d w : Device} (h : d.WroteStacks w) : w.err = d.err := by rw [h.eq]

theorem Device.WroteStacks.updPanel_records {d w : Device} (h : d.WroteStacks w) (p : PanelId) (f : Panel → Panel) (e : ErrRing) :
    ({ w.updPanel p f with err := e } : Device) =
      { d with panels := (w.updPanel p f).panels, poison := w.poison, faulty := w.faulty, lostStacks := w.lostStacks, err := e } := by
  obtain ⟨heq, -⟩ := h
  rw [heq]
  rfl

theorem count_wroteStacks (d : Device) (p : PanelId) (e : PmcEvent) (n : Nat) : d.WroteStacks (d.count p e n) :=
  (count_onlyPanel d p e n).wroteStacks ((count_panel d p e n).trans (by rw [count_panel]))

theorem enqueueMem_onlyPanel (d : Device) (a : Nat) (c : ColourClass) (w : Bool) (r : Requester) :
    d.OnlyPanel (d.enqueueMem a c w r) (panelOf a) := by
  unfold Device.enqueueMem Device.updPMem
  exact updPanel_onlyPanel d _ _

theorem enqueueMem_wroteStacks (d : Device) (a : Nat) (c : ColourClass) (w : Bool) (r : Requester) : d.WroteStacks (d.enqueueMem a c w r) :=
  (enqueueMem_onlyPanel d a c w r).wroteStacks (by unfold Device.enqueueMem; rw [updPMem_panel])

theorem stackAccess_wroteStacks (d : Device) (w : Bool) (u : Nat) (l : List Nat) (c : ColourClass) (r : Requester) :
    d.WroteStacks (d.stackAccess w u l c r) :=
  List.foldlRecOn l _ (count_wroteStacks d _ _ _) (fun _ h _ _ => h.trans (enqueueMem_wroteStacks _ _ c w r))

theorem rewrote_wroteStacks (d : Device) (a n : Nat) : d.WroteStacks (d.rewrote a n) := by
  unfold Device.rewrote
  split <;> exact ⟨rfl, fun _ => rfl⟩

theorem stackWritten_wroteStacks (d : Device) (sound bad : List Nat) : d.WroteStacks (d.stackWritten sound bad) := by
  have hrewrote : d.WroteStacks (sound.foldl (fun d a => d.rewrote a 1) d) :=
    List.foldlRecOn sound _ (.refl d) (fun _ h a _ => h.trans (rewrote_wroteStacks _ a 1))
  exact hrewrote.trans ⟨rfl, fun _ => rfl⟩

theorem writeBack_wroteStacks (d : Device) (l : List SpoolLine) : d.WroteStacks (d.writeBack l) :=
  List.foldlRecOn _ _ (.refl d) (fun _ h _ _ =>
    ((h.trans (count_wroteStacks _ _ _ _)).trans (stackAccess_wroteStacks _ _ _ _ _ _)).trans (stackWritten_wroteStacks _ _ _))

/-- The accesses of a unit lie in its panel. -/
theorem panelOf_access {u a : Nat} (h : a ∈ unitAccesses u) : panelOf (a * 64) = panelOf (u * 256) := by
  have hdiv : a * 64 / panelBytes = u * 256 / panelBytes := by
    unfold panelBytes
    simp only [unitAccesses, List.mem_cons, List.not_mem_nil, or_false] at h
    omega
  unfold panelOf
  rw [hdiv]

/-- A panel to which no written-back line belongs is as it was. -/
theorem writeBack_other {d : Device} {l : List SpoolLine} {o : PanelId} (h : ∀ x ∈ l, panelOf (x.unit * 256) ≠ o) :
    (d.writeBack l).panel o = d.panel o := by
  unfold Device.writeBack
  refine List.foldlRecOn (motive := fun e : Device => e.panel o = d.panel o) _ _ rfl (fun e he x hx => ?_)
  have hx' := (h x (List.mem_filter.1 hx).1).symm
  have hstored (f : Device) (sound bad : List Nat) : (f.stackWritten sound bad).panel o = f.panel o :=
    foldl_enqueue (fun f : Device => f.panel o) (fun f a => by unfold Device.rewrote; split <;> rfl) sound f
  have haccess (f : Device) (c : ColourClass) : (f.stackAccess true x.unit (unitAccesses x.unit) c .nobody).panel o = f.panel o := by
    unfold Device.stackAccess
    refine List.foldlRecOn (motive := fun e : Device => e.panel o = f.panel o) _ _ (count_other f hx' _ _) (fun e he a ha => ?_)
    exact (updPanel_other e (panelOf_access ha ▸ hx') _).trans he
  exact (hstored _ _ _).trans ((haccess _ _).trans ((count_other e hx' _ _).trans he))

/-! ### The fence (R661) -/

theorem raiseReplayed_wrote (d : Device) (k : Nat) (r : ErrRec) :
    ∃ e, d.raiseReplayed k r = { d with err := e } ∧ e.nextTicket = d.err.nextTicket ∧ e.written = d.err.written := by
  unfold Device.raiseReplayed Device.enqueueRec
  dsimp only
  split
  · exact ⟨_, rfl, rfl, rfl⟩
  · exact ⟨_, rfl, rfl, rfl⟩

theorem faultsOf_length (a : ArrayState) (f : DescRef → Bool) : (a.faultsOf f).length ≤ 2 := List.length_filterMap_le _ _

theorem general_append (e : ErrRing) (q : QueuedRec) : ({ e with queue := e.queue ++ [q] } : ErrRing).general ≤ e.general + 1 := by
  unfold ErrRing.general
  rw [List.filter_append, List.length_append]
  exact Nat.add_le_add_left (List.length_filter_le _ _) _

/-- Records that find room are appended to the queue. -/
structure ErrRing.Appended (e f : ErrRing) (n : Nat) : Prop where
  queue : ∃ l, f.queue = e.queue ++ l ∧ l.length ≤ n
  general : f.general ≤ e.general + n

theorem raiseReplayed_appended {d : Device} (h : d.err.general < 64) (k : Nat) (r : ErrRec) : d.err.Appended (d.raiseReplayed k r).err 1 := by
  have heq : (d.raiseReplayed k r).err = { d.err with queue := d.err.queue ++ [⟨{ r with outcome := k, attr := r.attr ||| 1 }, false, none⟩] } := by
    unfold Device.raiseReplayed Device.enqueueRec
    dsimp only
    rw [if_pos h]
    rfl
  rw [heq]
  exact ⟨⟨_, rfl, le_rfl⟩, general_append _ _⟩

theorem foldl_raiseReplayed {l : List ErrRec} {d : Device} (k : Nat) (h : d.err.general + l.length ≤ 64) :
    d.err.Appended (l.foldl (Device.raiseReplayed · k) d).err l.length := by
  induction l generalizing d with
  | nil => exact ⟨⟨[], (List.append_nil _).symm, le_rfl⟩, le_rfl⟩
  | cons r rs ih =>
    rw [List.length_cons] at h
    obtain ⟨⟨l₁, hq₁, hl₁⟩, hg₁⟩ := raiseReplayed_appended (d := d) (by omega) k r
    obtain ⟨⟨l₂, hq₂, hl₂⟩, hg₂⟩ := ih (d := d.raiseReplayed k r) (by omega)
    refine ⟨⟨l₁ ++ l₂, ?_, ?_⟩, ?_⟩
    · rw [List.foldl_cons, hq₂, hq₁, List.append_assoc]
    · rw [List.length_append, List.length_cons]; omega
    · rw [List.foldl_cons, List.length_cons]; omega

/-- Records that no completion needs take no ticket. -/
theorem foldl_raiseReplayed_eq (l : List ErrRec) (d : Device) (k : Nat) :
    ∃ e, l.foldl (Device.raiseReplayed · k) d = { d with err := e } ∧ e.nextTicket = d.err.nextTicket ∧ e.written = d.err.written := by
  refine List.foldlRecOn (motive := fun x => ∃ e, x = { d with err := e } ∧ e.nextTicket = d.err.nextTicket ∧ e.written = d.err.written)
    l _ ⟨d.err, rfl, rfl, rfl⟩ (fun x hx r _ => ?_)
  obtain ⟨e, rfl, hticket, hwritten⟩ := hx
  obtain ⟨f, hf, hkept⟩ := raiseReplayed_wrote { d with err := e } k r
  exact ⟨f, hf, hkept.1.trans hticket, hkept.2.trans hwritten⟩

/-- The panel when it is fenced: no tack runs, and its memory has nothing queued. -/
def Panel.fence (q : Panel) : Panel :=
  { q with
    array := q.array.without (fun _ => true)
    mem := { q.mem with queues := [], stalled := [], batches := [], spool := [] } }

theorem without_all (a : ArrayState) : (a.without (fun _ => true)).run = none ∧ (a.without (fun _ => true)).dma = none := by
  have hnone (r : Option TackRun) : r.filter (fun _ => !true) = none := by cases r <;> rfl
  exact ⟨hnone _, hnone _⟩

/-- A fenced panel, when nobody waits for a read of its stacks. -/
structure Device.Fenced (d e : Device) (p : PanelId) : Prop where
  eq : e = { d with panels := e.panels, poison := e.poison, faulty := e.faulty, lostStacks := e.lostStacks, err := e.err }
  panel : e.panel p = { d.panel p with mem := (e.panel p).mem, pmc := (e.panel p).pmc, array := (d.panel p).array.without (fun _ => true) }
  others : (∀ l ∈ (d.panel p).mem.spool, panelOf (l.unit * 256) = p) → ∀ o, o ≠ p → e.panel o = d.panel o
  records : d.err.general ≤ 62 → d.err.Appended e.err 2
  ticket : e.err.nextTicket = d.err.nextTicket
  written : e.err.written = d.err.written

theorem fencePanel_fenced {d : Device} {p : PanelId} (hqueues : (d.panel p).mem.queues = []) (hstalled : (d.panel p).mem.stalled = []) :
    d.Fenced (d.fencePanel p) p := by
  let w := d.writeBack (d.panel p).mem.spool
  let faults := (d.panel p).array.faultsOf (fun _ => true)
  have hw : d.WroteStacks w := writeBack_wroteStacks d _
  have hfence : d.fencePanel p = faults.foldl (Device.raiseReplayed · 1) (w.updPanel p Panel.fence) := by
    unfold Device.fencePanel
    dsimp only
    rw [hqueues, hstalled]
    rfl
  have herr : w.err = d.err := hw.err
  obtain ⟨e, he, hticket, hwritten⟩ := foldl_raiseReplayed_eq faults (w.updPanel p Panel.fence) 1
  rw [updPanel_err, herr] at hticket hwritten
  rw [hfence, he]
  refine ⟨?_, ?_, fun hspool o ho => ?_, fun hgeneral => ?_, hticket, hwritten⟩
  · exact hw.updPanel_records p Panel.fence e
  · have hpanel : ({ w.updPanel p Panel.fence with err := e } : Device).panel p = (w.panel p).fence := updPanel_panel w p _
    rw [hpanel, hw.panel p]
    rfl
  · refine (updPanel_other w ho _).trans (writeBack_other (fun l hl => ?_))
    exact hspool l hl ▸ ho.symm
  · have hcount : faults.length ≤ 2 := faultsOf_length _ _
    obtain ⟨⟨l, hq, hl⟩, hg⟩ := foldl_raiseReplayed (l := faults) (d := w.updPanel p Panel.fence) 1
      (show w.err.general + _ ≤ 64 by rw [herr]; omega)
    rw [he, updPanel_err, herr] at hq hg
    exact ⟨⟨l, hq, hl.trans hcount⟩, hg.trans (by omega)⟩

/-! ### Writing records (R633) -/

/-- The device after records were written: the records, the host side, the hub's counters and the draws may differ. -/
structure Device.RecordsOut (d e : Device) : Prop where
  eq : e = { d with fresh := e.fresh, err := e.err, hostMem := e.hostMem, host := e.host, counters := e.counters }
  fault : e.host.fault = d.host.fault
  link : e.host.link = d.host.link

theorem Device.RecordsOut.refl (d : Device) : d.RecordsOut d := ⟨rfl, rfl, rfl⟩

theorem Device.RecordsOut.trans {d e f : Device} (h : d.RecordsOut e) (k : e.RecordsOut f) : d.RecordsOut f where
  eq := by rw [k.eq, h.eq]
  fault := k.fault.trans h.fault
  link := k.link.trans h.link

theorem countHub_recordsOut (d : Device) (e : PmcEvent) (n : Nat) : d.RecordsOut (d.countHub e n) := by
  unfold Device.countHub
  split <;> exact ⟨rfl, rfl, rfl⟩

theorem sendMsg_recordsOut (d : Device) (v : Fin 11) : d.RecordsOut (d.sendMsg v) := by
  unfold Device.sendMsg
  split <;> exact ⟨rfl, rfl, rfl⟩

theorem translate_fault (h : HostLink) (a n : Nat) : (h.translate a n).fault = h.fault ∧ (h.translate a n).link = h.link := by
  unfold HostLink.translate
  split <;> exact ⟨rfl, rfl⟩

theorem hostPut_recordsOut (d : Device) (relaxed : Bool) (a : Nat) (bs : List Byte) : d.RecordsOut (d.hostPut relaxed a bs) := by
  unfold Device.hostPut
  split
  · obtain ⟨hfault, hlink⟩ := translate_fault (d.countHub { code := 0x101 } (ceilDiv (a % 64 + bs.length) 64)).host a bs.length
    exact (countHub_recordsOut d _ _).trans ⟨rfl, hfault, hlink⟩
  · exact ⟨rfl, rfl, rfl⟩
  · exact .refl d

theorem raise_recordsOut (d : Device) (r : ErrRec) : d.RecordsOut (d.raise r) := by
  obtain ⟨e, he⟩ := raise_eq d r
  rw [he]
  exact ⟨rfl, rfl, rfl⟩

theorem reportLost_recordsOut (d : Device) : d.RecordsOut d.reportLost := by
  unfold Device.reportLost
  dsimp only
  split
  · exact .refl d
  · refine Device.RecordsOut.trans ?_ (raise_recordsOut _ _)
    exact ⟨rfl, rfl, rfl⟩

theorem writeRecord_recordsOut (d : Device) : d.RecordsOut d.writeRecord := by
  unfold Device.writeRecord
  split
  · exact .refl d
  · split
    · exact .refl d
    · refine Device.RecordsOut.trans ?_ (reportLost_recordsOut _)
      refine Device.RecordsOut.trans ?_ (sendMsg_recordsOut _ _)
      refine Device.RecordsOut.trans ?_ (countHub_recordsOut _ _ _)
      refine Device.RecordsOut.trans ?_ (hostPut_recordsOut _ _ _ _)
      exact ⟨rfl, rfl, rfl⟩

theorem drainErr_recordsOut (d : Device) : d.RecordsOut d.drainErr :=
  List.foldlRecOn _ _ (.refl d) (fun _ h _ _ => h.trans (writeRecord_recordsOut _))

theorem writeRecord_closed {d : Device} (h : d.errOpen = false) : d.writeRecord = d := by
  unfold Device.writeRecord
  split
  · rfl
  · exact if_pos (by rw [h]; rfl)

theorem drainErr_closed {d : Device} (h : d.errOpen = false) : d.drainErr = d :=
  foldl_fixed_mem (fun _ _ => writeRecord_closed h)

theorem errOpen_disabled {d : Device} (h : d.enabled = false) : d.errOpen = false := by
  unfold Device.errOpen
  rw [h]
  rfl

/-! ### A reset begins, and goes on (R661) -/

/-- A stamped record keeps its outcome. -/
theorem stampRec_outcome (d : Device) (r : ErrRec) : (d.stampRec r).outcome = r.outcome := by
  have hredact (q : ErrRec) : (redact q).outcome = q.outcome := by
    unfold redact
    split
    · rfl
    · split <;> rfl
  unfold Device.stampRec
  dsimp only
  split
  · rfl
  · split
    · exact hredact _
    · rfl

/-- The panel when its reset begins: the reset waits for the record with this ticket. -/
def Panel.begins (q : Panel) (ticket : Nat) (r : ErrRec) (pos : Nat) : Panel :=
  { q with
    state := .fenced
    resets := satTo 16 (q.resets + 1)
    lastCause := r.reason
    suspects := 0
    resetRun := some ⟨ticket, r.reason, r.ctx, pos, 0⟩ }

theorem Panel.begins_eq {q o : Panel} {a : ArrayState} (h : q = { o with mem := q.mem, pmc := q.pmc, array := a }) (ticket : Nat) (r : ErrRec)
    (pos : Nat) : q.begins ticket r pos = ({ o with mem := q.mem, pmc := q.pmc, array := a } : Panel).begins ticket r pos := by
  rw [← h]

/-- A panel's reset up to the write of its record, for a panel whose stacks are to be taken as sound. -/
def Device.beginReset (d : Device) (p : PanelId) (r : ErrRec) : Device :=
  let e := ((d.fencePanel p).raiseNeeded { r with panel := p.val, outcome := 3 }).1
  let window := windowOf e.now 15 e.reset.panelWindow ++ [e.now]
  ({ e with reset := { e.reset with
      panelWindow := window
      outDue := e.reset.outDue.or (if 3 ≤ window.length && e.escalationCode.isNone then some p else none) } }).updPanel p (fun q => q.begins (d.fencePanel p).err.nextTicket r d.position)

theorem maskStacks_zero : maskStacks 0 = [] := by decide

theorem panelReset_begins {d : Device} {p : PanelId} (r : ErrRec) (hidle : (d.panel p).state = .idle) (hwarm : d.reset.warm = none) :
    d.panelReset p r 0 = (d.beginReset p r).drainErr.panelGoOn p := by
  unfold Device.panelReset
  rw [if_neg (by rw [hidle, hwarm]; exact Bool.false_ne_true)]
  simp only [maskStacks_zero, List.foldl_nil, Device.beginReset, Panel.begins, Device.raiseNeeded]
/-- What a reset has done when its record is to be written. -/
structure Device.ResetBegun (d e : Device) (p : PanelId) (r : ErrRec) : Prop where
  eq : e = { d with
    panels := e.panels, poison := e.poison, faulty := e.faulty, lostStacks := e.lostStacks, err := e.err
    reset := { d.reset with panelWindow := windowOf d.now 15 d.reset.panelWindow ++ [d.now], outDue := e.reset.outDue } }
  panel : e.panel p = { d.panel p with
    mem := (e.panel p).mem, pmc := (e.panel p).pmc, array := (d.panel p).array.without (fun _ => true)
    state := .fenced, resets := satTo 16 ((d.panel p).resets + 1), lastCause := r.reason, suspects := 0
    resetRun := some ⟨d.err.nextTicket, r.reason, r.ctx, d.position, 0⟩ }
  others : (∀ l ∈ (d.panel p).mem.spool, panelOf (l.unit * 256) = p) → ∀ o, o ≠ p → e.panel o = d.panel o
  written : e.err.written = d.err.written
  records : d.err.general ≤ 61 → e.err.general ≤ d.err.general + 3 ∧
    ∃ l x k, e.err.queue = d.err.queue ++ l ++ [⟨x, false, some k⟩] ∧ x.reason = r.reason ∧ x.panel = p.val ∧ x.outcome = 3

/-- A record that a completion needs takes the next ticket. -/
theorem raiseNeeded_wrote (d : Device) (r : ErrRec) : ∃ e, (d.raiseNeeded r).1 = { d with err := e } ∧ e.written = d.err.written ∧
    (d.err.general < 64 → e.queue = d.err.queue ++ [⟨d.stampRec r, false, some d.err.nextTicket⟩] ∧ e.general ≤ d.err.general + 1) := by
  unfold Device.raiseNeeded Device.enqueueRec
  dsimp only
  split
  next h => exact ⟨_, rfl, rfl, fun _ => ⟨rfl, general_append _ _⟩⟩
  next h => exact ⟨_, rfl, rfl, fun h' => absurd h' h⟩

theorem beginReset_begun {d : Device} {p : PanelId} (r : ErrRec) (hqueues : (d.panel p).mem.queues = []) (hstalled : (d.panel p).mem.stalled = []) :
    d.ResetBegun (d.beginReset p r) p r := by
  obtain ⟨heq, hpanel, hothers, hrecords, hticket, hwritten⟩ := fencePanel_fenced hqueues hstalled
  unfold Device.beginReset
  generalize d.fencePanel p = f at heq hpanel hothers hrecords hticket hwritten ⊢
  obtain ⟨e, he, hkept, hqueued⟩ := raiseNeeded_wrote f { r with panel := p.val, outcome := 3 }
  rw [he]
  dsimp only
  refine ⟨?_, ?_, fun hspool o ho => ?_, hkept.trans hwritten, fun hgeneral => ?_⟩
  · rw [heq]
    rfl
  · rw [updPanel_panel, hticket]
    exact Panel.begins_eq hpanel d.err.nextTicket r d.position
  · exact (updPanel_other _ ho _).trans (hothers hspool o ho)
  · obtain ⟨⟨l, hq, hl⟩, hg⟩ := hrecords (by omega)
    obtain ⟨hqueue, hmore⟩ := hqueued (by omega)
    have hsame := stampRec_sameFault f { r with panel := p.val, outcome := 3 }
    refine ⟨hmore.trans (Nat.add_le_add_right hg 1), l, f.stampRec { r with panel := p.val, outcome := 3 }, f.err.nextTicket,
      ?_, hsame.reason, hsame.panel, stampRec_outcome _ _⟩
    exact hqueue.trans (by rw [hq])

/-! ### The logic reset (R650, R661) -/

/-- No crash sample is written: the crash area is outside the stacks and has stopped, and no sample stands. -/
structure Device.SampleLost (d : Device) (p : PanelId) : Prop where
  base : fieldOf d.regs.crashBase 63 21 ≠ 0
  area : d.areaOn 3 = false
  free : d.reset.crashValid.getLsbD p.val = false

theorem crashSample_lost {d : Device} {p : PanelId} (h : d.SampleLost p) (cause ctx : Code) (seq : Option Nat) (pos : Nat) (v : BitVec 4) :
    d.crashSample p cause ctx seq pos false false v = d := by
  have hregion : (false || decide (fieldOf d.regs.crashBase 63 21 * 2 ^ 21 = 0)) = false := by
    have hbase := h.base
    rw [Bool.false_or, decide_eq_false_iff_not]
    omega
  unfold Device.crashSample
  dsimp only
  rw [hregion, h.free, h.area]
  rfl

/-- No context of the panel's is named by a waiting admission command. -/
theorem endCommand_none {d : Device} {f : Context → Bool} (h : ∀ c ∈ d.contexts, f c = false) (status : Code) : d.endCommand f status = d := by
  unfold Device.endCommand
  split
  · rfl
  · refine if_neg (fun hall => ?_)
    rw [Bool.and_eq_true] at hall
    obtain ⟨c, hc, hf⟩ := (Option.any_eq_true _ _).1 hall.2
    exact Bool.false_ne_true ((h c (List.mem_of_find?_eq_some hc)).symm.trans hf)

/-- The reset of a panel without contexts goes on at once. -/
theorem panelGoOn_free {d : Device} {p : PanelId} {r : PanelReset} (hrun : (d.panel p).resetRun = some r) (hsound : r.suspects = 0)
    (hfree : ∀ c ∈ d.contexts, c.panel ≠ p) (hlost : d.SampleLost p) : d.panelGoOn p = (d.updPanel p Panel.logicReset).updateGuard := by
  have hnone : d.contexts.filter (fun c => c.panel = p) = [] :=
    List.filter_eq_nil_iff.2 (fun c hc => by rw [decide_eq_true_eq]; exact hfree c hc)
  unfold Device.panelGoOn
  rw [hrun]
  dsimp only
  rw [hnone, hsound, maskStacks_zero, crashSample_lost hlost]
  dsimp only [List.isEmpty_nil, List.foldl_nil]
  rw [endCommand_none (fun c hc => decide_eq_false (hfree c hc))]
  exact if_neg (by rw [Bool.not_true, Bool.and_false, Bool.false_and]; exact Bool.false_ne_true)

/-- A reset that has come to its logic reset. -/
structure Device.ResetDone (d e : Device) (p : PanelId) (r : ErrRec) : Prop where
  others : (∀ l ∈ (d.panel p).mem.spool, panelOf (l.unit * 256) = p) → ∀ o, o ≠ p → e.panel o = d.panel o
  panel : ∃ m c, e.panel p = (({ d.panel p with mem := m, pmc := c, array := (d.panel p).array.without (fun _ => true) } : Panel).begins
    d.err.nextTicket r d.position).logicReset
  window : e.reset.panelWindow = windowOf d.now 15 d.reset.panelWindow ++ [d.now]
  contexts : e.contexts = d.contexts
  mem : e.mem = d.mem
  records : d.enabled = false → d.err.general ≤ 60 → ∃ l x k, e.err.queue = d.err.queue ++ l ∧ ⟨x, false, some k⟩ ∈ l ∧
    x.reason = r.reason ∧ x.panel = p.val ∧ x.outcome = 3

theorem updateGuard_queue {d : Device} (h : d.err.general < 64) : ∃ l, d.updateGuard.err.queue = d.err.queue ++ l := by
  unfold Device.updateGuard
  dsimp only
  split
  · exact ⟨[], (List.append_nil _).symm⟩
  · refine ⟨_, raise_queue (d := { d with err := { d.err with guardBits := d.guardNow, guardReason := 0x0131 } }) h _⟩

theorem panelReset_done {d : Device} {p : PanelId} (r : ErrRec) (hidle : (d.panel p).state = .idle) (hwarm : d.reset.warm = none)
    (hqueues : (d.panel p).mem.queues = []) (hstalled : (d.panel p).mem.stalled = []) (hfree : ∀ c ∈ d.contexts, c.panel ≠ p)
    (hlost : d.SampleLost p) : d.ResetDone (d.panelReset p r 0) p r := by
  obtain ⟨heq, hpanel, hothers, -, hrecords⟩ := beginReset_begun r hqueues hstalled
  rw [panelReset_begins r hidle hwarm]
  have hout := drainErr_recordsOut (d.beginReset p r)
  have hclosed (h : d.enabled = false) : (d.beginReset p r).drainErr = d.beginReset p r :=
    drainErr_closed (errOpen_disabled (h := by rw [heq]; exact h))
  generalize d.beginReset p r = b at *
  generalize b.drainErr = e at *
  have hpanels (o : PanelId) : e.panel o = b.panel o := by rw [hout.eq]; rfl
  have hlost' : e.SampleLost p := by
    refine ⟨?_, ?_, ?_⟩
    · rw [hout.eq, heq]; exact hlost.base
    · have := hlost.area
      unfold Device.areaOn at this ⊢
      rw [hout.fault, heq]
      exact this
    · rw [hout.eq, heq]; exact hlost.free
  have hcontexts : e.contexts = d.contexts := by rw [hout.eq, heq]
  rw [panelGoOn_free (r := ⟨d.err.nextTicket, r.reason, r.ctx, d.position, 0⟩) (by rw [hpanels, hpanel]) rfl (hcontexts ▸ hfree) hlost']
  obtain ⟨g, hg⟩ := updateGuard_eq (e.updPanel p Panel.logicReset)
  refine ⟨fun hspool o ho => ?_, ⟨(b.panel p).mem, (b.panel p).pmc, ?_⟩, ?_, ?_, ?_, fun hoff hgeneral => ?_⟩
  · rw [hg]
    exact (updPanel_other e ho _).trans ((hpanels o).trans (hothers hspool o ho))
  · rw [hg]
    refine (updPanel_panel e p _).trans ?_
    rw [hpanels, hpanel]
    rfl
  · rw [hg]
    show e.reset.panelWindow = _
    rw [hout.eq, heq]
  · rw [hg]
    exact hcontexts
  · rw [hg]
    show e.mem = _
    rw [hout.eq, heq]
  · obtain ⟨hmore, l, x, k, hqueue, hx⟩ := hrecords (by omega)
    obtain ⟨l', hl'⟩ := updateGuard_queue (d := e.updPanel p Panel.logicReset) (by rw [updPanel_err, hclosed hoff]; omega)
    refine ⟨l ++ [⟨x, false, some k⟩] ++ l', x, k, ?_, ?_, hx⟩
    · rw [hl', updPanel_err, hclosed hoff, hqueue]
      simp only [List.append_assoc]
    · exact List.mem_append_left _ (List.mem_append_right _ (List.mem_singleton.2 rfl))

end Sys2Proof.Machine
end

section
/-! Faults of one panel's logic: tacks that wait for their replay, and the panel resets that a fault starts. -/

namespace Sys2Proof.Machine

/-! ### Tacks held for their replay (R126, R624) -/

theorem Device.Counted.refl (d : Device) (p : PanelId) : d.Counted d p := ⟨rfl, fun _ _ => rfl, rfl, rfl, rfl, rfl⟩

theorem Device.Counted.trans {d e f : Device} {p : PanelId} (h : d.Counted e p) (k : e.Counted f p) : d.Counted f p where
  panel := by rw [k.panel, h.panel]
  others o ho := (k.others o ho).trans (h.others o ho)
  mem := k.mem.trans h.mem
  hostMem := k.hostMem.trans h.hostMem
  err := k.err.trans h.err
  regs := k.regs.trans h.regs

/-- A tack of panel `p` that waits for its replay, of its DMA engine (`dma`) or of its array, where `d` is the device before. -/
structure Device.Withheld (d e : Device) (p : PanelId) (dma : Bool) (t : TackRun) : Prop where
  array : dma = false → (e.panel p).array.run = none ∧ (e.panel p).array.failedTack = some t
  engine : dma = true → (e.panel p).array.dma = none ∧ (e.panel p).array.failedDma = some t
  panel : e.panel p = { d.panel p with array := (e.panel p).array, pmc := (e.panel p).pmc, replayTacks := (e.panel p).replayTacks }
  replays : (e.panel p).replayTacks.length ≤ (d.panel p).replayTacks.length + 1
  others : ∀ o, o ≠ p → e.panel o = d.panel o
  mem : e.mem = d.mem
  err : e.err = d.err
  regs : e.regs = d.regs

/-- The array without the tacks `gone`; `rest` still drains. -/
def ArrayState.dropped (a : ArrayState) (gone : List TackRun) (rest : Option TackRun) : ArrayState :=
  { gone.foldl ArrayState.discardTack a with run := none, drain := rest, shadow := { a.shadow with tile := none }, shadowReady := false }

theorem discardArray_drops (d : Device) (p : PanelId) (t : TackRun) : ∃ gone rest e, d.Counted e p ∧
    d.discardArray p t = e.updPanel p (fun q => { q with array := q.array.dropped gone rest }) := by
  unfold Device.discardArray
  dsimp only
  exact ⟨_, _, _, List.foldlRecOn (motive := fun e : Device => d.Counted e p) _ _ (.refl d p)
    (fun e he u _ => he.trans (countDiscarded_counted e p u)), rfl⟩

theorem holdForReplay_withheld (d : Device) (p : PanelId) (dma : Bool) {t : TackRun} (ht : t.replay = false) :
    d.Withheld (d.holdForReplay p dma t) p dma t := by
  have hreplays (l : List Nat) (n : Nat) : ((l ++ [n]).filter (fun k => decide (n < k + 1048576))).length ≤ l.length + 1 :=
    (List.length_filter_le _ _).trans (by rw [List.length_append, List.length_singleton])
  unfold Device.holdForReplay
  dsimp only
  rw [ht]
  cases dma with
  | true =>
    simp only [if_true, Bool.false_eq_true, if_false]
    refine ⟨fun h => absurd h (by decide), fun _ => ?_, ?_, ?_, fun o ho => ?_, rfl, rfl, rfl⟩
    · rw [updPanel_panel, updPanel_panel]
      exact ⟨rfl, rfl⟩
    · rw [updPanel_panel, updPanel_panel]
    · rw [updPanel_panel, updPanel_panel]
      exact hreplays _ _
    · rw [updPanel_other _ ho, updPanel_other _ ho]
  | false =>
    simp only [Bool.false_eq_true, if_false]
    obtain ⟨gone, rest, e, he, hdiscard⟩ := discardArray_drops d p t
    rw [hdiscard]
    have hcount := count_counted (e.updPanel p (fun q => { q with array := q.array.dropped gone rest })) p { code := 0x021, ctx := t.ref.ctx } 1
    have hpanel := hcount.panel
    rw [updPanel_panel, he.panel] at hpanel
    refine ⟨fun _ => ?_, fun h => absurd h (by decide), ?_, ?_, fun o ho => ?_, hcount.mem.trans he.mem, hcount.err.trans he.err,
      hcount.regs.trans he.regs⟩
    · rw [updPanel_panel, updPanel_panel, hpanel]
      exact ⟨rfl, rfl⟩
    · rw [updPanel_panel, updPanel_panel, hpanel]
    · rw [updPanel_panel, updPanel_panel, hpanel]
      exact hreplays _ _
    · rw [updPanel_other _ ho, updPanel_other _ ho, hcount.others o ho, updPanel_other _ ho, he.others o ho]

/-- A first failure within the replay rate waits for its replay with the record of its failure. -/
theorem tackFailed_waits {d : Device} {p : PanelId} {t : TackRun} (dma : Bool) (ht : t.replay = false)
    (hrate : (d.panel p).replayTacks.length + 1 ≤ fieldOf d.regs.guardCtl 15 8) (r : ErrRec) (code : Code) :
    ∃ q : ErrRec, q.SameFault { r with panel := p.val } ∧ q.unit = r.unit ∧ d.Withheld (d.tackFailed p dma t r code) p dma { t with fault := some q } := by
  let blamed : ErrRec := { r.blaming (blameDesc t.ref.ctx t.ref.ring t.ref.seq) with panel := p.val }
  have hheld := holdForReplay_withheld d p dma (t := { t with fault := some (d.stampRec blamed) }) ht
  refine ⟨d.stampRec blamed, ?_, stampRec_unit d blamed, ?_⟩
  · obtain ⟨hreason, hmech, hpanel, hsub⟩ := stampRec_sameFault d blamed
    exact ⟨hreason, hmech, hpanel, hsub⟩
  · have hfailed : d.tackFailed p dma t r code =
        (d.holdForReplay p dma { t with fault := some (d.stampRec blamed) }).replayRate p blamed := by
      simp only [Device.tackFailed, ht]
      rfl
    rw [hfailed, replayRate_within (hheld.replays.trans (by rwa [hheld.regs]))]
    exact hheld

/-- A tack that fails in its replay resets its panel. -/
theorem tackFailed_again {d : Device} {p : PanelId} {t : TackRun} (dma : Bool) (ht : t.replay = true) {r : ErrRec} (hmech : r.mech ≠ 1) (code : Code) :
    ∃ q : ErrRec, q.reason = code ∧ d.tackFailed p dma t r code = (d.updPanel p (fun q => q)).panelReset p q 0 := by
  unfold Device.tackFailed
  rw [if_pos ht]
  have hkept : d.updPanel p (fun q => { q with array :=
      if r.mech = 0x01 then { q.array with persistent := satTo 16 (q.array.persistent + 1) } else q.array }) = d.updPanel p (fun q => q) :=
    updPanel_congr (by rw [if_neg hmech])
  exact ⟨_, rfl, congrArg (fun e : Device => e.panelReset p { r.blaming (blameDesc t.ref.ctx t.ref.ring t.ref.seq) with
    panel := p.val, reason := code, attr := r.attr ||| 2 } 0) hkept⟩

/-! ### Panels reset alone (R661) -/

/-- The panel has no context, nobody waits for its stacks, and its reset leaves no sample. -/
structure Device.Alone (d : Device) (p : PanelId) : Prop where
  free : ∀ c ∈ d.contexts, c.panel ≠ p
  queues : (d.panel p).mem.queues = []
  stalled : (d.panel p).mem.stalled = []
  spool : ∀ l ∈ (d.panel p).mem.spool, panelOf (l.unit * 256) = p
  sample : d.SampleLost p

/-- What the reset of a panel with cause `r.reason` leaves. -/
structure Device.ResetOf (d e : Device) (p : PanelId) (cause : Code) : Prop where
  others : ∀ o, o ≠ p → e.panel o = d.panel o
  lastCause : (e.panel p).lastCause = cause
  resets : (e.panel p).resets = satTo 16 ((d.panel p).resets + 1)
  lockstep : (e.panel p).lockstep = (d.panel p).lockstep
  run : (e.panel p).array.run = none
  dma : (e.panel p).array.dma = none
  window : e.reset.panelWindow = windowOf d.now 15 d.reset.panelWindow ++ [d.now]
  record : d.enabled = false → ∃ l x k, e.err.queue = d.err.queue ++ l ∧ ⟨x, false, some k⟩ ∈ l ∧ x.reason = cause ∧ x.panel = p.val ∧ x.outcome = 3

theorem panelReset_alone {d : Device} {p : PanelId} (r : ErrRec) (hidle : (d.panel p).state = .idle) (hwarm : d.reset.warm = none)
    (hgeneral : d.err.general < 60) (h : d.Alone p) : d.ResetOf (d.panelReset p r 0) p r.reason := by
  obtain ⟨hothers, ⟨m, c, hpanel⟩, hwindow, -, -, hrecords⟩ := panelReset_done r hidle hwarm h.queues h.stalled h.free h.sample
  refine ⟨hothers h.spool, ?_, ?_, ?_, ?_, ?_, hwindow, fun hoff => hrecords hoff (by omega)⟩ <;> rw [hpanel] <;> rfl

/-- A panel with another lockstep count is reset alone as well. -/
theorem panelReset_counted {d : Device} {p : PanelId} {f : Panel → Panel} (hf : ∀ q, f q = { q with lockstep := (f q).lockstep }) (r : ErrRec)
    (hidle : (d.panel p).state = .idle) (hwarm : d.reset.warm = none) (hgeneral : d.err.general < 60) (h : d.Alone p) :
    (d.updPanel p f).ResetOf ((d.updPanel p f).panelReset p r 0) p r.reason := by
  have hpanel : (d.updPanel p f).panel p = { d.panel p with lockstep := (f (d.panel p)).lockstep } := (updPanel_panel d p f).trans (hf _)
  refine panelReset_alone r (by rw [hpanel]; exact hidle) hwarm hgeneral ⟨h.free, ?_, ?_, ?_, h.sample.base, h.sample.area, h.sample.free⟩
  · rw [hpanel]; exact h.queues
  · rw [hpanel]; exact h.stalled
  · rw [hpanel]; exact h.spool

/-! ### Residues of reductions and near-memory additions (R624) -/

/-- The reduction whose addition has failed. -/
def Device.residueJob (d : Device) (p : PanelId) (a : Nat) : Option RJob :=
  (d.bucketAt p a).elim (d.allreduceAt p a) (fun b => d.rjob? b.1.id b.2.1.commId (.bucket b.2.2))

/-- The record of a failed addition of a reduction. -/
def RJob.residueRecord (j : RJob) (p : PanelId) (a : Nat) (again : Bool) : ErrRec :=
  ErrRec.blaming
    { reason := 0x0124, mech := 0x04, outcome := if again then 1 else 0, panel := p.val
      unit := match j.exch with
        | .bucket b => b
        | .allreduce _ => 0
      sub := j.comm.slot, addr := a } (blameDesc j.ctx j.ring j.seq)

theorem reduceResidueFail_none {d : Device} {p : PanelId} {a : Nat} (again : Bool) (h : d.residueJob p a = none) : d.reduceResidueFail p a again = d := by
  unfold Device.residueJob at h
  unfold Device.reduceResidueFail
  cases hbucket : d.bucketAt p a with
  | none =>
    rw [hbucket, Option.elim_none] at h
    rw [h]
  | some b =>
    rw [hbucket, Option.elim_some] at h
    dsimp only
    rw [h]

theorem reduceResidueFail_some {d : Device} {p : PanelId} {a : Nat} {j : RJob} (again : Bool) (h : d.residueJob p a = some j) :
    d.reduceResidueFail p a again = if again then ((d.raise (j.residueRecord p a again)).reductionFailed j 0x0312).settle
      else d.raise (j.residueRecord p a again) := by
  unfold Device.residueJob at h
  unfold Device.reduceResidueFail
  cases hbucket : d.bucketAt p a with
  | none =>
    rw [hbucket, Option.elim_none] at h
    rw [h]
    rfl
  | some b =>
    rw [hbucket, Option.elim_some] at h
    dsimp only
    rw [h]
    rfl

/-- Only a record of the host link or of the power and reset controllers loses its address when it is redacted. -/
theorem stampRec_addr (d : Device) {r : ErrRec} (h : r.mech ≠ 0x11) (h' : r.mech ≠ 0x10) : (d.stampRec r).addr = r.addr := by
  have hredact (q : ErrRec) (hq : q.mech = r.mech) : (redact q).addr = q.addr := by
    unfold redact
    split
    · rfl
    · rw [hq]
      simp only [h, h', decide_false, Bool.false_and, Bool.or_self, Bool.false_eq_true, if_false]
  unfold Device.stampRec
  dsimp only
  split
  · rfl
  · split
    · exact hredact _ rfl
    · rfl

theorem poisonAccesses_poison {d : Device} {acc : List Nat} {a : Nat} (h : a ∈ acc) : (d.poisonAccesses acc).isPoison a = true := by
  have hmem : a ∈ d.poison ++ acc.filter (fun a => !d.poison.contains a) := by
    by_cases hold : a ∈ d.poison
    · exact List.mem_append_left _ hold
    · refine List.mem_append_right _ (List.mem_filter.2 ⟨h, ?_⟩)
      rw [Bool.not_eq_true', List.contains_eq_mem, decide_eq_false_iff_not]
      exact hold
  exact Bool.or_eq_true_iff.2 (.inl (List.contains_iff_mem.2 hmem))

/-- One poisoned access: the Spool lines of its panel alone show it. -/
theorem poisonStored_one (d : Device) (a : Nat) : ∃ f, d.poisonStored [a] = (d.poisonAccesses [a]).updPanel (panelOf (a * 64)) f := by
  have hone : ([a].map (fun a => panelOf (a * 64))).eraseDups = [panelOf (a * 64)] := by
    rw [List.map_singleton, List.eraseDups_cons, List.filter_nil, List.eraseDups_nil]
  unfold Device.poisonStored
  dsimp only
  rw [hone]
  dsimp only [List.foldl_cons, List.foldl_nil]
  exact ⟨_, rfl⟩

theorem seamResidueFail_some {d : Device} {p : PanelId} {t : TackRun} (h : (d.panel p).array.oldest = some t) (stage lane : Nat) :
    d.seamResidueFail p stage lane = d.tackFailed p false t
      { reason := 0x0122, mech := 0x03, outcome := 0, unit := stage, sub := lane, detail := if t.replay then 2 else 1 } 0x0122 := by
  unfold Device.seamResidueFail
  rw [h]

theorem seamResidueFail_none {d : Device} {p : PanelId} (h : (d.panel p).array.oldest = none) (stage lane : Nat) :
    d.seamResidueFail p stage lane = d := by
  unfold Device.seamResidueFail
  rw [h]

/-- The record of a failed near-memory addition. -/
def Device.nearmemRecord (d : Device) (p : PanelId) (mpa : Nat) (again : Bool) : ErrRec :=
  { reason := 0x0132, mech := 0x05, outcome := if again then 1 else 0, panel := p.val, unit := 4 * p.val + (interleave (ppaOf mpa)).stack
    sub := (interleave (ppaOf mpa)).channel, addr := mpa, ctx := ((d.homeOwner p mpa).map (fun c => c.id)).getD 0 }

theorem nearmemResidueFail_again (d : Device) (p : PanelId) (mpa : Nat) :
    d.nearmemResidueFail p mpa true = (d.raise (d.nearmemRecord p mpa true)).poisonStored [mpa / 64] := rfl

theorem nearmemResidueFail_once (d : Device) (p : PanelId) (mpa : Nat) :
    d.nearmemResidueFail p mpa false = d.raise (d.nearmemRecord p mpa false) := rfl

theorem seqLockstep_resets (d : Device) (p : PanelId) (output : Nat) (pc : BitVec 64) : ∃ r : ErrRec, r.reason = 0x0126 ∧
    d.seqLockstep p output pc = (d.updPanel p (fun q => { q with lockstep := satTo 8 (q.lockstep + 1) })).panelReset p r 0 := ⟨_, rfl, rfl⟩

theorem yokeRetry_panel (d : Device) (p : PanelId) : ∃ r : ErrRec, r.reason = 0x0125 ∧ d.yokeRetry ⟨p.val, by omega⟩ = d.panelReset p r 0 :=
  ⟨_, rfl, dif_pos p.isLt⟩

/-- The register file's place of a panel's register. -/
theorem regPlace_panel (p : PanelId) (off : Nat) : ∃ o, regPlace (0x1000000 + p.val * 0x100000 + 8 * (off % 0x20000)) = .panel p o := by
  have hp := p.isLt
  have hoff := Nat.mod_lt off (show 0 < 0x20000 by decide)
  have hpanel : (0x1000000 + p.val * 0x100000 + 8 * (off % 0x20000) - 0x1000000) / 0x100000 = p.val := by omega
  unfold regPlace
  rw [if_neg (by omega), if_pos (by rw [Bool.and_eq_true, decide_eq_true_eq, decide_eq_true_eq]; omega), hpanel]
  exact ⟨_, congrArg (RegPlace.panel · _) (Fin.ext (Nat.mod_eq_of_lt hp))⟩

theorem cfgShadowCheck_panel {s : State} (hrails : s.pins.railsOn = true) {p : PanelId} {o k : Nat} (hplace : regPlace o = .panel p k)
    (flipped : BitVec 64) :
    exec (.cfgShadowCheck (some (o, flipped))) s = .next { s with dev := s.dev.panelReset p (s.configFault o flipped 0x0129 3) 0 } := by
  have hcheck : s.shadowCheck (some (o, flipped)) = s.onDev (fun d => d.panelReset p (s.configFault o flipped 0x0129 3) 0) := by
    unfold State.shadowCheck
    simp only [hrails, Bool.not_true, Bool.false_eq_true, if_false]
    rw [hplace]
  exact congrArg Host.Outcome.next hcheck

theorem selftest_unseen {s : State} (hrails : s.pins.railsOn = true) (p : PanelId) :
    exec (.checkerSelftest (.seamResidue p) false) s =
      .next { s with dev := s.dev.panelReset p { reason := 0x012E, mech := 0x03, outcome := 3 } 0 } :=
  congrArg Host.Outcome.next (if_pos hrails)

theorem selftest_seen {s : State} (p : PanelId) : exec (.checkerSelftest (.seamResidue p) true) s = .next s :=
  congrArg Host.Outcome.next (ite_self s)

/-- Settles O44: the faults of one panel's logic. -/
theorem panelFaults : Obligations.PanelFaults := by
  intro s p t stage lane output pc flipped off hrails hwarm hidle hgeneral d q others fenced alone
  have hof (h : alone) : d.Alone p := by
    obtain ⟨hfree, hqueues, hstalled, hspool, hvalid, hbase, harea⟩ := h
    exact ⟨hfree, hqueues, hstalled, hspool, hbase, harea, hvalid⟩
  have hfences {e e' : Device} {r : ErrRec} {cause : Code} (hreset : e.ResetOf e' p r.reason) (he : d.OnlyPanel e p)
      (hcounted : e.panel p = { q with lockstep := (e.panel p).lockstep }) (hcause : r.reason = cause) : fenced { s with dev := e' } cause := by
    obtain ⟨heq, hothers⟩ := he
    refine ⟨⟨rfl, fun o ho => (hreset.others o ho).trans (hothers o ho)⟩, hreset.lastCause.trans hcause, ?_, hreset.run, hreset.dma, ?_, ?_⟩
    · exact hreset.resets.trans (by rw [hcounted])
    · exact hreset.window.trans (by rw [heq])
    · intro hoff
      have hrecord := hreset.record (by rw [heq]; exact hoff)
      rw [hcause, show e.err = d.err by rw [heq]] at hrecord
      exact hrecord
  have hresets {c : Instr} {f : Device → Device} {r : ErrRec} {cause : Code} (hexec : exec c s = s.run f) (hcause : r.reason = cause)
      (h : f d = d.panelReset p r 0) (halone : alone) : Completes c s (fun u => fenced u cause) :=
    ⟨_, exec_run hexec hrails h, hfences (panelReset_alone r hidle hwarm hgeneral (hof halone)) ⟨rfl, fun _ _ => rfl⟩ rfl hcause⟩
  have hlock {e e' : Device} {cause : Code} (hreset : e.ResetOf e' p cause) : (({ s with dev := e' } : State).dev.panel p).lockstep = (e.panel p).lockstep :=
    hreset.lockstep
  have hwrite {r : ErrRec} : ∃ e, d.raise r = { d with err := e } ∧ e.queue = d.err.queue ++ [⟨d.stampRec r, false, none⟩] := by
    obtain ⟨e, he⟩ := raise_eq d r
    have hqueue := raise_queue (d := d) (Nat.lt_of_lt_of_le hgeneral (by decide)) r
    rw [he] at hqueue
    exact ⟨e, he, hqueue⟩
  refine ⟨fun hold hfirst hrate => ?_, fun hold hagain h => ?_, fun hnone => ?_, fun h => ⟨?_, ?_, ?_, ?_⟩, ?_, rfl, fun mpa again => ?_,
    fun a again => ?_⟩
  · obtain ⟨r, hsame, hunit, hheld⟩ := tackFailed_waits (d := d) (p := p) false hfirst hrate
      { reason := 0x0122, mech := 0x03, outcome := 0, unit := stage, sub := lane, detail := if t.replay then 2 else 1 } 0x0122
    obtain ⟨hrun, hfailed⟩ := hheld.array rfl
    refine ⟨_, exec_run (c := .seamResidueFail p stage lane) (f := fun d => d.seamResidueFail p stage lane) rfl hrails (seamResidueFail_some hold stage lane),
      ⟨rfl, hheld.others⟩, hrun, hheld.mem, hheld.err, _, hfailed, rfl, r, rfl, hsame.reason, hsame.mech, hunit, hsame.sub⟩
  · obtain ⟨r, hreason, hreset⟩ := tackFailed_again (d := d) (p := p) false hagain (r := { reason := 0x0122, mech := 0x03, outcome := 0, unit := stage, sub := lane, detail := if t.replay then 2 else 1 })
      (show (0x03 : Nat) ≠ 1 by decide) 0x0122
    refine ⟨_, exec_run (c := .seamResidueFail p stage lane) (f := fun d => d.seamResidueFail p stage lane) rfl hrails
      ((seamResidueFail_some hold stage lane).trans hreset), ?_⟩
    exact hfences (panelReset_counted (fun _ => rfl) r hidle hwarm hgeneral (hof h)) (updPanel_onlyPanel d p _) (by rw [updPanel_panel]) hreason
  · exact exec_run rfl hrails (seamResidueFail_none hnone stage lane)
  · obtain ⟨r, hreason, hreset⟩ := seqLockstep_resets d p output pc
    have hdone := panelReset_counted (f := fun q => { q with lockstep := satTo 8 (q.lockstep + 1) }) (fun _ => rfl) r hidle hwarm hgeneral (hof h)
    refine ⟨_, exec_run (c := .seqLockstepMismatch p output pc) (f := fun d => d.seqLockstep p output pc) rfl hrails hreset,
      hfences hdone (updPanel_onlyPanel d p _) (by rw [updPanel_panel]) hreason, ?_⟩
    exact (hlock hdone).trans (congrArg Panel.lockstep (updPanel_panel d p _))
  · obtain ⟨k, hplace⟩ := regPlace_panel p off
    exact ⟨_, cfgShadowCheck_panel hrails hplace flipped, hfences (panelReset_alone _ hidle hwarm hgeneral (hof h)) ⟨rfl, fun _ _ => rfl⟩ rfl rfl⟩
  · exact ⟨_, selftest_unseen hrails p, hfences (panelReset_alone _ hidle hwarm hgeneral (hof h)) ⟨rfl, fun _ _ => rfl⟩ rfl rfl⟩
  · obtain ⟨r, hreason, hreset⟩ := yokeRetry_panel d p
    exact hresets rfl hreason hreset h
  · exact selftest_seen p
  · obtain ⟨e, he, hqueue⟩ := hwrite (r := d.nearmemRecord p mpa again)
    have htold : ∃ x, e.queue = d.err.queue ++ [⟨x, false, none⟩] ∧ x.reason = 0x0132 ∧ x.addr = mpa :=
      ⟨_, hqueue, (stampRec_sameFault d _).reason, stampRec_addr d (show (0x05 : Nat) ≠ 0x11 by decide) (show (0x05 : Nat) ≠ 0x10 by decide)⟩
    cases again with
    | false =>
      have hfail := nearmemResidueFail_once d p mpa
      rw [he] at hfail
      exact ⟨_, exec_run (c := .nearmemResidueFail p mpa false) (f := fun d => d.nearmemResidueFail p mpa false) rfl hrails hfail,
        rfl, rfl, rfl, fun _ _ => rfl, fun h => absurd h (by decide), fun _ => ⟨rfl, rfl⟩, htold⟩
    | true =>
      have hfail := nearmemResidueFail_again d p mpa
      rw [he] at hfail
      obtain ⟨f, hf⟩ := poisonStored_one { d with err := e } (mpa / 64)
      rw [hf] at hfail
      refine ⟨_, exec_run (c := .nearmemResidueFail p mpa true) (f := fun d => d.nearmemResidueFail p mpa true) rfl hrails hfail,
        rfl, rfl, rfl, fun o ho => updPanel_other _ ho f, fun _ => ?_, fun h => absurd h (by decide), htold⟩
      exact poisonAccesses_poison (List.mem_singleton.2 rfl)
  · intro job
    have hjob : job = d.residueJob p a := by
      unfold Device.residueJob
      cases hbucket : d.bucketAt p a <;> simp only [job, hbucket] <;> rfl
    refine ⟨fun hnone => exec_run rfl hrails (reduceResidueFail_none again (hjob ▸ hnone)), fun j hj => ?_⟩
    obtain ⟨e, he, hqueue⟩ := hwrite (r := j.residueRecord p a again)
    have hsame := stampRec_sameFault d (j.residueRecord p a again)
    have hfail := reduceResidueFail_some again (hjob.symm.trans hj)
    rw [he] at hfail
    refine ⟨{ d with err := e }, rfl, ⟨_, hqueue, hsame.reason, hsame.mech, stampRec_outcome _ _, stampRec_addr _ (show (0x04 : Nat) ≠ 0x11 by decide) (show (0x04 : Nat) ≠ 0x10 by decide), hsame.sub⟩,
      exec_run rfl hrails hfail⟩

end Sys2Proof.Machine
end

section
/-! Words that ECC finds wrong: what each structure does about them. -/

namespace Sys2Proof.Machine

/-! ### Counted words -/

/-- A word that ECC could not correct is counted (R626). -/
def Device.countWord (d : Device) (p : PanelId) : Device := d.updPanel p (fun q => { q with sramUncorr := satTo 8 (q.sramUncorr + 1) })

/-- The record of such a word. -/
def sramRecord (place : SramPlace) (p : PanelId) (bank addr outcome : Nat) (ctx : Code) : ErrRec :=
  { reason := 0x0121, mech := 0x02, outcome := outcome, panel := p.val, unit := place.code, sub := bank, addr := addr
    detail := 0xFF, ctx := ctx }

theorem countWord_panel (d : Device) (p : PanelId) :
    (d.countWord p).panel p = { d.panel p with sramUncorr := satTo 8 ((d.panel p).sramUncorr + 1) } := updPanel_panel d p _

theorem countWord_onlyPanel (d : Device) (p : PanelId) : d.OnlyPanel (d.countWord p) p := updPanel_onlyPanel d p _

/-- What holds after every uncorrectable word: it is counted, and neither bytes nor another panel changes. -/
structure Device.WordCounted (d e : Device) (p : PanelId) : Prop where
  word : (e.panel p).sramUncorr = satTo 8 ((d.panel p).sramUncorr + 1)
  mem : e.mem = d.mem
  others : ∀ o, o ≠ p → e.panel o = d.panel o

theorem countWord_counted (d : Device) (p : PanelId) : d.WordCounted (d.countWord p) p :=
  ⟨by rw [countWord_panel], rfl, (countWord_onlyPanel d p).2⟩

/-- A step after the count that leaves the panels and the bytes. -/
theorem Device.WordCounted.keep {d e f : Device} {p : PanelId} (h : d.WordCounted e p) (hpanels : f.panels = e.panels) (hmem : f.mem = e.mem) :
    d.WordCounted f p := by
  have hpanel (o : PanelId) : f.panel o = e.panel o := by rw [Device.panel, hpanels]; rfl
  exact ⟨by rw [hpanel]; exact h.word, hmem.trans h.mem, fun o ho => (hpanel o).trans (h.others o ho)⟩

/-- A tack that waits for its replay keeps the count. -/
theorem Device.WordCounted.withheld {d e f : Device} {p : PanelId} {dma : Bool} {t : TackRun} (h : d.WordCounted e p)
    (k : e.Withheld f p dma t) : d.WordCounted f p :=
  ⟨by rw [k.panel]; exact h.word, k.mem.trans h.mem, fun o ho => (k.others o ho).trans (h.others o ho)⟩

/-- The record that tells of an uncorrectable word, at the end of the queue. -/
structure Device.Told (d e : Device) (bank addr outcome : Nat) : Prop where
  record : ∃ r, e.err.queue = d.err.queue ++ [⟨r, false, none⟩] ∧ r.reason = 0x0121 ∧ r.outcome = outcome ∧ r.sub = bank ∧ r.addr = addr

theorem raise_told {d e : Device} {r : ErrRec} {bank addr outcome : Nat} (hgeneral : d.err.general < 60) (herr : e.err = d.err)
    (hreason : r.reason = 0x0121) (hmech : r.mech = 0x02) (houtcome : r.outcome = outcome) (hsub : r.sub = bank) (haddr : r.addr = addr) :
    d.Told (e.raise r) bank addr outcome := by
  have hqueue := raise_queue (d := e) (by rw [herr]; omega) r
  rw [herr] at hqueue
  have hsame := stampRec_sameFault e r
  exact ⟨_, hqueue, hsame.reason.trans hreason, (stampRec_outcome e r).trans houtcome, hsame.sub.trans hsub,
    (stampRec_addr e (by rw [hmech]; decide) (by rw [hmech]; decide)).trans haddr⟩

theorem raise_counted {d e : Device} {p : PanelId} (h : d.WordCounted e p) (r : ErrRec) : d.WordCounted (e.raise r) p :=
  h.keep (raise_panels e r) (raise_mem e r)

/-! ### Corrected words (R640) -/

/-- A corrected event stands in the coalesced records. -/
theorem coalesceIn_mem (r : ErrRec) (l : List ErrRec) :
    ∃ x ∈ coalesceIn r l, x.reason = r.reason ∧ x.mech = r.mech ∧ x.panel = r.panel ∧ x.unit = r.unit := by
  induction l with
  | nil => exact ⟨r, List.mem_singleton.2 rfl, rfl, rfl, rfl, rfl⟩
  | cons x xs ih =>
    unfold coalesceIn
    split
    next hsame =>
      simp only [sameCoalesced, Bool.and_eq_true, decide_eq_true_eq] at hsame
      obtain ⟨⟨⟨hreason, hmech⟩, hpanel⟩, hunit⟩ := hsame
      exact ⟨_, List.mem_cons_self, hreason, hmech, hpanel, hunit⟩
    next =>
      obtain ⟨y, hy, heq⟩ := ih
      exact ⟨y, List.mem_cons_of_mem _ hy, heq⟩

/-- A coalesced event is held, and nothing but the held records changes. -/
theorem raiseCoalesced_held (d : Device) (r : ErrRec) : ∃ e, d.raiseCoalesced r = { d with err := e } ∧ e.queue = d.err.queue ∧
    ∃ x ∈ e.coalesced, x.reason = r.reason ∧ x.panel = r.panel ∧ x.unit = r.unit := by
  obtain ⟨x, hx, hreason, -, hpanel, hunit⟩ := coalesceIn_mem (d.stampRec r) d.err.coalesced
  have hsame := stampRec_sameFault d r
  exact ⟨_, rfl, rfl, x, hx, hreason.trans hsame.reason, hpanel.trans hsame.panel, hunit.trans (stampRec_unit d r)⟩

/-! ### Each structure's own handling (R626) -/

section
variable {d : Device} {p : PanelId} {bank addr : Nat}

theorem sramUncorrectable_spoolLine {l : SpoolLine} (hspool : (d.panel p).mem.spool = [l]) :
    d.sramUncorrectable p (.spoolLine l.unit) bank addr =
      let e := (d.countWord p).spoolDrop (l.unit * 256) 256
      if l.dirty then (e.raise (sramRecord (.spoolLine l.unit) p bank addr 1 0)).poisonAccesses (accessesOf (l.unit * 256) 256)
      else e.raise (sramRecord (.spoolLine l.unit) p bank addr 0 0) := by
  have hline : (((d.countWord p).panel p).mem.spool.find? (fun x => x.unit = l.unit)) = some l := by
    rw [countWord_panel, hspool]
    exact List.find?_cons_of_pos (decide_eq_true rfl)
  unfold Device.sramUncorrectable
  dsimp only
  rw [show d.updPanel p _ = d.countWord p from rfl, hline]
  rfl

/-- The dropped line is gone from its Spool. -/
theorem spoolDrop_only {l : SpoolLine} (hspool : (d.panel p).mem.spool = [l]) (hp : panelOf (l.unit * 256) = p) :
    let e := (d.countWord p).spoolDrop (l.unit * 256) 256
    d.WordCounted e p ∧ (e.panel p).mem.spool = [] := by
  have hoverlap : rangesOverlap (l.unit * 256) 256 (l.unit * 256) 256 = true := by
    unfold rangesOverlap
    simp
  intro e
  have hpanel : e.panel p = ((d.countWord p).panel p).updSpool (fun ls => ls.filter (fun x => !rangesOverlap (l.unit * 256) 256 (x.unit * 256) 256)) := by
    show ((d.countWord p).spoolDrop (l.unit * 256) 256).panel p = _
    unfold Device.spoolDrop
    rw [hp]
    exact updPanel_panel _ p _
  have hothers (o : PanelId) (ho : o ≠ p) : e.panel o = d.panel o := by
    refine Eq.trans ?_ ((countWord_counted d p).others o ho)
    exact updPanel_other _ (hp ▸ ho) _
  refine ⟨⟨?_, rfl, hothers⟩, ?_⟩
  · rw [hpanel, countWord_panel]
    rfl
  · rw [hpanel, countWord_panel]
    show (d.panel p).mem.spool.filter _ = []
    rw [hspool, List.filter_cons_of_neg (by rw [hoverlap]; decide), List.filter_nil]

/-- A word of the array's memories with a tack under way discards the oldest one. -/
theorem sramUncorrectable_oldest {place : SramPlace} (hplace : place = .accUncommitted ∨ place = .seamCommit) :
    ((d.panel p).array.oldest = none → d.sramUncorrectable p place bank addr = (d.countWord p).raise (sramRecord place p bank addr 1 0)) ∧
    ∀ t, (d.panel p).array.oldest = some t →
      d.sramUncorrectable p place bank addr = (d.countWord p).tackFailed p false t (sramRecord place p bank addr 0 0) 0x0121 := by
  have harray : ((d.countWord p).panel p).array.oldest = (d.panel p).array.oldest := by rw [countWord_panel]
  obtain rfl | rfl := hplace <;>
  · unfold Device.sramUncorrectable
    dsimp only
    rw [show d.updPanel p _ = d.countWord p from rfl, harray]
    exact ⟨fun h => by rw [h]; rfl, fun t h => by rw [h]; rfl⟩

theorem sramUncorrectable_dma :
    ((d.panel p).array.dma = none → d.sramUncorrectable p .dmaBuffer bank addr = (d.countWord p).raise (sramRecord .dmaBuffer p bank addr 1 0)) ∧
    ∀ t, (d.panel p).array.dma = some t →
      d.sramUncorrectable p .dmaBuffer bank addr = (d.countWord p).tackFailed p true t (sramRecord .dmaBuffer p bank addr 0 0) 0x0121 := by
  have harray : ((d.countWord p).panel p).array.dma = (d.panel p).array.dma := by rw [countWord_panel]
  unfold Device.sramUncorrectable
  dsimp only
  rw [show d.updPanel p _ = d.countWord p from rfl, harray]
  exact ⟨fun h => by rw [h]; rfl, fun t h => by rw [h]; rfl⟩

theorem sramUncorrectable_accCommitted :
    (((d.panel p).array.slots[0].pass).or (d.panel p).array.slots[1].pass = none →
      d.sramUncorrectable p .accCommitted bank addr = (d.countWord p).raise (sramRecord .accCommitted p bank addr 1 0)) ∧
    ∀ q, ((d.panel p).array.slots[0].pass).or (d.panel p).array.slots[1].pass = some q →
      d.sramUncorrectable p .accCommitted bank addr = (d.countWord p).failWithRecord q.ref (sramRecord .accCommitted p bank addr 1 0) := by
  have harray : ((d.countWord p).panel p).array = (d.panel p).array := by rw [countWord_panel]
  unfold Device.sramUncorrectable
  dsimp only
  rw [show d.updPanel p _ = d.countWord p from rfl, harray]
  exact ⟨fun h => by rw [h]; rfl, fun q h => by rw [h]; rfl⟩

theorem sramUncorrectable_bobbinPage {ctx tag : Code} {page : Nat} {c : Context} {e : StashEntry} (hc : d.ctx? ctx = some c)
    (hresident : c.resident = true) (he : c.stash? tag.toNat = some e) :
    d.sramUncorrectable p (.bobbinPage ctx tag page) bank addr =
      if e.spill.isEmpty then ((d.countWord p).updStash ctx tag.toNat (fun e => { e with bad := 65536 * page :: e.bad })).raise
        (sramRecord (.bobbinPage ctx tag page) p bank addr 1 ctx)
      else ((d.countWord p).updStash ctx tag.toNat (fun e => { e with bobbin := false, data := [], bad := [] })).raise
        (sramRecord (.bobbinPage ctx tag page) p bank addr 0 ctx) := by
  have hentry : (((d.countWord p).ctx? ctx).filter (fun c => c.resident)).bind (fun c => c.stash? tag.toNat) = some e := by
    rw [show (d.countWord p).ctx? ctx = d.ctx? ctx from rfl, hc, Option.filter_some, if_pos hresident, Option.bind_some, he]
  unfold Device.sramUncorrectable
  dsimp only
  rw [show d.updPanel p _ = d.countWord p from rfl, hentry]
  rfl

end

/-- A lost packet of another module that answers nobody vanishes. -/
theorem discarded_silent {d : Device} {x : Packet} (hsrc : x.head.srcMod ≠ d.modNum) (hvc : x.body.vc = 2) (code : Code) : d.discarded x code = d := by
  unfold Device.discarded
  rw [if_neg hsrc]
  split
  · rfl
  · rfl
  · rfl
  · rfl
  · exact if_pos hvc

theorem sramUncorrectable_fabricBuffer {d : Device} {p : PanelId} {bank addr : Nat} {n : PortId} {vc : Fin 5} {x : QueuedPacket}
    {rest : List QueuedPacket} (hqueue : (d.port n).queues[vc.val] = x :: rest) (hsrc : x.pkt.head.srcMod ≠ d.modNum) (hvc : x.pkt.body.vc = 2) :
    d.sramUncorrectable p (.fabricBuffer n vc) bank addr =
      ((d.countWord p).raise { sramRecord (.fabricBuffer n vc) p bank addr 1 0 with panel := 0xFF }).updPort n
        (fun t => { t with queues := t.queues.set vc.val rest vc.isLt }) := by
  have hport (r : ErrRec) : ((d.countWord p).raise r).port n = d.port n := by
    rw [Device.port, raise_ports]
    rfl
  have hmod (r : ErrRec) (f : Port → Port) : (((d.countWord p).raise r).updPort n f).modNum = d.modNum := by
    rw [Device.modNum, updPort_regs, raise_regs]
    rfl
  unfold Device.sramUncorrectable
  dsimp only
  rw [show d.updPanel p _ = d.countWord p from rfl, hport, hqueue]
  exact discarded_silent (by rw [hmod]; exact hsrc) hvc 0x0420

theorem sramUncorrectable_yokeBuffer {d : Device} {p : PanelId} {bank addr : Nat} {x : Fin 25 × Packet}
    (hfind : d.fabric.inbox.find? (fun y => crossesYoke p y.1 y.2) = some x) (hsrc : x.2.head.srcMod ≠ d.modNum) (hvc : x.2.body.vc = 2) :
    d.sramUncorrectable p .yokeBuffer bank addr =
      let e := (d.countWord p).raise (sramRecord .yokeBuffer p bank addr 1 0)
      { e with fabric := { d.fabric with inbox := d.fabric.inbox.erase x } } := by
  have hfabric (r : ErrRec) : ((d.countWord p).raise r).fabric = d.fabric := raise_fabric _ r
  have hregs (r : ErrRec) : ((d.countWord p).raise r).regs = d.regs := raise_regs _ r
  unfold Device.sramUncorrectable
  dsimp only
  rw [show d.updPanel p _ = d.countWord p from rfl, hfabric, hfind]
  refine discarded_silent ?_ hvc 0x0420
  rw [Device.modNum, hregs]
  exact hsrc

/-! ### The descriptor of a committed word (R642) -/

/-- A change of the contexts that keeps identifiers and rings keeps the descriptors. -/
theorem desc?_of_ctx {d e : Device} {ctx : Code} (h : (e.ctx? ctx).map (fun c => c.rings) = (d.ctx? ctx).map (fun c => c.rings))
    (n : RingId) (seq : Nat) : e.desc? ctx n seq = d.desc? ctx n seq := by
  have hring (d : Device) : d.ring? ctx n = ((d.ctx? ctx).map (fun c => c.rings)).bind (fun l => l[n.val]?) := by
    unfold Device.ring?
    cases d.ctx? ctx <;> rfl
  unfold Device.desc?
  rw [hring, hring, h]

theorem dropFill_rings (d : Device) (id ctx : Code) (x : Desc) :
    ((d.dropFill id x).ctx? ctx).map (fun c => c.rings) = (d.ctx? ctx).map (fun c => c.rings) := by
  unfold Device.dropFill
  split
  · rfl
  · split
    · unfold Device.releaseStash
      by_cases hctx : ctx = id
      · subst hctx
        rw [updCtx_ctx _ _ (fun c => by split <;> rfl)]
        cases d.ctx? ctx with
        | none => rfl
        | some c =>
          rw [Option.map_some, Option.map_some, Option.map_some]
          split <;> rfl
      · rw [updCtx_other _ hctx (fun c => by split <;> rfl)]
    · rfl

theorem discardRuns_rings (d : Device) (f : DescRef → Bool) (ctx : Code) :
    ((d.discardRuns f).ctx? ctx).map (fun c => c.rings) = (d.ctx? ctx).map (fun c => c.rings) := by
  let kept (c : Context) : Context := if c.saved.isEmpty then c else { c with saved := c.saved.filter (fun s => !f s.pass.ref) }
  have hkept (c : Context) : (kept c).id = c.id ∧ (kept c).rings = c.rings := by
    show (ite _ _ _ : Context).id = _ ∧ (ite _ _ _ : Context).rings = _
    split <;> exact ⟨rfl, rfl⟩
  have hfind (l : List Context) : ((l.map kept).find? (fun c => c.id = ctx)).map (fun c => c.rings) = (l.find? (fun c => c.id = ctx)).map (fun c => c.rings) := by
    rw [List.find?_map, Option.map_map]
    have hp : ((fun c : Context => decide (c.id = ctx)) ∘ kept) = fun c => decide (c.id = ctx) := funext (fun c => by
      rw [Function.comp_apply, (hkept c).1])
    have hg : ((fun c : Context => c.rings) ∘ kept) = fun c => c.rings := funext (fun c => (hkept c).2)
    rw [hp, hg]
  unfold Device.discardRuns
  dsimp only
  obtain ⟨e, he, -⟩ := foldl_raiseReplayed_eq (d.panels.toList.flatMap (fun q => q.array.faultsOf f))
    (({ d with contexts := d.contexts.map kept } : Device).mapPanels (fun _ q => { q with array := q.array.without f })) 1
  exact (congrArg (fun e : Device => (e.ctx? ctx).map (fun c => c.rings)) he).trans (hfind d.contexts)

/-- The descriptor that a record of its own fails with 0x0312. -/
theorem failWithRecord_desc {d : Device} {ref : DescRef} {x : Desc} (r : ErrRec) (h : d.desc? ref.ctx ref.ring ref.seq = some x) :
    ∃ y, (d.failWithRecord ref r).desc? ref.ctx ref.ring ref.seq = some y ∧ y.phase = .finished 0x0312 ∧ y.ticket = some d.err.nextTicket := by
  obtain ⟨ctx, ring, seq⟩ := ref
  obtain rfl : x.seq = seq := by
    obtain ⟨q, -, hq⟩ := Option.bind_eq_some_iff.1 h
    have hseq := List.find?_some hq
    exact of_decide_eq_true hseq
  let b := r.blaming (blameDesc ctx ring x.seq)
  let e := ((d.raiseNeeded b).1.dropFill ctx x).discardRuns (fun q => q = ⟨ctx, ring, x.seq⟩)
  let f (y : Desc) : Desc := { y with phase := .finished 0x0312, ticket := some d.err.nextTicket }
  have hraised : (d.raiseNeeded b).1.desc? ctx ring x.seq = some x := (desc?_of_contexts (raiseNeeded_contexts d b) _ _ _).trans h
  have hkept : e.desc? ctx ring x.seq = some x :=
    (desc?_of_ctx ((discardRuns_rings _ _ _).trans (dropFill_rings _ _ _ _)) _ _).trans hraised
  have hfail : d.failWithRecord ⟨ctx, ring, x.seq⟩ r = e.updDesc ctx ring x.seq f := by
    unfold Device.failWithRecord
    dsimp only
    rw [hraised]
    rfl
  refine ⟨f x, ?_, rfl, rfl⟩
  rw [hfail, updDesc_desc (f := f) (fun _ => rfl), hkept]
  rfl

/-! ### A crash sample leaves the panels' own state (R669) -/

/-- Of every panel only the memory state and the counters may differ, and the contexts are the same. -/
structure Device.PanelsStand (d e : Device) : Prop where
  panel : ∀ o, e.panel o = { d.panel o with mem := (e.panel o).mem, pmc := (e.panel o).pmc }
  contexts : e.contexts = d.contexts

theorem Device.PanelsStand.of_panels {d e : Device} (h : e.panels = d.panels) (h' : e.contexts = d.contexts) : d.PanelsStand e where
  panel o := by rw [show e.panel o = d.panel o by rw [Device.panel, h]; rfl]
  contexts := h'

theorem Device.PanelsStand.trans {d e f : Device} (h : d.PanelsStand e) (k : e.PanelsStand f) : d.PanelsStand f where
  panel o := by rw [k.panel o, h.panel o]
  contexts := k.contexts.trans h.contexts

theorem Device.WroteStacks.stands {d e : Device} (h : d.WroteStacks e) : d.PanelsStand e := ⟨h.panel, by rw [h.eq]⟩

theorem Device.RecordsOut.stands {d e : Device} (h : d.RecordsOut e) : d.PanelsStand e := by
  obtain ⟨heq, -, -⟩ := h
  rw [heq]
  exact .of_panels rfl rfl

theorem Device.PanelsStand.foldl {α : Type} {f : Device → α → Device} (hf : ∀ d a, Device.PanelsStand d (f d a)) (l : List α) (d : Device) :
    d.PanelsStand (l.foldl f d) :=
  List.foldlRecOn l f (.of_panels rfl rfl) (fun _ h a _ => h.trans (hf _ a))

theorem updPanel_stands {d : Device} (p : PanelId) {f : Panel → Panel} (hf : ∀ q, f q = { q with mem := (f q).mem, pmc := (f q).pmc }) :
    d.PanelsStand (d.updPanel p f) where
  panel o := by
    by_cases ho : o = p
    · subst ho
      rw [updPanel_panel]
      exact hf _
    · rw [updPanel_other d ho]
  contexts := rfl

theorem raise_stands (d : Device) (r : ErrRec) : d.PanelsStand (d.raise r) := .of_panels (raise_panels d r) (raise_contexts d r)

theorem yokeFlits_stands (d : Device) (p : PanelId) (n : Nat) (t : Bool) (c : ColourClass) (r : Requester) : d.PanelsStand (d.yokeFlits p n t c r) := by
  unfold Device.yokeFlits
  dsimp only
  split
  · exact .of_panels rfl rfl
  · split
    · exact (count_wroteStacks _ _ _ _).stands.trans (count_wroteStacks _ _ _ _).stands
    · exact (count_wroteStacks _ _ _ _).stands

theorem mergeReads_stands (d : Device) (a n : Nat) (b : Blame) : d.PanelsStand (d.mergeReads a n b).1 :=
  Device.PanelsStand.foldl (fun _ _ => (updPanel_stands _ (fun _ => rfl)).trans (raise_stands _ _)) _ d

theorem writeUnit_stands (d : Device) (a n u : Nat) (bad : List Nat) (h : Hint) (c : ColourClass) (r : Requester) :
    d.PanelsStand (d.writeUnit a n u bad h c r) := by
  unfold Device.writeUnit
  dsimp only
  split
  · exact ((updPanel_stands _ (fun _ => rfl)).trans (stackAccess_wroteStacks _ _ _ _ _ _).stands).trans (stackWritten_wroteStacks _ _ _).stands
  · exact (updPanel_stands _ (fun _ => rfl)).trans (writeBack_wroteStacks _ _).stands

theorem storeMpa_stands (d : Device) (a : Nat) (bs : List Byte) (h : Hint) (c : ColourClass) (r : Requester) (b : Blame) :
    d.PanelsStand (d.storeMpa a bs h c r b) := by
  refine Device.PanelsStand.foldl (fun d s => ?_) _ d
  split
  · exact .of_panels rfl rfl
  · have hread := (yokeFlits_stands d (panelOf s.1) (accessesOf s.1 s.2).length true c r).trans (mergeReads_stands _ s.1 s.2 b)
    refine Device.PanelsStand.trans ?_ (Device.PanelsStand.foldl (fun d u => writeUnit_stands d s.1 s.2 u _ h c r) _ _)
    exact hread.trans (.of_panels rfl rfl)

theorem crashSample_stands (d : Device) (p : PanelId) (cause ctx : Code) (seq : Option Nat) (pos : Nat) (dev inStack : Bool) (v : BitVec 4) :
    d.PanelsStand (d.crashSample p cause ctx seq pos dev inStack v) := by
  have hnoted {e : Device} (x : ResetCtl) (h : d.PanelsStand e) : d.PanelsStand { e with reset := x } := h.trans (.of_panels rfl rfl)
  have hdrawn (n : Nat) : d.PanelsStand { d with fresh := n } := .of_panels rfl rfl
  unfold Device.crashSample
  dsimp only
  split
  · refine Device.PanelsStand.trans ?_ (raise_stands _ _)
    exact hnoted _ (hdrawn _)
  · split
    · exact .of_panels rfl rfl
    · split
      · exact hnoted _ ((hdrawn _).trans (storeMpa_stands _ _ _ _ _ _ _))
      · exact hnoted _ ((hdrawn _).trans (hostPut_recordsOut _ _ _ _).stands)

/-- The reset of a panel without contexts goes on at once, after its crash sample. -/
theorem panelGoOn_soon {d : Device} {p : PanelId} {r : PanelReset} (hrun : (d.panel p).resetRun = some r) (hsound : r.suspects = 0)
    (hfree : ∀ c ∈ d.contexts, c.panel ≠ p) : d.panelGoOn p =
      ((d.crashSample p r.cause r.ctx (d.writtenSeq r.ticket) r.pos false false 0).updPanel p Panel.logicReset).updateGuard := by
  have hnone : d.contexts.filter (fun c => c.panel = p) = [] :=
    List.filter_eq_nil_iff.2 (fun c hc => by rw [decide_eq_true_eq]; exact hfree c hc)
  have hcontexts := (crashSample_stands d p r.cause r.ctx (d.writtenSeq r.ticket) r.pos false false 0).contexts
  unfold Device.panelGoOn
  rw [hrun]
  dsimp only
  rw [hnone, hsound, maskStacks_zero]
  dsimp only [List.isEmpty_nil, List.foldl_nil]
  rw [endCommand_none (fun c hc => decide_eq_false (hfree c (hcontexts ▸ hc)))]
  exact if_neg (by rw [Bool.not_true, Bool.and_false, Bool.false_and]; exact Bool.false_ne_true)

/-- What is left of a panel without contexts after its reset, whatever its crash sample. -/
theorem panelReset_panel {d : Device} {p : PanelId} (r : ErrRec) (hidle : (d.panel p).state = .idle) (hwarm : d.reset.warm = none)
    (hqueues : (d.panel p).mem.queues = []) (hstalled : (d.panel p).mem.stalled = []) (hfree : ∀ c ∈ d.contexts, c.panel ≠ p) :
    let q := (d.panelReset p r 0).panel p
    q.lastCause = r.reason ∧ q.resets = satTo 16 ((d.panel p).resets + 1) ∧ q.lockstep = (d.panel p).lockstep ∧ q.array.run = none := by
  obtain ⟨heq, hpanel, -, -, -⟩ := beginReset_begun r hqueues hstalled
  intro q
  have hq : q = ((d.beginReset p r).drainErr.panelGoOn p).panel p := by
    show (d.panelReset p r 0).panel p = _
    rw [panelReset_begins r hidle hwarm]
  have hout := drainErr_recordsOut (d.beginReset p r)
  generalize d.beginReset p r = b at *
  generalize b.drainErr = e at *
  have hpanels : e.panel p = b.panel p := by rw [hout.eq]; rfl
  have hcontexts : e.contexts = d.contexts := by rw [hout.eq, heq]
  rw [panelGoOn_soon (r := ⟨d.err.nextTicket, r.reason, r.ctx, d.position, 0⟩) (by rw [hpanels, hpanel]) rfl (hcontexts ▸ hfree)] at hq
  have hstands := crashSample_stands e p r.reason r.ctx (e.writtenSeq d.err.nextTicket) d.position false false 0
  generalize e.crashSample p r.reason r.ctx (e.writtenSeq d.err.nextTicket) d.position false false 0 = f at hq hstands
  obtain ⟨g, hg⟩ := updateGuard_eq (f.updPanel p Panel.logicReset)
  have hfinal : q = (f.panel p).logicReset := by
    rw [hq, hg]
    exact updPanel_panel f p _
  rw [hfinal, hstands.panel p, hpanels, hpanel]
  exact ⟨rfl, rfl, rfl, rfl⟩

/-- A word of the sequencer's memory resets the panel (R626). -/
theorem sramUncorrectable_seqMemory (d : Device) (p : PanelId) (bank addr : Nat) : ∃ r : ErrRec, r.reason = 0x0126 ∧
    d.sramUncorrectable p .seqMemory bank addr = (((d.countWord p).raise (sramRecord .seqMemory p bank addr 3 0)).updPanel p
      (fun q => { q with lockstep := satTo 8 (q.lockstep + 1) })).panelReset p r 0 := by
  obtain ⟨r, hreason, hreset⟩ := seqLockstep_resets ((d.countWord p).raise (sramRecord .seqMemory p bank addr 3 0)) p 0 0
  refine ⟨r, hreason, Eq.trans ?_ hreset⟩
  unfold Device.sramUncorrectable
  rfl

/-- Settles O45: corrected and uncorrectable words, by their structure. -/
theorem wordFaults : Obligations.WordFaults := by
  intro s p w bank addr bit hrails hgeneral d q counted told few
  have hran {place : SramPlace} {e : Device} (h : d.sramUncorrectable p place bank addr = e) :
      exec (.sramUncorrectable p place bank addr) s = .next { s with dev := e } := exec_run rfl hrails h
  have hcounted {e : Device} (h : d.WordCounted e p) : counted { s with dev := e } := ⟨rfl, h.word, h.mem, h.others⟩
  have htold {e : Device} {place : SramPlace} {outcome : Nat} {ctx : Code} (herr : e.err = d.err) :
      told { s with dev := e.raise (sramRecord place p bank addr outcome ctx) } outcome :=
    (raise_told (r := sramRecord place p bank addr outcome ctx) hgeneral herr rfl rfl rfl rfl rfl).record
  have hword := countWord_counted d p
  have hraised {place : SramPlace} {outcome : Nat} {ctx : Code} {e : Device} (h : d.WordCounted e p) (herr : e.err = d.err) :
      counted { s with dev := e.raise (sramRecord place p bank addr outcome ctx) } ∧
        told { s with dev := e.raise (sramRecord place p bank addr outcome ctx) } outcome :=
    ⟨hcounted (raise_counted h _), htold herr⟩
  refine ⟨?_, fun l hspool hp => ?_, fun hnone => ⟨?_, ?_⟩, fun hnone => ?_, fun t hfirst hrate => ⟨fun hold place hplace => ?_, fun hdma => ?_⟩,
    ⟨fun hnone => ?_, fun v x hv hx => ?_⟩, fun ctx tag page c e hc hresident he => ?_, fun ctx n param => ⟨?_, ?_, ?_⟩,
    fun n vc x rest hqueue hsrc hvc => ?_, fun x rest hfind hrest hsrc hvc => ?_, fun hidle hwarm hfree hqueues hstalled => ?_⟩
  · obtain ⟨e, he, hqueue, x, hx, hreason, hpanel, hunit⟩ := raiseCoalesced_held (d.updPanel p (fun q => { q with sramCorr := satTo 32 (q.sramCorr + 1) }))
      { reason := 0x0120, mech := 0x02, outcome := 0, panel := p.val, unit := w.code, sub := bank, addr := addr, detail := BitVec.ofNat 128 bit }
    have hpanel' := updPanel_panel d p (fun q => { q with sramCorr := satTo 32 (q.sramCorr + 1) })
    refine ⟨_, exec_run (c := .sramCorrected p w bank addr bit) (f := fun d => d.sramCorrected p w bank addr bit) rfl hrails he, rfl,
      hpanel', hqueue, rfl, rfl, x, hx, hreason, hpanel, hunit⟩
  · obtain ⟨hdropped, hempty⟩ := spoolDrop_only hspool hp
    have hline := sramUncorrectable_spoolLine (bank := bank) (addr := addr) hspool
    dsimp only at hline hdropped hempty
    generalize hdrop : (d.countWord p).spoolDrop (l.unit * 256) 256 = e at hline hdropped hempty
    have herr : e.err = d.err := by rw [← hdrop]; rfl
    have hpoison : e.poison = d.poison := by rw [← hdrop]; rfl
    have hkept (r : ErrRec) : ((e.raise r).panel p).mem.spool = [] := by rw [(raise_frame e r p).1]; exact hempty
    cases hdirty : l.dirty with
    | false =>
      rw [hdirty, if_neg Bool.false_ne_true] at hline
      refine ⟨_, hran hline, hcounted (raise_counted hdropped _), hkept _, fun _ => ⟨htold herr, ?_⟩, fun h => absurd h (by decide)⟩
      exact (raise_poison e _).trans hpoison
    | true =>
      rw [hdirty, if_pos rfl] at hline
      refine ⟨_, hran hline, hcounted ((raise_counted hdropped _).keep rfl rfl), hkept _, fun h => absurd h (by decide), fun _ => ⟨?_, fun a ha => ?_⟩⟩
      · exact (raise_told (r := sramRecord (.spoolLine l.unit) p bank addr 1 0) hgeneral herr rfl rfl rfl rfl rfl).record
      · exact poisonAccesses_poison ha
  · exact ⟨_, hran ((sramUncorrectable_oldest (.inl rfl)).1 hnone), hraised hword rfl⟩
  · exact ⟨_, hran ((sramUncorrectable_oldest (.inr rfl)).1 hnone), hraised hword rfl⟩
  · exact ⟨_, hran (sramUncorrectable_dma.1 hnone), hraised hword rfl⟩
  · obtain ⟨r, -, -, hheld⟩ := tackFailed_waits (d := d.countWord p) (p := p) false hfirst (by rw [countWord_panel]; exact hrate) (sramRecord place p bank addr 0 0) 0x0121
    obtain ⟨hrun, hfailed⟩ := hheld.array rfl
    exact ⟨_, hran ((sramUncorrectable_oldest hplace).2 t hold), hcounted (hword.withheld hheld), hrun, _, hfailed, rfl⟩
  · obtain ⟨r, -, -, hheld⟩ := tackFailed_waits (d := d.countWord p) (p := p) true hfirst (by rw [countWord_panel]; exact hrate) (sramRecord .dmaBuffer p bank addr 0 0) 0x0121
    obtain ⟨hrun, hfailed⟩ := hheld.engine rfl
    exact ⟨_, hran (sramUncorrectable_dma.2 t hdma), hcounted (hword.withheld hheld), hrun, _, hfailed, rfl⟩
  · exact ⟨_, hran (sramUncorrectable_accCommitted.1 hnone), hraised hword rfl⟩
  · obtain ⟨y, hy, hphase, hticket⟩ := failWithRecord_desc (d := d.countWord p) (sramRecord .accCommitted p bank addr 1 0) hx
    exact ⟨_, hran (sramUncorrectable_accCommitted.2 v hv), rfl, y, hy, hphase, hticket⟩
  · have hpage := sramUncorrectable_bobbinPage (p := p) (bank := bank) (addr := addr) (page := page) hc hresident he
    have hstash (f : StashEntry → StashEntry) : d.WordCounted ((d.countWord p).updStash ctx tag.toNat f) p := hword.keep rfl rfl
    cases hspill : e.spill with
    | nil =>
      rw [hspill, List.isEmpty_nil, if_pos rfl] at hpage
      obtain ⟨hcount, hrecord⟩ := hraised (place := .bobbinPage ctx tag page) (outcome := 1) (ctx := ctx)
        (hstash (fun e => { e with bad := 65536 * page :: e.bad })) rfl
      exact ⟨_, hran hpage, hcount, fun _ => ⟨hrecord, raise_contexts _ _⟩, fun h => absurd rfl h⟩
    | cons x xs =>
      rw [hspill, List.isEmpty_cons, if_neg Bool.false_ne_true] at hpage
      obtain ⟨hcount, hrecord⟩ := hraised (place := .bobbinPage ctx tag page) (outcome := 0) (ctx := ctx)
        (hstash (fun e => { e with bobbin := false, data := [], bad := [] })) rfl
      exact ⟨_, hran hpage, hcount, fun h => absurd h (by simp), fun _ => ⟨hrecord, raise_contexts _ _⟩⟩
  · obtain ⟨hcount, hrecord⟩ := hraised (place := .gussetLine ctx param n) (outcome := 1) (ctx := ctx) (e := (d.countWord p).updGusset ctx param (fun e =>
      if n < e.frontLines then { e with bad := n :: e.bad } else e)) (hword.keep rfl rfl) rfl
    exact ⟨_, hran rfl, hcount, hrecord, raise_contexts _ _⟩
  · obtain ⟨hcount, hrecord⟩ := hraised (place := .chainStore ctx n) (outcome := 1) (ctx := ctx) (e := (d.countWord p).updCtx ctx (fun c =>
      if c.resident && c.chains.any (fun k => k.1 = n) then { c with badChains := n :: c.badChains } else c)) (hword.keep rfl rfl) rfl
    exact ⟨_, hran rfl, hcount, hrecord, raise_contexts _ _⟩
  · obtain ⟨hcount, hrecord⟩ := hraised (place := .tableStore ctx n) (outcome := 1) (ctx := ctx) (e := (d.countWord p).updCtx ctx (fun c =>
      if c.resident && c.tables.any (fun k => k.1 = n) then { c with badTables := n :: c.badTables } else c)) (hword.keep rfl rfl) rfl
    exact ⟨_, hran rfl, hcount, hrecord, raise_contexts _ _⟩
  · have hlost := sramUncorrectable_fabricBuffer (p := p) (bank := bank) (addr := addr) hqueue hsrc hvc
    have hports (m : PortId) : ((d.countWord p).raise { sramRecord (.fabricBuffer n vc) p bank addr 1 0 with panel := 0xFF }).port m = d.port m := by
      rw [Device.port, raise_ports]
      rfl
    refine ⟨_, hran hlost, hcounted ((raise_counted hword _).keep rfl rfl), ?_, ?_, fun m hm => ?_⟩
    · exact (raise_told (e := d.countWord p) (outcome := 1) (bank := bank) (addr := addr) (r := { sramRecord (.fabricBuffer n vc) p bank addr 1 0 with panel := 0xFF }) hgeneral rfl rfl rfl rfl rfl rfl).record
    · rw [updPort_port]
      exact Vector.getElem_set_self _
    · exact (updPort_other _ hm _).trans (hports m)
  · have hlost := sramUncorrectable_yokeBuffer (bank := bank) (addr := addr) hfind hsrc hvc
    rw [hrest] at hlost
    refine ⟨_, hran hlost, hcounted ((raise_counted hword _).keep rfl rfl), ?_, rfl⟩
    exact (raise_told (e := d.countWord p) (outcome := 1) (bank := bank) (addr := addr) (r := sramRecord .yokeBuffer p bank addr 1 0) hgeneral rfl rfl rfl rfl rfl rfl).record
  · obtain ⟨r, hreason, hreset⟩ := sramUncorrectable_seqMemory d p bank addr
    generalize he : ((d.countWord p).raise (sramRecord .seqMemory p bank addr 3 0)).updPanel p (fun q => { q with lockstep := satTo 8 (q.lockstep + 1) }) = e
      at hreset
    have hpanel : e.panel p = { q with sramUncorr := satTo 8 (q.sramUncorr + 1), lockstep := satTo 8 (q.lockstep + 1) } := by
      rw [← he, updPanel_panel, (raise_frame _ _ p).1, countWord_panel]
    have hcontexts : e.contexts = d.contexts := by
      rw [← he]
      exact raise_contexts _ _
    have hstill : e.reset.warm = none := by
      rw [← he]
      exact (congrArg ResetCtl.warm (raise_reset _ _)).trans hwarm
    obtain ⟨hcause, hresets, hlock, hrun⟩ := panelReset_panel (d := e) (p := p) r (by rw [hpanel]; exact hidle) hstill
      (by rw [hpanel]; exact hqueues) (by rw [hpanel]; exact hstalled) (by rw [hcontexts]; exact hfree)
    refine ⟨_, hran hreset, rfl, hcause.trans hreason, ?_, ?_, hrun⟩
    · exact hresets.trans (by rw [hpanel])
    · exact hlock.trans (by rw [hpanel])

end Sys2Proof.Machine
end

section
/-! A device reset of a module without contexts: ports go down, panels are fenced, the record is written, and the module
takes its reset state. -/

namespace Sys2Proof.Machine

/-! ### Ports go down (R536) -/

/-- The ports have stopped; nothing but ports and the fabric has changed, and no port holds a packet. -/
structure Device.PortsStopped (d e : Device) : Prop where
  eq : e = { d with ports := e.ports, fabric := e.fabric }
  empty : ∀ n : PortId, (e.port n).packets = []

theorem portsDown_stopped {d : Device} (h : ∀ n : PortId, (d.port n).packets = []) : d.PortsStopped d.portsDown := by
  refine List.foldlRecOn (motive := fun e : Device => d.PortsStopped e) _ _ ⟨rfl, h⟩ (fun e he n _ => ?_)
  obtain ⟨sent, hport, hothers, hframe⟩ := portStop_empty (he.empty n) .disabled true
  refine ⟨by rw [hframe, he.eq], fun m => ?_⟩
  by_cases hm : m = n
  · subst hm
    rw [hport]
    rfl
  · rw [hothers m hm]
    exact he.empty m

/-! ### Every panel is fenced -/

/-- The panels have been fenced, of a module without contexts. -/
structure Device.PanelsFenced (d e : Device) : Prop where
  eq : e = { d with
    panels := e.panels, poison := e.poison, faulty := e.faulty, lostStacks := e.lostStacks, err := e.err
    host := { d.host with winAnswer := e.host.winAnswer } }
  ctl : ∀ p, (e.panel p).ctl = (d.panel p).ctl

theorem Device.PanelsFenced.refl (d : Device) : d.PanelsFenced d := ⟨rfl, fun _ => rfl⟩

theorem Device.PanelsFenced.trans {d e f : Device} (h : d.PanelsFenced e) (k : e.PanelsFenced f) : d.PanelsFenced f where
  eq := by rw [k.eq, h.eq]
  ctl p := (k.ctl p).trans (h.ctl p)

theorem Device.WroteStacks.fenced {d e : Device} (h : d.WroteStacks e) : d.PanelsFenced e where
  eq := by rw [h.eq]
  ctl p := by rw [h.panel p]

theorem updPanel_fenced {d : Device} (p : PanelId) {f : Panel → Panel} (hf : ∀ q, (f q).ctl = q.ctl) : d.PanelsFenced (d.updPanel p f) where
  eq := rfl
  ctl o := by
    by_cases ho : o = p
    · subst ho
      rw [updPanel_panel]
      exact hf _
    · rw [updPanel_other d ho]

/-- Without contexts poisoned data concern the host's window alone. -/
theorem consumePoison_alone {d : Device} (h : d.contexts = []) (r : Requester) : d.PanelsFenced (d.consumePoison r) := by
  unfold Device.consumePoison
  split
  next c n =>
    have hring : d.ring? c n = none := by
      unfold Device.ring? Device.ctx?
      rw [h]
      rfl
    unfold Device.failRunning
    rw [hring]
    exact .refl d
  next => exact ⟨rfl, fun _ => rfl⟩
  next => exact .refl d

theorem fencePanel_alone {d : Device} (h : d.contexts = []) (p : PanelId) : d.PanelsFenced (d.fencePanel p) := by
  let w := (d.writeBack (d.panel p).mem.spool).updPanel p Panel.fence
  have hw : d.PanelsFenced w := (writeBack_wroteStacks d _).fenced.trans (updPanel_fenced p (fun _ => rfl))
  obtain ⟨e, he, -⟩ := foldl_raiseReplayed_eq ((d.panel p).array.faultsOf (fun _ => true)) w 1
  have hfaults : d.PanelsFenced { w with err := e } := hw.trans ⟨rfl, fun _ => rfl⟩
  rw [← he] at hfaults
  refine List.foldlRecOn (motive := fun e : Device => d.PanelsFenced e) _ _ hfaults (fun f hf r _ => hf.trans (consumePoison_alone ?_ r.requester))
  rw [hf.eq]
  exact h

theorem fenceAll_alone {d : Device} (h : d.contexts = []) : d.PanelsFenced ((List.finRange 8).foldl (fun d p => d.fencePanel p) d) := by
  refine List.foldlRecOn (motive := fun e : Device => d.PanelsFenced e) _ _ (.refl d) (fun f hf p _ => hf.trans (fencePanel_alone ?_ p))
  rw [hf.eq]
  exact h

/-! ### The warm reset (R674 to R676) -/

/-- The device when a warm reset takes its reset state: what a reset keeps is as it was, but for the count of the reset. -/
structure Device.ReadyDown (d e : Device) : Prop where
  mem : e.mem = d.mem
  hostMem : d.enabled = false → e.hostMem = d.hostMem
  regs : e.regs = d.regs
  link : e.host.link = d.host.link
  reset : ∃ w, e.reset = { d.countReset.reset with warm := w }
  empty : ∀ n : PortId, (e.port n).packets = []

theorem countReset_eq (d : Device) : d.countReset = { d with reset := d.countReset.reset } := rfl

/-- The warm reset goes on: the device takes its reset state, cold where the memory of Thimble cannot be zeroised or the power
controller's image has changed. -/
def Device.takeReset (d : Device) (cause : Code) (viaLink zeroised imageSame : Bool) : Device :=
  if !zeroised then d.coldDown 0x0144 (some (resetRecord 0x0144 0x0F))
  else if !imageSame then d.coldDown cause none
  else if viaLink then ((d.afterReset false cause).raiseNeeded (resetRecord cause 0x10)).1 else d.afterReset false cause

theorem endCommand_alone {d : Device} (h : d.contexts = []) (f : Context → Bool) (status : Code) : d.endCommand f status = d :=
  endCommand_none (fun c hc => by rw [h] at hc; exact absurd hc List.not_mem_nil) status

/-- Without contexts and with every panel disabled, a warm reset leaves no sample and ends nothing. -/
theorem warmGoOn_alone {d : Device} {w : WarmReset} (hwarm : d.reset.warm = some w) (hcontexts : d.contexts = [])
    (hoff : ∀ p : PanelId, (d.panel p).enabled = false) : d.warmGoOn = d.takeReset w.cause w.viaLink w.zeroised w.imageSame := by
  have hnone : (List.finRange 8).filter (fun p => (d.panel p).enabled) = [] :=
    List.filter_eq_nil_iff.2 (fun p _ => by rw [hoff p]; exact Bool.false_ne_true)
  unfold Device.warmGoOn
  rw [hwarm]
  dsimp only
  rw [if_neg (by rw [hcontexts, List.isEmpty_nil, Bool.not_true, Bool.and_false, Bool.false_and]; exact Bool.false_ne_true)]
  simp only [hnone, hcontexts, List.foldl_nil, ite_self, endCommand_alone hcontexts]
  rfl

/-- The device when the record of a warm reset is to be written. -/
def Device.warmBegun (d : Device) (r : ErrRec) (quiet viaLink zeroised imageSame : Bool) : Device :=
  let f := ((List.finRange 8).foldl (fun d p => d.fencePanel p) d.countReset.portsDown).mapPanels
    (fun _ q => { q with state := .fenced, resetRun := none })
  let e := if viaLink then (f, f.err.nextTicket) else f.raiseNeeded r
  { e.1 with reset := { e.1.reset with warm := some ⟨e.2, r.reason, quiet, viaLink, d.position, zeroised, imageSame⟩ } }

theorem warmReset_begins {d : Device} (hwarm : d.reset.warm = none) (r : ErrRec) (quiet viaLink zeroised imageSame : Bool) :
    d.warmReset r quiet viaLink zeroised imageSame = (d.warmBegun r quiet viaLink zeroised imageSame).drainErr.warmGoOn := by
  unfold Device.warmReset
  rw [if_neg (by rw [hwarm]; exact Bool.false_ne_true)]
  rfl

theorem warmBegun_ready {d : Device} (hcontexts : d.contexts = []) (hoff : ∀ p : PanelId, (d.panel p).enabled = false)
    (hpackets : ∀ n : PortId, (d.port n).packets = []) (r : ErrRec) (quiet viaLink zeroised imageSame : Bool) :
    let b := d.warmBegun r quiet viaLink zeroised imageSame
    d.ReadyDown b ∧ b.contexts = [] ∧ (∀ p : PanelId, (b.panel p).enabled = false) ∧
      ∃ w, b.reset.warm = some w ∧ w.cause = r.reason ∧ w.viaLink = viaLink ∧ w.zeroised = zeroised ∧ w.imageSame = imageSame := by
  have hstopped := portsDown_stopped (d := d.countReset) hpackets
  have hfenced := fenceAll_alone (d := d.countReset.portsDown) (by rw [hstopped.eq]; exact hcontexts)
  unfold Device.warmBegun
  generalize d.countReset.portsDown = e at hstopped hfenced ⊢
  generalize (List.finRange 8).foldl (fun d p => d.fencePanel p) e = f at hfenced ⊢
  let g := f.mapPanels (fun _ q => { q with state := .fenced, resetRun := none })
  have hctl (p : PanelId) : (g.panel p).enabled = false := by
    have hpanel : g.panel p = { f.panel p with state := .fenced, resetRun := none } := mapPanels_panel f _ p
    have hsame : (f.panel p).ctl = (d.panel p).ctl := (hfenced.ctl p).trans (by rw [hstopped.eq]; rfl)
    rw [hpanel]
    show bitOf (f.panel p).ctl 0 = false
    rw [hsame]
    exact hoff p
  have hports (n : PortId) : (g.port n).packets = [] := by
    rw [show g.port n = e.port n by
      show f.port n = e.port n
      rw [hfenced.eq]
      rfl]
    exact hstopped.empty n
  have hfields : f.contexts = [] ∧ f.mem = d.mem ∧ f.hostMem = d.hostMem ∧ f.regs = d.regs ∧ f.host.link = d.host.link ∧ f.reset = d.countReset.reset := by
    have hfences : f.contexts = e.contexts ∧ f.mem = e.mem ∧ f.hostMem = e.hostMem ∧ f.regs = e.regs ∧ f.host.link = e.host.link ∧ f.reset = e.reset := by
      rw [hfenced.eq]
      exact ⟨rfl, rfl, rfl, rfl, rfl, rfl⟩
    have hstops : e.contexts = d.contexts ∧ e.mem = d.mem ∧ e.hostMem = d.hostMem ∧ e.regs = d.regs ∧ e.host.link = d.host.link ∧ e.reset = d.countReset.reset := by
      rw [hstopped.eq]
      exact ⟨rfl, rfl, rfl, rfl, rfl, rfl⟩
    obtain ⟨h₁, h₂, h₃, h₄, h₅, h₆⟩ := hfences
    obtain ⟨k₁, k₂, k₃, k₄, k₅, k₆⟩ := hstops
    exact ⟨h₁.trans (k₁.trans hcontexts), h₂.trans k₂, h₃.trans k₃, h₄.trans k₄, h₅.trans k₅, h₆.trans k₆⟩
  obtain ⟨hnone, hmem, hhost, hregs, hlink, hreset⟩ := hfields
  have hready (x : ErrRing) (w : WarmReset) : d.ReadyDown { g with err := x, reset := { g.reset with warm := some w } } :=
    ⟨hmem, fun _ => hhost, hregs, hlink, ⟨some w, congrArg (fun r : ResetCtl => { r with warm := some w }) hreset⟩, hports⟩
  dsimp only
  cases viaLink with
  | true =>
    rw [if_pos rfl]
    have hdown := hready g.err ⟨g.err.nextTicket, r.reason, quiet, true, d.position, zeroised, imageSame⟩
    exact ⟨hdown, hnone, hctl, _, rfl, rfl, rfl, rfl, rfl⟩
  | false =>
    rw [if_neg Bool.false_ne_true]
    obtain ⟨x, hx⟩ := enqueueRec_eq g (g.stampRec r) true
    have hdown := hready x ⟨g.err.nextTicket, r.reason, quiet, false, d.position, zeroised, imageSame⟩
    have hraise : (g.raiseNeeded r).1 = { g with err := x } := hx
    rw [hraise]
    exact ⟨hdown, hnone, hctl, _, rfl, rfl, rfl, rfl, rfl⟩

theorem Device.ReadyDown.recordsOut {d b e : Device} (h : d.ReadyDown b) (k : b.RecordsOut e) (hhost : d.enabled = false → e.hostMem = b.hostMem) :
    d.ReadyDown e where
  mem := by rw [k.eq]; exact h.mem
  hostMem hoff := (hhost hoff).trans (h.hostMem hoff)
  regs := by rw [k.eq]; exact h.regs
  link := k.link.trans h.link
  reset := by
    obtain ⟨w, hw⟩ := h.reset
    exact ⟨w, by rw [k.eq]; exact hw⟩
  empty n := by
    have hports : e.port n = b.port n := by rw [k.eq]; rfl
    rw [hports]
    exact h.empty n

/-- A warm reset of a module without contexts, whose panels are disabled and whose ports hold no packet. -/
theorem warmReset_alone {d : Device} (hwarm : d.reset.warm = none) (hcontexts : d.contexts = []) (hoff : ∀ p : PanelId, (d.panel p).enabled = false)
    (hpackets : ∀ n : PortId, (d.port n).packets = []) (r : ErrRec) (quiet viaLink zeroised imageSame : Bool) :
    ∃ e, d.ReadyDown e ∧ d.warmReset r quiet viaLink zeroised imageSame = e.takeReset r.reason viaLink zeroised imageSame := by
  obtain ⟨hready, hempty, hpanels, w, hw, hcause, hlink, hzero, himage⟩ := warmBegun_ready hcontexts hoff hpackets r quiet viaLink zeroised imageSame
  rw [warmReset_begins hwarm]
  generalize d.warmBegun r quiet viaLink zeroised imageSame = b at hready hempty hpanels hw ⊢
  have hout := drainErr_recordsOut b
  have hclosed (h : d.enabled = false) : b.drainErr = b := drainErr_closed (errOpen_disabled (by
    unfold Device.enabled at h ⊢
    rw [hready.regs]
    exact h))
  generalize b.drainErr = e at hout hclosed ⊢
  refine ⟨e, hready.recordsOut hout (fun h => by rw [hclosed h]), ?_⟩
  rw [← hcause, ← hlink, ← hzero, ← himage]
  refine warmGoOn_alone ?_ ?_ (fun p => ?_)
  · rw [hout.eq]; exact hw
  · rw [hout.eq]; exact hempty
  · rw [show e.panel p = b.panel p by rw [hout.eq]; rfl]
    exact hpanels p

/-! ### The reset state (R650, R884) -/

/-- What a module that has been reset shows, where `d` is the device before. -/
structure Device.ResetTo (d e : Device) (cause : Code) (kind : Nat) : Prop where
  kind : e.reset.lastKind = kind
  cause : e.reset.lastCause = cause
  resets : e.reset.deviceResets = satTo 16 (d.reset.deviceResets + 1)
  contexts : e.contexts = []
  enabled : e.enabled = false
  hostMem : d.enabled = false → e.hostMem = d.hostMem
  booted : e.thimble.booted = false
  ports : ∀ n : PortId, (e.port n).state = .disabled
  panels : ∀ p : PanelId, (e.panel p).enabled = false ∧ (e.panel p).memOn = false
  escalation : e.reset.escalation = if d.countReset.reset.escalation = .serviceRequired then .serviceRequired else .inService

theorem afterReset_port (d : Device) (cold : Bool) (cause : Code) (n : PortId) : ((d.afterReset cold cause).port n).state = .disabled := by
  have hport : (d.afterReset cold cause).port n = { lastSent := (d.port n).lastSent } := Vector.getElem_map _ _
  rw [hport]

theorem afterReset_panel (d : Device) (cold : Bool) (cause : Code) (p : PanelId) :
    ((d.afterReset cold cause).panel p).enabled = false ∧ ((d.afterReset cold cause).panel p).memOn = false := by
  have hpanel : (d.afterReset cold cause).panel p = (d.panel p).afterReset cold := Vector.getElem_map _ _
  rw [hpanel]
  exact ⟨show bitOf 0 0 = false by decide, show bitOf (2 * 2 ^ 8 + 2) 0 = false by decide⟩

theorem afterReset_enabled (d : Device) (cold : Bool) (cause : Code) : (d.afterReset cold cause).enabled = false :=
  show bitOf 0 0 = false by decide

theorem afterReset_down {d b : Device} (h : d.ReadyDown b) (cold : Bool) (cause : Code) :
    d.ResetTo (b.afterReset cold cause) cause (if cold then 2 else 1) where
  kind := rfl
  cause := rfl
  resets := by
    obtain ⟨w, hw⟩ := h.reset
    show b.reset.deviceResets = _
    rw [hw]
    rfl
  contexts := rfl
  enabled := afterReset_enabled b cold cause
  hostMem := h.hostMem
  booted := by
    unfold Device.afterReset
    cases cold <;> rfl
  ports := afterReset_port b cold cause
  panels := afterReset_panel b cold cause
  escalation := by
    obtain ⟨w, hw⟩ := h.reset
    show (if b.reset.escalation = _ then _ else _) = _
    rw [hw]

theorem Device.ResetTo.raiseNeeded {d e : Device} {cause : Code} {kind : Nat} (h : d.ResetTo e cause kind) (r : ErrRec) :
    d.ResetTo (e.raiseNeeded r).1 cause kind := by
  obtain ⟨x, hx, -⟩ := raiseNeeded_wrote e r
  rw [hx]
  exact ⟨h.kind, h.cause, h.resets, h.contexts, h.enabled, h.hostMem, h.booted, h.ports, h.panels, h.escalation⟩

theorem Device.ReadyDown.portsDown {d b : Device} (h : d.ReadyDown b) : d.ReadyDown b.portsDown := by
  obtain ⟨heq, hempty⟩ := portsDown_stopped h.empty
  refine ⟨?_, fun hoff => ?_, ?_, ?_, ?_, hempty⟩
  · rw [heq]; exact h.mem
  · rw [heq]; exact h.hostMem hoff
  · rw [heq]; exact h.regs
  · rw [heq]; exact h.link
  · rw [heq]; exact h.reset

theorem coldDown_resetTo {d b : Device} (h : d.ReadyDown b) (cause : Code) (r : Option ErrRec) :
    d.ResetTo (b.coldDown cause r) cause 2 ∧ (b.coldDown cause r).mem = [] := by
  have hcold := afterReset_down h.portsDown true cause
  unfold Device.coldDown
  dsimp only
  cases r with
  | none => exact ⟨hcold, rfl⟩
  | some r => exact ⟨hcold.raiseNeeded r, raiseNeeded_mem _ r⟩

theorem afterReset_hostMem (d : Device) (cold : Bool) (cause : Code) : (d.afterReset cold cause).hostMem = d.hostMem := rfl

theorem coldDown_hostMem {b : Device} (h : ∀ n : PortId, (b.port n).packets = []) (cause : Code) (r : Option ErrRec) :
    (b.coldDown cause r).hostMem = b.hostMem := by
  have hstopped : b.portsDown.hostMem = b.hostMem := by rw [(portsDown_stopped h).eq]
  have hreset : (b.portsDown.afterReset true cause).hostMem = b.hostMem := (afterReset_hostMem _ _ _).trans hstopped
  cases r with
  | none => exact hreset
  | some r => exact (raiseNeeded_hostMem _ r).trans hreset

theorem takeReset_warm {d b : Device} (h : d.ReadyDown b) (cause : Code) (viaLink : Bool) :
    d.ResetTo (b.takeReset cause viaLink true true) cause 1 ∧ (b.takeReset cause viaLink true true).mem = d.mem := by
  have hwarm := afterReset_down h false cause
  unfold Device.takeReset
  cases viaLink with
  | false => exact ⟨hwarm, h.mem⟩
  | true => exact ⟨hwarm.raiseNeeded _, (raiseNeeded_mem _ _).trans h.mem⟩

theorem takeReset_cold {d b : Device} (h : d.ReadyDown b) (cause : Code) (viaLink : Bool) :
    d.ResetTo (b.takeReset cause viaLink true false) cause 2 ∧ (b.takeReset cause viaLink true false).mem = [] :=
  coldDown_resetTo h cause none

theorem takeReset_unzeroised {d b : Device} (h : d.ReadyDown b) (cause : Code) (viaLink imageSame : Bool) :
    d.ResetTo (b.takeReset cause viaLink false imageSame) 0x0144 2 ∧ (b.takeReset cause viaLink false imageSame).mem = [] :=
  coldDown_resetTo h 0x0144 (some (resetRecord 0x0144 0x0F))

end Sys2Proof.Machine
end

section
/-! Clocks, rails and the faults of the hub. -/

namespace Sys2Proof.Machine

/-! ### Clocks and rails (R624, R725) -/

theorem supplyLost_idle {d : Device} {p : PanelId} (holdest : (d.panel p).array.oldest = none) (hdma : (d.panel p).array.dma = none) (r : ErrRec) :
    d.supplyLost p r = d := by
  unfold Device.supplyLost
  dsimp only
  rw [holdest, hdma]
  rfl

/-- The running tack of a panel that loses its supply waits for its replay. -/
theorem supplyLost_works {d : Device} {p : PanelId} {t : TackRun} (holdest : (d.panel p).array.oldest = some t) (hfirst : t.replay = false)
    (hdma : (d.panel p).array.dma = none) (hrate : (d.panel p).replayTacks.length + 1 ≤ fieldOf d.regs.guardCtl 15 8) (r : ErrRec) :
    d.Withheld (d.supplyLost p r) p false t := by
  have hheld := holdForReplay_withheld d p false hfirst
  have hlost : d.supplyLost p r = (d.holdForReplay p false t).replayRate p r := by
    unfold Device.supplyLost
    dsimp only
    rw [holdest, hdma]
    rfl
  rw [hlost, replayRate_within (hheld.replays.trans (by rwa [hheld.regs]))]
  exact hheld

/-- The record of a clock domain outside its limits. -/
def clockRecord (domain : Nat) (kHz : BitVec 32) : ErrRec :=
  { reason := 0x012B, mech := 0x0D, outcome := 1, unit := domain, detail := kHz.setWidth 128 }

/-- The record of a rail outside its window. -/
def railRecord (rail : Nat) (mV : BitVec 16) : ErrRec :=
  { reason := 0x012A, mech := 0x0C, outcome := 1, panel := if rail < 8 then rail else 0xFF, unit := rail, detail := mV.setWidth 128 }

theorem clockFault_noted {d : Device} {domain : Nat} (hmonitored : domain < 16) (hnew : domain ∉ d.clocksOut) (kHz : BitVec 32) :
    d.clockFault domain kHz = (clockPanels domain).foldl (fun d p => d.supplyLost p (clockRecord domain kHz))
      (({ d with clocksOut := domain :: d.clocksOut } : Device).raise (clockRecord domain kHz)) := by
  unfold Device.clockFault
  refine (if_neg ?_).trans rfl
  rw [Bool.or_eq_true, decide_eq_true_eq, List.contains_iff_mem]
  exact fun h => h.elim (Nat.not_le.2 hmonitored) hnew

theorem clockFault_ignored {d : Device} {domain : Nat} (h : 16 ≤ domain ∨ domain ∈ d.clocksOut) (kHz : BitVec 32) : d.clockFault domain kHz = d := by
  unfold Device.clockFault
  refine if_pos ?_
  rw [Bool.or_eq_true, decide_eq_true_eq, List.contains_iff_mem]
  exact h

theorem railFault_noted {d : Device} {rail : Nat} (hrail : rail < 16) (hnew : ∀ r ∈ d.railsOut, r.1 ≠ rail) (mV : BitVec 16) :
    d.railFault rail mV = (railPanels rail).foldl (fun d p => d.supplyLost p (railRecord rail mV))
      (({ d with railsOut := (rail, d.now) :: d.railsOut } : Device).raise (railRecord rail mV)) := by
  unfold Device.railFault
  refine (if_neg ?_).trans rfl
  rw [Bool.or_eq_true, decide_eq_true_eq, List.any_eq_true]
  rintro (h | ⟨r, hr, heq⟩)
  · omega
  · exact hnew r hr (of_decide_eq_true heq)

theorem railFault_unknown {d : Device} {rail : Nat} (h : 16 ≤ rail) (mV : BitVec 16) : d.railFault rail mV = d :=
  if_pos (Bool.or_eq_true_iff.2 (.inl (decide_eq_true h)))

theorem railTimeout_early {d : Device} {rail : Nat} (h : ∀ r ∈ d.railsOut, r.1 = rail → d.now - r.2 < 100000) : d.railTimeout rail = d := by
  refine if_neg (fun hany => ?_)
  obtain ⟨r, hr, hdue⟩ := List.any_eq_true.1 hany
  rw [Bool.and_eq_true, decide_eq_true_eq, decide_eq_true_eq] at hdue
  exact absurd (h r hr hdue.1) (Nat.not_lt.2 hdue.2)

theorem railTimeout_due {d : Device} {rail since : Nat} (hout : (rail, since) ∈ d.railsOut) (hdue : 100000 ≤ d.now - since) :
    d.railTimeout rail = (railPanels rail).foldl (fun d p =>
      d.panelReset p { reason := 0x012A, mech := 0x0C, outcome := 3, unit := rail } (if rail = 13 then 15 else 0)) d := by
  refine if_pos (List.any_eq_true.2 ⟨_, hout, ?_⟩)
  rw [Bool.and_eq_true, decide_eq_true_eq, decide_eq_true_eq]
  exact ⟨rfl, hdue⟩

/-- A noted fault: its record is the last one, and panels, contexts and bytes are as before. -/
theorem raise_noted {d n : Device} (hgeneral : d.err.general < 64) (herr : n.err = d.err) (hpanels : n.panels = d.panels)
    (hcontexts : n.contexts = d.contexts) (hmem : n.mem = d.mem) (r : ErrRec) :
    (∃ e, (n.raise r).err.queue = d.err.queue ++ [⟨e, false, none⟩] ∧ e.reason = r.reason ∧ e.unit = r.unit) ∧
      (n.raise r).panels = d.panels ∧ (n.raise r).contexts = d.contexts ∧ (n.raise r).mem = d.mem := by
  refine ⟨⟨n.stampRec r, ?_, (stampRec_sameFault n r).reason, stampRec_unit n r⟩, (raise_panels n r).trans hpanels,
    (raise_contexts n r).trans hcontexts, (raise_mem n r).trans hmem⟩
  rw [raise_queue (by rw [herr]; exact hgeneral), herr]

theorem noted_idle {n : Device} (hidle : ∀ p : PanelId, (n.panel p).array.oldest = none ∧ (n.panel p).array.dma = none) (r : ErrRec)
    (l : List PanelId) : l.foldl (fun d p => d.supplyLost p r) (n.raise r) = n.raise r := by
  refine foldl_fixed_mem (fun p _ => ?_)
  obtain ⟨holdest, hdma⟩ := hidle p
  have hpanel := (raise_frame n r p).1
  exact supplyLost_idle (by rw [hpanel]; exact holdest) (by rw [hpanel]; exact hdma) r

theorem noted_works {n : Device} {p : PanelId} {t : TackRun} (holdest : (n.panel p).array.oldest = some t) (hfirst : t.replay = false)
    (hdma : (n.panel p).array.dma = none) (hrate : (n.panel p).replayTacks.length + 1 ≤ fieldOf n.regs.guardCtl 15 8) (r : ErrRec) :
    (n.raise r).Withheld ([p].foldl (fun d p => d.supplyLost p r) (n.raise r)) p false t := by
  have hpanel := (raise_frame n r p).1
  exact supplyLost_works (by rw [hpanel]; exact holdest) hfirst (by rw [hpanel]; exact hdma) (by rw [hpanel, raise_regs]; exact hrate) r

/-! ### The hub (R624, R674) -/

theorem State.keepService_dev (s : State) : s.keepService.dev = s.dev := by
  unfold State.keepService
  split <;> rfl

theorem State.warmReset_dev {s : State} (hrails : s.pins.railsOn = true) (r : ErrRec) (quiet viaLink zeroised imageSame : Bool) :
    (s.warmReset r quiet viaLink zeroised imageSame).dev = s.dev.warmReset r quiet viaLink zeroised imageSame := by
  unfold State.warmReset
  rw [if_neg (by rw [hrails]; exact Bool.false_ne_true), State.keepService_dev]
  rfl

theorem thimbleStop_resets {s : State} (hrails : s.pins.railsOn = true) (hruns : s.dev.thimble.stopped = false) (engine : Nat) :
    (s.thimbleStop engine).dev = ({ s.dev with thimble := { s.dev.thimble with stopped := true, busy := false } } : Device).warmReset
      { reason := 0x012D, mech := 0x0F, outcome := 3, sub := engine } false false false true := by
  unfold State.thimbleStop
  rw [if_neg (by rw [hruns, hrails]; exact Bool.false_ne_true)]
  exact State.warmReset_dev (s := s.onDev (fun d => { d with thimble := { d.thimble with stopped := true, busy := false } })) hrails _ _ _ _ _

theorem cfgShadowCheck_hub {s : State} (hrails : s.pins.railsOn = true) (flipped : BitVec 64) :
    exec (.cfgShadowCheck (some (0x50000, flipped))) s = .next (s.warmReset (s.configFault 0x50000 flipped 0x0129 3) true false true true) := by
  have hplace : regPlace 0x50000 = .hub 5 0 := if_pos (by decide)
  have hcheck : s.shadowCheck (some (0x50000, flipped)) = s.warmReset (s.configFault 0x50000 flipped 0x0129 3) true false true true := by
    unfold State.shadowCheck
    simp only [hrails, Bool.not_true, Bool.false_eq_true, if_false]
    rw [hplace]
  exact congrArg Host.Outcome.next hcheck

theorem selftest_hub {s : State} (hrails : s.pins.railsOn = true) :
    exec (.checkerSelftest .hubLockstep false) s = .next (s.warmReset { reason := 0x012E, mech := 0x09, outcome := 3 } false false true true) :=
  congrArg Host.Outcome.next (if_pos hrails)

/-- The hub's Yoke port has no panel to reset. -/
theorem yokeRetry_hub (d : Device) : d.yokeRetry 8 = d.raise { reason := 0x0125, mech := 0x06, outcome := 1, unit := 8, sub := 8 } := by
  unfold Device.yokeRetry
  exact dif_neg (show ¬ (8 : Fin 9).val < 8 by decide)

/-- Settles O46: clocks, rails and the hub's faults. -/
theorem supplyAndHubFaults : Obligations.SupplyAndHubFaults := by
  intro s dom rail output lane o kHz replays mV pc flipped hrails hgeneral d idle holds works only told
  have hholds {n e : Device} {p : PanelId} {t : TackRun} {r : ErrRec} (hheld : (n.raise r).Withheld e p false t) (herr : n.err = d.err)
      (hpanels : n.panels = d.panels) (hcontexts : n.contexts = d.contexts) (hmem : n.mem = d.mem) :
      holds p t { s with dev := e } ∧ told { s with dev := e } r.reason r.unit := by
    obtain ⟨htold, hsame, -, hmem'⟩ := raise_noted hgeneral herr hpanels hcontexts hmem r
    obtain ⟨hrun, hfailed⟩ := hheld.array rfl
    have hpanel (o : PanelId) : (n.raise r).panel o = d.panel o := by
      rw [Device.panel, hsame]
      rfl
    refine ⟨⟨rfl, hrun, hheld.mem.trans hmem', ⟨t, hfailed, rfl⟩, fun o ho => (hheld.others o ho).trans (hpanel o)⟩, ?_⟩
    rw [← hheld.err] at htold
    exact htold
  refine ⟨fun hmonitored hnew hidle => ?_, fun p t hmonitored hnew hpanels hworks => ?_, fun hignored => ?_, ?_, fun hrail hnew hidle => ?_,
    fun p t hrail hnew hpanels hworks => ?_, fun hunknown => ?_, ?_, fun hearly => ?_, fun since hout hdue => ?_,
    fun hwarm hcontexts hservice hwindow hoff hpackets hpanels => ?_, ?_, ?_, ?_⟩
  · have hfault := (clockFault_noted hmonitored hnew kHz).trans (noted_idle (n := { d with clocksOut := dom.val :: d.clocksOut }) hidle _ _)
    obtain ⟨htold, hpanels, hcontexts, hmem⟩ := raise_noted (d := d) (n := { d with clocksOut := dom.val :: d.clocksOut }) hgeneral rfl rfl rfl rfl
      (clockRecord dom.val kHz)
    exact ⟨_, exec_run (c := .clockFault dom kHz) (f := fun d => d.clockFault dom.val kHz) rfl hrails hfault, ⟨rfl, hpanels, hcontexts, hmem⟩,
      raise_clocksOut _ _, htold⟩
  · obtain ⟨holdest, hfirst, hdma, hrate⟩ := hworks
    have hfault := clockFault_noted hmonitored hnew kHz
    rw [hpanels] at hfault
    have hheld := noted_works (n := { d with clocksOut := dom.val :: d.clocksOut }) holdest hfirst hdma hrate (clockRecord dom.val kHz)
    exact ⟨_, exec_run (c := .clockFault dom kHz) (f := fun d => d.clockFault dom.val kHz) rfl hrails hfault, hholds hheld rfl rfl rfl rfl⟩
  · exact exec_run rfl hrails (clockFault_ignored hignored kHz)
  · refine completes_run rfl hrails ⟨⟨rfl, rfl, rfl, rfl⟩, rfl, ?_, fun k hk hne => ?_⟩
    · exact fun h => absurd rfl (bne_iff_ne.1 (List.mem_filter.1 h).2)
    · exact List.mem_filter.2 ⟨hk, bne_iff_ne.2 hne⟩
  · have hfault := (railFault_noted hrail hnew mV).trans (noted_idle (n := { d with railsOut := (rail, d.now) :: d.railsOut }) hidle _ _)
    obtain ⟨htold, hpanels, hcontexts, hmem⟩ := raise_noted (d := d) (n := { d with railsOut := (rail, d.now) :: d.railsOut }) hgeneral rfl rfl rfl rfl
      (railRecord rail mV)
    exact ⟨_, exec_run (c := .railFault rail mV) (f := fun d => d.railFault rail mV) rfl hrails hfault, ⟨rfl, hpanels, hcontexts, hmem⟩,
      raise_railsOut _ _, htold⟩
  · obtain ⟨holdest, hfirst, hdma, hrate⟩ := hworks
    have hfault := railFault_noted hrail hnew mV
    rw [hpanels] at hfault
    have hheld := noted_works (n := { d with railsOut := (rail, d.now) :: d.railsOut }) holdest hfirst hdma hrate (railRecord rail mV)
    exact ⟨_, exec_run (c := .railFault rail mV) (f := fun d => d.railFault rail mV) rfl hrails hfault, hholds hheld rfl rfl rfl rfl⟩
  · exact exec_run rfl hrails (railFault_unknown hunknown mV)
  · exact completes_run rfl hrails ⟨⟨rfl, rfl, rfl, rfl⟩, rfl, fun r => List.mem_filter.trans (and_congr_right fun _ => bne_iff_ne)⟩
  · exact exec_run rfl hrails (railTimeout_early hearly)
  · exact exec_run rfl hrails (railTimeout_due hout hdue)
  · intro down
    have hdown {c : Instr} {t : State} {r : ErrRec} {cause : Code} {quiet : Bool} (hc : exec c s = .next t) (hcause : r.reason = cause)
        (hdev : t.dev = d.warmReset r quiet false true true) :
        Completes c s (fun u => down u cause 1 ∧ u.dev.mem = d.mem) := by
      obtain ⟨b, hready, hreset⟩ := warmReset_alone hwarm hcontexts hoff hpackets r quiet false true true
      obtain ⟨hto, hmem⟩ := takeReset_warm hready r.reason false
      subst hcause
      rw [← hreset, ← hdev] at hto hmem
      exact ⟨t, hc, ⟨hto.kind, hto.cause, hto.resets, hto.contexts, hto.enabled, hto.ports, hto.booted⟩, hmem⟩
    refine ⟨?_, ?_, ?_, fun hruns => ?_⟩
    · exact hdown (c := .hubLockstepMismatch output pc) rfl rfl (State.warmReset_dev hrails
        { reason := 0x0127, mech := 0x09, outcome := 3, sub := output, detail := pc.setWidth 128 } true false true true)
    · exact hdown (cfgShadowCheck_hub hrails flipped) rfl (State.warmReset_dev hrails (s.configFault 0x50000 flipped 0x0129 3) true false true true)
    · exact hdown (selftest_hub hrails) rfl (State.warmReset_dev hrails { reason := 0x012E, mech := 0x09, outcome := 3 } false false true true)
    · let n : Device := { d with thimble := { d.thimble with stopped := true, busy := false } }
      obtain ⟨b, hready, hreset⟩ := warmReset_alone (d := n) hwarm hcontexts hoff hpackets
        { reason := 0x012D, mech := 0x0F, outcome := 3, sub := lane } false false false true
      obtain ⟨hto, hmem⟩ := takeReset_unzeroised hready 0x012D false true
      rw [← hreset, ← thimbleStop_resets hrails hruns lane] at hto hmem
      exact ⟨s.thimbleStop lane, rfl, ⟨hto.kind, hto.cause, hto.resets, hto.contexts, hto.enabled, hto.ports, hto.booted⟩, hmem⟩
  · obtain ⟨htold, hkept⟩ := raise_noted (d := d) (n := d) hgeneral rfl rfl rfl rfl { reason := 0x0125, mech := 0x06, outcome := 1, unit := 8, sub := 8 }
    exact ⟨_, exec_run (c := .yokeRetryLimit 8) (f := fun d => d.yokeRetry 8) rfl hrails (yokeRetry_hub d), ⟨rfl, hkept⟩, htold⟩
  · obtain ⟨e, he, hqueue, x, hx, hreason, -⟩ := raiseCoalesced_held ({ d with host := { d.host with linkReplays := satTo 32 (d.host.linkReplays + 1) } })
      { reason := 0x012F, mech := 0x10, outcome := 0, sub := lane, detail := replays.setWidth 128 }
    exact ⟨_, exec_run (c := .hostLinkError lane replays) (f := fun d => d.hostLinkError lane replays) rfl hrails he, ⟨rfl, rfl, rfl, rfl⟩, rfl, hqueue, x, hx, hreason⟩
  · obtain ⟨e, he, hqueue, x, hx, hreason, -⟩ := raiseCoalesced_held d (s.configFault o flipped 0x0128 0)
    exact ⟨_, exec_run (c := .cfgParityError o flipped) (f := fun d => d.raiseCoalesced (s.configFault o flipped 0x0128 0)) rfl hrails he, ⟨rfl, rfl, rfl, rfl⟩, rfl,
      hqueue, x, hx, hreason⟩

end Sys2Proof.Machine
end

section
/-! Error records that are written, and the held messages of panels. -/

namespace Sys2Proof.Machine

/-! ### What waits for the error ring (R661, R674) -/

theorem panelGoOn_none {d : Device} {p : PanelId} (h : (d.panel p).resetRun = none) : d.panelGoOn p = d := by
  unfold Device.panelGoOn
  rw [h]

theorem outGoOn_none {d : Device} (h : d.reset.outEnter = none) : d.outGoOn = d := by
  unfold Device.outGoOn
  rw [h]

theorem warmGoOn_none {d : Device} (h : d.reset.warm = none) : d.warmGoOn = d := by
  unfold Device.warmGoOn
  rw [h]

/-- With no reset under way nothing waits for the error ring. -/
theorem resetsGoOn_none {d : Device} (hpanels : ∀ o : PanelId, (d.panel o).resetRun = none) (hout : d.reset.outEnter = none)
    (hwarm : d.reset.warm = none) : d.resetsGoOn = d := by
  have hfold : (List.finRange 8).foldl (fun d p => d.panelGoOn p) d = d := foldl_fixed_mem (fun p _ => panelGoOn_none (hpanels p))
  unfold Device.resetsGoOn
  rw [hfold, outGoOn_none hout, warmGoOn_none hwarm]

/-! ### The write of a record (R633) -/

theorem writeRecord_idle {d : Device} (h : d.err.queue = [] ∨ d.errOpen = false ∨ d.errFull = true) : d.writeRecord = d := by
  obtain h | h | h := h
  · unfold Device.writeRecord
    rw [h]
  · exact writeRecord_closed h
  · unfold Device.writeRecord
    split
    · rfl
    · exact if_pos (by rw [h, Bool.or_true])

theorem leBytes_length (n v : Nat) : (leBytes n v).length = n := by
  induction n generalizing v with
  | zero => rfl
  | succ n ih => exact congrArg Nat.succ (ih _)

/-- A record takes 64 bytes (R633). -/
theorem recordBytes_length (r : ErrRec) (seq phase : Nat) : (r.bytes seq phase).length = 64 := by
  unfold ErrRec.bytes
  simp only [List.length_append, leBytes_length]

/-- The address of the next record in the ring. -/
def Device.recordPlace (d : Device) : Nat := d.errBase + 64 * (d.err.nextSeq % 2 ^ d.errSize)

/-- A message over a link in L0. -/
theorem sendMsg_l0 {d : Device} (h : d.host.link = .l0) (v : Fin 11) :
    d.sendMsg v = { d with host := { d.host with messages := d.host.messages.set v.val (d.host.messages[v.val] + 1) v.isLt } } := by
  unfold Device.sendMsg
  rw [h]

/-- A write to host memory over a link in L0. -/
theorem hostPut_l0 {d : Device} (h : d.host.link = .l0) (relaxed : Bool) (a : Nat) (bs : List Byte) :
    ∃ hub x, d.hostPut relaxed a bs = { d with counters := { d.counters with hub := hub }, hostMem := memWrite d.hostMem a bs, host := x } ∧
      x.link = .l0 ∧ x.messages = d.host.messages := by
  obtain ⟨c, hc⟩ := countHub_eq d { code := 0x101 } (ceilDiv (a % 64 + bs.length) 64)
  have htranslate : (d.host.translate a bs.length).messages = d.host.messages := by
    unfold HostLink.translate
    split <;> rfl
  unfold Device.hostPut
  rw [h]
  dsimp only
  rw [hc]
  exact ⟨c, _, rfl, (translate_fault d.host a bs.length).2.trans h, htranslate⟩

theorem reportLost_none {d : Device} (h : d.err.lostUnreported = 0) : d.reportLost = d := by
  unfold Device.reportLost
  exact if_pos (by rw [h]; rfl)

/-- The end of a record's write: the bytes, the count and the message. -/
theorem recordTail {n : Device} (hlink : n.host.link = .l0) (hlost : n.err.lostUnreported = 0) (a : Nat) (bs : List Byte) :
    ∃ c x, (((n.hostWrite a bs).countHub { code := 0x107 } 1).sendMsg 0).reportLost =
      { n with counters := c, hostMem := memWrite n.hostMem a bs, host := x } ∧ x.messages[0] = n.host.messages[0] + 1 := by
  obtain ⟨c, x, hput, hx, hmessages⟩ := hostPut_l0 hlink false a bs
  have hput' : n.hostWrite a bs = { n with counters := { n.counters with hub := c }, hostMem := memWrite n.hostMem a bs, host := x } := hput
  obtain ⟨c', hc'⟩ := countHub_eq (n.hostWrite a bs) { code := 0x107 } 1
  rw [hc', hput', sendMsg_l0 hx]
  refine ⟨_, _, reportLost_none hlost, ?_⟩
  rw [← hmessages]
  exact Vector.getElem_set_self _

/-- What the write of the oldest record leaves. -/
structure Device.RecordWritten (d e : Device) (q : QueuedRec) (rest : List QueuedRec) : Prop where
  out : d.RecordsOut e
  queue : e.err.queue = rest
  nextSeq : e.err.nextSeq = d.err.nextSeq + 1
  message : e.host.messages[0] = d.host.messages[0] + 1
  hostMem : e.hostMem = memWrite d.hostMem d.recordPlace (q.content.bytes (d.err.nextSeq % 2 ^ 32) (phaseBit d.err.nextSeq d.errSize))

theorem writeRecord_written {d : Device} {q : QueuedRec} {rest : List QueuedRec} (hqueue : d.err.queue = q :: rest) (hon : d.enabled = true)
    (harea : d.areaOn 0 = true) (hlink : d.host.link = .l0) (hroom : d.errFull = false) (hlost : d.err.lostUnreported = 0) :
    d.RecordWritten d.writeRecord q rest := by
  have hopen : d.errOpen = true := by
    unfold Device.errOpen
    rw [hon, harea, hlink]
    rfl
  have hout := writeRecord_recordsOut d
  let n : Device := { d with err := { d.err with queue := rest, nextSeq := d.err.nextSeq + 1, written := match q.ticket with
    | some t => (t, d.err.nextSeq) :: d.err.written
    | none => d.err.written } }
  have hwrite : d.writeRecord = (((n.hostWrite d.recordPlace (q.content.bytes (d.err.nextSeq % 2 ^ 32) (phaseBit d.err.nextSeq d.errSize))).countHub
      { code := 0x107 } 1).sendMsg 0).reportLost := by
    unfold Device.writeRecord
    rw [hqueue]
    refine (if_neg ?_).trans rfl
    rw [hopen, hroom]
    exact Bool.false_ne_true
  obtain ⟨c, x, htail, hmessage⟩ := recordTail (n := n) hlink hlost d.recordPlace
    (q.content.bytes (d.err.nextSeq % 2 ^ 32) (phaseBit d.err.nextSeq d.errSize))
  have hfinal := hwrite.trans htail
  exact ⟨hout, congrArg (fun e : Device => e.err.queue) hfinal, congrArg (fun e : Device => e.err.nextSeq) hfinal,
    (congrArg (fun e : Device => e.host.messages[0]) hfinal).trans hmessage, by rw [hfinal]⟩

/-- The end of a panel's moderation interval (R822). -/
def Device.moderationEnd (d : Device) (p : PanelId) : Device :=
  if d.host.moderated[p.val] && d.messageDue p then
    let e := d.sendMsg ⟨3 + p.val, by omega⟩
    { e with host := { e.host with
      lastMessage := e.host.lastMessage.set p.val (some e.now) p.isLt, moderated := e.host.moderated.set p.val false p.isLt } }
  else d

theorem moderationEnd_idle {d : Device} {p : PanelId} (h : d.host.moderated[p.val] = false ∨ d.messageDue p = false) : d.moderationEnd p = d :=
  if_neg (by obtain h | h := h <;> rw [h] <;> simp)

theorem moderationEnd_held {d : Device} {p : PanelId} (hheld : d.host.moderated[p.val] = true) (hdue : d.messageDue p = true) (hlink : d.host.link = .l0) :
    d.moderationEnd p = { d with host := { d.host with
      messages := d.host.messages.set (3 + p.val) (d.host.messages[3 + p.val] + 1)
      lastMessage := d.host.lastMessage.set p.val (some d.now) p.isLt, moderated := d.host.moderated.set p.val false p.isLt } } := by
  refine (if_pos (by rw [hheld, hdue]; rfl)).trans ?_
  rw [sendMsg_l0 hlink]

/-- Settles O47: the write of error records, and the end of a panel's moderation interval. -/
theorem recordsAndMessages : Obligations.RecordsAndMessages := by
  intro s p q rest hrails hpanels hout hwarm d e h
  refine ⟨fun hidle => ?_, fun hqueue hon harea hlink hroom hlost hwf => ?_, fun hidle => ?_, fun hheld hdue hlink => ?_⟩
  · exact exec_run (c := .errorRecordWrite) (f := fun d => d.writeRecord.resetsGoOn) rfl hrails ((congrArg Device.resetsGoOn (writeRecord_idle hidle)).trans (resetsGoOn_none hpanels hout hwarm))
  · obtain ⟨hkept, hrest, hseq, hmessage, hhost⟩ := writeRecord_written hqueue hon harea hlink hroom hlost
    generalize hw : d.writeRecord = w at hkept hrest hseq hmessage hhost
    have hpanel (o : PanelId) : w.panel o = d.panel o := by rw [hkept.eq]; rfl
    have hreset : w.reset = d.reset := by rw [hkept.eq]
    have hgo : w.resetsGoOn = w := resetsGoOn_none (fun o => by rw [hpanel]; exact hpanels o) (by rw [hreset]; exact hout) (by rw [hreset]; exact hwarm)
    have hbytes : memRead w.hostMem d.recordPlace 64 = q.content.bytes (e.nextSeq % 2 ^ 32) (phaseBit e.nextSeq d.errSize) := by
      have hread := memRead_write (q.content.bytes (e.nextSeq % 2 ^ 32) (phaseBit e.nextSeq d.errSize)) d.hostMem d.recordPlace hwf
      rw [recordBytes_length] at hread
      rw [hhost]
      exact hread
    have hothers (b : Nat) (hb : b < d.recordPlace ∨ d.recordPlace + 64 ≤ b) : memGet w.hostMem b = memGet d.hostMem b := by
      rw [hhost]
      exact memGet_write_other _ _ _ _ hwf (by rw [recordBytes_length]; exact hb)
    refine ⟨_, exec_run (c := .errorRecordWrite) (f := fun d => d.writeRecord.resetsGoOn) rfl hrails ((congrArg Device.resetsGoOn hw).trans hgo),
      rfl, ?_, ?_, ?_, ?_, hrest, hseq, hmessage, ?_, fun b hb => ?_⟩
    · rw [hkept.eq]
    · rw [hkept.eq]
    · rw [hkept.eq]
    · rw [hkept.eq]
    · exact hbytes
    · exact hothers b hb
  · exact exec_run (c := .irqModerationExpiry p) (f := fun d => d.moderationEnd p) rfl hrails (moderationEnd_idle hidle)
  · refine ⟨_, exec_run (c := .irqModerationExpiry p) (f := fun d => d.moderationEnd p) rfl hrails (moderationEnd_held hheld hdue hlink), rfl, rfl, ?_, ?_, ?_⟩
    · have hsize : 3 + p.val < 11 := by omega
      refine (Vector.getElem?_eq_getElem hsize).trans ?_
      rw [Vector.getElem?_eq_getElem hsize, Option.map_some]
      exact congrArg some (Vector.getElem_set_self _)
    · exact Vector.getElem_set_self _
    · exact Vector.getElem_set_self _

end Sys2Proof.Machine
end

section
/-! Counter dumps: their enable, their snapshots and their records. -/

namespace Sys2Proof.Machine

/-! ### The enable (R858) -/

/-- The device with the fields of HUB.DUMP_CTL that a write may change. -/
def Device.withDumpFields (d : Device) (v : BitVec 32) : Device :=
  { d with regs := { d.regs with dumpCtl := mergeBits d.regs.dumpCtl (v.setWidth 64) 0xFFFF0F00 } }

/-- A range meets none of the areas that the device writes. -/
def Device.dumpApart (d : Device) (a n : Nat) : Bool :=
  !rangesOverlap a n d.errBase (64 * 2 ^ d.errSize) && !rangesOverlap a n (fieldOf d.regs.hbBase 63 12 * 4096) 8192 &&
    !(fieldOf d.regs.crashBase 63 21 * 2 ^ 21 != 0 && rangesOverlap a n (fieldOf d.regs.crashBase 63 21 * 2 ^ 21) (2 ^ 21))

/-- The checks of the enable in service. -/
def Device.dumpCheckList (d : Device) : List (Bool × Code × Nat) :=
  let head := fieldOf d.regs.dumpHeadLine 63 6 * 64
  [(d.enabled, 0x0162, 0xFF),
    (d.dumpBase != 0, 0x0160, 0x02), (head != 0, 0x0160, 0x03), (4 ≤ d.dumpSize && d.dumpSize ≤ 12, 0x0160, 0x01),
    (!rangesOverlap d.dumpBase (5504 * 2 ^ d.dumpSize) head 64, 0x0160, 0x03),
    (d.dumpApart d.dumpBase (5504 * 2 ^ d.dumpSize), 0x0160, 0x02), (d.dumpApart head 64, 0x0160, 0x03),
    (1 ≤ fieldOf d.regs.dumpCtl 31 16 && fieldOf d.regs.dumpCtl 31 16 ≤ 65535, 0x0161, 0x01)]

theorem dumpChecks_inService {d : Device} (h : d.escalationCode = none) : d.dumpChecks = firstFailure d.dumpCheckList := by
  unfold Device.dumpChecks
  rw [h]
  rfl

/-- The device after an enable whose checks have passed. -/
def Device.dumpsEnabled (d : Device) : Device :=
  (({ d with regs := { d.regs with dumpCtl := setBit d.regs.dumpCtl 0 true } } : Device).updCounters (fun k =>
    { k with reason := 0, badReg := 0, next := 0, head := 0, waiting := [], skippedSince := 0, lastDump := none })).holdLine
      (fieldOf d.regs.dumpHeadLine 63 6 * 64)

theorem dumpCtlWrite_ask {d : Device} {v : BitVec 32} (hoff : d.dumpOn = false) (hen : v.getLsbD 0 = true) (hservice : d.escalationCode = none) :
    Shows (d.withDumpFields v).dumpCheckList
      (fun c b => d.dumpCtlWrite (v.setWidth 64) 0xFFFFFFFF = (d.withDumpFields v).updCounters (fun k => { k with reason := c, badReg := b }))
      (d.dumpCtlWrite (v.setWidth 64) 0xFFFFFFFF = (d.withDumpFields v).dumpsEnabled) := by
  have hask : bitOf (v.setWidth 64) 0 = true := by rw [bitOf_setWidth, hen]
  have hchecks : (d.withDumpFields v).dumpChecks = firstFailure (d.withDumpFields v).dumpCheckList :=
    dumpChecks_inService (d := d.withDumpFields v) hservice
  have hwrite : d.dumpCtlWrite (v.setWidth 64) 0xFFFFFFFF = match (d.withDumpFields v).dumpChecks with
      | some (c, b) => (d.withDumpFields v).updCounters (fun k => { k with reason := c, badReg := b })
      | none => (d.withDumpFields v).dumpsEnabled := by
    unfold Device.dumpCtlWrite
    simp only [hoff, hask] <;> rfl
  refine shows_of_match (fun c b hfail => ?_) (fun hpass => ?_)
  · rw [hwrite, hchecks, hfail]
  · rw [hwrite, hchecks, hpass]

theorem holdLine_host (d : Device) (a : Nat) : ∃ h, d.holdLine a = { d with host := h } := by
  unfold Device.holdLine
  dsimp only
  split
  · exact ⟨_, rfl⟩
  · exact ⟨_, rfl⟩

theorem withDumpFields_off {d : Device} (hoff : d.dumpOn = false) (v : BitVec 32) : (d.withDumpFields v).dumpOn = false := by
  show bitOf (mergeBits d.regs.dumpCtl (v.setWidth 64) 0xFFFF0F00) 0 = false
  rw [bitOf_mergeBits, if_neg (by decide)]
  exact hoff

/-- What an enable shows, and what it leaves in every case. -/
theorem dumpEnable_shows {d : Device} {v : BitVec 32} (hoff : d.dumpOn = false) (hen : v.getLsbD 0 = true) (hservice : d.escalationCode = none) :
    let e := d.dumpCtlWrite (v.setWidth 64) 0xFFFFFFFF
    (e.contexts = d.contexts ∧ e.mem = d.mem ∧ e.panels = d.panels) ∧
      Shows (d.withDumpFields v).dumpCheckList
        (fun c b => e.dumpOn = false ∧ e.counters = { d.counters with reason := c, badReg := b })
        (e.dumpOn = true ∧ e.counters =
          { d.counters with reason := 0, badReg := 0, next := 0, head := 0, waiting := [], skippedSince := 0, lastDump := none }) := by
  intro e
  have hshows := dumpCtlWrite_ask hoff hen hservice
  have hpass (h : e = (d.withDumpFields v).dumpsEnabled) : (e.contexts = d.contexts ∧ e.mem = d.mem ∧ e.panels = d.panels) ∧ e.dumpOn = true ∧ e.counters =
      { d.counters with reason := 0, badReg := 0, next := 0, head := 0, waiting := [], skippedSince := 0, lastDump := none } := by
    unfold Device.dumpsEnabled at h
    obtain ⟨x, hx⟩ := holdLine_host (({ d.withDumpFields v with regs := { (d.withDumpFields v).regs with dumpCtl := setBit (d.withDumpFields v).regs.dumpCtl 0 true } }
      : Device).updCounters (fun k => { k with reason := 0, badReg := 0, next := 0, head := 0, waiting := [], skippedSince := 0, lastDump := none }))
      (fieldOf (d.withDumpFields v).regs.dumpHeadLine 63 6 * 64)
    rw [hx] at h
    rw [h]
    exact ⟨⟨rfl, rfl, rfl⟩, bitOf_setBit _ 0 0 true (by decide), rfl⟩
  refine ⟨hshows.elim (fun c b h => by rw [show e = _ from h]; exact ⟨rfl, rfl, rfl⟩) (fun h => (hpass h).1), hshows.mono (fun c b h => ?_) (fun h => (hpass h).2)⟩
  rw [show e = _ from h]
  exact ⟨withDumpFields_off hoff v, rfl⟩

theorem dumpApart_false (d : Device) (a n : Nat) : d.dumpApart a n = false ↔ rangesOverlap a n d.errBase (64 * 2 ^ d.errSize) = true ∨
    rangesOverlap a n (fieldOf d.regs.hbBase 63 12 * 4096) 8192 = true ∨
    fieldOf d.regs.crashBase 63 21 * 2 ^ 21 ≠ 0 ∧ rangesOverlap a n (fieldOf d.regs.crashBase 63 21 * 2 ^ 21) (2 ^ 21) = true := by
  unfold Device.dumpApart
  rw [Bool.and_eq_false_iff, Bool.and_eq_false_iff, Bool.not_eq_false', Bool.not_eq_false', Bool.not_eq_false', Bool.and_eq_true, bne_iff_ne, or_assoc]

theorem dumpCtlWrite_on {d : Device} {v : BitVec 32} (hon : d.dumpOn = true) : d.dumpCtlWrite (v.setWidth 64) 0xFFFFFFFF =
    if v.getLsbD 0 then d else
      ({ d with regs := { d.regs with dumpCtl := setBit d.regs.dumpCtl 0 false } } : Device).dropLine (fieldOf d.regs.dumpHeadLine 63 6 * 64) := by
  have hask : bitOf (v.setWidth 64) 0 = v.getLsbD 0 := bitOf_setWidth v 0
  unfold Device.dumpCtlWrite
  cases hen : v.getLsbD 0 <;> simp only [hon, hask, hen] <;> rfl

/-- A field is below the power of two of its width. -/
theorem fieldOf_lt (v : BitVec 64) (hi lo : Nat) : fieldOf v hi lo < 2 ^ (hi + 1 - lo) := Nat.mod_lt _ (Nat.two_pow_pos _)

/-! ### Snapshots (R852, R855) -/

theorem writePage_off {d : Device} {id : Code} (h : ∀ c ∈ d.contexts, c.rights.getLsbD 0 = false) : d.writePage id = d := by
  unfold Device.writePage
  split
  · rfl
  next c hc => exact if_pos (by rw [h c (List.mem_of_find?_eq_some hc)]; rfl)

theorem writeDump_waits {d : Device} (h : d.counters.waiting = [] ∨ d.dumpOn = false ∨ d.areaOn 4 = false ∨ d.mayComplete = false ∨
    2 ^ d.dumpSize ≤ d.counters.next - d.counters.head) : d.writeDump = d := by
  unfold Device.writeDump
  dsimp only
  split
  · rfl
  next bytes tags rest hwaiting =>
    refine if_pos ?_
    obtain h | h | h | h | h := h
    · exact absurd (hwaiting.symm.trans h) (by simp)
    · simp [h]
    · simp [h]
    · simp [h]
    · simp [h]

/-- The device when a snapshot is noted at its stitch. -/
def Device.notedDump (d : Device) : Device := d.updCounters (fun k => { k with lastDump := some (d.position / 4096) })

theorem notedDump_bytes (d : Device) : d.notedDump.dumpBytes = d.dumpBytes := rfl

theorem updCounters_congr {d : Device} {f g : Counters → Counters} (h : f d.counters = g d.counters) : d.updCounters f = d.updCounters g :=
  congrArg (fun k => { d with counters := k }) h

theorem takeSnapshot_skips {d : Device} (harea : d.areaOn 4 = false) (hfull : 2 ≤ d.counters.waiting.length) :
    d.takeSnapshot = d.notedDump.updCounters (fun k => { k with skipped := satTo 32 (k.skipped + 1), skippedSince := k.skippedSince + 1 }) := by
  unfold Device.takeSnapshot
  rw [writeDump_waits (.inr (.inr (.inl harea)))]
  exact if_pos hfull

theorem takeSnapshot_first {d : Device} (hnone : d.counters.waiting = []) (hoff : ∀ c ∈ d.contexts, c.rights.getLsbD 0 = false) :
    ∃ tags, d.takeSnapshot = (d.notedDump.updCounters (fun k => { k with waiting := [(d.dumpBytes, tags)] })).drawTags := by
  have hpages : d.notedDump.contexts.foldl (fun d c => d.writePage c.id) d.notedDump = d.notedDump := foldl_fixed_mem (fun c _ => writePage_off hoff)
  have hwaiting : d.notedDump.counters.waiting = [] := hnone
  unfold Device.takeSnapshot
  rw [writeDump_waits (.inl hnone)]
  dsimp only
  rw [show d.updCounters _ = d.notedDump from rfl, hwaiting, if_neg (show ¬ 2 ≤ ([] : List (List Byte × BitVec 8)).length by decide), hpages]
  refine ⟨BitVec.ofNat 8 ((List.finRange 8).map (fun p => if (d.notedDump.panel p).tag.any TagRec.ready then 2 ^ p.val else 0)).sum,
    congrArg Device.drawTags (updCounters_congr ?_)⟩
  rw [hwaiting, List.nil_append, notedDump_bytes]

/-! ### Dump records (R854, R855) -/

/-- The bytes of a dump record. -/
def Device.dumpRecord (d : Device) (bytes : List Byte) : List Byte :=
  bytes.take 3 ++ leBytes 1 (phaseBit d.counters.next d.dumpSize) ++ leBytes 4 (d.counters.next % 2 ^ 32) ++ (bytes.drop 8).take 8
    ++ leBytes 4 (satTo 32 d.counters.skippedSince) ++ bytes.drop 20

theorem writeDump_writes {d : Device} {bytes : List Byte} {tags : BitVec 8} {rest : List (List Byte × BitVec 8)}
    (hwaiting : d.counters.waiting = (bytes, tags) :: rest) (hon : d.dumpOn = true) (harea : d.areaOn 4 = true) (hlink : d.host.link = .l0)
    (hroom : d.counters.next - d.counters.head < 2 ^ d.dumpSize) :
    ∃ hub x f, d.writeDump = ({ d with
      counters := { d.counters with hub := hub, waiting := rest, next := d.counters.next + 1, skippedSince := 0 }
      hostMem := memWrite d.hostMem (d.dumpBase + 5504 * (d.counters.next % 2 ^ d.dumpSize)) (d.dumpRecord bytes), host := x } : Device).mapPanels f := by
  obtain ⟨hub, x, hput, -⟩ := hostPut_l0 hlink false (d.dumpBase + 5504 * (d.counters.next % 2 ^ d.dumpSize)) (d.dumpRecord bytes)
  have hopen : ¬ (!d.dumpOn || !d.areaOn 4 || !d.mayComplete || decide (2 ^ d.dumpSize ≤ d.counters.next - d.counters.head)) = true := by
    have hmay : d.mayComplete = true := by
      unfold Device.mayComplete
      rw [hlink]
    rw [hon, harea, hmay, decide_eq_false (Nat.not_le.2 hroom)]
    decide
  refine ⟨hub, x, fun p q => if tags.getLsbD p.val then { q with tag := none } else q, ?_⟩
  unfold Device.writeDump
  dsimp only
  rw [hwaiting]
  refine (if_neg hopen).trans ?_
  exact congrArg (fun e : Device => (e.updCounters (fun k => { k with waiting := rest, next := k.next + 1, skippedSince := 0 })).mapPanels
    (fun p q => if tags.getLsbD p.val then { q with tag := none } else q)) hput

/-- Settles O48: counter dumps. -/
theorem counterDumps : Obligations.CounterDumps := by
  intro s v bytes tags rest hrails d k ctl size base head crash meets same
  refine ⟨fun hoff hen hservice => ?_, fun hon hen => ?_, fun hon hclear => ?_, fun hearly => ?_, fun hdue hrights => ⟨fun hnone => ?_, fun hfull harea => ?_⟩,
    fun hwaits => ?_, fun hwaiting hon harea hlink hroom hwf => ?_⟩
  · obtain ⟨hrest, hresult⟩ := dumpEnable_shows hoff hen (escalationCode_inService hservice)
    refine completes_run (c := .dumpEnable v) (f := fun d => d.dumpCtlWrite (v.setWidth 64) 0xFFFFFFFF) rfl hrails
      ⟨⟨rfl, hrest.1, hrest.2.1⟩, hrest.2.2, ?_⟩
    refine hresult.step ?_ fun h => h.step ?_ fun h => h.step ?_ fun h => h.step ?_ fun h => h.step ?_ fun h => h.step ?_ fun h =>
      h.step ?_ fun h => h.step ?_ fun h => h
    · exact Iff.rfl
    · exact bne_eq_false_iff_eq
    · exact bne_eq_false_iff_eq
    · exact outOfRange_iff 4 12 _
    · exact iff_of_eq (Bool.not_eq_false' _)
    · exact dumpApart_false _ _ _
    · exact dumpApart_false _ _ _
    · have hfield : fieldOf (d.withDumpFields v).regs.dumpCtl 31 16 < 65536 := fieldOf_lt _ 31 16
      exact (outOfRange_iff 1 65535 _).trans ⟨fun h => h.resolve_right (Nat.not_lt.2 (Nat.le_of_lt_succ hfield)), .inl⟩
  · exact exec_run rfl hrails ((dumpCtlWrite_on hon).trans (if_pos hen))
  · refine ⟨_, exec_run (c := .dumpEnable v) (f := fun d => d.dumpCtlWrite (v.setWidth 64) 0xFFFFFFFF) rfl hrails
      ((dumpCtlWrite_on hon).trans (if_neg (by rw [hclear]; exact Bool.false_ne_true))), ⟨rfl, rfl, rfl⟩, ?_, rfl⟩
    exact bitOf_setBit _ 0 0 false (by decide)
  · exact exec_run (c := .counterDumpSnapshot) (f := fun d => if d.snapshotDue then d.takeSnapshot else d) rfl hrails
      (if_neg (by rw [hearly]; exact Bool.false_ne_true))
  · obtain ⟨t, ht⟩ := takeSnapshot_first hnone hrights
    exact ⟨_, exec_run (c := .counterDumpSnapshot) (f := fun d => if d.snapshotDue then d.takeSnapshot else d) rfl hrails ((if_pos hdue).trans ht),
      ⟨rfl, rfl, rfl⟩, rfl, rfl, rfl, rfl, rfl⟩
  · exact ⟨_, exec_run (c := .counterDumpSnapshot) (f := fun d => if d.snapshotDue then d.takeSnapshot else d) rfl hrails
      ((if_pos hdue).trans (takeSnapshot_skips harea hfull)), ⟨rfl, rfl, rfl⟩, rfl, rfl, rfl, rfl, rfl⟩
  · exact exec_run rfl hrails (writeDump_waits hwaits)
  · obtain ⟨hub, x, f, hwrite⟩ := writeDump_writes hwaiting hon harea hlink hroom
    have hread := memRead_write (d.dumpRecord bytes) d.hostMem (d.dumpBase + 5504 * (d.counters.next % 2 ^ d.dumpSize)) hwf
    exact ⟨_, exec_run (c := .dumpRecordWrite) (f := Device.writeDump) rfl hrails hwrite, ⟨rfl, rfl, rfl⟩, rfl, rfl, rfl, hread⟩

end Sys2Proof.Machine
end

section
/-! A panel's reset by the host, and its end. -/

namespace Sys2Proof.Machine

/-! ### The write of RESET_CTL (R660) -/

theorem panelResetWrite_ignored {d : Device} (p : PanelId) {v : BitVec 32} (h : v.getLsbD 0 = false ∨ d.reset.escalation ≠ .inService) :
    d.panelResetWrite p (v.setWidth 64) = d := by
  refine if_pos ?_
  rw [Bool.or_eq_true, Bool.not_eq_true', bitOf_setWidth]
  refine h.imp_right (fun h => ?_)
  unfold Device.escalationCode
  cases hesc : d.reset.escalation with
  | inService => exact absurd hesc h
  | outOfService => rfl
  | serviceRequired => rfl

theorem panelResetWrite_resets {d : Device} (p : PanelId) {v : BitVec 32} (hask : v.getLsbD 0 = true) (hservice : d.reset.escalation = .inService) :
    ∃ n r, r.reason = 0x0220 ∧ d.panelResetWrite p (v.setWidth 64) = ({ d with fresh := n } : Device).panelReset p r 0 := by
  refine ⟨_, _, ?_, (if_neg ?_).trans rfl⟩
  · rfl
  · rw [bitOf_setWidth, hask, escalationCode_inService hservice]
    exact Bool.false_ne_true

/-- A reset waits while completions are to point to its record. -/
theorem panelGoOn_waits {d : Device} {p : PanelId} {r : PanelReset} (hrun : (d.panel p).resetRun = some r) (hctx : ∃ c ∈ d.contexts, c.panel = p)
    (hmay : d.mayComplete = true) (hunwritten : d.writtenSeq r.ticket = none) : d.panelGoOn p = d := by
  obtain ⟨c, hc, hp⟩ := hctx
  have hsome : (d.contexts.filter (fun c => c.panel = p)).isEmpty = false := by
    rw [List.isEmpty_eq_false_iff_exists_mem]
    exact ⟨c, List.mem_filter.2 ⟨hc, decide_eq_true hp⟩⟩
  unfold Device.panelGoOn
  rw [hrun]
  refine if_pos ?_
  rw [hunwritten, hsome, hmay]
  rfl

theorem writtenSeq_none {d : Device} {t : Nat} (h : ∀ w ∈ d.err.written, w.1 < t) : d.writtenSeq t = none := by
  unfold Device.writtenSeq
  rw [Option.map_eq_none_iff, List.find?_eq_none]
  intro w hw
  have := h w hw
  rw [decide_eq_true_eq]
  omega

theorem frontCommand_down {d : Device} (h : d.hostUp = false) : d.frontCommand = none := by
  unfold Device.frontCommand
  refine if_pos ?_
  simp [h]

theorem endContext_none (d : Device) (id : Code) : ∀ k ∈ (d.endContext id).contexts, k.id ≠ id := by
  unfold Device.endContext
  split
  next hnone => exact fun k hk => by simpa using List.find?_eq_none.1 hnone k hk
  next => exact fun k hk => bne_iff_ne.1 (List.mem_filter.1 hk).2

/-- The only context of a panel ends with the panel's reset when no completion can be written. -/
theorem panelGoOn_ends {d : Device} {p : PanelId} {r : PanelReset} {c : Context} (hrun : (d.panel p).resetRun = some r) (hsound : r.suspects = 0)
    (hcontexts : d.contexts = [c]) (hp : c.panel = p) (hlink : d.host.link = .detect) (hlost : d.SampleLost p) :
    (∀ k ∈ (d.panelGoOn p).contexts, k.id ≠ c.id) ∧ ((d.panelGoOn p).panel p).state = .retraining := by
  have hone : d.contexts.filter (fun c => c.panel = p) = [c] := by
    rw [hcontexts, List.filter_cons_of_pos (by rw [decide_eq_true_eq]; exact hp), List.filter_nil]
  have hcmd : d.endCommand (fun c => c.panel = p) 0x0222 = d := by
    unfold Device.endCommand
    rw [frontCommand_down (by unfold Device.hostUp; rw [hlink]; rfl)]
  have hmay : d.mayComplete = false := by
    unfold Device.mayComplete
    rw [hlink]
  have hgo : d.panelGoOn p = ((d.endBy 0x0222 (some r.ticket) c.id).updPanel p Panel.logicReset).updateGuard := by
    unfold Device.panelGoOn
    rw [hrun]
    dsimp only
    rw [hone, hsound, maskStacks_zero, crashSample_lost hlost, List.foldl_nil, hcmd]
    exact if_neg (by rw [hmay, Bool.and_false]; exact Bool.false_ne_true)
  obtain ⟨e, he⟩ := updateGuard_eq ((d.endBy 0x0222 (some r.ticket) c.id).updPanel p Panel.logicReset)
  rw [hgo, he]
  refine ⟨endContext_none _ c.id, ?_⟩
  have hpanel := updPanel_panel (d.endBy 0x0222 (some r.ticket) c.id) p Panel.logicReset
  exact (congrArg Panel.state hpanel).trans rfl

/-! ### The end of a panel's reset (R665, R666) -/

/-- A lost stack. -/
def Device.Lost (d : Device) (k : Nat) : Prop := k ∈ d.lostStacks.map (fun l => l.1)

theorem loseStack_lost (d : Device) (p : PanelId) (s : Nat) : (d.loseStack p s).Lost (4 * p.val + s) := List.mem_cons_self

theorem loseStack_keeps {d : Device} {k : Nat} (h : d.Lost k) (p : PanelId) (s : Nat) : (d.loseStack p s).Lost k := by
  by_cases hk : k = 4 * p.val + s
  · exact hk ▸ loseStack_lost d p s
  · obtain ⟨l, hl, rfl⟩ := List.mem_map.1 h
    exact List.mem_cons_of_mem _ (List.mem_map.2 ⟨l, List.mem_filter.2 ⟨hl, bne_iff_ne.2 hk⟩, rfl⟩)

theorem loseStacks_lost {l : List Nat} {p : PanelId} {s : Nat} (h : s ∈ l) (d : Device) :
    (l.foldl (fun d s => d.loseStack p s) d).Lost (4 * p.val + s) := by
  induction l generalizing d with
  | nil => exact absurd h List.not_mem_nil
  | cons t ts ih =>
    rw [List.foldl_cons]
    by_cases hts : s ∈ ts
    · exact ih hts _
    · obtain rfl : s = t := (List.mem_cons.1 h).resolve_right hts
      exact List.foldlRecOn (motive := fun e : Device => e.Lost (4 * p.val + s)) ts _ (loseStack_lost d p s) (fun _ he _ _ => loseStack_keeps he p _)

theorem mem_maskStacks {v : BitVec 4} {s : Nat} : s ∈ maskStacks v ↔ s < 4 ∧ v.getLsbD s = true := by
  unfold maskStacks
  rw [List.mem_filter, List.mem_range]

theorem loseStacks_eq (l : List Nat) (d : Device) (p : PanelId) :
    ∃ x, l.foldl (fun d s => d.loseStack p s) d = { d with lostStacks := x } := by
  refine List.foldlRecOn (motive := fun e : Device => ∃ x, e = { d with lostStacks := x }) l _ ⟨d.lostStacks, rfl⟩ (fun e he s _ => ?_)
  obtain ⟨x, rfl⟩ := he
  exact ⟨_, rfl⟩

theorem suspectRecords_eq (l : List Nat) (d : Device) (p : PanelId) :
    ∃ e, l.foldl (fun d s => d.raise (suspectRecord p s)) d = { d with err := e } := by
  refine List.foldlRecOn (motive := fun e : Device => ∃ x, e = { d with err := x }) l _ ⟨d.err, rfl⟩ (fun e he s _ => ?_)
  obtain ⟨x, rfl⟩ := he
  exact raise_eq { d with err := x } (suspectRecord p s)

/-- The panel with the stacks that retrained. -/
def Panel.retrained (q : Panel) (v : BitVec 4) : Panel :=
  { q with state := .ready, suspects := q.suspects ||| ~~~v, mem := { q.mem with trained := v } }

theorem panelResetDone_other {d : Device} {p : PanelId} (h : (d.panel p).state ≠ .retraining) (v : BitVec 4) : d.panelResetDone p v = d :=
  if_pos (bne_iff_ne.2 h)

/-- The record and the message of a panel's reset that has ended (R661, R679). -/
def Device.tellReset (d : Device) (p : PanelId) : Device :=
  let (d, m) := d.freeMech
  let (d, t) := d.raiseNeeded { reason := 0x0224, mech := m, outcome := 2, panel := p.val }
  let d := d.sendMsg ⟨3 + p.val, by omega⟩
  let d := if d.reset.outDue = some p && d.escalationCode.isNone then
      { d with reset := { d.reset with outDue := none, outEnter := some t } }
    else d
  d.drainErr.outGoOn

theorem tellReset_plain {d : Device} {p : PanelId} (hdue : d.reset.outDue ≠ some p) (hlink : d.host.link = .l0) :
    ∃ e n, d.tellReset p = (({ d with
      err := e, fresh := n
      host := { d.host with messages := d.host.messages.set (3 + p.val) (d.host.messages[3 + p.val] + 1) } } : Device).drainErr).outGoOn := by
  obtain ⟨e, he, -⟩ := raiseNeeded_wrote d.freeMech.1 { reason := 0x0224, mech := d.freeMech.2, outcome := 2, panel := p.val }
  have hsent := sendMsg_l0 (d := { d.freeMech.1 with err := e }) hlink ⟨3 + p.val, by omega⟩
  refine ⟨e, d.fresh + 1, ?_⟩
  unfold Device.tellReset
  dsimp only
  rw [he, hsent]
  refine congrArg (fun e : Device => e.drainErr.outGoOn) (if_neg ?_)
  rw [Bool.and_eq_true, decide_eq_true_eq]
  exact fun h => hdue h.1

/-- The end of a reset, up to the write of its record. -/
theorem panelResetDone_ends {d : Device} {p : PanelId} (h : (d.panel p).state = .retraining) (hdue : d.reset.outDue ≠ some p) (hlink : d.host.link = .l0)
    (v : BitVec 4) : ∃ e x n, d.panelResetDone p v = (({ d.updPanel p (fun q => q.retrained v) with
      err := e, lostStacks := x, fresh := n
      host := { d.host with messages := d.host.messages.set (3 + p.val) (d.host.messages[3 + p.val] + 1) } } : Device).drainErr).outGoOn ∧
        ∀ k < 4, v.getLsbD k = false → 4 * p.val + k ∈ x.map (fun l => l.1) := by
  obtain ⟨e₁, he₁⟩ := suspectRecords_eq (maskStacks (~~~v &&& ~~~(d.panel p).suspects)) d p
  obtain ⟨x, hx⟩ := loseStacks_eq (maskStacks (~~~v)) { d with err := e₁ } p
  have hlost (k : Nat) (hk : k < 4) (hv : v.getLsbD k = false) : 4 * p.val + k ∈ x.map (fun l => l.1) := by
    have hmem : k ∈ maskStacks (~~~v) := mem_maskStacks.2 ⟨hk, by rw [BitVec.getLsbD_not, hv, decide_eq_true hk]; rfl⟩
    have := loseStacks_lost (p := p) hmem { d with err := e₁ }
    rw [hx] at this
    exact this
  have hdone : d.panelResetDone p v = (((maskStacks (~~~v)).foldl (fun d s => d.loseStack p s)
      ((maskStacks (~~~v &&& ~~~(d.panel p).suspects)).foldl (fun d s => d.raise (suspectRecord p s)) d)).updPanel p (fun q => q.retrained v)).tellReset p :=
    (if_neg (by rw [h]; decide)).trans rfl
  rw [he₁, hx] at hdone
  obtain ⟨e₂, n, hend⟩ := tellReset_plain (d := ({ d with err := e₁, lostStacks := x } : Device).updPanel p (fun q => q.retrained v)) hdue hlink
  exact ⟨e₂, x, n, hdone.trans hend, hlost⟩

/-- Written records send the message of the error ring alone. -/
theorem writeRecord_messages (d : Device) {k : Nat} (hk : k ≠ 0) : d.writeRecord.host.messages[k]? = d.host.messages[k]? := by
  have hsend (e : Device) : (e.sendMsg 0).host.messages[k]? = e.host.messages[k]? := by
    unfold Device.sendMsg
    split
    · exact Vector.getElem?_set_ne (show 0 < 11 by decide) hk.symm
    · rfl
    · rfl
  have hcount (e : Device) (x : PmcEvent) (n : Nat) : (e.countHub x n).host = e.host := by
    obtain ⟨c, hc⟩ := countHub_eq e x n
    rw [hc]
  have hput (e : Device) (a : Nat) (bs : List Byte) : (e.hostWrite a bs).host.messages[k]? = e.host.messages[k]? := by
    unfold Device.hostWrite Device.hostPut
    split
    · dsimp only
      rw [hcount]
      show (e.host.translate a bs.length).messages[k]? = _
      unfold HostLink.translate
      split <;> rfl
    · rfl
    · rfl
  have hlost (e : Device) : e.reportLost.host = e.host := by
    unfold Device.reportLost
    dsimp only
    split
    · rfl
    · exact raise_host _ _
  unfold Device.writeRecord
  split
  · rfl
  · split
    · rfl
    · rw [hlost, hsend, hcount, hput]

theorem drainErr_messages (d : Device) {k : Nat} (hk : k ≠ 0) : d.drainErr.host.messages[k]? = d.host.messages[k]? :=
  List.foldlRecOn (motive := fun e : Device => e.host.messages[k]? = d.host.messages[k]?) _ _ rfl
    (fun e he _ _ => (writeRecord_messages e hk).trans he)

/-- Settles O49: a panel's reset, and its end. -/
theorem panelResets : Obligations.PanelResets := by
  intro s p v retrained c hrails hwarm d q others counted
  have hran {e : Device} (h : d.panelResetWrite p (v.setWidth 64) = e) : exec (.panelReset p v) s = .next { s with dev := e } :=
    exec_run (f := fun d => d.panelResetWrite p (v.setWidth 64)) rfl hrails h
  refine ⟨fun h => exec_run (f := fun d => d.panelResetWrite p (v.setWidth 64)) rfl hrails (panelResetWrite_ignored p h),
    fun hask hservice hidle hqueues hstalled hspool harea hbase hvalid => ⟨fun hfree => ?_, fun hctx hlink hoff hwritten => ?_, fun hcontexts hp hlink => ?_⟩,
    fun h => exec_run (f := fun d => d.panelResetDone p retrained) rfl hrails (panelResetDone_other h retrained), fun hstate hdue hout hlink => ?_⟩
  · obtain ⟨n, r, hreason, hreset⟩ := panelResetWrite_resets (d := d) p hask hservice
    have hdone := panelReset_done (d := { d with fresh := n }) r hidle hwarm hqueues hstalled hfree ⟨hbase, harea, hvalid⟩
    obtain ⟨m, k, hpanel⟩ := hdone.panel
    refine ⟨_, hran hreset, ⟨rfl, hdone.others hspool⟩, ⟨?_, ?_, hdone.window⟩, hdone.contexts, hdone.mem, ?_⟩
    · exact (congrArg Panel.resets hpanel).trans rfl
    · exact (congrArg Panel.lastCause hpanel).trans hreason
    · rw [hpanel]
      exact ⟨rfl, bitOf_setBit _ 0 0 false (by decide), bitOf_setBit _ 0 0 false (by decide), rfl⟩
  · obtain ⟨n, r, hreason, hreset⟩ := panelResetWrite_resets (d := d) p hask hservice
    obtain ⟨heq, hpanel, hothers, hkept, -⟩ := beginReset_begun (d := { d with fresh := n }) r hqueues hstalled
    rw [panelReset_begins (d := { d with fresh := n }) r hidle hwarm] at hreset
    generalize ({ d with fresh := n } : Device).beginReset p r = b at hreset heq hpanel hothers hkept
    have hclosed : b.drainErr = b := drainErr_closed (errOpen_disabled (by rw [heq]; exact hoff))
    have hcontexts : b.contexts = d.contexts := by rw [heq]
    rw [hclosed, panelGoOn_waits (r := ⟨d.err.nextTicket, r.reason, r.ctx, ({ d with fresh := n } : Device).position, 0⟩) (by rw [hpanel]) (hcontexts ▸ hctx)
      (by rw [heq]; unfold Device.mayComplete; rw [hlink]) (writtenSeq_none (by rw [hkept]; exact hwritten))] at hreset
    refine ⟨_, hran hreset, ⟨rfl, hothers hspool⟩, ⟨?_, ?_, ?_⟩, hcontexts, ?_, ?_⟩
    · exact (congrArg Panel.resets hpanel).trans rfl
    · rw [hpanel]
      exact hreason
    · rw [heq]
    · rw [hpanel]
    · rw [hpanel]
      exact Option.some_ne_none _
  · obtain ⟨n, r, hreason, hreset⟩ := panelResetWrite_resets (d := d) p hask hservice
    obtain ⟨heq, hpanel, -, -, -⟩ := beginReset_begun (d := { d with fresh := n }) r hqueues hstalled
    rw [panelReset_begins (d := { d with fresh := n }) r hidle hwarm] at hreset
    generalize ({ d with fresh := n } : Device).beginReset p r = b at hreset heq hpanel
    have hdown : b.host.link = .detect := by rw [heq]; exact hlink
    have hclosed : b.drainErr = b := drainErr_closed (by unfold Device.errOpen; rw [hdown, Bool.and_false])
    rw [hclosed] at hreset
    have hsample : b.SampleLost p := ⟨by rw [heq]; exact hbase, by rw [heq]; exact harea, by rw [heq]; exact hvalid⟩
    obtain ⟨hgone, hretrains⟩ := panelGoOn_ends (d := b) (p := p) (r := ⟨d.err.nextTicket, r.reason, r.ctx, ({ d with fresh := n } : Device).position, 0⟩)
      (by rw [hpanel]) rfl (by rw [heq]; exact hcontexts) hp hdown hsample
    exact ⟨_, hran hreset, rfl, hgone, hretrains⟩
  · obtain ⟨e, x, n, hdone, hlost⟩ := panelResetDone_ends hstate hdue hlink retrained
    generalize hf : ({ d.updPanel p (fun q => q.retrained retrained) with
      err := e, lostStacks := x, fresh := n
      host := { d.host with messages := d.host.messages.set (3 + p.val) (d.host.messages[3 + p.val] + 1) } } : Device) = f at hdone
    have hkept := drainErr_recordsOut f
    have hmessages := drainErr_messages f (k := 3 + p.val) (by omega)
    generalize f.drainErr = g at hdone hkept hmessages
    have hpanels (o : PanelId) : g.panel o = (d.updPanel p (fun q => q.retrained retrained)).panel o := by
      rw [hkept.eq, ← hf]
      rfl
    have hgo : g.outGoOn = g := outGoOn_none (by rw [hkept.eq, ← hf]; exact hout)
    refine ⟨_, exec_run (c := .panelResetDone p retrained) (f := fun d => d.panelResetDone p retrained) rfl hrails (hdone.trans hgo),
      ⟨rfl, fun o ho => (hpanels o).trans (updPanel_other d ho _)⟩, ?_, ?_, ?_, ?_, fun k hk hv => ?_⟩
    · rw [hkept.eq, ← hf]
      rfl
    · rw [hkept.eq, ← hf]
      rfl
    · exact (hpanels p).trans (updPanel_panel d p _)
    · have hsize : 3 + p.val < 11 := by omega
      rw [hmessages, ← hf, Vector.getElem?_eq_getElem hsize, Vector.getElem?_eq_getElem hsize, Option.map_some]
      exact congrArg some (Vector.getElem_set_self _)
    · rw [hkept.eq, ← hf]
      exact hlost k hk hv

end Sys2Proof.Machine
end

section
/-! Device resets that the host asks for, their windows, and the training of the stacks after them. -/

namespace Sys2Proof.Machine

/-! ### The write of RESET_CTL (R674, R677) -/

/-- The escalation after a counted reset. -/
theorem countReset_escalation {d : Device} (h : d.reset.escalation = .inService) :
    (windowOf d.now 60 d.reset.deviceWindow ≠ [] → d.countReset.reset.escalation = .serviceRequired) ∧
    (windowOf d.now 60 d.reset.deviceWindow = [] → d.countReset.reset.escalation = .inService) := by
  have hcount : d.countReset.reset.escalation = if (windowOf d.now 60 d.reset.deviceWindow).isEmpty then d.reset.escalation else .serviceRequired := rfl
  rw [hcount]
  refine ⟨fun hne => if_neg (fun h => hne (List.isEmpty_iff.1 h)), fun hnil => ?_⟩
  rw [hnil]
  exact h

/-- A module that has been reset, with what the reset leaves of its escalation in the device and in the vault. -/
structure State.ResetTo (s t : State) (cause : Code) (kind : Nat) : Prop where
  dev : s.dev.ResetTo t.dev cause kind
  again : windowOf s.dev.now 60 s.dev.reset.deviceWindow ≠ [] → t.dev.reset.escalation = .serviceRequired ∧ t.vault.serviceRequired = true
  first : windowOf s.dev.now 60 s.dev.reset.deviceWindow = [] → t.dev.reset.escalation = .inService ∧ t.vault = s.vault

/-- A reset of a module in service is recorded for good when it is the second of its window. -/
theorem keepService_resetTo {s : State} {e : Device} {cause : Code} {kind : Nat} (hservice : s.dev.reset.escalation = .inService)
    (h : s.dev.ResetTo e cause kind) : s.ResetTo ({ s with dev := e } : State).keepService cause kind := by
  obtain ⟨hagain, hfirst⟩ := countReset_escalation hservice
  have hesc := h.escalation
  refine ⟨by rw [State.keepService_dev]; exact h, fun hne => ?_, fun hnil => ?_⟩
  · rw [hagain hne, if_pos rfl] at hesc
    unfold State.keepService
    rw [if_pos hesc]
    exact ⟨hesc, rfl⟩
  · rw [hfirst hnil, if_neg (by decide)] at hesc
    unfold State.keepService
    rw [if_neg (by rw [hesc]; decide)]
    exact ⟨hesc, rfl⟩

/-- A write that asks for nothing, or comes in SERVICE_REQUIRED, resets nothing. -/
theorem resetCtlWrite_ignored {s : State} {v : BitVec 64} (h : s.dev.reset.escalation = .serviceRequired ∨ (bitOf v 0 = false ∧ bitOf v 1 = false)) (z i : Bool) :
    s.resetCtlWrite v z i = s := by
  refine if_pos ?_
  obtain h | ⟨h₀, h₁⟩ := h
  · rw [h]
    rfl
  · rw [h₀, h₁]
    simp

theorem resetCtlWrite_cold {s : State} {v : BitVec 64} (hrails : s.pins.railsOn = true) (hservice : s.dev.reset.escalation = .inService)
    (hcold : bitOf v 1 = true) (z i : Bool) :
    ∃ n m, s.resetCtlWrite v z i = ({ s with dev := { s.dev with fresh := n } } : State).coldReset 0x0143 (some (resetRecord 0x0143 m)) := by
  refine ⟨_, _, (if_neg ?_).trans (if_pos hcold)⟩
  rw [hservice, hrails, hcold]
  simp

theorem resetCtlWrite_warm {s : State} {v : BitVec 64} (hrails : s.pins.railsOn = true) (hservice : s.dev.reset.escalation = .inService)
    (hwarm : bitOf v 0 = true) (hnot : bitOf v 1 = false) (z i : Bool) :
    ∃ n m, s.resetCtlWrite v z i = ({ s with dev := { s.dev with fresh := n } } : State).warmReset (resetRecord 0x0143 m) false false z i := by
  refine ⟨_, _, (if_neg ?_).trans (if_neg (by rw [hnot]; exact Bool.false_ne_true))⟩
  rw [hservice, hrails, hwarm]
  simp

/-- The device before a cold reset, counted, is ready for its reset state. -/
theorem countReset_ready {d : Device} (hpackets : ∀ n : PortId, (d.port n).packets = []) : d.ReadyDown d.countReset :=
  ⟨rfl, fun _ => rfl, rfl, rfl, ⟨d.reset.warm, rfl⟩, hpackets⟩

theorem coldReset_resetTo {s : State} (hrails : s.pins.railsOn = true) (hservice : s.dev.reset.escalation = .inService)
    (hpackets : ∀ n : PortId, (s.dev.port n).packets = []) (cause : Code) (r : Option ErrRec) :
    s.ResetTo (s.coldReset cause r) cause 2 ∧ (s.coldReset cause r).dev.mem = [] ∧ (s.coldReset cause r).pins.railsOn = s.pins.resetN ∧
      (s.coldReset cause r).pins.pwrGood = s.pins.resetN ∧ (s.coldReset cause r).dev.hostMem = s.dev.hostMem := by
  obtain ⟨hto, hmem⟩ := coldDown_resetTo (countReset_ready hpackets) cause r
  have hcold : s.coldReset cause r = { ({ s with dev := s.dev.countReset.coldDown cause r } : State).keepService with
      pins := { s.pins with railsOn := s.pins.resetN, pwrGood := s.pins.resetN } } := by
    refine (if_neg (by rw [hrails]; exact Bool.false_ne_true)).trans ?_
    dsimp only
    rw [keepService_pins]
    rfl
  obtain ⟨hdev, hagain, hfirst⟩ := keepService_resetTo hservice hto
  have hsame : (s.coldReset cause r).dev = s.dev.countReset.coldDown cause r := by
    rw [hcold]
    exact State.keepService_dev _
  refine ⟨⟨?_, ?_, ?_⟩, ?_, ?_, ?_, ?_⟩
  · rw [hcold]; exact hdev
  · rw [hcold]; exact hagain
  · rw [hcold]; exact hfirst
  · rw [hsame]; exact hmem
  · rw [hcold]
  · rw [hcold]
  · rw [hsame]; exact coldDown_hostMem (countReset_ready hpackets).empty cause r

theorem warmReset_state {s : State} (hrails : s.pins.railsOn = true) (hservice : s.dev.reset.escalation = .inService) {r : ErrRec} {quiet viaLink z i : Bool}
    {cause : Code} {kind : Nat} (h : s.dev.ResetTo (s.dev.warmReset r quiet viaLink z i) cause kind) :
    s.ResetTo (s.warmReset r quiet viaLink z i) cause kind ∧ (s.warmReset r quiet viaLink z i).pins = s.pins := by
  have hwarm : s.warmReset r quiet viaLink z i = ({ s with dev := s.dev.warmReset r quiet viaLink z i } : State).keepService :=
    if_neg (by rw [hrails]; exact Bool.false_ne_true)
  rw [hwarm]
  exact ⟨keepService_resetTo hservice h, keepService_pins _⟩

/-! ### Training after a reset (R665) -/

theorem stacksTrained_ignored {d : Device} {p : PanelId} (h : d.thimble.booted = false ∨ (d.panel p).memOn = true ∨ (d.panel p).mem.trained ≠ 0)
    (v : BitVec 4) : d.stacksTrained p v = d := by
  refine if_pos ?_
  obtain h | h | h := h
  · simp [h]
  · simp [h]
  · rw [Bool.or_eq_true]
    exact .inr (bne_iff_ne.2 h)

/-- A device reset's training, after a warm reset or a cold one. -/
theorem stacksTrained_idle {d : Device} {p : PanelId} (hbooted : d.thimble.booted = true) (hidle : (d.panel p).state = .idle)
    (hoff : (d.panel p).memOn = false) (hnone : (d.panel p).mem.trained = 0) (v : BitVec 4) :
    d.stacksTrained p v = if d.reset.lastKind ≠ 1 then d.updPMem p (fun m => { m with trained := v })
      else (maskStacks (~~~v)).foldl (fun d n => (d.raise (suspectRecord p n)).loseStack p n)
        ((d.updPMem p (fun m => { m with trained := v })).updPanel p (fun q => { q with suspects := q.suspects ||| ~~~v })) := by
  unfold Device.stacksTrained
  refine (if_neg (by simp [hbooted, hidle, hoff, hnone])).trans ?_
  by_cases hkind : d.reset.lastKind = 1
  · rw [if_neg (not_not.2 hkind)]
    exact if_neg (by rw [updPMem_reset, hkind]; decide)
  · rw [if_pos hkind]
    exact if_pos (bne_iff_ne.2 hkind)

theorem suspects_lost {l : List Nat} {p : PanelId} (d : Device) :
    let e := l.foldl (fun d n => (d.raise (suspectRecord p n)).loseStack p n) d
    (∃ x y, e = { d with err := x, lostStacks := y }) ∧ ∀ n ∈ l, e.Lost (4 * p.val + n) := by
  have hraised {e : Device} {k n : Nat} (h : e.Lost k) : (e.raise (suspectRecord p n)).Lost k := by
    unfold Device.Lost
    rw [raise_lostStacks]
    exact h
  have hstep (e : Device) (n : Nat) : ∃ x y, (e.raise (suspectRecord p n)).loseStack p n = { e with err := x, lostStacks := y } := by
    obtain ⟨x, hx⟩ := raise_eq e (suspectRecord p n)
    rw [hx]
    exact ⟨_, _, rfl⟩
  induction l generalizing d with
  | nil => exact ⟨⟨d.err, d.lostStacks, rfl⟩, fun n hn => absurd hn List.not_mem_nil⟩
  | cons t ts ih =>
    obtain ⟨⟨x, y, heq⟩, hlost⟩ := ih ((d.raise (suspectRecord p t)).loseStack p t)
    obtain ⟨x', y', heq'⟩ := hstep d t
    intro e
    refine ⟨⟨x, y, heq.trans (by rw [heq'])⟩, fun n hn => ?_⟩
    obtain rfl | hn := List.mem_cons.1 hn
    · exact List.foldlRecOn (motive := fun e : Device => e.Lost (4 * p.val + n)) ts _ (loseStack_lost _ p n)
        (fun _ he m _ => loseStack_keeps (hraised he) p m)
    · exact hlost n hn

/-! ### The obligation -/

/-- What the two commands ask for is bit 0 and bit 1 of the value written. -/
theorem resetBits (v : BitVec 32) :
    bitOf (v.setWidth 64 &&& 1) 0 = v.getLsbD 0 ∧ bitOf (v.setWidth 64 &&& 1) 1 = false ∧
    bitOf (v.setWidth 64 &&& 2) 0 = false ∧ bitOf (v.setWidth 64 &&& 2) 1 = v.getLsbD 1 := by
  simp [bitOf]

/-- A module that has been reset from `d`, with its memory off before. -/
theorem State.ResetTo.shown {s t : State} {cause : Code} {kind : Nat} (h : s.ResetTo t cause kind) (hhost : t.dev.hostMem = s.dev.hostMem) :
    t.dev.reset.lastKind = kind ∧ t.dev.reset.lastCause = cause ∧ t.dev.reset.deviceResets = satTo 16 (s.dev.reset.deviceResets + 1) ∧
      t.dev.contexts = [] ∧ t.dev.enabled = false ∧ t.dev.hostMem = s.dev.hostMem ∧ t.dev.thimble.booted = false ∧
      (∀ n : PortId, (t.dev.port n).state = .disabled) ∧ (∀ q : PanelId, (t.dev.panel q).enabled = false ∧ (t.dev.panel q).memOn = false) ∧
      (windowOf s.dev.now 60 s.dev.reset.deviceWindow ≠ [] → t.dev.reset.escalation = .serviceRequired ∧ t.vault.serviceRequired = true) ∧
      (windowOf s.dev.now 60 s.dev.reset.deviceWindow = [] → t.dev.reset.escalation = .inService ∧ t.vault = s.vault) :=
  ⟨h.dev.kind, h.dev.cause, h.dev.resets, h.dev.contexts, h.dev.enabled, hhost, h.dev.booted, h.dev.ports, h.dev.panels, h.again, h.first⟩

/-- The state with another number of draws. -/
def State.drawn (s : State) (n : Nat) : State := { s with dev := { s.dev with fresh := n } }

/-- RESET_CTL's warm reset of a module without contexts: it is the reset that `takeReset` takes. -/
theorem deviceWarmReset_taken {s : State} {v : BitVec 32} {z i : Bool} (hrails : s.pins.railsOn = true) (hservice : s.dev.reset.escalation = .inService)
    (hpackets : ∀ n : PortId, (s.dev.port n).packets = []) (hbit : v.getLsbD 0 = true) (hwarm : s.dev.reset.warm = none)
    (hcontexts : s.dev.contexts = []) (hoff : ∀ q : PanelId, (s.dev.panel q).enabled = false)
    {kind : Nat} {cause : Code} {mem : Memory}
    (htaken : ∀ n e, (s.drawn n).dev.ReadyDown e → (s.drawn n).dev.ResetTo (e.takeReset 0x0143 false z i) cause kind ∧ (e.takeReset 0x0143 false z i).mem = mem) :
    ∃ n t, exec (.deviceWarmReset v z i) s = .next t ∧ (s.drawn n).ResetTo t cause kind ∧ t.dev.mem = mem ∧ t.pins = s.pins := by
  obtain ⟨hbit₀, hbit₁, -, -⟩ := resetBits v
  obtain ⟨n, m, hwrite⟩ := resetCtlWrite_warm hrails hservice (hbit₀.trans hbit) hbit₁ z i
  obtain ⟨e, hready, hdown⟩ := warmReset_alone (d := (s.drawn n).dev) hwarm hcontexts hoff hpackets (resetRecord 0x0143 m) false false z i
  obtain ⟨hto, hmem⟩ := htaken n e hready
  have hdown : (s.drawn n).dev.warmReset (resetRecord 0x0143 m) false false z i = e.takeReset 0x0143 false z i := hdown
  obtain ⟨hreset, hpins⟩ := warmReset_state (s := s.drawn n) hrails hservice (by rw [hdown]; exact hto)
  refine ⟨n, _, congrArg Host.Outcome.next hwrite, hreset, ?_, hpins⟩
  have hdev := State.warmReset_dev (s := s.drawn n) hrails (resetRecord 0x0143 m) false false z i
  exact (congrArg Device.mem (hdev.trans hdown)).trans hmem

theorem deviceColdReset_taken {s : State} {v : BitVec 32} (hrails : s.pins.railsOn = true) (hservice : s.dev.reset.escalation = .inService)
    (hpackets : ∀ n : PortId, (s.dev.port n).packets = []) (hbit : v.getLsbD 1 = true) :
    ∃ n t, exec (.deviceColdReset v) s = .next t ∧ (s.drawn n).ResetTo t 0x0143 2 ∧ t.dev.mem = [] ∧ t.pins.railsOn = s.pins.resetN ∧
      t.pins.pwrGood = s.pins.resetN ∧ t.dev.hostMem = s.dev.hostMem := by
  obtain ⟨-, -, -, hbit₁⟩ := resetBits v
  obtain ⟨n, m, hwrite⟩ := resetCtlWrite_cold hrails hservice (hbit₁.trans hbit) true true
  exact ⟨n, _, congrArg Host.Outcome.next hwrite, coldReset_resetTo (s := s.drawn n) hrails hservice hpackets 0x0143 (some (resetRecord 0x0143 m))⟩

theorem mem_windowOf {now minutes x : Nat} {l : List Nat} : x ∈ windowOf now minutes l ↔ x ∈ l ∧ now - x < minutes * 60000000000 := by
  simp [windowOf]

/-- Training of a panel whose stacks have no memory, after a warm reset. -/
theorem stackTrainingDone_warm {s : State} {p : PanelId} (hrails : s.pins.railsOn = true) (hbooted : s.dev.thimble.booted = true)
    (hidle : (s.dev.panel p).state = .idle) (hoff : (s.dev.panel p).memOn = false) (hnone : (s.dev.panel p).mem.trained = 0)
    (hkind : s.dev.reset.lastKind = 1) (trained : BitVec 4) :
    Completes (.stackTrainingDone p trained) s (fun t => t.OnlyDevice s ∧ (t.dev.panel p).mem.trained = trained ∧
      (t.dev.panel p).suspects = (s.dev.panel p).suspects ||| ~~~trained ∧ (∀ o, o ≠ p → t.dev.panel o = s.dev.panel o) ∧ t.dev.mem = s.dev.mem ∧
      ∀ k < 4, trained.getLsbD k = false → (4 * p.val + k) ∈ t.dev.lostStacks.map (fun l => l.1)) := by
  have htrained := stacksTrained_idle hbooted hidle hoff hnone trained
  rw [if_neg (not_not.2 hkind), Device.updPMem, updPanel_updPanel] at htrained
  generalize he : s.dev.updPanel p _ = e at htrained
  obtain ⟨⟨x, y, heq⟩, hlost⟩ := suspects_lost (p := p) (l := maskStacks (~~~trained)) e
  rw [← htrained] at heq hlost
  have hpanel (o : PanelId) : (s.dev.stacksTrained p trained).panel o = e.panel o := by rw [heq]; rfl
  have hsame := (hpanel p).trans (by rw [← he, updPanel_panel])
  refine completes_run rfl hrails ⟨rfl, congrArg (fun q : Panel => q.mem.trained) hsame, congrArg Panel.suspects hsame,
    fun o ho => (hpanel o).trans (by rw [← he, updPanel_other _ ho]), by rw [show (s.dev.stacksTrained p trained).mem = e.mem by rw [heq], ← he]; rfl, fun k hk hbit =>
    hlost k (mem_maskStacks.2 ⟨hk, ?_⟩)⟩
  rw [BitVec.getLsbD_not, hbit]
  simp [hk]

/-- Settles O50: RESET_CTL's resets are those of the layer, counted in the window of device resets. -/
theorem deviceResets : Obligations.DeviceResets := by
  intro s p v zeroised imageSame trained hrails
  obtain ⟨hbit₀, hbit₁, hbit₂, hbit₃⟩ := resetBits v
  refine ⟨fun h => ?_, fun h => ?_, fun hservice hpackets => ⟨fun hbit => ?_, fun hbit hwarm hcontexts hdis hoff => ?_⟩, ?_, ?_, fun h => ?_, fun hbooted hidle hoff hnone => ⟨fun hkind => ?_, fun hkind => ?_⟩⟩
  · exact congrArg Host.Outcome.next (resetCtlWrite_ignored (h.imp id fun h => ⟨hbit₀.trans h, hbit₁⟩) zeroised imageSame)
  · exact congrArg Host.Outcome.next (resetCtlWrite_ignored (h.imp id fun h => ⟨hbit₂, hbit₃.trans h⟩) true true)
  · obtain ⟨n, t, hexec, hto, hmem, hon, hgood, hhost⟩ := deviceColdReset_taken hrails hservice hpackets hbit
    exact ⟨t, hexec, hto.shown hhost, hmem, hon, hgood⟩
  · have hpanels (q : PanelId) := (hoff q).1
    have hshown (n : Nat) {t : State} {cause : Code} {kind : Nat} (h : (s.drawn n).ResetTo t cause kind) := h.shown (h.dev.hostMem hdis)
    refine ⟨fun hz hi => ?_, fun hz => ?_, fun hz hi => ?_⟩
    · subst hz hi
      obtain ⟨n, t, hexec, hto, hmem, hpins⟩ := deviceWarmReset_taken hrails hservice hpackets hbit hwarm hcontexts hpanels
        (fun n e he => takeReset_warm he 0x0143 false)
      exact ⟨t, hexec, hshown n hto, hmem, hpins⟩
    · subst hz
      obtain ⟨n, t, hexec, hto, hmem, hpins⟩ := deviceWarmReset_taken hrails hservice hpackets hbit hwarm hcontexts hpanels
        (fun n e he => takeReset_unzeroised he 0x0143 false imageSame)
      exact ⟨t, hexec, hshown n hto, hmem, hpins⟩
    · subst hz hi
      obtain ⟨n, t, hexec, hto, hmem, hpins⟩ := deviceWarmReset_taken hrails hservice hpackets hbit hwarm hcontexts hpanels
        (fun n e he => takeReset_cold he 0x0143 false)
      exact ⟨t, hexec, hshown n hto, hmem, hpins⟩
  · exact ⟨_, rfl, rfl, fun x => mem_windowOf⟩
  · exact ⟨_, rfl, rfl, fun x => mem_windowOf⟩
  · exact exec_run (c := .stackTrainingDone p trained) rfl hrails (stacksTrained_ignored h trained)
  · exact exec_run (c := .stackTrainingDone p trained) rfl hrails ((stacksTrained_idle hbooted hidle hoff hnone trained).trans (if_pos hkind))
  · exact stackTrainingDone_warm hrails hbooted hidle hoff hnone hkind trained

end Sys2Proof.Machine
end

section
/-! The power setup's registers (R730, R748) and the ramp step (R713, R718). -/

namespace Sys2Proof.Machine

/-! ### The setup's registers -/

/-- A register takes only the bits that its mask and the access name. -/
theorem mergeBits_masked (old v m x : BitVec 64) : mergeBits old (v &&& m) (m &&& x) = mergeBits old v (m &&& x) := by
  unfold mergeBits
  rw [BitVec.and_assoc v m, ← BitVec.and_assoc m m, BitVec.and_self]

theorem powerWrite_masked (d : Device) (offset : Nat) (v m : BitVec 64) : d.powerWrite offset (v &&& m) m = d.powerWrite offset v m := by
  simp only [Device.powerWrite, mergeBits_masked]

theorem powerCtlOk_iff (v : BitVec 64) :
    powerCtlOk v = true ↔ fieldOf v 19 16 ≤ 5 ∧ fieldOf v 23 20 ≤ 5 ∧ 1 ≤ fieldOf v 28 24 ∧ fieldOf v 28 24 ≤ 16 := by
  simp [powerCtlOk, and_assoc]

theorem powerCapOk_iff (v : BitVec 64) :
    powerCapOk v = true ↔ 600 ≤ fieldOf v 12 0 ∧ fieldOf v 12 0 ≤ 4300 ∧ 1 ≤ fieldOf v 23 16 ∧ fieldOf v 23 16 ≤ 100 := by
  simp [powerCapOk, and_assoc]

theorem powerWrite_ctl (d : Device) (v m : BitVec 64) :
    d.powerWrite 0 v m =
      let ctl := mergeBits d.power.ctl v (m &&& 0x1FFF0007)
      { d with power := if fieldOf ctl 19 16 ≤ 5 ∧ fieldOf ctl 23 20 ≤ 5 ∧ 1 ≤ fieldOf ctl 28 24 ∧ fieldOf ctl 28 24 ≤ 16
          then { d.power with ctl := ctl } else { d.power with reason := 0x0702 } } := by
  unfold Device.powerWrite
  simp only [↓reduceIte, powerCtlOk_iff]
  split <;> rfl

theorem powerWrite_cap (d : Device) (v m : BitVec 64) :
    d.powerWrite 8 v m =
      let cap := mergeBits d.power.cap v (m &&& 0xFF1FFF)
      { d with power := if 600 ≤ fieldOf cap 12 0 ∧ fieldOf cap 12 0 ≤ 4300 ∧ 1 ≤ fieldOf cap 23 16 ∧ fieldOf cap 23 16 ≤ 100
          then { d.power with cap := cap } else { d.power with reason := 0x0701 } } := by
  unfold Device.powerWrite
  simp only [OfNat.ofNat_ne_zero, ↓reduceIte, powerCapOk_iff]
  split <;> rfl

theorem powerWrite_ramp (d : Device) (v m : BitVec 64) :
    d.powerWrite 16 v m = { d with power := { d.power with ramp := mergeBits d.power.ramp v (m &&& 0x803FFFFFFFFFFFFF) } } := rfl

theorem powerWrite_none (d : Device) {offset : Nat} (h : 16 < offset) (v m : BitVec 64) : d.powerWrite offset v m = d :=
  (if_neg (by omega)).trans ((if_neg (by omega)).trans (if_neg (by omega)))

/-- PWR_REG_WRITE writes the word or the dword that its aligned access names. -/
theorem pwrRegWrite_exec {s : State} {offset size : Nat} (hrails : s.pins.railsOn = true) (hsize : size = 4 ∧ offset % 4 = 0 ∨ size = 8 ∧ offset % 8 = 0)
    (value : BitVec 64) :
    exec (.pwrRegWrite offset size value) s = .next { s with dev := (s.dev.powerWrite (offset / 8 * 8)
      (if offset % 8 = 4 then value <<< 32 else value)
      (if size = 8 then 0xFFFFFFFFFFFFFFFF else if offset % 8 = 4 then 0xFFFFFFFF00000000 else 0xFFFFFFFF)) } := by
  refine exec_run (c := .pwrRegWrite offset size value) rfl hrails ?_
  dsimp only
  by_cases hhigh : offset % 8 = 4
  · rw [if_pos hhigh, if_pos hhigh, if_pos hhigh, if_neg (by omega)]
  · rw [if_neg hhigh, if_neg hhigh, if_neg hhigh]
    by_cases hfour : size = 4
    · rw [if_pos hfour, if_neg (by omega), powerWrite_masked]
    · rw [if_neg hfour, if_pos (by omega)]

/-! ### Rows that change the power controller and the error records alone -/

/-- What the measurements of POWER_SAMPLE have left. -/
structure Power.SameMeasured (v w : Power) : Prop where
  watts : w.watts = v.watts
  millivolts : w.millivolts = v.millivolts
  samples : w.samples = v.samples
  integ : w.integ = v.integ
  inputOut : w.inputOut = v.inputOut

theorem Power.SameMeasured.trans {v w x : Power} (h : v.SameMeasured w) (g : w.SameMeasured x) : v.SameMeasured x :=
  ⟨g.watts.trans h.watts, g.millivolts.trans h.millivolts, g.samples.trans h.samples, g.integ.trans h.integ, g.inputOut.trans h.inputOut⟩

structure Device.PowerStep (d e : Device) : Prop where
  eq : e = { d with power := e.power, err := e.err }
  measured : d.power.SameMeasured e.power
  queue : d.err.queue <+: e.err.queue

theorem Device.PowerStep.trans {d e f : Device} (h : d.PowerStep e) (g : e.PowerStep f) : d.PowerStep f :=
  ⟨by rw [g.eq, h.eq], h.measured.trans g.measured, h.queue.trans g.queue⟩

theorem enqueueRec_queue (d : Device) (r : ErrRec) (needed : Bool) : d.err.queue <+: (d.enqueueRec r needed).err.queue := by
  unfold Device.enqueueRec
  dsimp only
  split
  · exact List.prefix_append _ _
  split
  · exact List.prefix_append _ _
  · exact List.prefix_rfl

/-! ### The ramp step -/

/-- A panel's frequency, its issued step and its allowance are as they were. -/
structure PanelPower.SamePoint (a b : PanelPower) : Prop where
  freq : b.freq = a.freq
  issued : b.issued = a.issued
  allow : b.allow = a.allow

theorem PanelPower.SamePoint.trans {a b c : PanelPower} (h : a.SamePoint b) (g : b.SamePoint c) : a.SamePoint c :=
  ⟨g.freq.trans h.freq, g.issued.trans h.issued, g.allow.trans h.allow⟩

theorem throttleStep_samePoint (q : PanelPower) (die stack : Nat) (fixed : Bool) : q.SamePoint (q.throttleStep die stack fixed) := by
  unfold PanelPower.throttleStep
  simp only []
  constructor <;> (repeat' split) <;> rfl

/-- A panel changes by at most one step of its allowance or of its frequency (R713, R714). -/
def PanelPower.OneChange (a b : PanelPower) : Prop :=
  b.freq = a.freq ∧
    (b.issued = a.issued ∧ b.allow ≤ a.allow + 1 ∧ a.allow ≤ b.allow + 1 ∨
      b.allow = a.allow ∧ a.issued = none ∧ (b.issued = some (a.freq + 1) ∨ b.issued = some (a.freq - 1)))

theorem PanelPower.SamePoint.oneChange {a b : PanelPower} (h : a.SamePoint b) : a.OneChange b :=
  ⟨h.freq, .inl ⟨h.issued, by rw [h.allow]; omega, by rw [h.allow]; omega⟩⟩

theorem PanelPower.SamePoint.thenChange {a b c : PanelPower} (h : a.SamePoint b) (g : b.OneChange c) : a.OneChange c := by
  obtain ⟨hfreq, hissued, hallow⟩ := h
  unfold PanelPower.OneChange at g ⊢
  rwa [hfreq, hissued, hallow] at g

theorem PanelPower.OneChange.thenSame {a b c : PanelPower} (h : a.OneChange b) (g : b.SamePoint c) : a.OneChange c := by
  obtain ⟨hfreq, hissued, hallow⟩ := g
  unfold PanelPower.OneChange at h ⊢
  rwa [hfreq, hissued, hallow]

theorem change_oneChange {q : PanelPower} (h : q.issued = none) (t : Nat × Nat) : q.OneChange (q.change t) := by
  unfold PanelPower.change
  split
  · exact ⟨rfl, .inr ⟨rfl, h, .inr rfl⟩⟩
  split
  · exact ⟨rfl, .inl ⟨rfl, by dsimp only; omega, by dsimp only; omega⟩⟩
  split
  · exact ⟨rfl, .inl ⟨rfl, by dsimp only; omega, by dsimp only; omega⟩⟩
  split
  · exact ⟨rfl, .inr ⟨rfl, h, .inl rfl⟩⟩
  · exact PanelPower.SamePoint.oneChange ⟨rfl, rfl, rfl⟩

/-- A panel whose issued step waits, or that changed too short a time ago, stays as it is (R728, R720). -/
theorem edge_oneChange (q : PanelPower) (slope : Nat) (t : Nat × Nat) :
    q.OneChange (if q.issued.isSome || q.sinceChange < slope then q else q.change t) := by
  split
  · exact PanelPower.SamePoint.oneChange ⟨rfl, rfl, rfl⟩
  next h =>
    rw [Bool.or_eq_true, not_or, Bool.not_eq_true, Option.isSome_eq_false_iff, Option.isNone_iff_eq_none] at h
    exact change_oneChange h.1 t

/-- The setup in effect is the same. -/
structure Power.SameSetup (v w : Power) : Prop where
  ctl : w.actCtl = v.actCtl
  cap : w.actCap = v.actCap
  ramp : w.actRamp = v.actRamp

/-- A part of the ramp step: it leaves the setup in effect, and takes every panel from one point to another by `R`. -/
structure Device.RampPart (R : PanelPower → PanelPower → Prop) (d e : Device) : Prop extends d.PowerStep e where
  setup : d.power.SameSetup e.power
  panels : ∀ p : PanelId, R d.power.panels[p.val] e.power.panels[p.val]

theorem Device.RampPart.comp {R S T : PanelPower → PanelPower → Prop} (hcomp : ∀ a b c, R a b → S b c → T a c) {d e f : Device}
    (h : d.RampPart R e) (g : e.RampPart S f) : d.RampPart T f where
  toPowerStep := h.toPowerStep.trans g.toPowerStep
  setup := ⟨g.setup.ctl.trans h.setup.ctl, g.setup.cap.trans h.setup.cap, g.setup.ramp.trans h.setup.ramp⟩
  panels p := hcomp _ _ _ (h.panels p) (g.panels p)

/-- A part that moves no panel. -/
abbrev Device.RampStill (d e : Device) : Prop := d.RampPart PanelPower.SamePoint e

theorem Device.RampPart.still {d e f : Device} (h : d.RampStill e) (g : e.RampStill f) : d.RampStill f :=
  Device.RampPart.comp (R := PanelPower.SamePoint) (S := PanelPower.SamePoint) (T := PanelPower.SamePoint)
    (fun _ _ _ => PanelPower.SamePoint.trans) h g

theorem rampStill_of_panels {d e : Device} (hstep : d.PowerStep e) (hsetup : d.power.SameSetup e.power) (hpanels : e.power.panels = d.power.panels) :
    d.RampStill e :=
  ⟨hstep, hsetup, fun p => by rw [hpanels]; exact ⟨rfl, rfl, rfl⟩⟩

theorem updPower_powerStep (d : Device) (p : PanelId) (f : PanelPower → PanelPower) : d.PowerStep (d.updPower p f) :=
  ⟨rfl, ⟨rfl, rfl, rfl, rfl, rfl⟩, List.prefix_rfl⟩

theorem updPower_panel (d : Device) (p : PanelId) (f : PanelPower → PanelPower) (q : PanelId) :
    (d.updPower p f).power.panels[q.val] = if q = p then f d.power.panels[q.val] else d.power.panels[q.val] := by
  unfold Device.updPower
  rw [Vector.getElem_set]
  by_cases h : q = p
  · subst h
    simp
  · rw [if_neg (fun he => h (Fin.ext he.symm)), if_neg h]

/-- Each panel of the list once: what one step does to its panel the whole pass does to every panel. -/
theorem foldl_updPower {R : PanelPower → PanelPower → Prop} (hrefl : ∀ q, R q q) {f : Device → PanelId → PanelPower → PanelPower}
    (hf : ∀ d p q, R q (f d p q)) {l : List PanelId} (hl : l.Nodup) (d : Device) :
    d.RampPart R (l.foldl (fun d p => d.updPower p (f d p)) d) ∧
      ∀ p, p ∉ l → (l.foldl (fun d p => d.updPower p (f d p)) d).power.panels[p.val] = d.power.panels[p.val] := by
  induction l generalizing d with
  | nil => exact ⟨⟨⟨rfl, ⟨rfl, rfl, rfl, rfl, rfl⟩, List.prefix_rfl⟩, ⟨rfl, rfl, rfl⟩, fun p => hrefl _⟩, fun p _ => rfl⟩
  | cons t ts ih =>
    obtain ⟨hnew, hts⟩ := List.nodup_cons.1 hl
    obtain ⟨⟨hstep, hsetup, hpanels⟩, hothers⟩ := ih hts (d.updPower t (f d t))
    rw [List.foldl_cons]
    refine ⟨⟨(updPower_powerStep d t _).trans hstep, ⟨hsetup.ctl, hsetup.cap, hsetup.ramp⟩, fun p => ?_⟩, fun p hp => ?_⟩
    · by_cases hpt : p = t
      · subst hpt
        rw [hothers p hnew, updPower_panel, if_pos rfl]
        exact hf d p _
      · have hp := hpanels p
        rwa [updPower_panel, if_neg hpt] at hp
    · rw [hothers p (fun h => hp (List.mem_cons_of_mem t h)), updPower_panel, if_neg (fun h => hp (List.mem_cons.2 (.inl h)))]

theorem enabledPanels_nodup (d : Device) : d.enabledPanels.Nodup := (List.nodup_finRange 8).filter _

theorem sprintEdge_still (d : Device) : d.RampStill d.sprintEdge := by
  unfold Device.sprintEdge Device.endSprint
  split
  · split
    · split
      · exact rampStill_of_panels ⟨rfl, ⟨rfl, rfl, rfl, rfl, rfl⟩, List.prefix_rfl⟩ ⟨rfl, rfl, rfl⟩ rfl
      · exact rampStill_of_panels ⟨rfl, ⟨rfl, rfl, rfl, rfl, rfl⟩, List.prefix_rfl⟩ ⟨rfl, rfl, rfl⟩ rfl
    · exact rampStill_of_panels ⟨rfl, ⟨rfl, rfl, rfl, rfl, rfl⟩, List.prefix_rfl⟩ ⟨rfl, rfl, rfl⟩ rfl
  · split
    · exact rampStill_of_panels ⟨rfl, ⟨rfl, rfl, rfl, rfl, rfl⟩, List.prefix_rfl⟩ ⟨rfl, rfl, rfl⟩ rfl
    · exact rampStill_of_panels ⟨rfl, ⟨rfl, rfl, rfl, rfl, rfl⟩, List.prefix_rfl⟩ ⟨rfl, rfl, rfl⟩ rfl

theorem moveCeiling_still (d : Device) : d.RampStill d.moveCeiling := by
  unfold Device.moveCeiling
  dsimp only
  repeat' split
  all_goals exact rampStill_of_panels ⟨rfl, ⟨rfl, rfl, rfl, rfl, rfl⟩, List.prefix_rfl⟩ ⟨rfl, rfl, rfl⟩ rfl

theorem raise_still (d : Device) (r : ErrRec) : d.RampStill (d.raise r) := by
  have hqueue := enqueueRec_queue d (d.stampRec r) false
  obtain ⟨x, hx⟩ := raise_eq d r
  have hx' : d.enqueueRec (d.stampRec r) false = { d with err := x } := hx
  rw [hx'] at hqueue
  rw [hx]
  exact rampStill_of_panels ⟨rfl, ⟨rfl, rfl, rfl, rfl, rfl⟩, hqueue⟩ ⟨rfl, rfl, rfl⟩ rfl

theorem powerRaise_still (d : Device) (r : ErrRec) : d.RampStill (d.powerRaise r) :=
  Device.RampPart.still (e := d.powerReason r.reason)
    (rampStill_of_panels ⟨rfl, ⟨rfl, rfl, rfl, rfl, rfl⟩, List.prefix_rfl⟩ ⟨rfl, rfl, rfl⟩ rfl) (raise_still _ r)

theorem judgeFloor_still (d : Device) : d.RampStill d.judgeFloor := by
  unfold Device.judgeFloor
  dsimp only
  by_cases hchanged : (d.floorHolds != d.power.atFloor) = true
  · rw [if_pos hchanged]
    refine Device.RampPart.still ?_ (powerRaise_still _ _)
    repeat' split
    all_goals exact rampStill_of_panels ⟨rfl, ⟨rfl, rfl, rfl, rfl, rfl⟩, List.prefix_rfl⟩ ⟨rfl, rfl, rfl⟩ rfl
  · rw [if_neg hchanged]
    repeat' split
    all_goals exact rampStill_of_panels ⟨rfl, ⟨rfl, rfl, rfl, rfl, rfl⟩, List.prefix_rfl⟩ ⟨rfl, rfl, rfl⟩ rfl

theorem updThrottle_still (d : Device) (us : Nat) : d.RampStill (d.updThrottle us) := by
  unfold Device.updThrottle
  dsimp only
  split
  · exact rampStill_of_panels ⟨rfl, ⟨rfl, rfl, rfl, rfl, rfl⟩, List.prefix_rfl⟩ ⟨rfl, rfl, rfl⟩ rfl
  · exact rampStill_of_panels ⟨rfl, ⟨rfl, rfl, rfl, rfl, rfl⟩, List.prefix_rfl⟩ ⟨rfl, rfl, rfl⟩ rfl

/-- The setup takes effect, and every panel's excess becomes debt. -/
theorem rampStep_oneChange (d : Device) :
    let e := d.rampStep
    d.PowerStep e ∧ e.power.actCtl = d.power.ctl ∧ e.power.actCap = d.power.cap ∧ e.power.actRamp = d.power.ramp ∧
      ∀ p : PanelId, d.power.panels[p.val].OneChange e.power.panels[p.val] := by
  unfold Device.rampStep
  dsimp only
  generalize hset : ({ d with power := _ } : Device) = a
  have hbegun : d.PowerStep a ∧ a.power.actCtl = d.power.ctl ∧ a.power.actCap = d.power.cap ∧ a.power.actRamp = d.power.ramp ∧
      ∀ p : PanelId, d.power.panels[p.val].SamePoint a.power.panels[p.val] := by
    rw [← hset]
    refine ⟨⟨rfl, ⟨rfl, rfl, rfl, rfl, rfl⟩, List.prefix_rfl⟩, rfl, rfl, rfl, fun p => ?_⟩
    rw [Vector.getElem_map]
    exact ⟨rfl, rfl, rfl⟩
  clear hset
  have hthrottled := (foldl_updPower (R := PanelPower.SamePoint) (fun _ => ⟨rfl, rfl, rfl⟩)
    (f := fun d p q => q.throttleStep (d.power.dieTemp p) (d.power.stackTemp p) d.power.fixed)
    (fun d p q => throttleStep_samePoint q _ _ _) (enabledPanels_nodup a) a).1
  generalize List.foldl _ a _ = b at hthrottled ⊢
  have hceiling := (sprintEdge_still b).still (moveCeiling_still _)
  generalize b.sprintEdge.moveCeiling = c at hceiling ⊢
  have hchanged := (foldl_updPower (R := PanelPower.OneChange) (fun q => PanelPower.SamePoint.oneChange ⟨rfl, rfl, rfl⟩)
    (f := fun d p q => if q.issued.isSome || q.sinceChange < d.power.slope then q else q.change (d.targets p))
    (fun d p q => edge_oneChange q _ _) (enabledPanels_nodup c) c).1
  generalize List.foldl _ c _ = e at hchanged ⊢
  have hjudged := (judgeFloor_still e).still
    ((rampStill_of_panels (d := e.judgeFloor) (e := e.judgeFloor.judgeCap)
      ⟨rfl, ⟨rfl, rfl, rfl, rfl, rfl⟩, List.prefix_rfl⟩ ⟨rfl, rfl, rfl⟩ rfl).still
      (updThrottle_still _ 0))
  obtain ⟨hstep, hctl, hcap, hramp, hpanels⟩ := hbegun
  have hbefore := hthrottled.still hceiling
  have hedge := (hbefore.comp (S := PanelPower.OneChange) (T := PanelPower.OneChange) (fun _ _ _ => PanelPower.SamePoint.thenChange) hchanged).comp
    (S := PanelPower.SamePoint) (T := PanelPower.OneChange) (fun _ _ _ => PanelPower.OneChange.thenSame) hjudged
  exact ⟨hstep.trans hedge.toPowerStep, hedge.setup.ctl.trans hctl, hedge.setup.cap.trans hcap, hedge.setup.ramp.trans hramp,
    fun p => (hpanels p).thenChange (hedge.panels p)⟩

/-- Settles O51: a write is the register's own rule, and the ramp step is made of parts that leave every point but for one change. -/
theorem powerSetupAndRamp : Obligations.PowerSetupAndRamp := by
  intro s offset size value hrails hsize
  have hexec := pwrRegWrite_exec hrails hsize value
  refine ⟨fun h => ?_, fun h => ?_, fun h => ?_, fun h => ?_, fun hdue => ?_, fun hdue => ?_⟩
  · rw [h] at hexec
    exact hexec.trans (by rw [powerWrite_ctl])
  · rw [h] at hexec
    exact hexec.trans (by rw [powerWrite_cap])
  · rw [h] at hexec
    exact hexec.trans (by rw [powerWrite_ramp])
  · rw [powerWrite_none s.dev (by omega)] at hexec
    exact hexec
  · exact exec_run (c := .powerRampStep) rfl hrails (if_neg (by rw [hdue]; exact Bool.false_ne_true))
  · have hstep : (if s.dev.rampDue = true then s.dev.rampStep else s.dev) = s.dev.rampStep := if_pos hdue
    obtain ⟨hpower, hctl, hcap, hramp, hpanels⟩ := rampStep_oneChange s.dev
    refine completes_run (f := fun d => if d.rampDue then d.rampStep else d) rfl hrails ?_
    dsimp only
    rw [hstep]
    exact ⟨rfl, hpower.eq, hctl, hcap, hramp, hpanels⟩

end Sys2Proof.Machine
end

section
/-! Measurements, droop, holds, sprint and lifetime of the power controller (R724 to R745). -/

namespace Sys2Proof.Machine

/-! ### Parts of the rows -/

/-- An entry of the coalesced records stays, whatever is coalesced with it. -/
theorem coalesceIn_keeps {x r : ErrRec} {l : List ErrRec} (h : x ∈ l) :
    ∃ y ∈ coalesceIn r l, y.reason = x.reason ∧ y.panel = x.panel ∧ y.detail = x.detail := by
  induction l with
  | nil => exact absurd h List.not_mem_nil
  | cons a as ih =>
    unfold coalesceIn
    obtain rfl | h := List.mem_cons.1 h
    · split
      · exact ⟨_, List.mem_cons_self, rfl, rfl, rfl⟩
      · exact ⟨x, List.mem_cons_self, rfl, rfl, rfl⟩
    · split
      · exact ⟨x, List.mem_cons_of_mem _ h, rfl, rfl, rfl⟩
      · obtain ⟨y, hy, hsame⟩ := ih h
        exact ⟨y, List.mem_cons_of_mem _ hy, hsame⟩

/-- What the throttle counters leave: all of the power controller but its counters and its reason, and the queued records. -/
structure Device.Throttled (d e : Device) : Prop where
  eq : e = { d with power := e.power, err := e.err }
  power : e.power = { d.power with thr := e.power.thr, throttled := e.power.throttled, reason := e.power.reason }
  queue : e.err.queue = d.err.queue
  coalesced : ∀ x ∈ d.err.coalesced, ∃ y ∈ e.err.coalesced, y.reason = x.reason ∧ y.panel = x.panel ∧ y.detail = x.detail

theorem updThrottle_throttled (d : Device) (us : Nat) : d.Throttled (d.updThrottle us) := by
  unfold Device.updThrottle
  dsimp only
  split
  · exact ⟨rfl, rfl, rfl, fun x hx => coalesceIn_keeps hx⟩
  · exact ⟨rfl, rfl, rfl, fun x hx => ⟨x, hx, rfl, rfl, rfl⟩⟩

theorem updateGuard_powerStep (d : Device) : d.PowerStep d.updateGuard := by
  unfold Device.updateGuard
  dsimp only
  split
  · exact ⟨rfl, ⟨rfl, rfl, rfl, rfl, rfl⟩, List.prefix_rfl⟩
  · refine Device.PowerStep.trans ?_ (raise_still _ _).toPowerStep
    exact ⟨rfl, ⟨rfl, rfl, rfl, rfl, rfl⟩, List.prefix_rfl⟩

theorem judgeRatings_powerStep (d : Device) : d.PowerStep d.judgeRatings := by
  refine Device.PowerStep.trans ?_ (updateGuard_powerStep _)
  exact ⟨rfl, ⟨rfl, rfl, rfl, rfl, rfl⟩, List.prefix_rfl⟩

theorem endSprint_powerStep (d : Device) : d.PowerStep d.endSprint := by
  unfold Device.endSprint
  split
  · exact ⟨rfl, ⟨rfl, rfl, rfl, rfl, rfl⟩, List.prefix_rfl⟩
  · exact ⟨rfl, ⟨rfl, rfl, rfl, rfl, rfl⟩, List.prefix_rfl⟩

theorem enqueueRec_powerStep (d : Device) (r : ErrRec) (needed : Bool) : d.PowerStep (d.enqueueRec r needed) := by
  have hqueue := enqueueRec_queue d r needed
  obtain ⟨x, hx⟩ := enqueueRec_eq d r needed
  rw [hx] at hqueue ⊢
  exact ⟨rfl, ⟨rfl, rfl, rfl, rfl, rfl⟩, hqueue⟩

theorem flushCoalesced_powerStep (d : Device) : d.PowerStep d.flushCoalesced :=
  List.foldlRecOn (motive := fun e : Device => d.PowerStep e) _ _ ⟨rfl, ⟨rfl, rfl, rfl, rfl, rfl⟩, List.prefix_rfl⟩
    (fun e he r _ => he.trans (enqueueRec_powerStep e r false))

theorem powerRaise_queue {d : Device} (h : d.err.general < 64) (r : ErrRec) :
    ∃ e, (d.powerRaise r).err.queue = d.err.queue ++ [⟨e, false, none⟩] ∧ e.reason = r.reason ∧ e.panel = r.panel ∧ e.unit = r.unit := by
  have hsame := stampRec_sameFault (d.powerReason r.reason) r
  exact ⟨(d.powerReason r.reason).stampRec r, raise_queue (d := d.powerReason r.reason) h r, hsame.reason, hsame.panel, stampRec_unit _ r⟩

/-! ### POWER_SAMPLE (R718, R740, R745) -/

/-- The power controller with a sample's readings. -/
def Power.sampled (w : Power) (watts mV : Nat) : Power :=
  let samples := (watts :: w.samples).take (fieldOf w.actCap 23 16 * 100)
  { w with
    watts := watts, samples := samples, inputW := samples.sum / samples.length, millivolts := mV, inputOut := mV < 40000 || 56000 < mV
    integ := if 3600 < watts then w.integ + (watts - 3600) else if w.sprinting then w.integ else w.integ - 140
    sprintUs := if w.sprinting then w.sprintUs + 10 else w.sprintUs }

/-- What follows the readings: the judgements that a sample calls for, and the ramp and the coalesced records of a counter
that does not run. -/
def Device.judgeSample (d : Device) : Device :=
  let d := (if d.sprintSpent then d.endSprint else d).judgeRatings.judgeFloor.judgeCap.updThrottle 10
  let d := if d.edgesRamp then d else d.rampStep
  match d.needle.state with
  | .disabled | .listen => if d.err.coalesceSince + 10000 ≤ d.now then d.flushCoalesced else d
  | _ => d

theorem powerSample_eq (d : Device) (watts mV : Nat) :
    d.powerSample watts mV =
      let e : Device := { d with power := d.power.sampled watts mV }
      (if ((decide (mV < 40000) || decide (56000 < mV)) && !d.power.inputOut) = true then e.powerRaise { powerRecord 0x070D 2 with detail := BitVec.ofNat 128 (mV % 65536) }
        else e).judgeSample := (rfl)

theorem judgeSample_powerStep (d : Device) : d.PowerStep d.judgeSample := by
  unfold Device.judgeSample
  dsimp only
  generalize ha : (if d.sprintSpent = true then d.endSprint else d) = a
  have hspent : d.PowerStep a := by
    rw [← ha]
    split
    · exact endSprint_powerStep d
    · exact ⟨rfl, ⟨rfl, rfl, rfl, rfl, rfl⟩, List.prefix_rfl⟩
  have hjudged : d.PowerStep (a.judgeRatings.judgeFloor.judgeCap.updThrottle 10) :=
    ((hspent.trans (judgeRatings_powerStep a)).trans (judgeFloor_still _).toPowerStep).trans
      (Device.PowerStep.trans (e := a.judgeRatings.judgeFloor.judgeCap) ⟨rfl, ⟨rfl, rfl, rfl, rfl, rfl⟩, List.prefix_rfl⟩ (updThrottle_still _ 10).toPowerStep)
  generalize a.judgeRatings.judgeFloor.judgeCap.updThrottle 10 = b at hjudged ⊢
  generalize hc : (if b.edgesRamp = true then b else b.rampStep) = c
  have hramped : d.PowerStep c := by
    rw [← hc]
    split
    · exact hjudged
    · exact hjudged.trans (rampStep_oneChange b).1
  split
  · split
    · exact hramped.trans (flushCoalesced_powerStep c)
    · exact hramped
  · split
    · exact hramped.trans (flushCoalesced_powerStep c)
    · exact hramped
  · exact hramped

/-- A sample's readings stand, and an input that leaves its limits is recorded. -/
theorem powerSample_measured (d : Device) (watts mV : Nat) :
    let e := d.powerSample watts mV
    e = { d with power := e.power, err := e.err } ∧ (d.power.sampled watts mV).SameMeasured e.power ∧
      (d.power.inputOut = false → mV < 40000 ∨ 56000 < mV → d.err.general < 64 → ∃ x, ⟨x, false, none⟩ ∈ e.err.queue ∧ x.reason = 0x070D ∧ x.unit = 0xFFFF) := by
  rw [powerSample_eq]
  dsimp only
  generalize hn : ({ d with power := d.power.sampled watts mV } : Device) = n
  have heq : n = { d with power := n.power, err := n.err } := by rw [← hn]
  have hpower : n.power = d.power.sampled watts mV := by rw [← hn]
  have herr : n.err = d.err := by rw [← hn]
  generalize hm : (if ((decide (mV < 40000) || decide (56000 < mV)) && !d.power.inputOut) = true then _ else n : Device) = m
  have hstep : n.PowerStep m := by
    rw [← hm]
    split
    · exact (powerRaise_still _ _).toPowerStep
    · exact ⟨rfl, ⟨rfl, rfl, rfl, rfl, rfl⟩, List.prefix_rfl⟩
  have hall := hstep.trans (judgeSample_powerStep m)
  refine ⟨?_, by rw [← hpower]; exact hall.measured, fun hin hout hgeneral => ?_⟩
  · rw [hall.eq, heq]
  · have hleaves : ((decide (mV < 40000) || decide (56000 < mV)) && !d.power.inputOut) = true := by
      rw [hin]
      simpa using hout
    obtain ⟨x, hx, hreason, -, hunit⟩ := powerRaise_queue (d := n) (by rw [herr]; exact hgeneral)
      { powerRecord 0x070D 2 with detail := BitVec.ofNat 128 (mV % 65536) }
    rw [if_pos hleaves] at hm
    rw [hm] at hx
    exact ⟨x, (judgeSample_powerStep m).queue.subset (by rw [hx]; simp), hreason, hunit⟩

/-! ### Droop (R724, R726, R727) -/

theorem updThrottle_panels (d : Device) (us : Nat) : (d.updThrottle us).power.panels = d.power.panels := by
  rw [(updThrottle_throttled d us).power]

/-- The lowest voltage of a panel's trips is kept with their coalesced record. -/
def lowestVoltage (p : PanelId) (mV : BitVec 16) (r : ErrRec) : ErrRec :=
  if r.reason = 0x0706 && r.panel = p.val && mV.toNat < r.detail.toNat then { r with detail := mV.setWidth 128 } else r

theorem lowestVoltage_shows {p : PanelId} {mV : BitVec 16} {r : ErrRec} (hreason : r.reason = 0x0706) (hpanel : r.panel = p.val) :
    (lowestVoltage p mV r).reason = 0x0706 ∧ (lowestVoltage p mV r).panel = p.val ∧ (lowestVoltage p mV r).detail.toNat ≤ mV.toNat := by
  unfold lowestVoltage
  by_cases hlow : mV.toNat < r.detail.toNat
  · rw [if_pos (by simp [hreason, hpanel, hlow])]
    refine ⟨hreason, hpanel, ?_⟩
    rw [BitVec.toNat_setWidth]
    exact Nat.mod_le _ _
  · rw [if_neg (by simp [hlow])]
    exact ⟨hreason, hpanel, by omega⟩

/-- A panel's entry with a trip of one of its detectors. -/
def PanelPower.tripped (q : PanelPower) (det : Fin 16) : PanelPower :=
  { q with trips := q.trips ||| (1#16 <<< det.val), stretched := true, clearSince := none }

/-- A trip of a droop detector, held with the coalesced records. -/
def Device.coalesceTrip (d : Device) (p : PanelId) (detector : Fin 16) (mV : BitVec 16) : Device :=
  ((d.updPower p (fun q => q.tripped detector)).powerReason 0x0706).raiseCoalesced
    { reason := 0x0706, mech := 0x0C, outcome := 0, panel := p.val, unit := p.val, detail := mV.setWidth 128 }

def Device.lowestVoltages (d : Device) (p : PanelId) (mV : BitVec 16) : Device :=
  { d with err := { d.err with coalesced := d.err.coalesced.map (lowestVoltage p mV) } }

theorem coalesceTrip_held (d : Device) (p : PanelId) (det : Fin 16) (mV : BitVec 16) :
    let e := d.coalesceTrip p det mV
    e = { d with power := e.power, err := e.err } ∧ e.err.queue = d.err.queue ∧
      e.power.panels = d.power.panels.set p.val (d.power.panels[p.val].tripped det) ∧
      ∃ x ∈ e.err.coalesced, x.reason = 0x0706 ∧ x.panel = p.val := by
  unfold Device.coalesceTrip
  generalize hn : (d.updPower p _).powerReason 0x0706 = n
  have heq : n = { d with power := n.power } := by rw [← hn]; rfl
  have hpanels : n.power.panels = d.power.panels.set p.val (d.power.panels[p.val].tripped det) := by rw [← hn]; rfl
  have herr : n.err = d.err := by rw [← hn]; rfl
  clear hn
  obtain ⟨err, htrip, hqueue, x, hx, hreason, hpanel, -⟩ := raiseCoalesced_held n
    { reason := 0x0706, mech := 0x0C, outcome := 0, panel := p.val, unit := p.val, detail := mV.setWidth 128 }
  rw [htrip]
  exact ⟨by rw [heq], by rw [← herr]; exact hqueue, hpanels, x, hx, hreason, hpanel⟩

theorem droopTrip_coalesced (d : Device) (p : PanelId) (det : Fin 16) (mV : BitVec 16) :
    let e := d.droopTrip p det mV
    e = { d with power := e.power, err := e.err } ∧ e.err.queue = d.err.queue ∧
      e.power.panels = d.power.panels.set p.val (d.power.panels[p.val].tripped det) ∧
      ∃ x ∈ e.err.coalesced, x.reason = 0x0706 ∧ x.panel = p.val ∧ x.detail.toNat ≤ mV.toNat := by
  have hform : d.droopTrip p det mV = ((d.coalesceTrip p det mV).lowestVoltages p mV).updThrottle 0 := (rfl)
  obtain ⟨heq, hqueue, hpanels, x, hx, hreason, hpanel⟩ := coalesceTrip_held d p det mV
  rw [hform]
  generalize d.coalesceTrip p det mV = n at heq hqueue hpanels hx ⊢
  obtain ⟨hlowReason, hlowPanel, hlow⟩ := lowestVoltage_shows hreason hpanel (mV := mV)
  obtain ⟨heq', hpower, hqueue', hkept⟩ := updThrottle_throttled (n.lowestVoltages p mV) 0
  obtain ⟨y, hy, hyreason, hypanel, hydetail⟩ := hkept (lowestVoltage p mV x) (List.mem_map_of_mem hx)
  generalize (n.lowestVoltages p mV).updThrottle 0 = m at heq' hpower hqueue' hy ⊢
  have hframe : m = { d with power := m.power, err := m.err } := by
    rw [heq', Device.lowestVoltages, heq]
  exact ⟨hframe, hqueue'.trans hqueue, (congrArg Power.panels hpower).trans hpanels, y, hy, hyreason.trans hlowReason, hypanel.trans hlowPanel,
    by rw [hydetail]; exact hlow⟩

/-- One panel's entry of the power controller, and no other. -/
theorem set_panels (l : Vector PanelPower 8) (p : PanelId) (x : PanelPower) :
    (l.set p.val x)[p.val] = x ∧ ∀ o : PanelId, o ≠ p → (l.set p.val x)[o.val] = l[o.val] :=
  ⟨Vector.getElem_set_self _, fun _ ho => Vector.getElem_set_ne _ _ (fun h => ho (Fin.ext h.symm))⟩

/-- A deferred step waits for the panel to be free of trips. -/
theorem deferredStep_waits {d : Device} {p : PanelId} (hdeferred : d.power.panels[p.val].deferred = true)
    (hdrooped : d.power.panels[p.val].drooped d.now = true) : d.deferredStep p = d := by
  unfold Device.deferredStep
  split
  · unfold Device.takeFreqStep
    dsimp only
    split
    · rfl
    · rw [if_pos hdrooped]
      have hsame : { d.power.panels[p.val] with deferred := true } = d.power.panels[p.val] := by
        generalize d.power.panels[p.val] = q at hdeferred ⊢
        obtain ⟨⟩ := q
        cases hdeferred
        rfl
      unfold Device.updPower
      dsimp only
      rw [hsame, Vector.set_getElem_self]
  · rfl

/-- A panel's entry once its issued step to level frequency `f` takes effect. -/
def PanelPower.stepTaken (q : PanelPower) (f : Nat) : PanelPower :=
  { q with freq := f, railMv := railOf f, issued := none, deferred := false, allow := if q.emergency then 1 else q.allow }

theorem deferredStep_taken {d : Device} {p : PanelId} (hdeferred : d.power.panels[p.val].deferred = true) (hidle : (d.panel p).array.run = none)
    (hfree : d.power.panels[p.val].drooped d.now = false) {f : Nat} (hissued : d.power.panels[p.val].issued = some f) :
    d.deferredStep p = ({ d with power := { d.power with
      panels := d.power.panels.set p.val (d.power.panels[p.val].stepTaken f)
      reason := 0x0707 } } : Device).raise { reason := 0x0707, mech := 0x0C, outcome := 2, panel := p.val, unit := 0xFFFF } := by
  refine (if_pos (by rw [hdeferred, hidle]; rfl)).trans ?_
  unfold Device.takeFreqStep
  dsimp only
  rw [hissued]
  dsimp only
  rw [if_neg (by rw [hfree]; exact Bool.false_ne_true), if_pos hdeferred]
  rfl

/-! ### Holds, sprint and lifetime (R733, R739, R741) -/

/-- A row that shows a reason of the power domain and raises its record. -/
theorem powerRaise_shown {d n : Device} (hgeneral : d.err.general < 64) {w : Power} (hn : n = { d with power := w }) (r : ErrRec) :
    let e := n.powerRaise r
    e = { d with power := e.power, err := e.err } ∧ e.power = { w with reason := r.reason } ∧
      ∃ x, e.err.queue = d.err.queue ++ [⟨x, false, none⟩] ∧ x.reason = r.reason := by
  subst hn
  obtain ⟨x, hqueue, hreason, -, -⟩ := powerRaise_queue (d := { d with power := w }) hgeneral r
  obtain ⟨err, hraise⟩ := raise_eq (({ d with power := w } : Device).powerReason r.reason) r
  have hraise : ({ d with power := w } : Device).powerRaise r = _ := hraise
  rw [hraise] at hqueue ⊢
  exact ⟨rfl, rfl, x, hqueue, hreason⟩

theorem holdTimer_begins {d : Device} {since : Nat} (hoff : d.power.admitHold = false) (hsince : d.power.aboveSince = some since)
    (hdue : 50000000 ≤ d.now - since) :
    d.holdTimer = ({ d with power := { d.power with admitHold := true } } : Device).powerRaise (powerRecord 0x0704 2) :=
  if_pos (by rw [hoff, hsince]; simpa using hdue)

theorem holdTimer_ends {d : Device} {since : Nat} (hon : d.power.admitHold = true) (hsince : d.power.belowSince = some since)
    (hdue : 50000000 ≤ d.now - since) :
    d.holdTimer = ({ d with power := { d.power with admitHold := false } } : Device).powerRaise (powerRecord 0x0704 2) :=
  (if_neg (by rw [hon]; simp)).trans (if_pos (by rw [hon, hsince]; simpa using hdue))

theorem holdTimer_idle {d : Device} (hoff : d.power.admitHold = false) (hsince : d.power.aboveSince = none) : d.holdTimer = d :=
  (if_neg (by rw [hsince]; simp)).trans (if_neg (by rw [hoff]; simp))

theorem sprintSpent_iff (d : Device) :
    d.sprintSpent = true ↔ d.power.sprinting = true ∧ (140000000 ≤ d.power.integ ∨ 2000000000 ≤ d.now - d.power.sprintSince) := by
  unfold Device.sprintSpent sprintJoules
  rw [Bool.and_eq_true, Bool.or_eq_true, decide_eq_true_iff, decide_eq_true_iff]

/-- The sprint budget judges the lockout (R741). -/
def Device.judgeBudget (d : Device) (minutes seconds : Nat) : Device :=
  if !d.power.lockout && decide (5 * (60 * minutes) ≤ 100 * seconds) then
      { d with power := { d.power with lockout := true } }.powerRaise (powerRecord 0x0708 2)
    else if d.power.lockout && decide (1000 * seconds ≤ 45 * (60 * minutes)) then
      { d with power := { d.power with lockout := false } }.powerRaise (powerRecord 0x0709 2)
    else d

/-- The lifetime records after another minute. -/
def State.lived (s : State) : Vault :=
  { s.vault with
    poweredMin := satTo 32 (s.vault.poweredMin + 1)
    sprintSeconds := satTo 32 (s.vault.sprintSeconds + (ceilDiv s.dev.power.sprintUs 1000000 - s.dev.power.sprintCounted)) }

theorem lifetime_eq (s : State) :
    s.lifetime = { s with
      vault := s.lived
      dev := (({ s.dev with power := { s.dev.power with sprintCounted := ceilDiv s.dev.power.sprintUs 1000000 } } : Device).judgeBudget
        s.lived.poweredMin s.lived.sprintSeconds).updThrottle 0 } := by
  unfold State.lifetime
  extract_lets total m v d₀ w₀ d₁ secs w₁ d₂
  have hjudged : d₂ = d₁.judgeBudget v.poweredMin v.sprintSeconds := (rfl)
  rw [hjudged]
  rfl

/-- A lockout, its reason and the error records. -/
theorem judgeBudget_lockout (d : Device) (minutes seconds : Nat) :
    let e := d.judgeBudget minutes seconds
    e = { d with power := e.power, err := e.err } ∧ e.power = { d.power with lockout := e.power.lockout, reason := e.power.reason } ∧
      e.power.lockout = if d.power.lockout then decide (45 * (60 * minutes) < 1000 * seconds) else decide (5 * (60 * minutes) ≤ 100 * seconds) := by
  have hraised (b : Bool) (r : ErrRec) :
      let e := ({ d with power := { d.power with lockout := b } } : Device).powerRaise r
      e = { d with power := e.power, err := e.err } ∧ e.power = { d.power with lockout := e.power.lockout, reason := e.power.reason } ∧ e.power.lockout = b := by
    obtain ⟨err, hraise⟩ := raise_eq (({ d with power := { d.power with lockout := b } } : Device).powerReason r.reason) r
    have hraise : ({ d with power := { d.power with lockout := b } } : Device).powerRaise r = _ := hraise
    rw [hraise]
    exact ⟨rfl, rfl, rfl⟩
  unfold Device.judgeBudget
  cases hlock : d.power.lockout with
  | false =>
    by_cases hspent : 5 * (60 * minutes) ≤ 100 * seconds
    · rw [if_pos (by simpa using hspent), decide_eq_true hspent]
      exact hraised true _
    · rw [if_neg (by simpa using hspent), if_neg (by simp), decide_eq_false hspent]
      exact ⟨rfl, rfl, hlock⟩
  | true =>
    by_cases hrested : 1000 * seconds ≤ 45 * (60 * minutes)
    · rw [if_neg (by simp), if_pos (by simpa using hrested), decide_eq_false (not_lt.2 hrested)]
      exact hraised false _
    · rw [if_neg (by simp), if_neg (by simpa using hrested), decide_eq_true (not_le.1 hrested)]
      exact ⟨rfl, rfl, hlock⟩

theorem lifetime_stored (s : State) :
    let t := s.lifetime
    t = { s with dev := t.dev, vault := t.vault } ∧ t.dev = { s.dev with power := t.dev.power, err := t.dev.err } ∧ t.vault = s.lived ∧
      t.dev.power.sprintUs = s.dev.power.sprintUs ∧ t.dev.power.sprintCounted = ceilDiv s.dev.power.sprintUs 1000000 ∧
      t.dev.power.lockout = if s.dev.power.lockout then decide (45 * (60 * s.lived.poweredMin) < 1000 * s.lived.sprintSeconds)
        else decide (5 * (60 * s.lived.poweredMin) ≤ 100 * s.lived.sprintSeconds) := by
  intro t
  have ht : t = _ := lifetime_eq s
  have hdev := congrArg State.dev ht
  have hvault : t.vault = s.lived := congrArg State.vault ht
  have hframe : t = { s with dev := t.dev, vault := t.vault } := by rw [ht]
  clear_value t
  clear ht
  dsimp only at hdev
  generalize hn : ({ s.dev with power := { s.dev.power with sprintCounted := ceilDiv s.dev.power.sprintUs 1000000 } } : Device) = n at hdev
  have heq : n = { s.dev with power := n.power } := by rw [← hn]
  have hpower : n.power = { s.dev.power with sprintCounted := ceilDiv s.dev.power.sprintUs 1000000 } := by rw [← hn]
  clear hn
  obtain ⟨hbudget, hbudgetPower, hlockout⟩ := judgeBudget_lockout n s.lived.poweredMin s.lived.sprintSeconds
  generalize n.judgeBudget s.lived.poweredMin s.lived.sprintSeconds = b at hdev hbudget hbudgetPower hlockout
  obtain ⟨hjudged, hjudgedPower, -, -⟩ := updThrottle_throttled b 0
  rw [← hdev] at hjudged hjudgedPower
  refine ⟨hframe, by rw [hjudged, hbudget, heq], hvault, ?_, ?_, ?_⟩
  · rw [hjudgedPower, hbudgetPower, hpower]
  · rw [hjudgedPower, hbudgetPower, hpower]
  · rw [hjudgedPower, hlockout, hpower]

/-- A sprint's end, and the throttle counters after it. -/
theorem endSprint_ended {d : Device} (h : d.power.sprinting = true) :
    let e := d.endSprint.updThrottle 0
    e = { d with power := e.power, err := e.err } ∧ e.power.sprinting = false ∧
      e.power.sprintMs = satTo 16 ((d.now - d.power.sprintSince) / 1000000) := by
  have hended : d.endSprint = { d with power := { d.power with sprinting := false, sprintMs := satTo 16 ((d.now - d.power.sprintSince) / 1000000) } } :=
    if_neg (by rw [h]; exact Bool.false_ne_true)
  obtain ⟨heq, hpower, -, -⟩ := updThrottle_throttled d.endSprint 0
  generalize d.endSprint = n at hended heq hpower ⊢
  dsimp only
  exact ⟨by rw [heq, hended], by rw [hpower, hended], by rw [hpower, hended]⟩

theorem stretchEnd_ended {d : Device} {p : PanelId} (h : d.power.panels[p.val].stretched = true) :
    let q := d.power.panels[p.val]
    let e := d.stretchEnd p
    e = { d with power := e.power, err := e.err } ∧
      e.power.panels = d.power.panels.set p.val { q with trips := 0, stretched := false, clearSince := some (d.now - 2000 / q.freq) } := by
  have hended : d.stretchEnd p = _ := if_neg (by rw [h]; exact Bool.false_ne_true)
  rw [hended]
  generalize hn : d.updPower p _ = n
  have heq : n = { d with power := n.power } := by rw [← hn]; rfl
  have hpanels : n.power.panels = d.power.panels.set p.val { d.power.panels[p.val] with
    trips := 0, stretched := false, clearSince := some (d.now - 2000 / d.power.panels[p.val].freq) } := by rw [← hn]; rfl
  clear hn
  obtain ⟨hthrottled, hpower, -, -⟩ := updThrottle_throttled n 0
  exact ⟨by rw [hthrottled, heq], (congrArg Power.panels hpower).trans hpanels⟩

/-- Settles O52: each row is its own change of the power controller, followed by what the throttle counters and the error
records may add. -/
theorem powerEvents : Obligations.PowerEvents := by
  intro s watts mV p det volts hrails
  refine ⟨?_, ?_, fun h => ?_, fun h => ?_, fun h => ?_, fun hdeferred hidle hdrooped _ => ?_, fun hdeferred hidle hfree hgeneral f hissued => ?_,
    fun hgeneral since hdue => ⟨fun hoff hsince => ?_, fun hon hsince => ?_⟩, fun hoff hsince => ?_, fun hon hlimit => ?_, fun h => ?_, ?_⟩
  · obtain ⟨heq, hmeasured, hrecord⟩ := powerSample_measured s.dev watts mV
    exact completes_run (f := fun d => d.powerSample watts mV) rfl hrails ⟨⟨rfl, heq⟩, hmeasured.watts, hmeasured.millivolts, hmeasured.samples, hmeasured.integ,
      hmeasured.inputOut, fun hin hout hgeneral => hrecord hin hout (by omega)⟩
  · obtain ⟨heq, hqueue, hpanels, hrecord⟩ := droopTrip_coalesced s.dev p det volts
    obtain ⟨hsame, hothers⟩ := set_panels s.dev.power.panels p (s.dev.power.panels[p.val].tripped det)
    rw [← hpanels] at hsame hothers
    exact completes_run (f := fun d => d.droopTrip p det volts) rfl hrails ⟨⟨rfl, heq⟩, hothers, hsame, hqueue, hrecord⟩
  · exact exec_run (c := .droopStretchEnd p) (f := fun d => d.stretchEnd p) rfl hrails (if_pos (by rw [h]; rfl))
  · obtain ⟨heq, hpanels⟩ := stretchEnd_ended (p := p) h
    obtain ⟨hsame, hothers⟩ := set_panels s.dev.power.panels p { s.dev.power.panels[p.val] with
      trips := 0, stretched := false, clearSince := some (s.dev.now - 2000 / s.dev.power.panels[p.val].freq) }
    rw [← hpanels] at hsame hothers
    exact completes_run (f := fun d => d.stretchEnd p) rfl hrails ⟨⟨rfl, heq⟩, hothers, hsame⟩
  · refine exec_run (c := .freqStepDeferred p) (f := fun d => d.deferredStep p) rfl hrails (if_neg ?_)
    obtain h | h := h
    · rw [h]
      exact Bool.false_ne_true
    · rw [Bool.and_eq_true, Option.isNone_iff_eq_none]
      exact fun hrun => h hrun.2
  · exact exec_run (c := .freqStepDeferred p) (f := fun d => d.deferredStep p) rfl hrails (deferredStep_waits hdeferred hdrooped)
  · have htaken := deferredStep_taken hdeferred hidle hfree hissued
    generalize hn : ({ s.dev with power := _ } : Device) = n at htaken
    have hqueue := raise_queue (d := n) (by rw [← hn]; exact hgeneral) { reason := 0x0707, mech := 0x0C, outcome := 2, panel := p.val, unit := 0xFFFF }
    have hsameFault := stampRec_sameFault n { reason := 0x0707, mech := 0x0C, outcome := 2, panel := p.val, unit := 0xFFFF }
    obtain ⟨err, hraise⟩ := raise_eq n { reason := 0x0707, mech := 0x0C, outcome := 2, panel := p.val, unit := 0xFFFF }
    rw [← htaken] at hqueue hraise
    have hpanels : (s.dev.deferredStep p).power.panels = s.dev.power.panels.set p.val (s.dev.power.panels[p.val].stepTaken f) := by rw [hraise, ← hn]
    obtain ⟨hsame, hothers⟩ := set_panels s.dev.power.panels p (s.dev.power.panels[p.val].stepTaken f)
    rw [← hpanels] at hsame hothers
    refine completes_run (f := fun d => d.deferredStep p) rfl hrails ⟨⟨rfl, ?_⟩, hothers, hsame, _, ?_, hsameFault.reason, hsameFault.panel⟩
    · rw [hraise, ← hn]
    · rw [hqueue, ← hn]
  · obtain ⟨heq, hpower, hrecord⟩ := powerRaise_shown (n := { s.dev with power := { s.dev.power with admitHold := true } }) hgeneral rfl (powerRecord 0x0704 2)
    rw [← holdTimer_begins hoff hsince hdue] at heq hpower hrecord
    exact completes_run (f := Device.holdTimer) rfl hrails ⟨⟨rfl, heq⟩, hpower, hrecord⟩
  · obtain ⟨heq, hpower, hrecord⟩ := powerRaise_shown (n := { s.dev with power := { s.dev.power with admitHold := false } }) hgeneral rfl (powerRecord 0x0704 2)
    rw [← holdTimer_ends hon hsince hdue] at heq hpower hrecord
    exact completes_run (f := Device.holdTimer) rfl hrails ⟨⟨rfl, heq⟩, hpower, hrecord⟩
  · exact exec_run (c := .admitHoldTimer) (f := Device.holdTimer) rfl hrails (holdTimer_idle hoff hsince)
  · have hspent : (if s.dev.sprintSpent then s.dev.endSprint.updThrottle 0 else s.dev) = _ := if_pos ((sprintSpent_iff s.dev).2 ⟨hon, hlimit⟩)
    have hended := endSprint_ended hon
    rw [← hspent] at hended
    exact completes_run (f := fun d => if d.sprintSpent then d.endSprint.updThrottle 0 else d) rfl hrails ⟨⟨rfl, hended.1⟩, hended.2⟩
  · refine exec_run (c := .sprintLimit) (f := fun d => if d.sprintSpent then d.endSprint.updThrottle 0 else d) rfl hrails (if_neg ?_)
    rw [sprintSpent_iff]
    rintro ⟨hon, hlimit⟩
    obtain h | h := h
    · rw [h] at hon
      exact Bool.false_ne_true hon
    · omega
  · obtain ⟨hframe, heq, hvault, hus, hcounted, hlockout⟩ := lifetime_stored s
    exact ⟨_, congrArg Host.Outcome.next (if_pos hrails), hframe, heq, hvault, hus, hcounted, hlockout⟩

end Sys2Proof.Machine
end

section
/-! The boot of the processors (R756 to R763), the expiry of a pair of keys and the frames that are zeroed ahead. -/

namespace Sys2Proof.Machine

/-! ### What a boot measures -/

/-- A measurement changes the measurement registers alone. -/
structure Device.Measured (d e : Device) : Prop where
  eq : e = { d with thimble := { d.thimble with meas := e.thimble.meas } }

theorem Device.Measured.refl (d : Device) : d.Measured d := ⟨rfl⟩

theorem Device.Measured.trans {d e f : Device} (h : d.Measured e) (g : e.Measured f) : d.Measured f :=
  ⟨by rw [g.eq, h.eq]⟩

theorem measure_measured (d : Device) (n : Fin 5) (type index : Nat) (digest : BitVec 512) : d.Measured (d.measure n type index digest) := ⟨rfl⟩

theorem measure_meas (d : Device) (n : Fin 5) (type index : Nat) (digest : BitVec 512) (k : Fin 5) :
    (d.measure n type index digest).thimble.meas[k.val] =
      if k = n then extendDigest d.thimble.meas[n.val] type index digest else d.thimble.meas[k.val] := by
  unfold Device.measure Device.updThimble
  rw [Vector.getElem_set]
  by_cases h : k = n
  · subst h
    simp
  · rw [if_neg (fun he => h (Fin.ext he.symm)), if_neg h]

/-- The other images extend MEAS2 alone; they end the boot when one of the set is not accepted. -/
theorem measureImages_measured (v : Vault) (imgs : List FwImage) (l : List Nat) (d : Device) :
    d.Measured (d.measureImages v imgs l).1 ∧ (∀ k : Fin 5, k ≠ 2 → (d.measureImages v imgs l).1.thimble.meas[k.val] = d.thimble.meas[k.val]) ∧
      ((d.measureImages v imgs l).2 = false ↔ ∃ c ∈ l, (imageOf imgs c).any (fun i => v.accepts i) = false) := by
  induction l generalizing d with
  | nil => exact ⟨.refl d, fun _ _ => rfl, ⟨fun h => absurd h.symm Bool.false_ne_true, fun ⟨_, hc, _⟩ => absurd hc List.not_mem_nil⟩⟩
  | cons c cs ih =>
    cases hc : (imageOf imgs c).filter (fun f => v.accepts f) with
    | none =>
      have hstop : d.measureImages v imgs (c :: cs) = (d, false) := by simp only [Device.measureImages, hc]
      rw [hstop]
      have hnot : (imageOf imgs c).any (fun i => v.accepts i) = false := by
        rw [Option.filter_eq_none_iff] at hc
        rw [Bool.eq_false_iff, Ne, Option.any_eq_true]
        exact fun ⟨i, hi, hyes⟩ => hc i hi hyes
      exact ⟨.refl d, fun _ _ => rfl, iff_of_true rfl ⟨c, List.mem_cons_self, hnot⟩⟩
    | some f =>
      have hgoes : d.measureImages v imgs (c :: cs) = (d.measure 2 0x03 c f.digest).measureImages v imgs cs := by simp only [Device.measureImages, hc]
      rw [hgoes]
      obtain ⟨hf, haccepts⟩ := Option.filter_eq_some_iff.1 hc
      have hyes : (imageOf imgs c).any (fun i => v.accepts i) = true := by rw [hf]; exact haccepts
      obtain ⟨hmeasured, hmeas, hends⟩ := ih (d.measure 2 0x03 c f.digest)
      refine ⟨(measure_measured d 2 0x03 c f.digest).trans hmeasured, fun k hk => ?_, hends.trans ?_⟩
      · rw [hmeas k hk, measure_meas, if_neg hk]
      · rw [List.exists_mem_cons_iff, hyes]
        simp

/-! ### The lasers at the end of a boot (R490) -/

/-- A boot's change of one cartridge. -/
def Device.lightCart (d : Device) (k : CartId) : Device :=
  d.updCart k (fun c => { c with lasers := c.present && c.genuine && !d.removeAsked k, since := d.now })

theorem foldl_lightCart {l : List CartId} (hl : l.Nodup) (d : Device) :
    let e := l.foldl Device.lightCart d
    (∃ fabric, e = { d with fabric := fabric }) ∧ (∀ c ∉ l, e.cart c = d.cart c) ∧
      ∀ c ∈ l, (e.cart c).lasers = ((d.cart c).present && (d.cart c).genuine && !d.removeAsked c) := by
  induction l generalizing d with
  | nil => exact ⟨⟨d.fabric, rfl⟩, fun _ _ => rfl, fun _ hc => absurd hc List.not_mem_nil⟩
  | cons k ks ih =>
    obtain ⟨hnew, hks⟩ := List.nodup_cons.1 hl
    obtain ⟨⟨fabric, heq⟩, hothers, hlit⟩ := ih hks (d.lightCart k)
    dsimp only
    rw [List.foldl_cons]
    refine ⟨⟨fabric, heq.trans rfl⟩, fun c hc => ?_, fun c hc => ?_⟩
    · have hck : c ≠ k := fun h => hc (List.mem_cons.2 (.inl h))
      rw [hothers c (fun h => hc (List.mem_cons_of_mem k h)), Device.lightCart, updCart_other _ hck]
    · obtain rfl | hc := List.mem_cons.1 hc
      · rw [hothers c hnew, Device.lightCart, updCart_cart]
      · have hck : c ≠ k := fun h => hnew (h ▸ hc)
        rw [hlit c hc, Device.lightCart, updCart_other _ hck]
        rfl

theorem lasersOn_lit (d : Device) :
    (∃ fabric, d.lasersOn = { d with fabric := fabric }) ∧
      ∀ c, (d.lasersOn.cart c).lasers = ((d.cart c).present && (d.cart c).genuine && !d.removeAsked c) := by
  obtain ⟨heq, -, hlit⟩ := foldl_lightCart (List.nodup_finRange 8) d
  exact ⟨heq, fun c => hlit c (List.mem_finRange c)⟩

/-! ### The boot's steps (R758, R759, R763) -/

/-- A boot whose set `imgs` in slot `k` has been measured. -/
def Device.measureSet (d : Device) (v : Vault) (k : Fin 2) (sound : Bool) : Device × Bool :=
  let imgs := (v.slots[k.val]).getD []
  let e := (d.measureRom v).measure 1 0x02 k.val (((imageOf imgs 0).map (fun f => f.digest)).getD 0)
  if sound then e.measureImages v imgs [1, 2, 3, 4, 5] else (e, false)

/-- The end of a boot that has accepted every image of slot `k`. -/
def Device.bootSound (d : Device) (v : Vault) (k : Fin 2) (t : Thimble) : Device :=
  let fallback := if t.cold then k != v.boots else t.fallback
  let d := d.updThimble (fun t => { t with booted := true, slot := k, images := (v.slots[k.val]).getD [], fallback := fallback, cold := false })
  let d := if fallback && t.cold then
      let (d, m) := d.freeMech
      d.raise { reason := 0x0820, mech := m, outcome := 2 }
    else d
  (d.enterService v.serviceRequired).lasersOn

theorem boot_again {s : State} (h : s.dev.thimble.booted = true ∨ s.dev.thimble.failed = true) (sound : Bool) : s.boot sound = s := by
  refine if_pos ?_
  obtain h | h := h
  · simp [h]
  · simp [h]

theorem boot_first {s : State} (hrails : s.pins.railsOn = true) (hbooted : s.dev.thimble.booted = false) (hfailed : s.dev.thimble.failed = false)
    (sound : Bool) :
    (s.vault.bootSlot (if s.dev.thimble.cold then s.vault.boots else s.dev.thimble.slot) = none →
      s.boot sound = { s with dev := (s.dev.measureRom s.vault).bootFailed }) ∧
    ∀ k, s.vault.bootSlot (if s.dev.thimble.cold then s.vault.boots else s.dev.thimble.slot) = some k →
      s.boot sound = { s with dev := if (s.dev.measureSet s.vault k sound).2 then (s.dev.measureSet s.vault k sound).1.bootSound s.vault k s.dev.thimble
        else (s.dev.measureSet s.vault k sound).1.bootFailed } := by
  have hstarts : (!s.pins.railsOn || s.dev.thimble.booted || s.dev.thimble.failed) = false := by rw [hrails, hbooted, hfailed]; rfl
  refine ⟨fun hnone => ?_, fun k hsome => ?_⟩
  · unfold State.boot
    dsimp only
    rw [hstarts, hnone]
    rfl
  · unfold State.boot
    dsimp only
    rw [hstarts, hsome]
    unfold Device.measureSet
    dsimp only
    cases sound with
    | false => rfl
    | true =>
      simp only [if_true]
      unfold State.onDev
      dsimp only
      generalize Device.measureImages _ s.vault _ [1, 2, 3, 4, 5] = x
      obtain ⟨e, ok⟩ := x
      cases ok with
      | false => rfl
      | true => rfl

/-- What a boot has measured when its set has been read: ROM, the slot's Thimble image, and the other images. -/
theorem measureSet_measured (d : Device) (v : Vault) (k : Fin 2) (sound : Bool) :
    d.Measured (d.measureSet v k sound).1 ∧
      (d.measureSet v k sound).1.thimble.meas[0] = (d.measureRom v).thimble.meas[0] ∧
      (d.measureSet v k sound).1.thimble.meas[1] =
        extendDigest d.thimble.meas[1] 0x02 k.val (((imageOf ((v.slots[k.val]).getD []) 0).map (fun f => f.digest)).getD 0) ∧
      ((d.measureSet v k sound).2 = false ↔
        sound = false ∨ ∃ c ∈ [1, 2, 3, 4, 5], (imageOf ((v.slots[k.val]).getD []) c).any (fun i => v.accepts i) = false) := by
  unfold Device.measureSet
  dsimp only
  generalize ((v.slots[k.val]).getD []) = imgs
  generalize ((imageOf imgs 0).map (fun f => f.digest)).getD 0 = digest
  have hrom : d.Measured (d.measureRom v) := measure_measured d 0 _ _ _
  have hset := hrom.trans (measure_measured (d.measureRom v) 1 0x02 k.val digest)
  have hkept : ((d.measureRom v).measure 1 0x02 k.val digest).thimble.meas[0] = (d.measureRom v).thimble.meas[0] :=
    (measure_meas (d.measureRom v) 1 0x02 k.val digest 0).trans (if_neg (by decide))
  have hmeasured : ((d.measureRom v).measure 1 0x02 k.val digest).thimble.meas[1] = extendDigest d.thimble.meas[1] 0x02 k.val digest := by
    have hone : (d.measureRom v).thimble.meas[1] = d.thimble.meas[1] := (measure_meas d 0 _ _ _ 1).trans (if_neg (by decide))
    rw [← hone]
    exact (measure_meas (d.measureRom v) 1 0x02 k.val digest 1).trans (if_pos rfl)
  generalize (d.measureRom v).measure 1 0x02 k.val digest = e at hset hkept hmeasured ⊢
  cases sound with
  | false => exact ⟨hset, hkept, hmeasured, iff_of_true rfl (.inl rfl)⟩
  | true =>
    obtain ⟨hall, hmeas, hends⟩ := measureImages_measured v imgs [1, 2, 3, 4, 5] e
    refine ⟨hset.trans hall, (hmeas 0 (by decide)).trans hkept, (hmeas 1 (by decide)).trans hmeasured, hends.trans ?_⟩
    exact ⟨.inr, fun h => h.resolve_left (fun h => Bool.false_ne_true h.symm)⟩

theorem enterService_eq (d : Device) (recorded : Bool) :
    d.enterService recorded = { d with reset := { d.reset with escalation := if recorded then .serviceRequired else d.reset.escalation } } := by
  unfold Device.enterService
  cases recorded with
  | false => rfl
  | true => rfl

/-- What a sound boot leaves: the images of its slot, the recorded service and the lasers. -/
structure Device.Booted (d e : Device) (v : Vault) (k : Fin 2) (t : Thimble) : Prop where
  mem : e.mem = d.mem
  panels : e.panels = d.panels
  contexts : e.contexts = d.contexts
  thimble : e.thimble = { d.thimble with booted := true, slot := k, images := (v.slots[k.val]).getD [], cold := false,
                                          fallback := if t.cold then k != v.boots else t.fallback }
  escalation : e.reset.escalation = if v.serviceRequired then .serviceRequired else d.reset.escalation
  lasers : ∀ c : CartId, (e.cart c).lasers = ((d.cart c).present && (d.cart c).genuine && !d.removeAsked c)

/-- Thimble after a sound boot from slot `k`, where `t` is Thimble before it. -/
def Device.bootedThimble (d : Device) (v : Vault) (k : Fin 2) (t : Thimble) : Thimble :=
  { d.thimble with booted := true, slot := k, images := (v.slots[k.val]).getD [], cold := false, fallback := if t.cold then k != v.boots else t.fallback }

/-- The end of a boot, once Thimble shows its slot and a fallback has been recorded. -/
theorem bootEnd_booted {d n : Device} {v : Vault} {k : Fin 2} {t : Thimble}
    (hn : n = { d with thimble := d.bootedThimble v k t, fresh := n.fresh, err := n.err }) :
    d.Booted (n.enterService v.serviceRequired).lasersOn v k t := by
  rw [enterService_eq]
  generalize hm : ({ n with reset := _ } : Device) = m
  have heq : m = { d with thimble := d.bootedThimble v k t, fresh := m.fresh, err := m.err, reset := m.reset } := by rw [← hm, hn]
  have hescalation : m.reset.escalation = if v.serviceRequired then .serviceRequired else d.reset.escalation := by rw [← hm, hn]
  clear hm
  obtain ⟨⟨fabric, hlit⟩, hlasers⟩ := lasersOn_lit m
  refine ⟨?_, ?_, ?_, ?_, ?_, fun c => (hlasers c).trans ?_⟩
  · rw [hlit, heq]
  · rw [hlit, heq]
  · rw [hlit, heq]
  · rw [hlit, heq]
    rfl
  · rw [hlit]
    exact hescalation
  · rw [heq]
    rfl

theorem bootSound_booted (d : Device) (v : Vault) (k : Fin 2) (t : Thimble) : d.Booted (d.bootSound v k t) v k t := by
  unfold Device.bootSound
  by_cases hfallback : ((if t.cold then k != v.boots else t.fallback) && t.cold) = true
  · dsimp only
    rw [if_pos hfallback]
    have hraised (n : Device) (r : ErrRec) (hn : n = { d with thimble := d.bootedThimble v k t, fresh := n.fresh, err := n.err }) :
        n.raise r = { d with thimble := d.bootedThimble v k t, fresh := (n.raise r).fresh, err := (n.raise r).err } := by
      obtain ⟨err, hraise⟩ := raise_eq n r
      rw [hraise, hn]
    exact bootEnd_booted (hraised _ _ rfl)
  · dsimp only
    rw [if_neg hfallback]
    exact bootEnd_booted rfl

/-! ### Frames zeroed ahead -/

/-- A page of a frame is zeroed, unless it is retired. -/
def Device.zeroPage (d : Device) (base : Nat) : Device :=
  if (d.panel (panelOf base)).retires (ppaOf base) then d
  else
    let d := (d.spoolDrop base 65536).rewrote (base / 64) 1024
    { d with mem := memZero d.mem base 65536,
             poison := d.poison.filter (fun a => a / 1024 != base / 65536), faulty := d.faulty.filter (fun a => a / 1024 != base / 65536) }

theorem zeroFrame_pages (d : Device) (f : Nat) :
    d.zeroFrame f = (List.range 32).foldl (fun d i => d.zeroPage (f * 2 ^ 21 + 65536 * i)) d := (rfl)

theorem spoolDrop_retired (d : Device) (mpa n : Nat) (p : PanelId) (ppa : Nat) :
    ((d.spoolDrop mpa n).panel p).retires ppa = (d.panel p).retires ppa := by
  unfold Device.spoolDrop
  by_cases hp : p = panelOf mpa
  · subst hp
    rw [updPanel_panel]
    rfl
  · rw [updPanel_other _ hp]

theorem rewrote_panels (d : Device) (first n : Nat) : (d.rewrote first n).panels = d.panels := by
  unfold Device.rewrote
  split <;> rfl

theorem rewrote_contexts (d : Device) (first n : Nat) : (d.rewrote first n).contexts = d.contexts := by
  unfold Device.rewrote
  split <;> rfl

/-- What zeroing pages leaves: contexts, frames and the retired pages. -/
structure Device.Zeroes (d e : Device) : Prop where
  contexts : e.contexts = d.contexts
  retired : ∀ (p : PanelId) (ppa : Nat), (e.panel p).retires ppa = (d.panel p).retires ppa
  wf : memWf d.mem = true → memWf e.mem = true

theorem zeroPage_zeroes (d : Device) (base : Nat) : d.Zeroes (d.zeroPage base) := by
  unfold Device.zeroPage
  dsimp only
  split
  · exact ⟨rfl, fun _ _ => rfl, id⟩
  · refine ⟨?_, fun p ppa => ?_, fun hwf => memZero_wf _ _ _ ?_⟩
    · exact (rewrote_contexts _ _ _).trans rfl
    · rw [← spoolDrop_retired d base 65536]
      show ((Device.rewrote _ _ _).panel p).retires ppa = _
      rw [Device.panel, rewrote_panels]
      rfl
    · rw [rewrote_mem]
      exact hwf

/-- The bytes after a page has been zeroed. -/
theorem zeroPage_byte {d : Device} {base : Nat} (hwf : memWf d.mem = true) (b : Nat) :
    memGet (d.zeroPage base).mem b =
      if (base ≤ b ∧ b < base + 65536) ∧ (d.panel (panelOf base)).retires (ppaOf base) = false then 0 else memGet d.mem b := by
  unfold Device.zeroPage
  dsimp only
  by_cases hretired : (d.panel (panelOf base)).retires (ppaOf base) = true
  · rw [if_pos hretired, if_neg (by rw [hretired]; simp)]
  · rw [if_neg hretired]
    dsimp only
    rw [rewrote_mem]
    have hmem : (d.spoolDrop base 65536).mem = d.mem := rfl
    rw [hmem, memGet_zero hwf]
    simp only [Bool.not_eq_true] at hretired
    simp only [hretired, and_true]

/-- The bytes after the first `n` pages from `start` on have been zeroed. -/
theorem zeroPages_bytes {d : Device} {start : Nat} (hstart : start % 65536 = 0) (hwf : memWf d.mem = true) (n : Nat) :
    let e := (List.range n).foldl (fun d i => d.zeroPage (start + 65536 * i)) d
    d.Zeroes e ∧ ∀ b, memGet e.mem b =
      if (start ≤ b ∧ b < start + 65536 * n) ∧ (d.panel (panelOf (b / 65536 * 65536))).retires (ppaOf (b / 65536 * 65536)) = false then 0 else memGet d.mem b := by
  induction n with
  | zero => exact ⟨⟨rfl, fun _ _ => rfl, id⟩, fun b => (if_neg (by omega)).symm⟩
  | succ n ih =>
    obtain ⟨⟨hcontexts, hretired, hwf'⟩, hbytes⟩ := ih
    rw [List.range_succ, List.foldl_append]
    dsimp only [List.foldl_cons, List.foldl_nil]
    generalize (List.range n).foldl (fun d i => d.zeroPage (start + 65536 * i)) d = e at hcontexts hretired hwf' hbytes ⊢
    obtain ⟨hcontexts', hretired', hwf''⟩ := zeroPage_zeroes e (start + 65536 * n)
    refine ⟨⟨hcontexts'.trans hcontexts, fun p ppa => (hretired' p ppa).trans (hretired p ppa), fun h => hwf'' (hwf' h)⟩, fun b => ?_⟩
    rw [zeroPage_byte (hwf' hwf), hbytes, hretired]
    by_cases hpage : start + 65536 * n ≤ b ∧ b < start + 65536 * n + 65536
    · have hbase : b / 65536 * 65536 = start + 65536 * n := by omega
      rw [hbase]
      by_cases hr : (d.panel (panelOf (start + 65536 * n))).retires (ppaOf (start + 65536 * n)) = false
      · rw [if_pos ⟨hpage, hr⟩, if_pos ⟨by omega, hr⟩]
      · rw [if_neg (fun h => hr h.2), if_neg (fun h => hr h.2), if_neg (fun h => hr h.2)]
    · rw [if_neg (fun h => hpage h.1)]
      congr 2
      exact propext ⟨fun h => ⟨h.1, by omega⟩, fun h => ⟨h.1, by omega⟩⟩

theorem zeroFrame_contexts (d : Device) (f : Nat) : (d.zeroFrame f).contexts = d.contexts := by
  rw [zeroFrame_pages]
  exact List.foldlRecOn (motive := fun e : Device => e.contexts = d.contexts) _ _ rfl (fun e he i _ => (zeroPage_zeroes e _).contexts.trans he)

/-- A fresh frame of an enabled memory that nobody owns is zeroed. -/
theorem frameZeroed_zeroes {d : Device} {f : Nat} (hin : f * 2 ^ 21 < mpaEnd) (hon : (d.panel (panelOf (f * 2 ^ 21))).memOn = true)
    (howners : (d.frames.get f).owners = []) (hfresh : (d.frames.get f).fresh = true) (hclean : (d.frames.get f).clean = false)
    (hcrash : isCrashFrame f = false) :
    d.frameZeroed f = { d.zeroFrame f with frames := d.frames.put { d.frames.get f with clean := true } } :=
  if_pos (by rw [decide_eq_true hin, hon, howners, hfresh, hclean, hcrash]; rfl)

theorem frameZeroed_ignored {d : Device} {f : Nat} (h : (d.frames.get f).owners ≠ [] ∨ (d.frames.get f).fresh = false ∨ (d.frames.get f).clean = true) :
    d.frameZeroed f = d := by
  refine if_neg ?_
  obtain h | h | h := h
  · simp [h]
  · simp [h]
  · simp [h]

/-! ### A pair of keys (R766) -/

/-- The pairs of a slot go when one of them is older than 60 s. -/
theorem kemPairExpiry_kem (d : Device) (slot : Fin 16) :
    let e := if d.thimble.kem.any (fun k => k.slot = slot.val && !k.live d.now) then d.dropKem slot.val else d
    e = { d with thimble := { d.thimble with kem := e.thimble.kem } } ∧
      ((∃ k ∈ d.thimble.kem, k.slot = slot.val ∧ k.created + 60000000000 ≤ d.now) → e.thimble.kem = d.thimble.kem.filter (fun k => k.slot != slot.val)) ∧
      ((∀ k ∈ d.thimble.kem, k.slot = slot.val → d.now < k.created + 60000000000) → e.thimble.kem = d.thimble.kem) := by
  have hexpired : d.thimble.kem.any (fun k => k.slot = slot.val && !k.live d.now) = true ↔
      ∃ k ∈ d.thimble.kem, k.slot = slot.val ∧ k.created + 60000000000 ≤ d.now := by
    simp [KemPair.live]
  by_cases h : ∃ k ∈ d.thimble.kem, k.slot = slot.val ∧ k.created + 60000000000 ≤ d.now
  · rw [if_pos (hexpired.2 h)]
    refine ⟨rfl, fun _ => rfl, fun hlive => ?_⟩
    obtain ⟨k, hk, hslot, hold⟩ := h
    exact absurd (hlive k hk hslot) (by omega)
  · rw [if_neg (fun hany => h (hexpired.1 hany))]
    exact ⟨rfl, fun hold => absurd hold h, fun _ => rfl⟩

/-- Settles O53: the boot's steps, the pairs of a slot, and the frame's pages one by one. -/
theorem bootAndFrames : Obligations.BootAndFrames := by
  intro s sound slot f hrails
  refine ⟨fun h => congrArg Host.Outcome.next (boot_again h sound), fun hbooted hfailed => ?_, ?_, ?_, ?_⟩
  · obtain ⟨hnone, hsome⟩ := boot_first hrails hbooted hfailed sound
    refine ⟨fun h => congrArg Host.Outcome.next (hnone h), fun k hk hfails => ?_, fun k hk hsound => ?_⟩
    · obtain ⟨hmeasured, hrom, hthimble, hends⟩ := measureSet_measured s.dev s.vault k sound
      have hstops : (s.dev.measureSet s.vault k sound).2 = false := by
        refine hends.2 ?_
        obtain hno | hstore | ⟨j, hj, himages⟩ := hfails
        · exact absurd (hk.symm.trans hno) (by simp)
        · exact .inl hstore
        · obtain rfl := Option.some.inj (hk.symm.trans hj)
          exact .inr himages
      refine ⟨_, congrArg Host.Outcome.next (hsome k hk), rfl, ?_⟩
      dsimp only
      rw [hstops, if_neg Bool.false_ne_true]
      generalize (s.dev.measureSet s.vault k sound).1 = e at hmeasured hrom hthimble ⊢
      refine ⟨?_, rfl, ?_, hrom, hthimble⟩
      · unfold Device.bootFailed Device.updThimble
        rw [hmeasured.eq]
      · unfold Device.bootFailed Device.updThimble
        rw [hmeasured.eq]
        exact hbooted
    · obtain ⟨hmeasured, -, -, hends⟩ := measureSet_measured s.dev s.vault k sound
      have hgoes : (s.dev.measureSet s.vault k sound).2 = true := by
        rw [← Bool.not_eq_false]
        intro hstops
        obtain hstore | himages := hends.1 hstops
        · exact hsound (.inr (.inl hstore))
        · exact hsound (.inr (.inr ⟨k, hk, himages⟩))
      refine ⟨_, congrArg Host.Outcome.next (hsome k hk), rfl, ?_⟩
      dsimp only
      rw [hgoes, if_pos rfl]
      have hbooted := bootSound_booted (s.dev.measureSet s.vault k sound).1 s.vault k s.dev.thimble
      generalize (s.dev.measureSet s.vault k sound).1 = e at hmeasured hbooted ⊢
      obtain ⟨hmem, hpanels, hcontexts, hthimble, hescalation, hlasers⟩ := hbooted
      generalize e.bootSound s.vault k s.dev.thimble = b at hmem hpanels hcontexts hthimble hescalation hlasers ⊢
      rw [hmeasured.eq] at hmem hpanels hcontexts hescalation hlasers
      rw [hthimble]
      exact ⟨hmem, hpanels, hcontexts, rfl, rfl, rfl, rfl, rfl, hescalation, hlasers⟩
  · obtain ⟨heq, hdropped, hkept⟩ := kemPairExpiry_kem s.dev slot
    refine completes_run (f := fun d => if d.thimble.kem.any (fun k => k.slot = slot.val && !k.live d.now) then d.dropKem slot.val else d) rfl hrails
      ⟨?_, hdropped, hkept⟩
    exact congrArg (fun e => ({ s with dev := e } : State)) heq
  · intro hin hon howners hfresh hclean hcrash
    have hzeroed := frameZeroed_zeroes hin hon howners hfresh hclean hcrash
    have hstart : f * 2 ^ 21 % 65536 = 0 := by omega
    have hbytes (hwf : memWf s.dev.mem = true) := (zeroPages_bytes hstart hwf 32).2
    have hcontexts : (s.dev.zeroFrame f).contexts = s.dev.contexts := zeroFrame_contexts s.dev f
    rw [← zeroFrame_pages] at hbytes
    refine completes_run (f := fun d => d.frameZeroed f) rfl hrails ⟨rfl, ?_⟩
    dsimp only
    rw [hzeroed]
    dsimp only
    refine ⟨hcontexts, fun b hlow hhigh hwf => ?_, fun b hout hwf => ?_, rfl⟩
    · refine (hbytes hwf b).trans ?_
      by_cases hretired : (s.dev.panel (panelOf (b / 65536 * 65536))).retires (ppaOf (b / 65536 * 65536)) = true
      · rw [if_pos hretired, if_neg (fun h => Bool.false_ne_true (h.2.symm.trans hretired))]
      · rw [if_neg hretired, if_pos ⟨by omega, Bool.eq_false_iff.2 hretired⟩]
    · refine (hbytes hwf b).trans (if_neg (by omega))
  · exact fun h => exec_run (c := .frameZeroed f) (f := fun d => d.frameZeroed f) rfl hrails (frameZeroed_ignored h)

end Sys2Proof.Machine
end

section
/-! The security mailbox (R791, R792, R795): which request a row processes, and how it ends. -/

namespace Sys2Proof.Machine

/-- A mailbox without a request, or a Thimble that does not serve. -/
theorem mailbox_idle {s : State} (h : s.dev.thimble.busy = false ∨ s.dev.thimble.serves = false) (k : Nat) : s.mailbox k = s := by
  refine if_pos ?_
  obtain h | h := h
  · simp [h]
  · simp [h]

/-- The state once the request in progress has been read from host memory. -/
def State.mboxRead (s : State) : State := { s with dev := (s.dev.hostFetch s.dev.thimble.mboxAddr 128).1 }

/-- The state once the payload of the request has been read too. -/
def State.mboxPaid (s : State) (req : List Byte) : State :=
  if reqField req 20 4 = 0 then s else { s with dev := (s.dev.hostFetch (reqField req 24 8) (reqField req 20 4)).1 }

def State.mboxPayload (s : State) (req : List Byte) : List Byte :=
  if reqField req 20 4 = 0 then [] else s.dev.hostRead (reqField req 24 8) (reqField req 20 4)

theorem mailbox_served {s : State} (hrails : s.pins.railsOn = true) (hbusy : s.dev.thimble.busy = true) (hserves : s.dev.thimble.serves = true) (k : Nat) :
    let req := s.dev.hostRead s.dev.thimble.mboxAddr 128
    s.mailbox k =
      if reqWellFormed req = false then MboxResult.deliver { state := s.mboxRead, code := 0x0801 } (reqField req 8 8)
      else if reqField req 0 1 ≠ k then s.mboxRead
      else if reqField req 16 4 < responseSize k then MboxResult.deliver { state := s.mboxRead, code := 0x0801 } (reqField req 8 8)
      else ((s.mboxRead.mboxPaid req).request req (s.mboxRead.mboxPayload req)).deliver (reqField req 8 8) := by
  have hstarts : (!s.pins.railsOn || !s.dev.thimble.busy || !s.dev.thimble.serves) = false := by rw [hrails, hbusy, hserves]; rfl
  unfold State.mailbox State.mboxPaid State.mboxPayload
  rw [hstarts, if_neg Bool.false_ne_true]
  generalize hreq : s.dev.hostRead s.dev.thimble.mboxAddr 128 = req
  have hfetch : s.dev.hostFetch s.dev.thimble.mboxAddr 128 = (s.mboxRead.dev, req) := by rw [← hreq]; rfl
  rw [hfetch]
  dsimp only
  simp only [Bool.not_eq_true', bne_iff_ne]
  by_cases hpay : reqField req 20 4 = 0
  · simp only [if_pos hpay]
    rfl
  · simp only [if_neg hpay]
    rfl

/-- The response of a request: none when it has been refused. -/
def MboxResult.response (r : MboxResult) : List Byte := if r.code = 0 then r.bytes else []

/-- The device once the response has been written, when there is one. -/
def MboxResult.answered (r : MboxResult) (addr : Nat) : Device :=
  if r.response.isEmpty then r.state.dev else r.state.dev.hostWrite addr r.response

theorem answered_frame (r : MboxResult) (addr : Nat) :
    (r.answered addr).thimble = r.state.dev.thimble ∧ (r.answered addr).mem = r.state.dev.mem ∧ (r.answered addr).contexts = r.state.dev.contexts := by
  unfold MboxResult.answered
  split
  · exact ⟨rfl, rfl, rfl⟩
  · exact ⟨hostWrite_thimble _ _ _, hostWrite_mem _ _ _, hostWrite_contexts _ _ _⟩

/-- A delivered request: the mailbox is free and shows the result's reason code. -/
theorem deliver_eq (r : MboxResult) (addr : Nat) :
    r.deliver addr = { r.state with dev := ((r.answered addr).updThimble (fun t => { t with
      busy := false, reason := r.code, respBytes := ceilDiv r.response.length 64 })).sendMsg 2 } := (rfl)

theorem deliver_shows (r : MboxResult) (addr : Nat) :
    (r.deliver addr).dev.thimble = { r.state.dev.thimble with busy := false, reason := r.code, respBytes := ceilDiv r.response.length 64 } ∧
      (r.deliver addr).vault = r.state.vault := by
  rw [deliver_eq]
  refine ⟨(sendMsg_thimble _ _).trans ?_, rfl⟩
  unfold Device.updThimble
  rw [(answered_frame r addr).1]

/-- A refused request leaves everything but the mailbox. -/
theorem deliver_refused {r : MboxResult} (h : r.code ≠ 0) (addr : Nat) :
    (r.deliver addr).dev.thimble = { r.state.dev.thimble with busy := false, reason := r.code, respBytes := 0 } ∧
      (r.deliver addr).dev.hostMem = r.state.dev.hostMem ∧ (r.deliver addr).dev.mem = r.state.dev.mem ∧
      (r.deliver addr).dev.contexts = r.state.dev.contexts := by
  have hempty : r.response = [] := if_neg h
  have hanswered : r.answered addr = r.state.dev := if_pos (by rw [hempty]; rfl)
  have hdeliver := deliver_eq r addr
  have hbytes : ceilDiv ([] : List Byte).length 64 = 0 := rfl
  rw [hempty, hanswered, hbytes] at hdeliver
  rw [hdeliver]
  exact ⟨sendMsg_thimble _ _, sendMsg_hostMem _ _, sendMsg_mem _ _, sendMsg_contexts _ _⟩

/-- The rows of the mailbox, each with the number of its request. -/
theorem exec_mailbox {row : Instr} {k : Nat}
    (h : row = .certChain ∧ k = 1 ∨ row = .attest ∧ k = 2 ∨ row = .keyOpen ∧ k = 3 ∨ row = .keyInstall ∧ k = 4 ∨ row = .authRegister ∧ k = 5 ∨
     row = .authRemove ∧ k = 6 ∨ row = .debugChallenge ∧ k = 7 ∨ row = .debugUnlock ∧ k = 8 ∨ row = .fwStage ∧ k = 9) (s : State) :
    exec row s = .next (s.mailbox k) := by
  rcases h with ⟨rfl, rfl⟩ | ⟨rfl, rfl⟩ | ⟨rfl, rfl⟩ | ⟨rfl, rfl⟩ | ⟨rfl, rfl⟩ | ⟨rfl, rfl⟩ | ⟨rfl, rfl⟩ | ⟨rfl, rfl⟩ | ⟨rfl, rfl⟩ <;> rfl

/-- Reading the request changes the link's traffic and its counters alone. -/
theorem mboxRead_frame (s : State) :
    s.mboxRead.dev.thimble = s.dev.thimble ∧ s.mboxRead.dev.hostMem = s.dev.hostMem ∧ s.mboxRead.dev.mem = s.dev.mem ∧ s.mboxRead.dev.contexts = s.dev.contexts :=
  ⟨hostFetch_thimble _ _ _, hostFetch_hostMem _ _ _, hostFetch_mem _ _ _, hostFetch_contexts _ _ _⟩

/-- Settles O54: a row processes the request in progress, or ends it when it is malformed. -/
theorem mailboxRequests : Obligations.MailboxRequests := by
  intro s row k hrails hrow
  have hexec := exec_mailbox hrow s
  refine ⟨fun h => ?_, fun hbusy hserves => ⟨fun hwell hother => ?_, fun hbad => ?_, fun hwell hown hroom => ?_⟩⟩
  · rw [hexec, mailbox_idle h]
  · rw [hexec, mailbox_served hrails hbusy hserves, if_neg (by rw [hwell]; simp), if_pos hother]
    rfl
  · have hrefused : s.mailbox k = MboxResult.deliver { state := s.mboxRead, code := 0x0801 }
        (reqField (s.dev.hostRead s.dev.thimble.mboxAddr 128) 8 8) := by
      rw [mailbox_served hrails hbusy hserves]
      by_cases hwell : reqWellFormed (s.dev.hostRead s.dev.thimble.mboxAddr 128) = false
      · exact if_pos hwell
      · obtain ⟨hown, hshort⟩ := hbad.resolve_left hwell
        rw [if_neg hwell, if_neg (not_not.2 hown), if_pos hshort]
    obtain ⟨hthimble, hhost, hmem, hcontexts⟩ := mboxRead_frame s
    obtain ⟨hfree, hhost', hmem', hcontexts'⟩ := deliver_refused (r := { state := s.mboxRead, code := 0x0801 }) (show (0x0801 : Code) ≠ 0 by decide)
      (reqField (s.dev.hostRead s.dev.thimble.mboxAddr 128) 8 8)
    refine ⟨_, hexec.trans (congrArg Host.Outcome.next hrefused), rfl, hfree.trans ?_, hhost'.trans hhost, hmem'.trans hmem, hcontexts'.trans hcontexts, rfl⟩
    rw [hthimble]
  · have hdone : s.mailbox k = _ := mailbox_served hrails hbusy hserves k
    rw [if_neg (by rw [hwell]; simp), if_neg (not_not.2 hown), if_neg (by omega)] at hdone
    obtain ⟨hthimble, hvault⟩ := deliver_shows ((s.mboxRead.mboxPaid (s.dev.hostRead s.dev.thimble.mboxAddr 128)).request
      (s.dev.hostRead s.dev.thimble.mboxAddr 128) (s.mboxRead.mboxPayload (s.dev.hostRead s.dev.thimble.mboxAddr 128)))
      (reqField (s.dev.hostRead s.dev.thimble.mboxAddr 128) 8 8)
    exact ⟨_, hexec.trans (congrArg Host.Outcome.next hdone), rfl, by rw [hthimble], by rw [hthimble]; rfl, hvault⟩

end Sys2Proof.Machine
end

section
/-! A KEY_INSTALL whose request is malformed still destroys the pair of its slot. -/

namespace Sys2Proof.Machine

/-- A module with a pair of keys in slot 0. -/
def onePair : State := { dev := { thimble := { kem := [⟨0, 0, 0⟩] } }, pins := { railsOn := true } }

/-- A KEY_INSTALL of slot 0 without a payload. -/
def bareInstall : List Byte := [4]

theorem bareInstall_drops : (onePair.request bareInstall []).state.dev.thimble.kem = [] := by decide +kernel

/-- Refutes O55: a KEY_INSTALL whose length or reserved fields are wrong is to leave the state as it is. KEY_INSTALL destroys its
slot's pair whatever its outcome (R766), and the obligation's own text says so: the malformed request takes the pair too. -/
theorem not_mailboxWork : ¬ Obligations.MailboxWork := by
  unfold Obligations.MailboxWork
  intro h
  obtain ⟨-, -, -, hinstall, -⟩ := h onePair bareInstall [] rfl
  obtain ⟨hmalformed, -⟩ := hinstall (by decide +kernel)
  have hkept := hmalformed (by decide +kernel)
  have hdrops := bareInstall_drops
  rw [hkept] at hdrops
  exact absurd hdrops (by decide)

end Sys2Proof.Machine
end

section
/-! The device enable (R828, R829). -/

namespace Sys2Proof.Machine

/-! ### A list of checks, and what each of them says -/

/-- The first failed check of a list is the first that does not hold, where each check decides a proposition. -/
theorem firstFailure_decides {bs : List (Bool × Code × Nat)} {ps : List (Prop × Code × Nat)}
    (h : List.Forall₂ (fun b p => (b.1 = true ↔ p.1) ∧ b.2 = p.2) bs ps) :
    (∀ pre post check, ps = pre ++ check :: post → (∀ c ∈ pre, c.1) → ¬ check.1 → firstFailure bs = some check.2) ∧
      ((∀ c ∈ ps, c.1) → firstFailure bs = none) := by
  induction h with
  | nil => exact ⟨fun pre post check hps => absurd hps (by simp), fun _ => rfl⟩
  | @cons b p bs ps hbp _ ih =>
    obtain ⟨hdecides, hcode⟩ := hbp
    obtain ⟨ok, c, bad⟩ := b
    refine ⟨fun pre post check hps hpre hcheck => ?_, fun hall => ?_⟩
    · cases pre with
      | nil =>
        obtain ⟨rfl, rfl⟩ := List.cons.inj hps
        exact (if_neg (fun hok => hcheck (hdecides.1 hok))).trans (congrArg some hcode)
      | cons q pre =>
        obtain ⟨rfl, htail⟩ := List.cons.inj hps
        refine (if_pos (hdecides.2 (hpre p List.mem_cons_self))).trans ?_
        exact ih.1 pre post check htail (fun c hc => hpre c (List.mem_cons_of_mem _ hc)) hcheck
    · refine (if_pos (hdecides.2 (hall p List.mem_cons_self))).trans ?_
      exact ih.2 (fun c hc => hall c (List.mem_cons_of_mem _ hc))

/-- The checks of R828, each state of escalation a check of its own. -/
def Device.deviceCheckList (d : Device) : List (Bool × Code × Nat) :=
  let r := d.regs
  let size := d.errSize
  let ring := d.errBase
  let head := fieldOf r.errHeadLine 63 6 * 64
  let limit := fieldOf r.guardCtl 15 8
  let hb := fieldOf r.hbBase 63 12 * 4096
  let crash := fieldOf r.crashBase 63 21 * 2 ^ 21
  [ (d.thimble.booted, 0x0101, 0),
    (d.reset.escalation != .outOfService, 0x0140, 0xC001),
    (d.reset.escalation != .serviceRequired, 0x0142, 0xC001),
    (d.hostUp && (d.host.width = 16 || d.host.width = 8), 0x0103, 0),
    (d.host.busMaster, 0x0104, 0),
    (d.host.cacheEnabled || bitOf r.admitCtl 1, 0x0105, 0x4000),
    (!d.host.cacheEnabled || d.host.atsOn, 0x0106, 0),
    (ring != 0, 0x0110, 0xA002),
    (head != 0 && !rangesOverlap ring (64 * 2 ^ size) head 64, 0x0110, 0xA003),
    (6 ≤ fieldOf r.errCtl 12 8 && fieldOf r.errCtl 12 8 ≤ 16, 0x0110, 0xA004),
    (16 ≤ limit && limit ≤ 255, 0x0110, 0xA000),
    (hb != 0 && !rangesOverlap hb 8192 ring (64 * 2 ^ size) && !(crash != 0 && rangesOverlap hb 8192 crash (2 ^ 21)), 0x0111, 0xC002)]

theorem not_or_iff_imp (a b : Bool) : (!a || b) = true ↔ (a = true → b = true) := by
  cases a <;> cases b <;> decide

theorem between_iff (lo hi x : Nat) : (decide (lo ≤ x) && decide (x ≤ hi)) = true ↔ lo ≤ x ∧ x ≤ hi := by
  rw [Bool.and_eq_true, decide_eq_true_iff, decide_eq_true_iff]

theorem nonzero_apart_iff (a : Nat) (o : Bool) : (a != 0 && !o) = true ↔ a ≠ 0 ∧ o = false := by
  rw [Bool.and_eq_true, bne_iff_ne, Bool.not_eq_true']

theorem apart_from_both_iff (a c : Nat) (o p : Bool) : (a != 0 && !o && !(c != 0 && p)) = true ↔ a ≠ 0 ∧ o = false ∧ (c ≠ 0 → p = false) := by
  rw [Bool.and_eq_true, nonzero_apart_iff, Bool.not_eq_true', Bool.and_eq_false_iff, bne_eq_false_iff_eq, and_assoc, or_iff_not_imp_left]

theorem deviceChecks_list (d : Device) : d.deviceChecks = firstFailure d.deviceCheckList := by
  unfold Device.deviceChecks Device.deviceCheckList Device.escalationCode
  dsimp only
  generalize d.reset.escalation = e
  cases e with
  | inService => rfl
  | outOfService => rfl
  | serviceRequired => rfl

/-! ### The effect of a passed enable -/

/-- Writing records leaves the reason that the device shows. -/
structure Device.SameReason (d e : Device) : Prop where
  reason : e.host.reason = d.host.reason
  badReg : e.host.badReg = d.host.badReg

theorem Device.SameReason.trans {d e f : Device} (h : d.SameReason e) (g : e.SameReason f) : d.SameReason f :=
  ⟨g.reason.trans h.reason, g.badReg.trans h.badReg⟩

theorem sameReason_of_host {d e : Device} (h : e.host = d.host) : d.SameReason e := ⟨by rw [h], by rw [h]⟩

theorem hostPut_sameReason (d : Device) (relaxed : Bool) (a : Nat) (bs : List Byte) : d.SameReason (d.hostPut relaxed a bs) := by
  have htranslate (h : HostLink) (a n : Nat) : (h.translate a n).reason = h.reason ∧ (h.translate a n).badReg = h.badReg := by
    unfold HostLink.translate
    split <;> exact ⟨rfl, rfl⟩
  unfold Device.hostPut
  split
  · obtain ⟨hreason, hbad⟩ := htranslate (d.countHub { code := 0x101 } (ceilDiv (a % 64 + bs.length) 64)).host a bs.length
    dsimp only
    exact ⟨hreason.trans (by rw [countHub_host]), hbad.trans (by rw [countHub_host])⟩
  · exact ⟨rfl, rfl⟩
  · exact ⟨rfl, rfl⟩

theorem sendMsg_sameReason (d : Device) (v : Fin 11) : d.SameReason (d.sendMsg v) := by
  unfold Device.sendMsg
  split <;> exact ⟨rfl, rfl⟩

theorem reportLost_host (d : Device) : d.reportLost.host = d.host := by
  unfold Device.reportLost
  dsimp only
  split
  · rfl
  · exact raise_host _ _

theorem writeRecord_sameReason (d : Device) : d.SameReason d.writeRecord := by
  unfold Device.writeRecord
  split
  · exact ⟨rfl, rfl⟩
  · split
    · exact ⟨rfl, rfl⟩
    · refine Device.SameReason.trans ?_ (sameReason_of_host (reportLost_host _))
      refine Device.SameReason.trans ?_ (sendMsg_sameReason _ _)
      refine Device.SameReason.trans ?_ (sameReason_of_host (countHub_host _ _ _))
      refine Device.SameReason.trans ?_ (hostPut_sameReason _ _ _ _)
      exact ⟨rfl, rfl⟩

theorem drainErr_sameReason (d : Device) : d.SameReason d.drainErr :=
  List.foldlRecOn _ _ ⟨rfl, rfl⟩ (fun _ h _ _ => h.trans (writeRecord_sameReason _))

/-- The registers, the panels and MEAS3 when the device has been enabled, before the waiting records go out. -/
structure Device.Enabling (d e : Device) : Prop where
  eq : e = { d with regs := { d.regs with devCtl := setBit d.regs.devCtl 0 true }, err := { d.err with nextSeq := 0, head := 0 }, panels := e.panels,
                    host := e.host, thimble := { d.thimble with meas := e.thimble.meas } }
  reason : e.host.reason = 0
  badReg : e.host.badReg = 0
  hbSeq : ∀ p : PanelId, (e.panel p).hbSeq = 0
  resetRun : ∀ p : PanelId, (e.panel p).resetRun = (d.panel p).resetRun
  meas : e.thimble.meas[3] = extendDigest d.thimble.meas[3] 4 0 (Config.sha3 d.configRecord)

/-- A device that a passed enable has been through, but for its waiting records and its resets. -/
def Device.enabling (d : Device) : Device :=
  let passed (p : PanelId) : Bool := d.needle.state != .disabled && decide (512 * p.val ≤ d.position % 4096)
  let d := { d with
    regs := { d.regs with devCtl := setBit d.regs.devCtl 0 true }
    err := { d.err with nextSeq := 0, head := 0 } }
  let d := d.mapPanels (fun p q => { q with
    hbSeq := 0, hbBase := q.tackCount, hbStitch := if passed p then some (d.position / 4096) else none })
  let d := (d.devReason 0 0).holdLine (fieldOf d.regs.errHeadLine 63 6 * 64)
  d.measure 3 0x04 0 (Config.sha3 d.configRecord)

theorem enableDevice_eq (d : Device) : d.enableDevice = d.enabling.drainErr.resetsGoOn := (rfl)

theorem holdLine_lines (d : Device) (a : Nat) : ∃ l, d.holdLine a = { d with host := { d.host with lines := l } } := by
  unfold Device.holdLine
  dsimp only
  split
  · exact ⟨d.host.lines, rfl⟩
  · exact ⟨_, rfl⟩

theorem enabling_enabling (d : Device) : d.Enabling d.enabling := by
  unfold Device.enabling
  dsimp only
  generalize hn : Device.devReason _ 0 0 = n
  have heq : n = { d with regs := { d.regs with devCtl := setBit d.regs.devCtl 0 true }, err := { d.err with nextSeq := 0, head := 0 },
                          panels := n.panels, host := { d.host with reason := 0, badReg := 0 } } := by rw [← hn]; rfl
  have hpanel (p : PanelId) : n.panel p = { d.panel p with
      hbSeq := 0, hbBase := (d.panel p).tackCount
      hbStitch := if (d.needle.state != .disabled && decide (512 * p.val ≤ d.position % 4096)) = true then some (d.position / 4096) else none } := by
    rw [← hn]
    exact Vector.getElem_ofFn _
  clear hn
  generalize fieldOf _ 63 6 * 64 = line
  obtain ⟨l, hl⟩ := holdLine_lines n line
  rw [hl]
  have hrecord : Device.configRecord { n with host := { n.host with lines := l } } = d.configRecord := by rw [heq]; rfl
  rw [hrecord]
  refine ⟨?_, ?_, ?_, fun p => ?_, fun p => ?_, ?_⟩
  · unfold Device.measure Device.updThimble
    rw [heq]
  · show n.host.reason = 0
    rw [heq]
  · show n.host.badReg = 0
    rw [heq]
  · exact (congrArg Panel.hbSeq (hpanel p)).trans rfl
  · exact (congrArg Panel.resetRun (hpanel p)).trans rfl
  · refine (measure_meas { n with host := { n.host with lines := l } } 3 4 0 (Config.sha3 d.configRecord) 3).trans ((if_pos rfl).trans ?_)
    have hmeas : n.thimble.meas[3] = d.thimble.meas[3] := by rw [heq]
    exact congrArg (fun m => extendDigest m 4 0 (Config.sha3 d.configRecord)) hmeas

/-- What a passed enable leaves of the device, when no reset is under way. -/
theorem enableDevice_enabled {d : Device} (hpanels : ∀ p : PanelId, (d.panel p).resetRun = none) (hout : d.reset.outEnter = none) (hwarm : d.reset.warm = none) :
    let e := d.enableDevice
    e = { d with fresh := e.fresh, regs := { d.regs with devCtl := setBit d.regs.devCtl 0 true }, err := e.err, panels := e.panels, hostMem := e.hostMem,
                 host := e.host, counters := e.counters, thimble := { d.thimble with meas := e.thimble.meas } } ∧
      e.host.reason = 0 ∧ e.host.badReg = 0 ∧ (∀ p : PanelId, (e.panel p).hbSeq = 0) ∧
      e.thimble.meas[3] = extendDigest d.thimble.meas[3] 4 0 (Config.sha3 d.configRecord) ∧
      (d.err.queue = [] → e.err = { d.err with nextSeq := 0, head := 0 } ∧ e.hostMem = d.hostMem) := by
  obtain ⟨heq, hreason, hbad, hseq, hrun, hmeas⟩ := enabling_enabling d
  have hdrained := drainErr_recordsOut d.enabling
  have hsame := drainErr_sameReason d.enabling
  have hempty (h : d.err.queue = []) : d.enabling.drainErr = d.enabling := by
    unfold Device.drainErr
    rw [show d.enabling.err.queue = [] by rw [heq]; exact h]
    rfl
  rw [enableDevice_eq]
  generalize d.enabling = n at heq hreason hbad hseq hrun hmeas hdrained hsame hempty ⊢
  generalize n.drainErr = m at hdrained hsame hempty ⊢
  have hresets : m.resetsGoOn = m := by
    refine resetsGoOn_none (fun p => ?_) ?_ ?_
    · rw [show m.panel p = n.panel p by rw [hdrained.eq]; rfl, hrun p]
      exact hpanels p
    · rw [hdrained.eq, heq]
      exact hout
    · rw [hdrained.eq, heq]
      exact hwarm
  rw [hresets]
  refine ⟨?_, hsame.reason.trans hreason, hsame.badReg.trans hbad, fun p => ?_, ?_, fun h => ?_⟩
  · rw [hdrained.eq, heq]
  · rw [show m.panel p = n.panel p by rw [hdrained.eq]; rfl]
    exact hseq p
  · rw [show m.thimble = n.thimble by rw [hdrained.eq]]
    exact hmeas
  · rw [hempty h, heq]
    exact ⟨rfl, rfl⟩

theorem le_maxOf {x : Nat} {l : List Nat} (h : x ∈ l) : x ≤ maxOf l := by
  have hfold (l : List Nat) (a : Nat) : a ≤ l.foldl max a ∧ ∀ y ∈ l, y ≤ l.foldl max a := by
    induction l generalizing a with
    | nil => exact ⟨Nat.le_refl a, fun y hy => absurd hy List.not_mem_nil⟩
    | cons b bs ih =>
      obtain ⟨hfirst, hrest⟩ := ih (max a b)
      refine ⟨Nat.le_trans (Nat.le_max_left a b) hfirst, fun y hy => ?_⟩
      obtain rfl | hy := List.mem_cons.1 hy
      · exact Nat.le_trans (Nat.le_max_right a y) hfirst
      · exact hrest y hy
  exact (hfold l 0).2 x h

/-- The counter of an image class after the images' FUSE_SVN have been counted in. -/
def fuseTop (imgs : List FwImage) (f : FwImage → Bool) (old : Nat) : Nat := min 64 (maxOf (old :: (imgs.filter f).map (fun i => i.fuseSvn.toNat)))

theorem le_fuseTop {imgs : List FwImage} {f : FwImage → Bool} {i : FwImage} (hi : i ∈ imgs) (hf : f i = true) (hsize : i.fuseSvn.toNat ≤ 64) (old : Nat) :
    i.fuseSvn.toNat ≤ fuseTop imgs f old :=
  Nat.le_min.2 ⟨hsize, le_maxOf (List.mem_cons_of_mem _ (List.mem_map_of_mem (List.mem_filter.2 ⟨hi, hf⟩)))⟩

/-- The fuse counters rise to the images' once (R762). -/
theorem raiseFuses_raised {s : State} (hbooted : s.dev.thimble.booted = true) :
    s.raiseFuses = { s with vault := s.raiseFuses.vault, dev := { s.dev with thimble := { s.dev.thimble with fusesRaised := true } } } ∧
      (s.dev.thimble.fusesRaised = true → s.raiseFuses.vault = s.vault) ∧
      (s.dev.thimble.fusesRaised = false → s.raiseFuses.vault = { s.vault with thimbleSvn := s.raiseFuses.vault.thimbleSvn, mainSvn := s.raiseFuses.vault.mainSvn } ∧
        ∀ i ∈ s.dev.thimble.images, i.fuseSvn.toNat ≤ 64 →
          i.fuseSvn.toNat ≤ if i.component = 0 then s.raiseFuses.vault.thimbleSvn else s.raiseFuses.vault.mainSvn) := by
  cases hraised : s.dev.thimble.fusesRaised with
  | true =>
    have hstay : s.raiseFuses = s := if_pos (by rw [hraised, hbooted]; rfl)
    have hthimble : { s.dev.thimble with fusesRaised := true } = s.dev.thimble := by
      generalize s.dev.thimble = t at hraised
      obtain ⟨⟩ := t
      cases hraised
      rfl
    rw [hstay, hthimble]
    exact ⟨rfl, fun _ => rfl, fun h => absurd h (by decide)⟩
  | false =>
    have hrise : s.raiseFuses = { s with
        vault := { s.vault with thimbleSvn := fuseTop s.dev.thimble.images (fun i => i.component = 0) s.vault.thimbleSvn
                                mainSvn := fuseTop s.dev.thimble.images (fun i => i.component != 0) s.vault.mainSvn }
        dev := s.dev.updThimble (fun t => { t with fusesRaised := true }) } := if_neg (by rw [hraised, hbooted]; exact Bool.false_ne_true)
    rw [hrise]
    refine ⟨rfl, fun h => absurd h (by decide), fun _ => ⟨rfl, fun i hi hsize => ?_⟩⟩
    by_cases hclass : i.component = 0
    · rw [if_pos hclass]
      exact le_fuseTop hi (decide_eq_true hclass) hsize _
    · rw [if_neg hclass]
      exact le_fuseTop hi (f := fun i => i.component != 0) (bne_iff_ne.2 hclass) hsize _

/-! ### The obligation -/

/-- A write of DEV_CTL asks by its bit 0. -/
theorem devCtlWrite_same {s : State} {v : BitVec 32} (h : v.getLsbD 0 = s.dev.enabled) : s.devCtlWrite (v.setWidth 64) 0xFFFFFFFF = s := by
  refine if_pos ?_
  have hbit : bitOf (v.setWidth 64) 0 = s.dev.enabled := (bitOf_setWidth v 0).trans h
  simp [hbit]

theorem devCtlWrite_sets {s : State} {v : BitVec 32} (hrails : s.pins.railsOn = true) (hen : v.getLsbD 0 = true) (hoff : s.dev.enabled = false) :
    (∀ c b, s.dev.deviceChecks = some (c, b) → s.devCtlWrite (v.setWidth 64) 0xFFFFFFFF = { s with dev := s.dev.devReason c b }) ∧
      (s.dev.deviceChecks = none → s.devCtlWrite (v.setWidth 64) 0xFFFFFFFF = ({ s with dev := s.dev.enableDevice } : State).raiseFuses) := by
  have hbit : bitOf (v.setWidth 64) 0 = true := (bitOf_setWidth v 0).trans hen
  have hmask : bitOf (0xFFFFFFFF : BitVec 64) 0 = true := by decide
  have hasks : ¬ (!s.pins.railsOn || !bitOf 0xFFFFFFFF 0 || decide (bitOf (v.setWidth 64) 0 = s.dev.enabled)) = true := by
    rw [hbit, hoff, hmask, hrails]
    decide
  unfold State.devCtlWrite
  rw [if_neg hasks, if_pos hbit]
  refine ⟨fun c b hcheck => ?_, fun hcheck => ?_⟩
  · rw [hcheck]
    rfl
  · rw [hcheck]
    unfold State.onDev
    rfl

theorem devCtlWrite_clears {s : State} {v : BitVec 32} (hrails : s.pins.railsOn = true) (hclear : v.getLsbD 0 = false) (hon : s.dev.enabled = true) :
    s.devCtlWrite (v.setWidth 64) 0xFFFFFFFF =
      if s.dev.blocksActive then { s with dev := { s.dev with host := { s.dev.host with reason := 0x0107 } } }
      else { s with dev := { s.dev with regs := { s.dev.regs with devCtl := setBit s.dev.regs.devCtl 0 false },
                                        host := { s.dev.host with lines := s.dev.host.lines.filter (fun l => l != fieldOf s.dev.regs.errHeadLine 63 6 * 64 / 64 * 64) } } } := by
  have hbit : bitOf (v.setWidth 64) 0 = false := (bitOf_setWidth v 0).trans hclear
  have hmask : bitOf (0xFFFFFFFF : BitVec 64) 0 = true := by decide
  unfold State.devCtlWrite
  rw [hbit, hon, hmask, hrails]
  rfl

theorem blocksActive_iff (d : Device) :
    d.blocksActive = true ↔ d.admitOn = true ∨ (∃ n : PortId, (d.port n).enabled = true) ∨ ∃ p : PanelId, (d.panel p).enabled = true := by
  have hports : d.ports.toList.any (fun q => q.enabled) = true ↔ ∃ n : PortId, (d.port n).enabled = true := by
    rw [List.any_eq_true]
    constructor
    · rintro ⟨q, hq, hon⟩
      obtain ⟨i, hi, rfl⟩ := Vector.getElem_of_mem (Vector.mem_toList_iff.1 hq)
      exact ⟨⟨i, hi⟩, hon⟩
    · rintro ⟨n, hon⟩
      exact ⟨_, Vector.mem_toList_iff.2 (Vector.getElem_mem n.isLt), hon⟩
  have hpanels : d.panels.toList.any (fun q => q.enabled) = true ↔ ∃ p : PanelId, (d.panel p).enabled = true := by
    rw [List.any_eq_true]
    constructor
    · rintro ⟨q, hq, hon⟩
      obtain ⟨i, hi, rfl⟩ := Vector.getElem_of_mem (Vector.mem_toList_iff.1 hq)
      exact ⟨⟨i, hi⟩, hon⟩
    · rintro ⟨p, hon⟩
      exact ⟨_, Vector.mem_toList_iff.2 (Vector.getElem_mem p.isLt), hon⟩
  unfold Device.blocksActive
  rw [Bool.or_eq_true, Bool.or_eq_true, hports, hpanels, or_assoc]

/-- Settles O56: the enable runs its checks, and takes effect when all of them pass. -/
theorem deviceEnableAndDisable : Obligations.DeviceEnableAndDisable := by
  intro s v row hrow hrails d r ring head size hb crash checks steady
  have hexec : exec row s = .next (s.devCtlWrite (v.setWidth 64) 0xFFFFFFFF) := by
    obtain rfl | rfl := hrow <;> rfl
  have hdecides : List.Forall₂ (fun b p => (b.1 = true ↔ p.1) ∧ b.2 = p.2) d.deviceCheckList checks := by
    refine .cons ⟨?_, rfl⟩ (.cons ⟨?_, rfl⟩ (.cons ⟨?_, rfl⟩ (.cons ⟨?_, rfl⟩ (.cons ⟨?_, rfl⟩ (.cons ⟨?_, rfl⟩ (.cons ⟨?_, rfl⟩ (.cons ⟨?_, rfl⟩
      (.cons ⟨?_, rfl⟩ (.cons ⟨?_, rfl⟩ (.cons ⟨?_, rfl⟩ (.cons ⟨?_, rfl⟩ .nil)))))))))))
    · exact Iff.rfl
    · exact bne_iff_ne
    · exact bne_iff_ne
    · simp [Device.hostUp]
    · exact Iff.rfl
    · exact Bool.or_eq_true _ _ ▸ Iff.rfl
    · exact not_or_iff_imp _ _
    · exact bne_iff_ne
    · exact nonzero_apart_iff _ _
    · exact between_iff 6 16 _
    · exact between_iff 16 255 _
    · exact apart_from_both_iff _ _ _ _
  obtain ⟨hfirst, hpass⟩ := firstFailure_decides hdecides
  rw [← deviceChecks_list] at hpass
  refine ⟨fun h => hexec.trans (congrArg Host.Outcome.next (devCtlWrite_same h)), fun hen hoff => ?_, fun hclear hon => ⟨fun hactive => ?_, fun hadmit hports hpanels => ?_⟩⟩
  · obtain ⟨hfails, hpasses⟩ := devCtlWrite_sets hrails hen hoff
    refine ⟨fun pre post check hsplit hpre hcheck => ?_, fun hall hsteady => ?_⟩
    · have hcode := hfirst pre post check hsplit hpre hcheck
      rw [← deviceChecks_list] at hcode
      exact hexec.trans (congrArg Host.Outcome.next (hfails check.2.1 check.2.2 hcode))
    · obtain ⟨hrun, hout, hwarm⟩ := hsteady
      have hbooted : d.thimble.booted = true := hall _ List.mem_cons_self
      obtain ⟨heq, hreason, hbad, hseq, hmeas, hempty⟩ := enableDevice_enabled hrun hout hwarm
      refine ⟨_, hexec.trans (congrArg Host.Outcome.next (hpasses (hpass hall))), ?_⟩
      generalize s.dev.enableDevice = e at heq hreason hbad hseq hmeas hempty ⊢
      obtain ⟨hframe, hkept, hraised⟩ := raiseFuses_raised (s := { s with dev := e }) (by rw [heq]; exact hbooted)
      generalize ({ s with dev := e } : State).raiseFuses = t at hframe hkept hraised ⊢
      have hpending : t.pending = s.pending := by rw [hframe]
      have hpins : t.pins = s.pins := by rw [hframe]
      have hdev : t.dev = { e with thimble := { e.thimble with fusesRaised := true } } := congrArg State.dev hframe
      have hfuses : e.thimble.fusesRaised = d.thimble.fusesRaised := by rw [heq]
      have himages : e.thimble.images = d.thimble.images := by rw [heq]
      refine ⟨hpending, hpins, ?_, ?_, ?_, ?_, ?_, ?_, ?_, ?_, fun hq => ?_, fun p => ?_, ?_, ?_, fun h => ?_, fun h => ?_⟩
      · rw [hdev, heq]
        exact bitOf_setBit _ 0 0 true (by decide)
      · rw [hdev]; exact hreason
      · rw [hdev]; exact hbad
      · rw [hdev, heq]
      · rw [hdev, heq]
      · rw [hdev, heq]
      · rw [hdev, heq]
      · rw [hdev, heq]
      · rw [hdev]; exact hempty hq
      · rw [hdev]; exact hseq p
      · rw [hdev]; exact hmeas
      · rw [hdev]
      · exact hkept (hfuses.trans h)
      · obtain ⟨hvault, hcovers⟩ := hraised (hfuses.trans h)
        exact ⟨hvault, fun i hi hsize => hcovers i (by rw [← himages] at hi; exact hi) hsize⟩
  · exact hexec.trans (congrArg Host.Outcome.next ((devCtlWrite_clears hrails hclear hon).trans (if_pos ((blocksActive_iff d).2 hactive))))
  · have hinactive : ¬ d.blocksActive = true := by
      rw [blocksActive_iff]
      rintro (h | ⟨n, h⟩ | ⟨p, h⟩)
      · exact Bool.false_ne_true (hadmit.symm.trans h)
      · exact Bool.false_ne_true ((hports n).symm.trans h)
      · exact Bool.false_ne_true ((hpanels p).symm.trans h)
    have hclears := (devCtlWrite_clears hrails hclear hon).trans (if_neg hinactive)
    rw [Nat.mul_div_cancel _ (by decide)] at hclears
    exact hexec.trans (congrArg Host.Outcome.next hclears)

end Sys2Proof.Machine
end

section
/-! The host link's events (R799, R823 to R826). What a warm reset counts and the link's state outlast all that it does to contexts,
panels and ports on its way. -/

namespace Sys2Proof.Machine

/-! ### What the way to the reset state leaves -/

/-- What no end of a context and no stop of a port or a panel touches: the escalation, the number of resets, the link's state and the
Bodkin port. -/
def Device.resetSeen (d : Device) : Escalation × Nat × LinkState × Bodkin := (d.reset.escalation, d.reset.deviceResets, d.host.link, d.bodkin)

theorem resetSeen_blind : BlindToData Device.resetSeen where
  panel _ _ _ := rfl
  records _ _ := rfl
  bad _ _ _ := rfl
  lost _ _ := rfl
  mem _ _ := rfl
  hostSide d m h hlink := by
    unfold Device.resetSeen
    rw [hlink]
  counters _ _ := rfl
  context _ _ _ _ := rfl
  contexts _ _ _ := rfl

section
variable (d : Device)

theorem updCtx_seen (id : Code) (f : Context → Context) : (d.updCtx id f).resetSeen = d.resetSeen := rfl

theorem undefine_seen (mpa n : Nat) : (d.undefine mpa n).resetSeen = d.resetSeen := rfl

theorem contexts_seen (l : List Context) : ({ d with contexts := l } : Device).resetSeen = d.resetSeen := rfl

theorem fabric_seen (l : Fabric) : ({ d with fabric := l } : Device).resetSeen = d.resetSeen := rfl

theorem windowDrop_seen (id : Code) : (d.windowDrop id).resetSeen = d.resetSeen := rfl

end

theorem failSeq_seen (d : Device) (id : Code) (n : RingId) (seq : Nat) (status : Code) : (d.failSeq id n seq status).resetSeen = d.resetSeen :=
  resetSeen_blind.failSeq (fun _ _ => rfl) d id n seq status

theorem discardRuns_seen (d : Device) (f : DescRef → Bool) : (d.discardRuns f).resetSeen = d.resetSeen :=
  resetSeen_blind.discardRuns (fun _ _ => rfl) d f

theorem freed_seen (d : Device) (ingress : Fin 25) (v : Fin 5) (k : Nat) : (d.freed ingress v k).resetSeen = d.resetSeen := by
  unfold Device.freed
  split <;> rfl

theorem queueVia_seen (d : Device) (e : PortId) (input : Fin 25) (p : Packet) : (d.queueVia e input p).resetSeen = d.resetSeen := by
  unfold Device.queueVia
  dsimp only
  split
  · rfl
  · split
    · rfl
    · split
      · rfl
      · split <;> rfl

theorem route_seen (d : Device) (ingress : Fin 25) (p : Packet) : (d.route ingress p).1.resetSeen = d.resetSeen := by
  unfold Device.route
  split
  · exact freed_seen _ _ _ _
  · split
    · rfl
    · split
      · rfl
      · exact queueVia_seen _ _ _ _

theorem ownPacketLost_seen (d : Device) (p : Packet) (code : Code) : (d.ownPacketLost p code).resetSeen = d.resetSeen := by
  unfold Device.ownPacketLost
  split
  · unfold Device.exchangeFailed
    dsimp only
    split
    · split
      · rfl
      · exact failSeq_seen _ _ _ _ _
    · exact failSeq_seen _ _ _ _ _
  · split <;> rfl

theorem discarded_seen (d : Device) (p : Packet) (code : Code) : (d.discarded p code).resetSeen = d.resetSeen := by
  unfold Device.discarded
  split
  · exact ownPacketLost_seen d p code
  · split
    · rfl
    · rfl
    · rfl
    · rfl
    · split
      · rfl
      · exact route_seen _ _ _

theorem portStop_seen (d : Device) (n : PortId) (new : PortState) (cause : Bool) : (d.portStop n new cause).resetSeen = d.resetSeen := by
  unfold Device.portStop
  dsimp only
  refine (foldl_enqueue Device.resetSeen (fun d p => discarded_seen d p 0x0420) _ _).trans ?_
  exact (foldl_enqueue Device.resetSeen (fun d e => freed_seen d _ _ _) _ _).trans rfl

theorem portsDown_seen (d : Device) : d.portsDown.resetSeen = d.resetSeen :=
  foldl_enqueue Device.resetSeen (fun d n => portStop_seen d n .disabled true) _ d

theorem consumePoison_seen (d : Device) (r : Requester) : (d.consumePoison r).resetSeen = d.resetSeen := by
  unfold Device.consumePoison
  split
  · unfold Device.failRunning
    split
    · rfl
    · exact (resetSeen_blind.finish _ _ _ _ _ _ _).trans ((discardRuns_seen _ _).trans (resetSeen_blind.dropFill d _ _))
  · rfl
  · rfl

theorem fencePanel_seen (d : Device) (p : PanelId) : (d.fencePanel p).resetSeen = d.resetSeen := by
  unfold Device.fencePanel
  dsimp only
  refine (foldl_enqueue Device.resetSeen (fun d r => consumePoison_seen d _) _ _).trans ?_
  refine (foldl_enqueue Device.resetSeen (fun d r => resetSeen_blind.enqueueRec d _ _) _ _).trans ?_
  exact (resetSeen_blind.panel _ _ _).trans (resetSeen_blind.writeBack d _)

theorem crashSample_seen (d : Device) (p : PanelId) (cause ctx : Code) (errSeq : Option Nat) (pos : Nat) (device inStack : Bool) (suspects : BitVec 4) :
    (d.crashSample p cause ctx errSeq pos device inStack suspects).resetSeen = d.resetSeen := by
  have hdrawn (n : Nat) : ({ d with fresh := n } : Device).resetSeen = d.resetSeen := rfl
  have hdropped (n m : Nat) : ({ d with fresh := n, reset := { d.reset with crashDropped := m } } : Device).resetSeen = d.resetSeen := rfl
  have hnoted {e : Device} (valid inStacks : BitVec 8) (h : e.resetSeen = d.resetSeen) :
      ({ e with reset := { e.reset with crashValid := valid, crashInStack := inStacks } } : Device).resetSeen = d.resetSeen := h
  unfold Device.crashSample
  dsimp only
  split
  · exact (resetSeen_blind.raise _ _).trans (hdropped _ _)
  · split
    · rfl
    · split
      · exact hnoted _ _ ((resetSeen_blind.storeMpa _ _ _ _ _ _ _).trans (hdrawn _))
      · exact hnoted _ _ ((resetSeen_blind.hostPut _ _ _ _).trans (hdrawn _))

theorem gussetClose_seen (d : Device) (id : Code) (param : BitVec 32) : (d.gussetClose id param).resetSeen = d.resetSeen := by
  unfold Device.gussetClose
  split
  · rfl
  · split
    · rfl
    · exact (resetSeen_blind.panel _ _ _).trans ((updCtx_seen _ _ _).trans (foldl_enqueue Device.resetSeen (fun d (s : Nat × Nat) => undefine_seen d s.1 s.2) _ d))

theorem commitLeft_seen (d : Device) (k : Comm) : (d.commitLeft k).resetSeen = d.resetSeen := by
  unfold Device.commitLeft
  split <;> rfl

theorem endContext_seen (d : Device) (id : Code) : (d.endContext id).resetSeen = d.resetSeen := by
  unfold Device.endContext
  split
  · rfl
  next c hc =>
    dsimp only
    refine (contexts_seen _ _).trans ?_
    refine (foldl_enqueue Device.resetSeen (fun d f => resetSeen_blind.releaseFrame (fun _ _ => rfl) (fun _ _ => rfl) d id _ f) _ _).trans ?_
    refine (resetSeen_blind.dropLines (fun n => c.ecAddr + 64 * (32 + n)) _ _).trans ?_
    refine (resetSeen_blind.dropLines Ring.dbAddr _ _).trans ?_
    refine (fabric_seen _ _).trans ((windowDrop_seen _ _).trans ?_)
    have hcommits : (c.comms.foldl (fun d k => d.commitLeft k)
        (c.gusset.foldl (fun d e => d.gussetClose id e.param) (((d.writeCounterLines c).writePage id).discardRuns (fun r => r.ctx = id)))).resetSeen = d.resetSeen := by
      refine (foldl_enqueue Device.resetSeen (fun d k => commitLeft_seen d k) _ _).trans ?_
      refine (foldl_enqueue Device.resetSeen (fun d (e : GussetEntry) => gussetClose_seen d id e.param) _ _).trans ?_
      exact (discardRuns_seen _ _).trans ((resetSeen_blind.writePage _ _).trans (resetSeen_blind.writeCounterLines d c))
    split
    · exact hcommits
    · exact hcommits

/-! ### A link reset goes through at once (R674, R823) -/

/-- A module that has been reset warm, where `seen` is what the way there has left. -/
structure Device.LinkReset (seen : Escalation × Nat × LinkState × Bodkin) (e : Device) (cause : Code) : Prop where
  kind : e.reset.lastKind = 1
  cause : e.reset.lastCause = cause
  link : e.host.link = if seen.2.2.1 = .heldInReset then .heldInReset else .detect
  resets : e.reset.deviceResets = seen.2.1
  contexts : e.contexts = []
  enabled : e.enabled = false
  booted : e.thimble.booted = false
  ports : ∀ n : PortId, (e.port n).state = .disabled
  panels : ∀ p : PanelId, (e.panel p).enabled = false ∧ (e.panel p).memOn = false
  escalation : e.reset.escalation = if seen.1 = .serviceRequired then .serviceRequired else .inService

theorem afterReset_linkReset (d : Device) (cause : Code) : Device.LinkReset d.resetSeen (d.afterReset false cause) cause where
  kind := rfl
  cause := rfl
  link := rfl
  resets := rfl
  contexts := rfl
  enabled := afterReset_enabled d false cause
  booted := rfl
  ports := afterReset_port d false cause
  panels := afterReset_panel d false cause
  escalation := rfl

theorem Device.LinkReset.raiseNeeded {seen : Escalation × Nat × LinkState × Bodkin} {e : Device} {cause : Code} (h : Device.LinkReset seen e cause) (r : ErrRec) :
    Device.LinkReset seen (e.raiseNeeded r).1 cause := by
  obtain ⟨x, hx, -⟩ := raiseNeeded_wrote e r
  rw [hx]
  exact ⟨h.kind, h.cause, h.link, h.resets, h.contexts, h.enabled, h.booted, h.ports, h.panels, h.escalation⟩

theorem warmBegun_seen (d : Device) (r : ErrRec) (quiet zeroised imageSame : Bool) :
    (d.warmBegun r quiet true zeroised imageSame).resetSeen = d.countReset.resetSeen := by
  have hfences := foldl_enqueue Device.resetSeen (fun d p => fencePanel_seen d p) (List.finRange 8) d.countReset.portsDown
  have hall := hfences.trans (portsDown_seen d.countReset)
  unfold Device.warmBegun
  generalize List.foldl _ d.countReset.portsDown _ = f at hall ⊢
  exact hall

/-- A warm reset that waits for no record goes through samples and contexts to the reset state. -/
theorem warmGoOn_quiet {d : Device} {w : WarmReset} (hwarm : d.reset.warm = some w) (hquiet : w.quiet = true) (hlink : w.viaLink = true)
    (hzeroised : w.zeroised = true) (himage : w.imageSame = true) : Device.LinkReset d.resetSeen d.warmGoOn w.cause := by
  unfold Device.warmGoOn
  rw [hwarm]
  dsimp only
  rw [hquiet, hlink, hzeroised, himage]
  simp only [Bool.true_or, Bool.not_true, Bool.false_and, Bool.false_eq_true, if_false, if_true]
  refine Device.LinkReset.raiseNeeded ?_ _
  generalize hsampled : (if d.reset.escalation = .serviceRequired then d else _ : Device) = e
  have hseen : e.resetSeen = d.resetSeen := by
    rw [← hsampled]
    split
    · rfl
    · exact foldl_enqueue Device.resetSeen (fun d p => crashSample_seen d p _ _ _ _ _ _ _) _ d
  have hended := foldl_enqueue Device.resetSeen (fun d (c : Context) => endContext_seen d c.id) e.contexts e
  rw [← hseen, ← hended]
  exact afterReset_linkReset _ _

/-- The device of a link reset, once the link has left. -/
def Device.linkLeft (d : Device) (dst : LinkState) : Device := { d with host := { d.host with link := dst } }

theorem linkReset_eq {s : State} (hrails : s.pins.railsOn = true) (cause : Code) (dst : LinkState) :
    s.linkReset cause dst = ({ s with dev := (s.dev.linkLeft dst).warmReset (resetRecord cause 0x10) true true true true } : State).keepService :=
  if_neg (by
    show ¬ (!s.pins.railsOn) = true
    rw [hrails]
    exact Bool.false_ne_true)

/-- The device after a link reset, whatever the module held before. -/
theorem linkReset_through {d : Device} (hquiet : d.reset.warm = none) (cause : Code) {dst : LinkState} (hdst : dst = .detect ∨ dst = .heldInReset) :
    Device.LinkReset (d.countReset.reset.escalation, satTo 16 (d.reset.deviceResets + 1), dst, d.bodkin)
      ((d.linkLeft dst).warmReset (resetRecord cause 0x10) true true true true) cause := by
  have hseen := warmBegun_seen (d.linkLeft dst) (resetRecord cause 0x10) true true true
  have hwarm : ((d.linkLeft dst).warmBegun (resetRecord cause 0x10) true true true true).reset.warm =
    some ⟨_, cause, true, true, _, true, true⟩ := rfl
  rw [warmReset_begins (d := d.linkLeft dst) hquiet]
  generalize (d.linkLeft dst).warmBegun (resetRecord cause 0x10) true true true true = b at hseen hwarm ⊢
  have hlink : b.host.link = dst := congrArg (fun x => x.2.2.1) hseen
  have hclosed : b.drainErr = b := by
    refine drainErr_closed ?_
    unfold Device.errOpen
    rw [hlink]
    obtain rfl | rfl := hdst
    · exact Bool.and_false _
    · exact Bool.and_false _
  have hdone := warmGoOn_quiet hwarm rfl rfl rfl rfl
  rw [hseen] at hdone
  rw [hclosed]
  exact hdone

theorem keepService_recorded (s : State) :
    s.keepService.pending = s.pending ∧ (s.dev.reset.escalation = .serviceRequired → s.keepService.vault.serviceRequired = true) := by
  unfold State.keepService
  split
  · exact ⟨rfl, fun _ => rfl⟩
  next h => exact ⟨rfl, fun h' => absurd h' h⟩

/-- A link reset of a module without contexts, whose panels are disabled and whose ports are empty, keeps the stacks' memory. -/
theorem linkReset_keepsMem {d : Device} (hquiet : d.reset.warm = none) (hcontexts : d.contexts = []) (hpackets : ∀ n : PortId, (d.port n).packets = [])
    (hoff : ∀ p : PanelId, (d.panel p).enabled = false) (cause : Code) (dst : LinkState) :
    ((d.linkLeft dst).warmReset (resetRecord cause 0x10) true true true true).mem = d.mem := by
  obtain ⟨e, hready, hreset⟩ := warmReset_alone (d := d.linkLeft dst) hquiet hcontexts hoff hpackets (resetRecord cause 0x10) true true true true
  rw [hreset]
  exact (takeReset_warm hready _ true).2

/-- The state after a link reset. -/
structure State.LinkDown (s t : State) (cause : Code) (dst : LinkState) : Prop where
  pending : t.pending = s.pending
  pins : t.pins = s.pins
  dev : Device.LinkReset (s.dev.countReset.reset.escalation, satTo 16 (s.dev.reset.deviceResets + 1), dst, s.dev.bodkin) t.dev cause
  recorded : t.dev.reset.escalation = .serviceRequired → t.vault.serviceRequired = true
  mem : s.dev.contexts = [] → (∀ n : PortId, (s.dev.port n).packets = []) → (∀ p : PanelId, (s.dev.panel p).enabled = false) → t.dev.mem = s.dev.mem

theorem linkReset_down {s : State} (hrails : s.pins.railsOn = true) (hquiet : s.dev.reset.warm = none) (cause : Code) {dst : LinkState}
    (hdst : dst = .detect ∨ dst = .heldInReset) : s.LinkDown (s.linkReset cause dst) cause dst := by
  have hthrough := linkReset_through hquiet cause hdst
  have hmem := fun h₁ h₂ h₃ => linkReset_keepsMem (d := s.dev) hquiet h₁ h₂ h₃ cause dst
  rw [linkReset_eq hrails]
  generalize (s.dev.linkLeft dst).warmReset (resetRecord cause 0x10) true true true true = e at hthrough hmem ⊢
  obtain ⟨hpending, hrecorded⟩ := keepService_recorded { s with dev := e }
  have hdev := State.keepService_dev { s with dev := e }
  refine ⟨hpending, keepService_pins _, by rw [hdev]; exact hthrough, fun h => hrecorded ?_, fun h₁ h₂ h₃ => by rw [hdev]; exact hmem h₁ h₂ h₃⟩
  rw [hdev] at h
  exact h

/-! ### Held requests go out on the return to L0 (R823) -/

/-- On a link in L0 a write goes out: bytes of the host, the request's translation and the traffic counters. -/
theorem hostPut_goes {d : Device} (h : d.host.link = .l0) (relaxed : Bool) (a : Nat) (bs : List Byte) :
    ∃ k ts req, d.hostPut relaxed a bs =
      { d with counters := k, hostMem := memWrite d.hostMem a bs, host := { d.host with translations := ts, lastReq := req } } := by
  have hrequest (g : HostLink) (n : Nat) : ∃ ts req, g.request true relaxed a n = { g with translations := ts, lastReq := req } := by
    unfold HostLink.request HostLink.translate
    dsimp only
    split
    · exact ⟨_, _, rfl⟩
    · exact ⟨_, _, rfl⟩
  obtain ⟨hub, hcount⟩ := countHub_eq d { code := 0x101 } (ceilDiv (a % 64 + bs.length) 64)
  obtain ⟨ts, req, hreq⟩ := hrequest d.host bs.length
  unfold Device.hostPut
  rw [h]
  dsimp only
  rw [hcount]
  dsimp only
  rw [hreq]
  exact ⟨_, _, _, rfl⟩

/-- What the held requests leave as they go out one after another. -/
structure Device.Returned (d e : Device) : Prop where
  link : e.host.link = .l0
  heldWrites : e.host.heldWrites = d.host.heldWrites
  heldMessages : e.host.heldMessages = d.host.heldMessages
  mem : e.mem = d.mem

theorem foldl_hostPut {d : Device} (h : d.host.link = .l0) (ws : List (Nat × List Byte × Bool)) :
    let e := ws.foldl (fun (d : Device) w => d.hostPut w.2.2 w.1 w.2.1) d
    d.Returned e ∧ e.hostMem = ws.foldl (fun m w => memWrite m w.1 w.2.1) d.hostMem ∧ e.host.messages = d.host.messages := by
  induction ws generalizing d with
  | nil => exact ⟨⟨h, rfl, rfl, rfl⟩, rfl, rfl⟩
  | cons w ws ih =>
    obtain ⟨k, ts, req, hput⟩ := hostPut_goes h w.2.2 w.1 w.2.1
    dsimp only
    rw [List.foldl_cons, List.foldl_cons, hput]
    obtain ⟨⟨hlink, hwrites, hmessages, hmem⟩, hhost, hcounts⟩ := ih (d := { d with
      counters := k, hostMem := memWrite d.hostMem w.1 w.2.1, host := { d.host with translations := ts, lastReq := req } }) h
    exact ⟨⟨hlink, hwrites, hmessages, hmem⟩, hhost, hcounts⟩

theorem foldl_sendMsg {d : Device} (h : d.host.link = .l0) (ms : List (Fin 11)) :
    let e := ms.foldl (fun (d : Device) m => d.sendMsg m) d
    d.Returned e ∧ e.hostMem = d.hostMem ∧ ∀ k : Fin 11, e.host.messages[k.val] = d.host.messages[k.val] + ms.count k := by
  induction ms generalizing d with
  | nil => exact ⟨⟨h, rfl, rfl, rfl⟩, rfl, fun _ => rfl⟩
  | cons m ms ih =>
    dsimp only
    rw [List.foldl_cons, sendMsg_l0 h]
    obtain ⟨⟨hlink, hwrites, hmessages, hmem⟩, hhost, hcounts⟩ := ih (d := { d with
      host := { d.host with messages := d.host.messages.set m.val (d.host.messages[m.val] + 1) m.isLt } }) h
    refine ⟨⟨hlink, hwrites, hmessages, hmem⟩, hhost, fun k => (hcounts k).trans ?_⟩
    dsimp only
    rw [Vector.getElem_set, List.count_cons]
    by_cases hk : m = k
    · subst hk
      simp
      omega
    · have hval : ¬ m.val = k.val := fun e => hk (Fin.ext e)
      simp [hk, hval]

theorem linkRecovery_returns {d : Device} (h : d.host.link = .recovery) :
    let e := d.linkRecovery false
    e.host.link = .l0 ∧ e.host.heldWrites = [] ∧ e.host.heldMessages = [] ∧ e.mem = d.mem ∧
      e.hostMem = d.host.heldWrites.foldl (fun m w => memWrite m w.1 w.2.1) d.hostMem ∧
      ∀ k : Fin 11, e.host.messages[k.val] = d.host.messages[k.val] + d.host.heldMessages.count k := by
  have hreturns : d.linkRecovery false = _ := (if_neg Bool.false_ne_true).trans (if_pos h)
  rw [hreturns]
  obtain ⟨⟨hlink, hwrites, hmessages, hmem⟩, hhost, hcounts⟩ := foldl_hostPut
    (d := d.updHost (fun h => { h with link := .l0, heldWrites := [], heldMessages := [] })) rfl d.host.heldWrites
  dsimp only
  generalize List.foldl _ (d.updHost _) d.host.heldWrites = e at hlink hwrites hmessages hmem hhost hcounts ⊢
  obtain ⟨⟨hlink', hwrites', hmessages', hmem'⟩, hhost', hcounts'⟩ := foldl_sendMsg hlink d.host.heldMessages
  generalize List.foldl _ e d.host.heldMessages = f at hlink' hwrites' hmessages' hmem' hhost' hcounts' ⊢
  refine ⟨hlink', hwrites'.trans hwrites, hmessages'.trans hmessages, hmem'.trans hmem, hhost'.trans hhost, fun k => ?_⟩
  rw [hcounts' k, hcounts]
  rfl

/-! ### The obligation -/

/-- What the obligation asks of a state after a link reset. -/
theorem State.LinkDown.shown {s t : State} {cause : Code} {dst : LinkState} (hdst : dst = .detect ∨ dst = .heldInReset) (h : s.LinkDown t cause dst) :
    t.pending = s.pending ∧ t.dev.reset.lastKind = 1 ∧ t.dev.reset.lastCause = cause ∧ t.dev.host.link = dst ∧
      t.dev.reset.deviceResets = satTo 16 (s.dev.reset.deviceResets + 1) ∧ t.dev.contexts = [] ∧ t.dev.enabled = false ∧ t.dev.thimble.booted = false ∧
      (∀ n : PortId, (t.dev.port n).state = .disabled) ∧ (∀ p : PanelId, (t.dev.panel p).enabled = false ∧ (t.dev.panel p).memOn = false) ∧
      (windowOf s.dev.now 60 s.dev.reset.deviceWindow ≠ [] → t.dev.reset.escalation = .serviceRequired ∧ t.vault.serviceRequired = true) ∧
      (s.dev.contexts = [] → (∀ n : PortId, (s.dev.port n).packets = []) →
        (∀ p : PanelId, (s.dev.panel p).enabled = false ∧ (s.dev.panel p).mem.queues = [] ∧ (s.dev.panel p).mem.stalled = []) → t.dev.mem = s.dev.mem) := by
  obtain ⟨hpending, -, hdev, hrecorded, hmem⟩ := h
  have hlink : t.dev.host.link = dst := by
    rw [hdev.link]
    obtain rfl | rfl := hdst <;> rfl
  refine ⟨hpending, hdev.kind, hdev.cause, hlink, hdev.resets, hdev.contexts, hdev.enabled, hdev.booted, hdev.ports, hdev.panels, fun hne => ?_,
    fun hcontexts hpackets hpanels => hmem hcontexts hpackets (fun p => (hpanels p).1)⟩
  have hagain : s.dev.countReset.reset.escalation = .serviceRequired := if_neg (fun h => hne (List.isEmpty_iff.1 h))
  have hesc : t.dev.reset.escalation = .serviceRequired := hdev.escalation.trans (if_pos hagain)
  exact ⟨hesc, hrecorded hesc⟩

theorem mayComplete_iff (d : Device) : d.mayComplete = true ↔ d.host.link = .l0 ∨ d.host.link = .recovery := by
  unfold Device.mayComplete
  generalize d.host.link = link
  cases link <;> decide

theorem linked_iff {s : State} (hrails : s.pins.railsOn = true) : s.linked = true ↔ s.dev.host.link = .l0 ∨ s.dev.host.link = .recovery := by
  unfold State.linked
  rw [hrails, Bool.true_and, mayComplete_iff]

/-- A row that resets over the link that is up. -/
theorem linkReset_completes {s : State} {row : Instr} {cause : Code} (hrails : s.pins.railsOn = true) (hquiet : s.dev.reset.warm = none)
    (hrow : exec row s = .next (s.linkReset cause .detect)) : ∃ t, exec row s = .next t ∧ s.LinkDown t cause .detect :=
  ⟨_, hrow, linkReset_down hrails hquiet cause (.inl rfl)⟩

theorem linkUp_trains {s : State} (hrails : s.pins.railsOn = true) (cxl : Bool) (width speed : Nat) :
    let trains : Prop := s.pins.perstN = true ∧ s.dev.host.link = .detect ∧ s.dev.thimble.failed = false ∧ s.dev.reset.warm = none ∧ width ∈ [8, 16] ∧ 3 ≤ speed ∧ speed ≤ 5
    (¬ trains → s.linkUp cxl width speed = s) ∧
      (trains → s.linkUp cxl width speed = { s with dev := { s.dev with host := { s.dev.host with link := .l0, cxl := cxl, width := width, speed := speed } } }) := by
  have hcond : (s.pins.railsOn && s.pins.perstN && s.dev.host.link = .detect && !s.dev.thimble.failed && s.dev.reset.warm.isNone
      && (width = 8 || width = 16) && 3 ≤ speed && speed ≤ 5) = true ↔
      s.pins.perstN = true ∧ s.dev.host.link = .detect ∧ s.dev.thimble.failed = false ∧ s.dev.reset.warm = none ∧ width ∈ [8, 16] ∧ 3 ≤ speed ∧ speed ≤ 5 := by
    simp [hrails, and_assoc]
  exact ⟨fun hnot => if_neg (fun h => hnot (hcond.1 h)), fun htrains => if_pos (hcond.2 htrains)⟩

/-- Settles O58: a link event resets the module through its whole way down, and a return to L0 sends what was held. -/
theorem hostLinkEvents : Obligations.HostLinkEvents := by
  intro s cxl width speed
  refine ⟨fun h => ?_, fun h => ?_, fun h => ?_, fun hrails => ⟨fun hperst => ⟨fun hbooted => ?_, fun hbooted hquiet => ?_⟩, fun hdown hdown' row hrow => ?_,
    fun hoff => ?_, fun hlinked hquiet => ?_, fun h => ?_, fun h => ?_, fun h => ?_, fun hnot => ?_, fun htrains => ?_⟩⟩
  · refine congrArg Host.Outcome.next (if_pos ?_)
    obtain h | h := h
    · rw [h]; rfl
    · rw [h, Bool.not_false, Bool.or_true]
  · exact congrArg Host.Outcome.next (if_neg h)
  · exact congrArg Host.Outcome.next (if_pos h)
  · have hlow : s.perstAssert = _ := (if_neg (by rw [hperst, hrails]; decide)).trans (if_neg (by rw [hbooted]; exact Bool.false_ne_true))
    exact ⟨_, congrArg Host.Outcome.next hlow, rfl, rfl, rfl⟩
  · have hreset : s.perstAssert = _ := (if_neg (by rw [hperst, hrails]; decide)).trans (if_pos hbooted)
    have hdone := linkReset_down (s := { s with pins := { s.pins with perstN := false } }) hrails hquiet 0x0151 (dst := .heldInReset) (.inr rfl)
    have hshown := hdone.shown (.inr rfl)
    exact ⟨_, congrArg Host.Outcome.next hreset, hdone.pins, hshown⟩
  · have hnot : ¬ s.linked = true := fun h => ((linked_iff hrails).1 h).elim hdown hdown'
    have hrecovery (enter : Bool) : s.dev.linkRecovery enter = s.dev := by
      cases enter with
      | true => exact (if_pos rfl).trans (if_neg (by unfold Device.hostUp; rw [decide_eq_true_iff]; exact hdown))
      | false => exact (if_neg Bool.false_ne_true).trans (if_neg hdown')
    simp only [List.mem_cons, List.not_mem_nil, or_false] at hrow
    rcases hrow with rfl | rfl | rfl | rfl | rfl | rfl
    · exact congrArg Host.Outcome.next (if_neg hnot)
    · exact congrArg Host.Outcome.next (if_neg hnot)
    · exact congrArg Host.Outcome.next (if_neg (fun h => hnot (Bool.and_eq_true _ _ ▸ h).1))
    · exact congrArg Host.Outcome.next (if_neg hnot)
    · exact exec_run (c := .linkRecovery true) (f := fun d => d.linkRecovery true) rfl hrails (hrecovery true)
    · exact exec_run (c := .linkRecovery false) (f := fun d => d.linkRecovery false) rfl hrails (hrecovery false)
  · exact congrArg Host.Outcome.next (if_neg (by rw [hoff, Bool.and_false]; exact Bool.false_ne_true))
  · have hlink : s.linked = true := (linked_iff hrails).2 hlinked
    have hdone {row : Instr} {cause : Code} (hrow : exec row s = .next (s.linkReset cause .detect)) :=
      linkReset_completes hrails hquiet hrow
    refine ⟨?_, ?_, ?_, fun hon => ?_⟩
    · obtain ⟨t, hexec, hdown⟩ := hdone (row := .hotReset) (congrArg Host.Outcome.next (if_pos hlink))
      exact ⟨t, hexec, hdown.pins, hdown.shown (.inl rfl)⟩
    · obtain ⟨t, hexec, hdown⟩ := hdone (row := .linkDisable) (congrArg Host.Outcome.next (if_pos hlink))
      exact ⟨t, hexec, hdown.pins, hdown.shown (.inl rfl)⟩
    · obtain ⟨t, hexec, hdown⟩ := hdone (row := .hostLinkLoss) (congrArg Host.Outcome.next (if_pos hlink))
      exact ⟨t, hexec, hdown.pins, hdown.shown (.inl rfl)⟩
    · obtain ⟨t, hexec, hdown⟩ := hdone (row := .d3hotEntry) (congrArg Host.Outcome.next (if_pos (by rw [hlink, hon]; rfl)))
      exact ⟨t, hexec, hdown.pins, hdown.shown (.inl rfl)⟩
  · exact exec_run (c := .linkRecovery true) (f := fun d => d.linkRecovery true) rfl hrails
      ((if_pos rfl).trans (if_pos (decide_eq_true h)))
  · exact exec_run (c := .linkRecovery false) (f := fun d => d.linkRecovery false) rfl hrails
      ((if_neg Bool.false_ne_true).trans (if_neg (by rw [h]; decide)))
  · exact completes_run (c := .linkRecovery false) (f := fun d => d.linkRecovery false) rfl hrails ⟨rfl, linkRecovery_returns h⟩
  · exact congrArg Host.Outcome.next ((linkUp_trains hrails cxl width speed).1 hnot)
  · exact congrArg Host.Outcome.next ((linkUp_trains hrails cxl width speed).2 htrains)

end Sys2Proof.Machine
end

section
/-! The Bodkin port (R859 to R871): the TAP, and a panel's sequencer under the debugger. -/

namespace Sys2Proof.Machine

/-! ### Requests on a sequencer (R861, R863) -/

theorem powered_on {s : State} (hrails : s.pins.railsOn = true) (f : State → State) : s.powered f = .next (f s) :=
  congrArg Host.Outcome.next (if_pos hrails)

section
variable {s : State} (hrails : s.pins.railsOn = true) (space : BitVec 4) (addr : BitVec 48)
include hrails

theorem dapHalt_exec : exec (.dapHalt space addr) s = .next (s.dapSeq 7 space addr Device.dapHalt) :=
  powered_on hrails (fun s => s.dapSeq 7 space addr Device.dapHalt)

theorem dapResume_exec : exec (.dapResume space addr) s = .next (s.dapSeq 8 space addr (fun d p => d.seqResume p 0)) :=
  powered_on hrails (fun s => s.dapSeq 8 space addr (fun d p => d.seqResume p 0))

theorem dapStep_exec : exec (.dapStep space addr) s = .next (s.dapSeq 9 space addr Device.dapStep) :=
  powered_on hrails (fun s => s.dapSeq 9 space addr Device.dapStep)

theorem dapStepTack_exec : exec (.dapStepTack space addr) s = .next (s.dapSeq 10 space addr Device.dapStepTack) :=
  powered_on hrails (fun s => s.dapSeq 10 space addr Device.dapStepTack)

end

/-- The state once a request has completed with a status, an address and the data that it read. -/
def State.dapAnswered (s : State) (op status : Nat) (addr : BitVec 48) (data : BitVec 32) : State :=
  { s with dev := { s.dev with bodkin := { s.dev.bodkin with op := op, status := status, addr := addr, data := data } } }

/-- The access protocol takes no request: it is not selected, or another request waits. -/
theorem dapTaken_iff (b : Bodkin) : (b.ir != 0x10 || b.waiting.isSome) = true ↔ ¬ (b.ir = 0x10 ∧ b.waiting = none) := by
  cases b.waiting <;> simp

theorem dapSeq_ignored {s : State} (h : ¬ (s.dev.bodkin.ir = 0x10 ∧ s.dev.bodkin.waiting = none)) (op : Nat) (space : BitVec 4) (addr : BitVec 48)
    (f : Device → PanelId → Device) : s.dapSeq op space addr f = s :=
  if_pos ((dapTaken_iff _).2 h)

theorem dapSeq_refused {s : State} (h : s.dev.bodkin.ir = 0x10 ∧ s.dev.bodkin.waiting = none) (op : Nat) (space : BitVec 4) (addr : BitVec 48)
    (f : Device → PanelId → Device) :
    (s.dev.thimble.scopes.getLsbD 0 = false → s.dapSeq op space addr f = s.dapAnswered op 1 addr 0) ∧
      (s.dev.thimble.scopes.getLsbD 0 = true → 5 ≤ space.toNat → s.dapSeq op space addr f = s.dapAnswered op 5 addr 0) := by
  have htaken : ¬ (s.dev.bodkin.ir != 0x10 || s.dev.bodkin.waiting.isSome) = true := fun ht => (dapTaken_iff _).1 ht h
  refine ⟨fun hlocked => ?_, fun hopen hspace => ?_⟩
  · exact (if_neg htaken).trans (if_pos (by unfold Device.dapOpen; rw [hlocked]; rfl))
  · exact (if_neg htaken).trans ((if_neg (by unfold Device.dapOpen; rw [hopen]; exact Bool.false_ne_true)).trans (if_pos hspace))

theorem dapSeq_runs {s : State} (h : s.dev.bodkin.ir = 0x10 ∧ s.dev.bodkin.waiting = none) (hopen : s.dev.thimble.scopes.getLsbD 0 = true)
    {space : BitVec 4} (hspace : space.toNat < 5) (op : Nat) (addr : BitVec 48) (f : Device → PanelId → Device) :
    s.dapSeq op space addr f = ({ s with dev := f s.dev (dapPanel addr) } : State).dapAnswered op 0 addr 0 := by
  have htaken : ¬ (s.dev.bodkin.ir != 0x10 || s.dev.bodkin.waiting.isSome) = true := fun ht => (dapTaken_iff _).1 ht h
  exact (if_neg htaken).trans ((if_neg (by unfold Device.dapOpen; rw [hopen]; exact Bool.false_ne_true)).trans (if_neg (Nat.not_le.2 hspace)))

/-- The device with a panel's debug state. -/
def Device.debugged (d : Device) (p : PanelId) (g : SeqDebug) : Device := d.updPanel p (fun q => { q with dbg := g })

/-- HALT and STEP stop the sequencer at an instruction whose address is the firmware's. -/
theorem seqHalt_halts (d : Device) (p : PanelId) (cause : Nat) :
    ∃ pc, d.seqHalt p cause = { d.debugged p { (d.panel p).dbg with halted := true, cause := cause, index := 0, pc := pc, stepTack := 0 } with fresh := d.fresh + 1 } :=
  ⟨_, rfl⟩

theorem seqResume_runs (d : Device) (p : PanelId) (stepTack : Nat) :
    d.seqResume p stepTack = d.debugged p { (d.panel p).dbg with halted := false, mem := [], stepTack := stepTack } := rfl

theorem dapStep_halts {d : Device} {p : PanelId} (h : (d.panel p).dbg.halted = true) :
    ∃ pc, d.dapStep p =
      { d.debugged p { (d.panel p).dbg with halted := true, cause := 1, index := 0, pc := pc, stepTack := 0, mem := [] } with fresh := d.fresh + 1 } := by
  have hstep : d.dapStep p = (d.updDebug p (fun g => { g with mem := [] })).seqHalt p 1 := if_pos h
  obtain ⟨pc, hhalt⟩ := seqHalt_halts (d.updDebug p (fun g => { g with mem := [] })) p 1
  refine ⟨pc, hstep.trans (hhalt.trans ?_)⟩
  unfold Device.debugged Device.updDebug
  rw [updPanel_updPanel, updPanel_panel, updPanel_fresh]

/-! ### Breakpoints and watchpoints (R871) -/

/-- The upper bits of two words agree. -/
theorem shiftRight_eq_iff (x y : BitVec 32) (n : Nat) : x >>> n = y >>> n ↔ ∀ k < 32, n ≤ k → x.getLsbD k = y.getLsbD k := by
  constructor
  · intro h k _ hn
    have hbit := congrArg (fun z : BitVec 32 => z.getLsbD (k - n)) h
    simpa [BitVec.getLsbD_ushiftRight, Nat.add_sub_cancel' hn] using hbit
  · intro h
    refine BitVec.eq_of_getLsbD_eq (fun i hi => ?_)
    rw [BitVec.getLsbD_ushiftRight, BitVec.getLsbD_ushiftRight]
    by_cases hin : n + i < 32
    · exact h (n + i) hin (Nat.le_add_right n i)
    · rw [BitVec.getLsbD_of_ge _ _ (Nat.not_lt.1 hin), BitVec.getLsbD_of_ge _ _ (Nat.not_lt.1 hin)]

theorem watched_iff (w : BitVec 64) (at_ : BitVec 32) :
    ((w.setWidth 32 ^^^ at_) &&& ~~~((w >>> 32).setWidth 32)) >>> 3 = 0 ↔ ∀ k < 32, 3 ≤ k → w.getLsbD (32 + k) = false → w.getLsbD k = at_.getLsbD k := by
  have hzero : (0 : BitVec 32) = (0 : BitVec 32) >>> 3 := by decide
  rw [hzero, shiftRight_eq_iff]
  refine forall_congr' fun k => forall_congr' fun hk => forall_congr' fun _ => ?_
  have hbit : (((w.setWidth 32 ^^^ at_) &&& ~~~((w >>> 32).setWidth 32)) : BitVec 32).getLsbD k = ((w.getLsbD k ^^ at_.getLsbD k) && !w.getLsbD (32 + k)) := by
    simp [hk]
  rw [hbit]
  cases w.getLsbD (32 + k) <;> cases w.getLsbD k <;> cases at_.getLsbD k <;> simp

theorem breakpointHit_matches (d : Device) (p : PanelId) (n : Fin 8) (pc : BitVec 32) :
    let y := (d.panel p).dbg.bps[n.val]
    ((d.panel p).dbg.halted = true ∨ y.getLsbD 0 = false ∨ (∃ k < 32, 2 ≤ k ∧ y.getLsbD k ≠ pc.getLsbD k) → d.breakpointHit p n pc = d) ∧
      ((d.panel p).dbg.halted = false → y.getLsbD 0 = true → (∀ k < 32, 2 ≤ k → y.getLsbD k = pc.getLsbD k) →
        d.breakpointHit p n pc = d.updDebug p (fun g => { g with halted := true, cause := 3, index := n.val, pc := pc, stepTack := 0 })) := by
  intro y
  refine ⟨fun h => if_neg ?_, fun hruns hset hall => if_pos ?_⟩
  · rw [Bool.and_eq_true, Bool.and_eq_true, Bool.not_eq_true', decide_eq_true_iff, shiftRight_eq_iff]
    rintro ⟨⟨hruns, hset⟩, hall⟩
    obtain h | h | ⟨k, hk, hlow, hne⟩ := h
    · exact Bool.false_ne_true (hruns.symm.trans h)
    · exact Bool.false_ne_true (h.symm.trans hset)
    · exact hne (hall k hk hlow)
  · rw [Bool.and_eq_true, Bool.and_eq_true, Bool.not_eq_true', decide_eq_true_iff, shiftRight_eq_iff]
    exact ⟨⟨hruns, hset⟩, hall⟩

theorem watchpointHit_matches (d : Device) (p : PanelId) (n : Fin 4) (pc at_ : BitVec 32) (write : Bool) :
    let w := (d.panel p).dbg.wps[n.val]
    let kind := w.getLsbD (if write then 2 else 1)
    ((d.panel p).dbg.halted = true ∨ w.getLsbD 0 = false ∨ kind = false ∨
        (∃ k < 32, 3 ≤ k ∧ w.getLsbD (32 + k) = false ∧ w.getLsbD k ≠ at_.getLsbD k) → d.watchpointHit p n pc at_ write = d) ∧
      ((d.panel p).dbg.halted = false → w.getLsbD 0 = true → kind = true →
        (∀ k < 32, 3 ≤ k → w.getLsbD (32 + k) = false → w.getLsbD k = at_.getLsbD k) →
        d.watchpointHit p n pc at_ write = d.updDebug p (fun g => { g with halted := true, cause := 4, index := n.val, pc := pc, stepTack := 0 })) := by
  intro w kind
  have hkind : (if write then w.getLsbD 2 else w.getLsbD 1) = kind := by cases write <;> rfl
  have hcond : (!(d.panel p).dbg.halted && w.getLsbD 0 && (if write then w.getLsbD 2 else w.getLsbD 1) &&
      decide (((w.setWidth 32 ^^^ at_) &&& ~~~((w >>> 32).setWidth 32)) >>> 3 = 0)) = true ↔
      (d.panel p).dbg.halted = false ∧ w.getLsbD 0 = true ∧ kind = true ∧ ∀ k < 32, 3 ≤ k → w.getLsbD (32 + k) = false → w.getLsbD k = at_.getLsbD k := by
    rw [Bool.and_eq_true, Bool.and_eq_true, Bool.and_eq_true, Bool.not_eq_true', hkind, decide_eq_true_iff, watched_iff, and_assoc, and_assoc]
  refine ⟨fun h => if_neg (fun hmatch => ?_), fun hruns hset hkind hall => if_pos (hcond.2 ⟨hruns, hset, hkind, hall⟩)⟩
  obtain ⟨hruns, hset, hkind, hall⟩ := hcond.1 hmatch
  obtain h | h | h | ⟨k, hk, hlow, hmask, hne⟩ := h
  · exact Bool.false_ne_true (hruns.symm.trans h)
  · exact Bool.false_ne_true (h.symm.trans hset)
  · exact Bool.false_ne_true (h.symm.trans hkind)
  · exact hne (hall k hk hlow hmask)

/-! ### The obligation -/

/-- Settles O59: a request on a sequencer runs one change of its debug state, and a hit is a match of the enabled comparator. -/
theorem bodkinTapAndSequencers : Obligations.BodkinTapAndSequencers := by
  intro s space addr p i j pc at_ write hrails d b q open_ done rows g after at_halt w y onPanel
  obtain ⟨hmiss, hhit⟩ := breakpointHit_matches d p i pc
  obtain ⟨hmissed, hwatched⟩ := watchpointHit_matches d p j pc at_ write
  refine ⟨fun x hx => ?_, ?_, fun x hx => ?_, fun hopen hscope hspace => ⟨fun hhalted => ⟨?_, ?_, ?_⟩, fun hruns => ⟨?_, ?_, ?_⟩, ?_⟩, fun h => ?_, fun h₁ h₂ h₃ => ?_,
    fun h => ?_, fun h₁ h₂ h₃ h₄ => ?_⟩
  · simp only [List.mem_cons, List.not_mem_nil, or_false] at hx
    rcases hx with rfl | rfl | rfl | rfl | rfl
    · exact exec_run (c := .tapReset) (f := fun d => d.tapSelect 0x01) rfl hrails rfl
    · exact exec_run (c := .idcode) (f := fun d => d.tapSelect 0x01) rfl hrails rfl
    · exact exec_run (c := .extest) (f := fun d => d.tapSelect 0x03) rfl hrails rfl
    · exact exec_run (c := .dap) (f := fun d => d.tapSelect 0x10) rfl hrails rfl
    · exact exec_run (c := .bypass) (f := fun d => d.tapSelect 0xFF) rfl hrails rfl
  · exact completes_run (c := .samplePreload) (f := Device.tapSample) rfl hrails rfl
  · have hrow : ∃ f, exec x.1 s = .next (s.dapSeq x.2 space addr f) := by
      simp only [rows, List.mem_cons, List.not_mem_nil, or_false] at hx
      rcases hx with rfl | rfl | rfl | rfl
      · exact ⟨_, dapHalt_exec hrails space addr⟩
      · exact ⟨_, dapResume_exec hrails space addr⟩
      · exact ⟨_, dapStep_exec hrails space addr⟩
      · exact ⟨_, dapStepTack_exec hrails space addr⟩
    obtain ⟨f, hexec⟩ := hrow
    refine ⟨fun hclosed => hexec.trans (congrArg Host.Outcome.next (dapSeq_ignored hclosed _ _ _ _)), fun hopen => ?_⟩
    obtain ⟨hlocked, hreserved⟩ := dapSeq_refused hopen x.2 space addr f
    exact ⟨fun h => hexec.trans (congrArg Host.Outcome.next (hlocked h)), fun h h' => hexec.trans (congrArg Host.Outcome.next (hreserved h h'))⟩
  · have hstays : d.dapHalt q = d := if_pos hhalted
    have hruns := dapSeq_runs hopen hscope hspace 7 addr Device.dapHalt
    rw [show d.dapHalt (dapPanel addr) = d from hstays] at hruns
    exact (dapHalt_exec hrails space addr).trans (congrArg Host.Outcome.next hruns)
  · obtain ⟨pc, hstep⟩ := dapStep_halts (p := q) hhalted
    have hruns := dapSeq_runs hopen hscope hspace 9 addr Device.dapStep
    rw [show d.dapStep (dapPanel addr) = _ from hstep] at hruns
    exact ⟨_, (dapStep_exec hrails space addr).trans (congrArg Host.Outcome.next hruns), _, rfl, ⟨rfl, rfl, rfl, rfl, rfl⟩, rfl⟩
  · have hruns := dapSeq_runs hopen hscope hspace 10 addr Device.dapStepTack
    rw [show d.dapStepTack (dapPanel addr) = d.seqResume q 1 from if_pos hhalted, seqResume_runs] at hruns
    exact ⟨_, (dapStepTack_exec hrails space addr).trans (congrArg Host.Outcome.next hruns), rfl⟩
  · have hstep := dapSeq_runs hopen hscope hspace 9 addr Device.dapStep
    rw [show d.dapStep (dapPanel addr) = d from if_neg (by rw [show (d.panel (dapPanel addr)).dbg.halted = false from hruns]; exact Bool.false_ne_true)] at hstep
    exact (dapStep_exec hrails space addr).trans (congrArg Host.Outcome.next hstep)
  · have hstep := dapSeq_runs hopen hscope hspace 10 addr Device.dapStepTack
    rw [show d.dapStepTack (dapPanel addr) = d from if_neg (by rw [show (d.panel (dapPanel addr)).dbg.halted = false from hruns]; exact Bool.false_ne_true)] at hstep
    exact (dapStepTack_exec hrails space addr).trans (congrArg Host.Outcome.next hstep)
  · obtain ⟨pc, hhalt⟩ := seqHalt_halts d q 0
    have hstep := dapSeq_runs hopen hscope hspace 7 addr Device.dapHalt
    rw [show d.dapHalt (dapPanel addr) = _ from (if_neg (by rw [show (d.panel (dapPanel addr)).dbg.halted = false from hruns]; exact Bool.false_ne_true)).trans hhalt] at hstep
    exact ⟨_, (dapHalt_exec hrails space addr).trans (congrArg Host.Outcome.next hstep), _, rfl, ⟨rfl, rfl, rfl, rfl, rfl⟩, rfl⟩
  · have hruns := dapSeq_runs hopen hscope hspace 8 addr (fun d p => d.seqResume p 0)
    rw [seqResume_runs] at hruns
    exact ⟨_, (dapResume_exec hrails space addr).trans (congrArg Host.Outcome.next hruns), rfl⟩
  · exact exec_run (c := .breakpointHit p i pc) (f := fun d => d.breakpointHit p i pc) rfl hrails (hmiss h)
  · exact exec_run (c := .breakpointHit p i pc) (f := fun d => d.breakpointHit p i pc) rfl hrails (hhit h₁ h₂ h₃)
  · exact exec_run (c := .watchpointHit p j pc at_ write) (f := fun d => d.watchpointHit p j pc at_ write) rfl hrails (hmissed h)
  · exact exec_run (c := .watchpointHit p j pc at_ write) (f := fun d => d.watchpointHit p j pc at_ write) rfl hrails (hwatched h₁ h₂ h₃ h₄)

end Sys2Proof.Machine
end

section
/-! The host link (R799 to R820): configuration space, the HDM decoder, translations, data objects, failed host accesses. -/

namespace Sys2Proof.Machine

theorem hostUp_iff {d : Device} : d.hostUp = true ↔ d.host.link = .l0 := decide_eq_true_iff

/-- Without a link in L0 no request of the host comes, and no access of the device fails. -/
theorem unlinked_rows {s : State} (hrails : s.pins.railsOn = true) (hlink : s.dev.host.link ≠ .l0) (offset : Nat) (v : BitVec 32)
    (base size ways : Nat) (lock : Bool) (addr len : Nat) (obj : DoeObject) (refused : Bool) (use : HostUse) :
    ∀ row ∈ [Instr.configRequest offset none, .configRequest offset (some v), .hdmCommit true base size ways lock, .hdmCommit false base size ways lock, .atsInvalidate addr len, .doeRequest obj, .hostAccessFault use addr refused],
      exec row s = .next s := by
  have hdown : (!s.dev.hostUp) = true := by
    rw [Bool.not_eq_true']
    exact Bool.eq_false_iff.2 (fun h => hlink (hostUp_iff.1 h))
  have hor (b : Bool) : (!s.dev.hostUp || b) = true := by rw [hdown]; rfl
  have hfault : exec (.hostAccessFault use addr refused) s = .next s :=
    congrArg Host.Outcome.next (if_pos (by rw [hdown, Bool.or_true]))
  have hcommit (commit : Bool) : exec (.hdmCommit commit base size ways lock) s = .next s :=
    exec_run rfl hrails (f := fun d => d.hdmCommit commit base size ways lock) (if_pos (by rw [Bool.or_assoc]; exact hor _))
  have hconfig (w : Option (BitVec 32)) : exec (.configRequest offset w) s = .next s :=
    exec_run rfl hrails (f := fun d => d.configRequest offset w) (if_pos (hor _))
  intro row hrow
  simp only [List.mem_cons, List.not_mem_nil, or_false] at hrow
  rcases hrow with rfl | rfl | rfl | rfl | rfl | rfl | rfl
  · exact hconfig none
  · exact hconfig (some v)
  · exact hcommit true
  · exact hcommit false
  · exact exec_run rfl hrails (f := fun d => d.atsInvalidate addr len) (if_pos hdown)
  · exact exec_run rfl hrails (f := fun d => d.doeRequest obj) (if_pos (hor _))
  · exact hfault

/-! ### Configuration space (R803, R807, R813) -/

section
variable {d : Device} (hlink : d.host.link = .l0) {offset : Nat}
include hlink

omit hlink in
theorem configRequest_outside (ho : 4096 ≤ offset / 4 * 4) (w : Option (BitVec 32)) : d.configRequest offset w = d :=
  if_pos (by rw [decide_eq_true ho, Bool.or_true])

variable (ho : offset / 4 * 4 < 4096)
include ho

theorem configRequest_takes : ¬ (!d.hostUp || decide (4096 ≤ offset / 4 * 4)) = true := by
  rw [hostUp_iff.2 hlink, decide_eq_false (Nat.not_le.2 ho)]
  exact Bool.false_ne_true

theorem configRequest_early (hboot : d.thimble.booted = false) (w : Option (BitVec 32)) :
    d.configRequest offset w = { d with host := { d.host with retryStatus := true, lastAnswer := none } } :=
  (if_neg (configRequest_takes hlink ho)).trans (if_pos (by rw [hboot]; rfl))

theorem configRequest_read (hboot : d.thimble.booted = true) :
    d.configRequest offset none = { d with host := { d.host with retryStatus := false, lastAnswer := some (d.configRead (offset / 4 * 4)) } } :=
  (if_neg (configRequest_takes hlink ho)).trans (if_neg (by rw [hboot]; exact Bool.false_ne_true))

theorem configRequest_write (hboot : d.thimble.booted = true) (v : BitVec 32) :
    d.configRequest offset (some v) =
      (d.configTaken (offset / 4 * 4) v).updHost (fun g => { g with retryStatus := false, lastAnswer := none }) :=
  (if_neg (configRequest_takes hlink ho)).trans (if_neg (by rw [hboot]; exact Bool.false_ne_true))

end

theorem configTaken_again {d : Device} {o : Nat} {v : BitVec 32} (h : d.heldMode = false) : d.configTaken o v = (d.configWrite o v).holdAgain :=
  if_neg (by rw [h]; exact Bool.false_ne_true)

/-- A write that does not give the device CXL.cache is only stored. -/
theorem configTaken_stored {d : Device} {o : Nat} {v : BitVec 32} (h : d.heldMode = true ∨ (d.configWrite o v).heldMode = false) :
    d.configTaken o v = d.configWrite o v := by
  cases hheld : d.heldMode with
  | true => exact if_pos hheld
  | false =>
    have hafter : (d.configWrite o v).heldMode = false := h.resolve_left (by rw [hheld]; exact Bool.false_ne_true)
    exact (configTaken_again hheld).trans (if_pos (by rw [hafter]; rfl))

/-- The host link with a configuration dword stored. -/
def HostLink.configured (h : HostLink) (o : Nat) (v : BitVec 32) : HostLink :=
  { h with config := (o, v) :: h.config.filter (fun c => c.1 != o) }

theorem configured_stored (h : HostLink) (o : Nat) (v : BitVec 32) : (h.configured o v).stored o = v := by
  simp [HostLink.configured, HostLink.stored]

theorem configured_other (h : HostLink) {o q : Nat} (hq : q ≠ o) (v : BitVec 32) : (h.configured o v).stored q = h.stored q := by
  have hfind : (h.config.filter (fun c => c.1 != o)).find? (fun c => c.1 = q) = h.config.find? (fun c => c.1 = q) := by
    rw [List.find?_filter]
    refine congrArg (fun f => List.find? f h.config) (funext fun c => ?_)
    by_cases hc : c.1 = q
    · simp [hc, hq]
    · simp [hc]
  have hskip : (h.configured o v).config.find? (fun c => c.1 = q) = (h.config.filter (fun c => c.1 != o)).find? (fun c => c.1 = q) :=
    List.find?_cons_of_neg (by simpa using Ne.symm hq)
  unfold HostLink.stored
  rw [hskip, hfind]

/-! ### The HDM decoder and data objects (R801, R818) -/

section
variable {d : Device} (hlink : d.host.link = .l0) {base size ways : Nat} {lock : Bool}
include hlink

theorem hdmCommit_keeps {commit : Bool} (h : d.thimble.booted = false ∨ d.host.hdm.committed = true ∧ (d.host.hdm.lockOnCommit = true ∨ commit = true)) :
    d.hdmCommit commit base size ways lock = d := by
  refine if_pos ?_
  rw [hostUp_iff.2 hlink]
  rcases h with hboot | ⟨hcommitted, hlocked⟩
  · rw [hboot]
    rfl
  · have hheld : (d.host.hdm.lockOnCommit || commit) = true := by rw [Bool.or_eq_true]; exact hlocked
    rw [hcommitted, hheld, Bool.and_self, Bool.or_true]

variable (hboot : d.thimble.booted = true)
include hboot

theorem hdmCommit_decommits (h : d.host.hdm.committed = false ∨ d.host.hdm.lockOnCommit = false) :
    d.hdmCommit false base size ways lock = { d with host := { d.host with hdm := { d.host.hdm with committed := false, error := false } } } := by
  have hfree : (d.host.hdm.committed && (d.host.hdm.lockOnCommit || false)) = false := by
    rw [Bool.or_false, Bool.and_eq_false_iff]
    exact h
  refine (if_neg ?_).trans (if_pos rfl)
  rw [hostUp_iff.2 hlink, hboot, hfree]
  exact Bool.false_ne_true

theorem hdmCommit_commits (h : d.host.hdm.committed = false) :
    let ok := decide (size % 2 ^ 28 = 0 ∧ 2 ^ 28 ≤ size ∧ size ≤ 2 ^ 38 ∧ ways = 1)
    d.hdmCommit true base size ways lock =
      { d with host := { d.host with hdm := { base := base, size := size, ways := ways, lockOnCommit := lock, committed := ok, error := !ok } } } := by
  intro ok
  have hok : (decide (size % 2 ^ 28 = 0) && decide (2 ^ 28 ≤ size) && decide (size ≤ 2 ^ 38) && decide (ways = 1)) = ok := by
    simp only [ok, Bool.decide_and, Bool.and_assoc]
  rw [← hok]
  refine (if_neg ?_).trans (if_neg Bool.false_ne_true)
  rw [hostUp_iff.2 hlink, hboot, h]
  exact Bool.false_ne_true

end

theorem doeRequest_early {d : Device} (hboot : d.thimble.booted = false) (obj : DoeObject) : d.doeRequest obj = d :=
  if_pos (by rw [hboot, Bool.not_false, Bool.or_true])

section
variable {d : Device} (hlink : d.host.link = .l0) (hboot : d.thimble.booted = true)
include hlink hboot

theorem doeRequest_takes : ¬ (!d.hostUp || !d.thimble.booted) = true := by
  rw [hostUp_iff.2 hlink, hboot]
  exact Bool.false_ne_true

theorem doeRequest_spdm (m : List Byte) (opens : Bool) : d.doeRequest (.spdm m opens) =
    { d with host := { d.host with doeAnswer := Config.spdmAnswer m, ideActive := d.host.ideActive || (opens && decide (4 ≤ d.host.speed)) } } :=
  if_neg (doeRequest_takes hlink hboot)

/-- Any object but an SPDM message leaves IDE as it is. -/
theorem doeRequest_plain {obj : DoeObject} (h : ∀ m opens, obj ≠ .spdm m opens) :
    d.doeRequest obj = { d with host := { d.host with doeAnswer := doeBytes obj } } := by
  refine (if_neg (doeRequest_takes hlink hboot)).trans ?_
  unfold Device.updHost
  cases obj with
  | spdm m opens => exact absurd rfl (h m opens)
  | discovery n => simp only [Bool.or_false]
  | cdat e => simp only [Bool.or_false]
  | other => simp only [Bool.or_false]

end

/-! ### Translations (R808) -/

theorem atsInvalidate_linked {d : Device} (hlink : d.host.link = .l0) (addr len : Nat) :
    d.atsInvalidate addr len =
      (d.host.lines.filter (fun l => rangesOverlap (l / 4096 * 4096) 4096 addr len)).foldl (fun (e : Device) l => (e.holdLine l).refreshLine l)
        { d with host := { d.host with translations := d.host.translations.filter (fun t => !rangesOverlap (t * 4096) 4096 addr len), lines := d.host.lines.filter (fun l => !(d.host.lines.filter (fun l => rangesOverlap (l / 4096 * 4096) 4096 addr len)).contains l) } } :=
  if_neg (by rw [hostUp_iff.2 hlink]; exact Bool.false_ne_true)

/-- An invalidation of no held line takes the translations of its range alone. -/
theorem atsInvalidate_unheld {d : Device} (hlink : d.host.link = .l0) {addr len : Nat}
    (h : d.host.lines.filter (fun l => rangesOverlap (l / 4096 * 4096) 4096 addr len) = []) :
    d.atsInvalidate addr len = { d with host := { d.host with translations := d.host.translations.filter (fun t => !rangesOverlap (t * 4096) 4096 addr len) } } := by
  have hlines : d.host.lines.filter (fun l => !([] : List Nat).contains l) = d.host.lines := List.filter_eq_self.2 (fun _ _ => rfl)
  rw [atsInvalidate_linked hlink, h, hlines, List.foldl_nil]

/-! ### A failed access is counted and recorded (R809) -/

/-- The host link with a failed access counted. -/
def HostLink.countedFault (h : HostLink) (refused : Bool) : HostLink :=
  if refused then { h with xlateFaults := satTo 16 (h.xlateFaults + 1) } else { h with accessFaults := satTo 16 (h.accessFaults + 1) }

theorem countHostFault_eq (d : Device) (refused : Bool) : d.countHostFault refused = { d with host := d.host.countedFault refused } := rfl

/-- A failed access counts, and its record is queued unless the queue is full. -/
def Device.FaultTold (d : Device) (refused : Bool) (b : Blame) (needed : Bool) (e : Device) : Prop :=
  e = { d with host := d.host.countedFault refused, err := e.err } ∧ (d.err.general < 64 →
    ∃ r, e.err.queue = d.err.queue ++ [⟨r, false, if needed then some d.err.nextTicket else none⟩] ∧ r.reason = 0x0152 ∧ r.mech = 0x10 ∧ r.ctx = b.ctx)

theorem redact_ctx (r : ErrRec) : (redact r).ctx = r.ctx := by
  unfold redact
  split
  · rfl
  · split <;> rfl

theorem stampRec_ctx (d : Device) (r : ErrRec) : (d.stampRec r).ctx = r.ctx := by
  unfold Device.stampRec
  dsimp only
  cases d.ctx? r.ctx with
  | none => rfl
  | some c =>
    dsimp only
    split
    · exact redact_ctx _
    · rfl

theorem hostFault_told (d : Device) (refused : Bool) (addr : Nat) (b : Blame) : d.FaultTold refused b false (d.hostFault refused addr b) := by
  have hsame := stampRec_sameFault (d.countHostFault refused) (d.hostFaultRecord addr b)
  obtain ⟨e, he⟩ := raise_eq (d.countHostFault refused) (d.hostFaultRecord addr b)
  refine ⟨?_, fun h => ⟨_, raise_queue (d := d.countHostFault refused) h _, hsame.reason, hsame.mech, stampRec_ctx _ _⟩⟩
  unfold Device.hostFault
  rw [he]
  rfl

theorem hostFaultNeeded_told (d : Device) (refused : Bool) (addr : Nat) (b : Blame) :
    d.FaultTold refused b true (d.hostFaultNeeded refused addr b).1 ∧ (d.hostFaultNeeded refused addr b).2 = d.err.nextTicket := by
  have hsame := stampRec_sameFault (d.countHostFault refused) (d.hostFaultRecord addr b)
  obtain ⟨e, he, -, hqueue⟩ := raiseNeeded_wrote (d.countHostFault refused) (d.hostFaultRecord addr b)
  refine ⟨?_, rfl⟩
  unfold Device.hostFaultNeeded
  rw [he]
  exact ⟨rfl, fun h => ⟨_, (hqueue h).1, hsame.reason, hsame.mech, stampRec_ctx _ _⟩⟩

theorem countedFault_fields (h : HostLink) (refused : Bool) :
    (h.countedFault refused).xlateFaults = (if refused then satTo 16 (h.xlateFaults + 1) else h.xlateFaults) ∧
      (h.countedFault refused).accessFaults = (if refused then h.accessFaults else satTo 16 (h.accessFaults + 1)) ∧
      h.countedFault refused = { h with xlateFaults := (h.countedFault refused).xlateFaults, accessFaults := (h.countedFault refused).accessFaults } ∧
      (h.countedFault refused).fault = h.fault := by
  cases refused <;> exact ⟨rfl, rfl, rfl, rfl⟩

/-- A full queue takes no record: the lost ones are counted. -/
theorem raise_full {d : Device} (h : 64 ≤ d.err.general) (r : ErrRec) :
    (d.raise r).err.queue = d.err.queue ∧ (d.raise r).err.lost = satTo 16 (d.err.lost + 1) := by
  have hlost : d.raise r = { d with err := { d.err with lost := satTo 16 (d.err.lost + 1), lostUnreported := d.err.lostUnreported + 1 } } :=
    (if_neg (Nat.not_lt.2 h)).trans (if_neg Bool.false_ne_true)
  rw [hlost]
  exact ⟨rfl, rfl⟩

/-! ### Failures of an area (R809) -/

theorem areaFault_ignored {d : Device} {bit : Nat} {used : Bool} (h : used = false ∨ d.host.fault.getLsbD bit = true) (refused : Bool) (addr : Nat) :
    d.areaFault bit used refused addr = d := by
  refine if_neg ?_
  unfold Device.areaOn
  rcases h with hused | hstopped
  · rw [hused]
    exact Bool.false_ne_true
  · rw [hstopped, Bool.not_true, Bool.and_false]
    exact Bool.false_ne_true

theorem stopArea_fault (d : Device) (bit : Nat) : ∀ b < 5, (d.stopArea bit).host.fault.getLsbD b = (d.host.fault.getLsbD b || b == bit) := by
  intro b hb
  have hone : (1#5 <<< bit).getLsbD b = (b == bit) := by
    rw [BitVec.getLsbD_shiftLeft, BitVec.getLsbD_one, Bool.eq_iff_iff]
    simp only [Bool.and_eq_true, decide_eq_true_eq, Bool.not_eq_true', decide_eq_false_iff_not, beq_iff_eq]
    omega
  exact (BitVec.getLsbD_or ..).trans (congrArg _ hone)

theorem areaFault_stops {d : Device} {bit : Nat} (h : d.host.fault.getLsbD bit = false) (refused : Bool) (addr : Nat) :
    d.areaFault bit true refused addr = (d.hostFault refused addr {}).stopArea bit :=
  if_pos (by unfold Device.areaOn; rw [h]; rfl)

/-- What a failure of an area in use leaves. -/
theorem hostFault_stopArea (d : Device) (bit : Nat) (refused : Bool) (addr : Nat) :
    let e := (d.hostFault refused addr {}).stopArea bit
    e = { d with host := e.host, err := e.err } ∧
      e.host = { d.host with fault := e.host.fault, xlateFaults := e.host.xlateFaults, accessFaults := e.host.accessFaults } ∧
      (∀ b < 5, e.host.fault.getLsbD b = (d.host.fault.getLsbD b || b == bit)) ∧
      e.host.xlateFaults = (if refused then satTo 16 (d.host.xlateFaults + 1) else d.host.xlateFaults) ∧
      e.host.accessFaults = (if refused then d.host.accessFaults else satTo 16 (d.host.accessFaults + 1)) ∧
      (d.err.general < 64 → ∃ q, e.err.queue = d.err.queue ++ [q] ∧ q.content.reason = 0x0152 ∧ q.content.mech = 0x10 ∧ q.content.outcome = 1) ∧
      (64 ≤ d.err.general → e.err.queue = d.err.queue ∧ e.err.lost = satTo 16 (d.err.lost + 1)) := by
  obtain ⟨htold, -⟩ := hostFault_told d refused addr {}
  have hsame := stampRec_sameFault (d.countHostFault refused) (d.hostFaultRecord addr {})
  have hqueued (h : d.err.general < 64) : ∃ q, (d.hostFault refused addr {}).err.queue = d.err.queue ++ [q] ∧ q.content.reason = 0x0152 ∧
      q.content.mech = 0x10 ∧ q.content.outcome = 1 :=
    ⟨_, raise_queue (d := d.countHostFault refused) h _, hsame.reason, hsame.mech, stampRec_outcome _ _⟩
  have hfull (h : 64 ≤ d.err.general) := raise_full (d := d.countHostFault refused) h (d.hostFaultRecord addr {})
  change _ → (d.hostFault refused addr {}).err.queue = d.err.queue ∧ (d.hostFault refused addr {}).err.lost = satTo 16 (d.err.lost + 1) at hfull
  obtain ⟨hxlate, haccess, hcounted, hfault⟩ := countedFault_fields d.host refused
  generalize d.hostFault refused addr {} = e at htold hqueued hfull ⊢
  obtain ⟨err, herr⟩ : ∃ err, e = { d with host := d.host.countedFault refused, err := err } := ⟨_, htold⟩
  subst herr
  refine ⟨rfl, ?_, fun b hb => ?_, hxlate, haccess, hqueued, hfull⟩
  · unfold Device.stopArea Device.updHost
    dsimp only
    rw [hcounted]
  · rw [stopArea_fault _ _ b hb, hfault]

/-! ### Failures of a descriptor's accesses (R809) -/

theorem operandFault_idle {d : Device} {c : Code} {n : RingId} (h : (d.ring? c n).bind Ring.running? = none) (refused : Bool) (addr : Nat) :
    d.operandFault c n refused addr = d := by
  unfold Device.operandFault
  rw [h]

theorem operandFault_running {d : Device} {c : Code} {n : RingId} {x : Desc} (h : (d.ring? c n).bind Ring.running? = some x) (refused : Bool) (addr : Nat) :
    d.operandFault c n refused addr = (((d.hostFaultNeeded refused addr (blameDesc c n x.seq)).1.dropFill c x).discardRuns
      (fun r => r.ctx = c && r.ring = n && r.seq = x.seq)).finish c n x 0x0511 addr (some d.err.nextTicket) := by
  have hticket := (hostFaultNeeded_told d refused addr (blameDesc c n x.seq)).2
  unfold Device.operandFault
  rw [h]
  dsimp only
  rw [hticket]

/-- The descriptor whose fetch failed, finished in its place in the ring. -/
def Device.unfetched (d : Device) (r : Ring) (tag : Nat) : Desc :=
  { seq := r.next, raw := BitVec.ofNat 1024 (tag * 2 ^ 16), fetchPos := d.position, fetchedAt := d.now,
    phase := .finished 0x0511, ticket := some d.err.nextTicket }

theorem fetchFault_unfetchable {d : Device} {c : Code} {n : RingId} {r : Ring} (hr : d.ring? c n = some r) (h : d.fetchable r = false)
    (refused : Bool) (addr : Nat) : d.fetchFault c n refused addr = d := by
  unfold Device.fetchFault
  rw [hr]
  exact if_pos (by rw [h]; rfl)

theorem fetchFault_ring {d : Device} {c : Code} {n : RingId} {r : Ring} (hr : d.ring? c n = some r) (h : d.fetchable r = true)
    (refused : Bool) (addr : Nat) :
    ∃ x, (d.fetchFault c n refused addr).ring? c n = some { r with queue := r.queue ++ [x], next := r.next + 1 } ∧
      x.seq = r.next ∧ x.phase = .finished 0x0511 ∧ x.ticket = some d.err.nextTicket := by
  obtain ⟨⟨htold, -⟩, hticket⟩ := hostFaultNeeded_told d refused addr (blameDesc c n r.next)
  unfold Device.fetchFault
  rw [hr]
  dsimp only
  rw [if_neg (by rw [h]; exact Bool.false_ne_true), hticket, updRing_ring]
  generalize (d.hostFaultNeeded refused addr (blameDesc c n r.next)).1 = e at htold ⊢
  have hring : (drawFree e 16).1.ring? c n = some r := by
    rw [htold]
    exact hr
  rw [hring]
  exact ⟨_, rfl, rfl, rfl, rfl⟩

theorem completionFault_none {d : Device} {c : Code} {n : RingId} (h : d.completable c n = none) (refused : Bool) (addr : Nat) (line : Bool) :
    d.completionFault c n refused addr line = d := by
  unfold Device.completionFault
  rw [h]

section
variable {d : Device} {c : Code} {n : RingId} {x : Desc} {status : Code} (h : d.completable c n = some (x, status)) (refused : Bool) (addr : Nat)
include h

theorem completionFault_unsignalled (hsignal : (x.signalEn && signals status) = false) : d.completionFault c n refused addr true = d := by
  unfold Device.completionFault
  rw [h]
  exact if_pos (by rw [hsignal]; rfl)

theorem completionFault_fails {line : Bool} (hsignal : line = true → (x.signalEn && signals status) = true) :
    d.completionFault c n refused addr line =
      (d.hostFault refused addr (blameDesc c n x.seq)).completeHead c n false (if line then .eventLine else .record) := by
  unfold Device.completionFault
  rw [h]
  refine if_neg ?_
  cases line with
  | false => exact Bool.false_ne_true
  | true =>
    rw [hsignal rfl]
    exact Bool.false_ne_true

end

/-! ### Failures of a doorbell line or a counter's line (R809) -/

theorem doorbellFault_noRing {d : Device} {c : Code} {n : RingId} (h : d.ring? c n = none) (refused : Bool) (addr : Nat) :
    d.doorbellFault c n refused addr = d := by
  unfold Device.doorbellFault
  rw [h]

theorem doorbellFault_again {d : Device} {c : Code} {n : RingId} {r : Ring} (hr : d.ring? c n = some r) (h : r.doorbellFault = true)
    (refused : Bool) (addr : Nat) : d.doorbellFault c n refused addr = d.countHostFault refused := by
  unfold Device.doorbellFault
  rw [hr]
  exact if_pos h

theorem doorbellFault_first {d : Device} {c : Code} {n : RingId} {r : Ring} (hr : d.ring? c n = some r) (h : r.doorbellFault = false)
    (refused : Bool) (addr : Nat) : d.doorbellFault c n refused addr =
      (d.hostFault refused addr (blameDesc c n r.next)).updRing c n (fun q => { q with doorbellFault := true }) := by
  unfold Device.doorbellFault
  rw [hr]
  exact if_neg (by rw [h]; exact Bool.false_ne_true)

theorem counterFault_unwaited {d : Device} {c : Code} {n : Nat} (h : (c, n) ∉ d.waitedCounters) (refused : Bool) (addr : Nat) :
    d.counterFault' c n refused addr = d :=
  if_pos (by rw [Bool.not_eq_true', List.contains_eq_mem, decide_eq_false h])

section
variable {d : Device} {c : Code} {n : Nat} (h : (c, n) ∈ d.waitedCounters) (refused : Bool) (addr : Nat)
include h

theorem counterFault_waited : ¬ (!d.waitedCounters.contains (c, n)) = true := by
  rw [List.contains_eq_mem, decide_eq_true h]
  exact Bool.false_ne_true

theorem counterFault_again (hold : (c, n) ∈ d.host.counterFaults) : d.counterFault' c n refused addr = d.countHostFault refused :=
  (if_neg (counterFault_waited h)).trans (if_pos (by rw [List.contains_eq_mem, decide_eq_true hold]))

theorem counterFault_first (hnew : (c, n) ∉ d.host.counterFaults) : d.counterFault' c n refused addr =
    (d.hostFault refused addr { ctx := c }).updHost (fun h => { h with counterFaults := (c, n) :: h.counterFaults }) :=
  (if_neg (counterFault_waited h)).trans (if_neg (by rw [List.contains_eq_mem, decide_eq_false hnew]; exact Bool.false_ne_true))

end

theorem hostFault_host (d : Device) (refused : Bool) (addr : Nat) (b : Blame) : (d.hostFault refused addr b).host = d.host.countedFault refused := by
  rw [(hostFault_told d refused addr b).1]

theorem hostFault_thimble (d : Device) (refused : Bool) (addr : Nat) (b : Blame) : (d.hostFault refused addr b).thimble = d.thimble := by
  rw [(hostFault_told d refused addr b).1]

/-- The load of a retire table fails with its access. -/
theorem retireTableFault_leaves (d : Device) (refused : Bool) (addr : Nat) (p : PanelId) :
    let e := (d.hostFault refused addr {}).updPMem p PanelMem.loadFailed
    (e.panel p).mem = (d.panel p).mem.loadFailed ∧ e.host.fault = d.host.fault := by
  obtain ⟨htold, -⟩ := hostFault_told d refused addr {}
  obtain ⟨-, -, -, hfault⟩ := countedFault_fields d.host refused
  generalize d.hostFault refused addr {} = e at htold ⊢
  obtain ⟨err, herr⟩ : ∃ err, e = { d with host := d.host.countedFault refused, err := err } := ⟨_, htold⟩
  subst herr
  exact ⟨congrArg Panel.mem (updPanel_panel _ p _), hfault⟩

/-! ### HOST_ACCESS_FAULT, use by use (R809) -/

/-- An area that HOST_FAULT stops: its bit, and whether the device uses it now. -/
def Device.AreaUse (d : Device) (use : HostUse) (bit : Nat) (used : Bool) : Prop :=
  use = .errorRing ∧ bit = 0 ∧ used = d.enabled ∨ use = .admissionRing ∧ bit = 1 ∧ used = d.admitOn ∨ use = .heartbeat ∧ bit = 2 ∧ used = d.enabled ∨
    use = .crash ∧ bit = 3 ∧ used = (fieldOf d.regs.crashBase 63 21 != 0) ∨ use = .dumpRing ∧ bit = 4 ∧ used = d.dumpOn ∨
    (∃ c, use = .counterPage c ∧ bit = 4 ∧ used = (d.ctx? c).any (fun k => k.rights.getLsbD 0))

section
variable {s : State} (hrails : s.pins.railsOn = true) (hlink : s.dev.host.link = .l0) (addr : Nat) (refused : Bool)
include hrails hlink

theorem accessFault_takes : ¬ (!s.pins.railsOn || !s.dev.hostUp) = true := by
  rw [hrails, hostUp_iff.2 hlink]
  exact Bool.false_ne_true

theorem areaFault_exec {use : HostUse} {bit : Nat} {used : Bool} (h : s.dev.AreaUse use bit used) :
    exec (.hostAccessFault use addr refused) s = .next { s with dev := s.dev.areaFault bit used refused addr } := by
  rcases h with ⟨rfl, rfl, rfl⟩ | ⟨rfl, rfl, rfl⟩ | ⟨rfl, rfl, rfl⟩ | ⟨rfl, rfl, rfl⟩ | ⟨rfl, rfl, rfl⟩ | ⟨c, rfl, rfl, rfl⟩ <;>
  exact congrArg Host.Outcome.next (if_neg (accessFault_takes hrails hlink))

theorem retireTableFault_exec (p : PanelId) :
    ((s.dev.panel p).mem.loadBusy = false → exec (.hostAccessFault (.retireTable p) addr refused) s = .next s) ∧
      ((s.dev.panel p).mem.loadBusy = true → exec (.hostAccessFault (.retireTable p) addr refused) s =
        .next { s with dev := (s.dev.hostFault refused addr {}).updPMem p PanelMem.loadFailed }) := by
  have htakes : exec (.hostAccessFault (.retireTable p) addr refused) s = .next (if (s.dev.panel p).mem.loadBusy then
      s.onDev (fun d => (d.hostFault refused addr {}).updPMem p PanelMem.loadFailed) else s) :=
    congrArg Host.Outcome.next (if_neg (accessFault_takes hrails hlink))
  exact ⟨fun h => htakes.trans (congrArg Host.Outcome.next (if_neg (by rw [h]; exact Bool.false_ne_true))),
    fun h => htakes.trans (congrArg Host.Outcome.next (if_pos h))⟩

theorem mailboxFault_exec :
    (s.dev.thimble.busy = false → exec (.hostAccessFault .mailbox addr refused) s = .next s) ∧
      (s.dev.thimble.busy = true → exec (.hostAccessFault .mailbox addr refused) s =
        .next (MboxResult.deliver { state := s.onDev (fun d => d.hostFault refused addr {}), code := 0x0801 } 0)) := by
  have htakes : exec (.hostAccessFault .mailbox addr refused) s = .next (if s.dev.thimble.busy then
      MboxResult.deliver { state := s.onDev (fun d => d.hostFault refused addr {}), code := 0x0801 } 0 else s) :=
    congrArg Host.Outcome.next (if_neg (accessFault_takes hrails hlink))
  exact ⟨fun h => htakes.trans (congrArg Host.Outcome.next (if_neg (by rw [h]; exact Bool.false_ne_true))),
    fun h => htakes.trans (congrArg Host.Outcome.next (if_pos h))⟩

theorem admissionRecordFault_exec :
    (s.dev.readsRecord = false → exec (.hostAccessFault .admissionRecord addr refused) s = .next s) ∧
      (s.dev.readsRecord = true → exec (.hostAccessFault .admissionRecord addr refused) s =
        .next { s with dev := (s.dev.hostFault refused addr {}).takeCommand 1 false }) := by
  have htakes : exec (.hostAccessFault .admissionRecord addr refused) s = .next (if s.dev.readsRecord then
      s.onDev (fun d => (d.hostFault refused addr {}).takeCommand 1 false) else s) :=
    congrArg Host.Outcome.next (if_neg (accessFault_takes hrails hlink))
  exact ⟨fun h => htakes.trans (congrArg Host.Outcome.next (if_neg (by rw [h]; exact Bool.false_ne_true))),
    fun h => htakes.trans (congrArg Host.Outcome.next (if_pos h))⟩

theorem operandFault_exec (c : Code) (n : RingId) : exec (.hostAccessFault (.operand c n) addr refused) s =
    .next { s with dev := s.dev.operandFault c n refused addr } :=
  congrArg Host.Outcome.next (if_neg (accessFault_takes hrails hlink))

theorem fetchFault_exec (c : Code) (n : RingId) : exec (.hostAccessFault (.fetch c n) addr refused) s =
    .next { s with dev := s.dev.fetchFault c n refused addr } :=
  congrArg Host.Outcome.next (if_neg (accessFault_takes hrails hlink))

theorem completionFault_exec (c : Code) (n : RingId) : exec (.hostAccessFault (.completion c n) addr refused) s =
    .next { s with dev := s.dev.completionFault c n refused addr false } :=
  congrArg Host.Outcome.next (if_neg (accessFault_takes hrails hlink))

theorem eventLineFault_exec (c : Code) (n : RingId) : exec (.hostAccessFault (.eventLine c n) addr refused) s =
    .next { s with dev := s.dev.completionFault c n refused addr true } :=
  congrArg Host.Outcome.next (if_neg (accessFault_takes hrails hlink))

theorem doorbellFault_exec (c : Code) (n : RingId) : exec (.hostAccessFault (.doorbell c n) addr refused) s =
    .next { s with dev := s.dev.doorbellFault c n refused addr } :=
  congrArg Host.Outcome.next (if_neg (accessFault_takes hrails hlink))

theorem counterFault_exec (c : Code) (n : Fin 64) : exec (.hostAccessFault (.hostCounter c n) addr refused) s =
    .next { s with dev := s.dev.counterFault' c n.val refused addr } :=
  congrArg Host.Outcome.next (if_neg (accessFault_takes hrails hlink))

end

/-! ### HOST_FAULT_CLEAR (R809) -/

theorem request_fault (h : HostLink) (write relaxed : Bool) (a n : Nat) : (h.request write relaxed a n).fault = h.fault := by
  have htranslate : (h.translate a n).fault = h.fault := by
    unfold HostLink.translate
    split <;> rfl
  exact htranslate

theorem hostPut_fault (d : Device) (relaxed : Bool) (a : Nat) (bs : List Byte) : (d.hostPut relaxed a bs).host.fault = d.host.fault := by
  unfold Device.hostPut
  split
  · exact (request_fault _ true relaxed a bs.length).trans (congrArg HostLink.fault (countHub_host d _ _))
  · rfl
  · rfl

theorem sendMsg_fault (d : Device) (v : Fin 11) : (d.sendMsg v).host.fault = d.host.fault := by
  unfold Device.sendMsg
  split <;> rfl

theorem hostFetch_fault (d : Device) (a n : Nat) : (d.hostFetch a n).1.host.fault = d.host.fault :=
  (request_fault _ false false a n).trans (congrArg HostLink.fault (countHub_host d _ _))

theorem admissionDone_fault (d : Device) (status : Code) (tag : Nat) : (d.admissionDone status tag).host.fault = d.host.fault :=
  (sendMsg_fault _ 1).trans (hostPut_fault d false _ _)

theorem readAdmissionDb_fault (d : Device) : d.readAdmissionDb.host.fault = d.host.fault := by
  have hfetch := hostFetch_fault d d.admissionDb 4
  unfold Device.readAdmissionDb
  split
  · rfl
  dsimp only
  split
  · exact (admissionDone_fault _ _ _).trans hfetch
  · exact hfetch

theorem readErrHead_fault (d : Device) : d.readErrHead.host.fault = d.host.fault := by
  have hfetch := hostFetch_fault d (fieldOf d.regs.errHeadLine 63 6 * 64) 4
  unfold Device.readErrHead
  split
  · rfl
  · exact hfetch

theorem readDumpHead_fault (d : Device) : d.readDumpHead.host.fault = d.host.fault := by
  have hfetch := hostFetch_fault d (fieldOf d.regs.dumpHeadLine 63 6 * 64) 4
  unfold Device.readDumpHead
  split
  · rfl
  · exact hfetch

/-- A refused request stops no area. -/
theorem deliver_refused_fault {r : MboxResult} (h : r.code ≠ 0) (addr : Nat) : (r.deliver addr).dev.host.fault = r.state.dev.host.fault := by
  have hempty : r.response = [] := if_neg h
  have hanswered : r.answered addr = r.state.dev := if_pos (by rw [hempty]; rfl)
  have hdeliver := deliver_eq r addr
  rw [hanswered] at hdeliver
  rw [hdeliver]
  exact sendMsg_fault _ 2

/-- The bits written as 1 are clear. -/
theorem hostFaultClear_fault (d : Device) (v : BitVec 32) :
    ∀ b < 5, (d.hostFaultClear (v.setWidth 64)).host.fault.getLsbD b = (d.host.fault.getLsbD b && !v.getLsbD b) := by
  intro b hb
  have hclear : (d.host.fault &&& ~~~((v.setWidth 64).setWidth 5 : BitVec 5)).getLsbD b = (d.host.fault.getLsbD b && !v.getLsbD b) := by
    simp [hb]
  unfold Device.hostFaultClear
  dsimp only
  split
  · rw [readDumpHead_fault, readErrHead_fault, readAdmissionDb_fault]
    exact hclear
  · exact hclear

theorem hostFaultClear_unheld {d : Device} (h : d.heldMode = false) (v : BitVec 64) :
    d.hostFaultClear v = { d with host := { d.host with fault := d.host.fault &&& ~~~(v.setWidth 5) } } :=
  if_neg (fun hheld => Bool.false_ne_true (h.symm.trans hheld))

end Sys2Proof.Machine
end

section
/-! The host's requests and the failures of host accesses, together (R799 to R820). -/

namespace Sys2Proof.Machine

/-- Settles O57: each request takes the branch that its conditions name; a failure counts and is recorded, and has the
effect of its place. -/
theorem hostRequestsAndFaults : Obligations.HostRequestsAndFaults := by
  intro s offset v base size ways lock addr len obj refused use hrails d h k o gone host
  obtain ⟨-, -, hcounted, hfaultKept⟩ := countedFault_fields h refused
  have hcountersKept : (h.countedFault refused).counterFaults = h.counterFaults := by rw [hcounted]
  refine ⟨fun hlink => unlinked_rows hrails hlink offset v base size ways lock addr len obj refused use, fun hlink => ?_, ?_⟩
  · refine ⟨?early, ?read, ?unbooted, ?outside, ?again, ?stored, ?commits, ?decommits, ?keeps, ?unheld, ?invalidates, ?doe, ?areas, ?table, ?mailbox,
      ?operand, ?fetch, ?completion, ?record, ?doorbell, ?counter⟩
    case early => exact fun ho hboot w => exec_run (c := .configRequest offset w) (f := fun d => d.configRequest offset w) rfl hrails (configRequest_early hlink ho hboot w)
    case read => exact fun ho hboot => exec_run (c := .configRequest offset none) (f := fun d => d.configRequest offset none) rfl hrails (configRequest_read hlink ho hboot)
    case unbooted =>
      exact fun hboot => ⟨exec_run (f := fun d => d.hdmCommit true base size ways lock) rfl hrails (hdmCommit_keeps hlink (.inl hboot)),
        exec_run (f := fun d => d.hdmCommit false base size ways lock) rfl hrails (hdmCommit_keeps hlink (.inl hboot)),
        exec_run (f := fun d => d.doeRequest obj) rfl hrails (doeRequest_early hboot obj)⟩
    case outside => exact fun ho w => exec_run (f := fun d => d.configRequest offset w) rfl hrails (configRequest_outside ho w)
    case again =>
      intro ho hboot hheld _
      refine exec_run (f := fun d => d.configRequest offset (some v)) rfl hrails ?_
      rw [configRequest_write hlink ho hboot v, configTaken_again hheld]
    case stored =>
      intro ho hboot hheld
      have hwrite := configRequest_write hlink ho hboot v
      rw [configTaken_stored hheld] at hwrite
      refine ⟨_, exec_run (f := fun d => d.configRequest offset (some v)) rfl hrails hwrite, rfl, ?_, ?_, rfl, rfl, rfl⟩
      · exact configured_stored h o v
      · exact fun q hq => configured_other h hq v
    case commits => exact fun hboot hfree => exec_run (f := fun d => d.hdmCommit true base size ways lock) rfl hrails (hdmCommit_commits hlink hboot hfree)
    case decommits => exact fun hboot hfree => exec_run (f := fun d => d.hdmCommit false base size ways lock) rfl hrails (hdmCommit_decommits hlink hboot hfree)
    case keeps =>
      exact fun hcommitted => ⟨exec_run (f := fun d => d.hdmCommit true base size ways lock) rfl hrails (hdmCommit_keeps hlink (.inr ⟨hcommitted, .inr rfl⟩)),
        fun hlocked => exec_run (f := fun d => d.hdmCommit false base size ways lock) rfl hrails (hdmCommit_keeps hlink (.inr ⟨hcommitted, .inl hlocked⟩))⟩
    case unheld => exact fun hgone => exec_run (f := fun d => d.atsInvalidate addr len) rfl hrails (atsInvalidate_unheld hlink hgone)
    case invalidates => exact exec_run (f := fun d => d.atsInvalidate addr len) rfl hrails (atsInvalidate_linked hlink addr len)
    case doe =>
      refine fun hboot => ⟨?_, ?_, ?_⟩
      · rintro m opens rfl
        exact exec_run (f := fun d => d.doeRequest (.spdm m opens)) rfl hrails (doeRequest_spdm hlink hboot m opens)
      · rintro e rfl
        exact exec_run (f := fun d => d.doeRequest (.cdat e)) rfl hrails (doeRequest_plain hlink hboot (fun _ _ => DoeObject.noConfusion))
      · rintro n hobj
        refine exec_run (f := fun d => d.doeRequest obj) rfl hrails (doeRequest_plain hlink hboot (fun m opens hspdm => ?_))
        rcases hobj with hobj | hobj
        · exact DoeObject.noConfusion (hspdm.symm.trans hobj)
        · exact DoeObject.noConfusion (hspdm.symm.trans hobj)
    case areas =>
      intro bit used huse
      have hexec := areaFault_exec hrails hlink addr refused huse
      refine ⟨fun hoff => ?_, fun hused hon => ?_⟩
      · rw [areaFault_ignored hoff] at hexec
        exact hexec
      · rw [hused, areaFault_stops hon] at hexec
        obtain ⟨hframe, hleft⟩ := hostFault_stopArea d bit refused addr
        exact ⟨_, hexec, by rw [← hframe], hleft⟩
    case table =>
      rintro p rfl
      obtain ⟨hidle, hbusy⟩ := retireTableFault_exec hrails hlink addr refused p
      exact ⟨hidle, fun hload => ⟨_, hbusy hload, retireTableFault_leaves d refused addr p⟩⟩
    case mailbox =>
      rintro rfl
      obtain ⟨hidle, hbusy⟩ := mailboxFault_exec hrails hlink addr refused
      refine ⟨hidle, fun hload => ⟨_, hbusy hload, ?_⟩⟩
      have hcode : (0x0801 : Code) ≠ 0 := by decide
      obtain ⟨hthimble, -⟩ := deliver_refused (r := { state := s.onDev (fun d => d.hostFault refused addr {}), code := 0x0801 }) hcode 0
      have hfault := deliver_refused_fault (r := { state := s.onDev (fun d => d.hostFault refused addr {}), code := 0x0801 }) hcode 0
      refine ⟨by rw [hthimble], by rw [hthimble], by rw [hthimble], hfault.trans ?_⟩
      exact (congrArg HostLink.fault (hostFault_host d refused addr {})).trans hfaultKept
    case operand =>
      rintro c n rfl
      have hexec := operandFault_exec hrails hlink addr refused c n
      refine ⟨fun hidle => ?_, fun x hrun => ?_⟩
      · rw [operandFault_idle hidle] at hexec
        exact hexec
      · rw [operandFault_running hrun] at hexec
        exact ⟨_, (hostFaultNeeded_told d refused addr (blameDesc c n x.seq)).1, hexec⟩
    case fetch =>
      rintro c n r rfl hr
      have hexec := fetchFault_exec hrails hlink addr refused c n
      refine ⟨fun hidle => ?_, fun hfetch => ?_⟩
      · rw [fetchFault_unfetchable hr hidle] at hexec
        exact hexec
      · obtain ⟨x, hring, hseq, hphase, hticket⟩ := fetchFault_ring hr hfetch refused addr
        exact ⟨_, hexec, rfl, _, x, hring, rfl, rfl, hseq, hphase, hticket⟩
    case completion =>
      intro c n huse
      rcases huse with rfl | rfl
      · have hexec := completionFault_exec hrails hlink addr refused c n
        refine ⟨fun hnone => ?_, fun x status hx => ⟨fun hline => HostUse.noConfusion hline, fun _ => ?_⟩⟩
        · rw [completionFault_none hnone] at hexec
          exact hexec
        · rw [completionFault_fails hx refused addr (line := false) (fun hfalse => Bool.noConfusion hfalse)] at hexec
          exact ⟨_, hostFault_told d refused addr (blameDesc c n x.seq), hexec⟩
      · have hexec := eventLineFault_exec hrails hlink addr refused c n
        refine ⟨fun hnone => ?_, fun x status hx => ⟨fun _ hquiet => ?_, fun hsignal => ?_⟩⟩
        · rw [completionFault_none hnone] at hexec
          exact hexec
        · rw [completionFault_unsignalled hx refused addr hquiet] at hexec
          exact hexec
        · have hsignals : (x.signalEn && signals status) = true := hsignal.resolve_left (fun hrecord => HostUse.noConfusion hrecord)
          rw [completionFault_fails hx refused addr (fun _ => hsignals)] at hexec
          exact ⟨_, hostFault_told d refused addr (blameDesc c n x.seq), by rw [hexec, if_pos rfl, if_pos rfl]⟩
    case record =>
      rintro rfl
      obtain ⟨hnone, hreads⟩ := admissionRecordFault_exec hrails hlink addr refused
      exact ⟨hnone, fun h => ⟨_, hostFault_told d refused addr {}, hreads h⟩⟩
    case doorbell =>
      rintro c n rfl
      have hexec := doorbellFault_exec hrails hlink addr refused c n
      refine ⟨fun hnone => ?_, fun r hr => ⟨fun hagain => ?_, fun hfirst => ?_⟩⟩
      · rw [doorbellFault_noRing hnone] at hexec
        exact hexec
      · rw [doorbellFault_again hr hagain] at hexec
        exact hexec
      · rw [doorbellFault_first hr hfirst] at hexec
        exact ⟨_, hostFault_told d refused addr (blameDesc c n r.next), hexec⟩
    case counter =>
      rintro c n rfl
      have hexec := counterFault_exec hrails hlink addr refused c n
      refine ⟨fun hunwaited => ?_, fun hwaited => ⟨fun hagain => ?_, fun hfirst => ?_⟩⟩
      · rw [counterFault_unwaited hunwaited] at hexec
        exact hexec
      · rw [counterFault_again hwaited refused addr hagain] at hexec
        exact hexec
      · rw [counterFault_first hwaited refused addr hfirst] at hexec
        have hcounters : (d.hostFault refused addr { ctx := c }).host.counterFaults = h.counterFaults :=
          (congrArg HostLink.counterFaults (hostFault_host d refused addr { ctx := c })).trans hcountersKept
        refine ⟨_, hostFault_told d refused addr { ctx := c }, ?_⟩
        rw [hexec, ← hcounters]
        rfl
  · refine ⟨_, exec_run (f := fun d => d.hostFaultClear (v.setWidth 64)) rfl hrails rfl, rfl, hostFaultClear_fault d v, fun hheld => ?_⟩
    have hclear := hostFaultClear_unheld hheld (v.setWidth 64)
    dsimp only
    rw [hclear]

end Sys2Proof.Machine
end

section
/-! Words that the debugger reads and writes (R862 to R866). -/

namespace Sys2Proof.Machine

/-! ### Refusals of a word's request (R861 to R863) -/

/-- The request on a word is permitted: the debugger is unlocked, or the word is one of those that a locked one needs (R863). -/
def Device.WordPermitted (d : Device) (space : BitVec 4) (a : Nat) (write : Option (BitVec 32)) : Prop :=
  d.thimble.scopes.getLsbD 0 = true ∨ space = 4 ∧ (if write.isSome then a < 4800 else 0x1400 ≤ a ∧ a < 0x1420)

theorem lockedOk_iff (space : BitVec 4) (a : Nat) (write : Bool) :
    dapLockedOk space.toNat a write = true ↔ space = 4 ∧ (if write then a < 4800 else 0x1400 ≤ a ∧ a < 0x1420) := by
  have hspace : space.toNat = 4 ↔ space = 4 := BitVec.toNat_inj (y := (4 : BitVec 4))
  cases write <;> simp [dapLockedOk, hspace]

theorem wordPermitted_iff (d : Device) (space : BitVec 4) (a : Nat) (write : Option (BitVec 32)) :
    (!d.dapOpen && !dapLockedOk space.toNat a write.isSome) = true ↔ ¬ d.WordPermitted space a write := by
  unfold Device.WordPermitted Device.dapOpen
  rw [← lockedOk_iff space a write.isSome, Bool.and_eq_true, Bool.not_eq_true', Bool.not_eq_true', not_or, Bool.not_eq_true, Bool.not_eq_true]

section
variable {s : State} (op : Nat) (space : BitVec 4) (addr : BitVec 48) (write : Option (BitVec 32)) (inc : Bool)

/-- The address that a request leaves: the increment forms go on by four. -/
def nextWord (inc : Bool) (addr : BitVec 48) : BitVec 48 := if inc then addr + 4 else addr

theorem dapWord_ignored (h : ¬ (s.dev.bodkin.ir = 0x10 ∧ s.dev.bodkin.waiting = none)) : s.dapWord op space addr write inc = s :=
  if_pos ((dapTaken_iff _).2 h)

variable (h : s.dev.bodkin.ir = 0x10 ∧ s.dev.bodkin.waiting = none)
include h

theorem dapWord_locked (hlocked : ¬ s.dev.WordPermitted space addr.toNat write) :
    s.dapWord op space addr write inc = s.dapAnswered op 1 (nextWord inc addr) 0 :=
  (if_neg (fun ht => (dapTaken_iff _).1 ht h)).trans (if_pos ((wordPermitted_iff ..).2 hlocked))

variable (hopen : s.dev.WordPermitted space addr.toNat write)
include hopen

theorem dapWord_invalid (hinvalid : 5 ≤ space.toNat ∨ addr.toNat % 4 ≠ 0) :
    s.dapWord op space addr write inc = s.dapAnswered op 5 (nextWord inc addr) 0 := by
  refine (if_neg (fun ht => (dapTaken_iff _).1 ht h)).trans ((if_neg (fun hl => (wordPermitted_iff ..).1 hl hopen)).trans (if_pos ?_))
  rw [Bool.or_eq_true, decide_eq_true_eq, bne_iff_ne]
  exact hinvalid

theorem dapWord_accesses (hspace : space.toNat < 5) (halign : addr.toNat % 4 = 0) {r : DapResult}
    (hr : s.dapAccess space.toNat addr.toNat (dapPanel addr) write = r) :
    s.dapWord op space addr write inc = r.1.dapAnswered op r.2.1 (nextWord inc addr) r.2.2 := by
  subst hr
  refine (if_neg (fun ht => (dapTaken_iff _).1 ht h)).trans ((if_neg (fun hl => (wordPermitted_iff ..).1 hl hopen)).trans (if_neg ?_))
  rw [Bool.or_eq_true, decide_eq_true_eq, bne_iff_ne]
  omega

end

/-! ### Registers (R864, R866) -/

theorem dapAccess_beyondRegs (s : State) {a : Nat} (h : 2 ^ 26 ≤ a) (p : PanelId) (write : Option (BitVec 32)) :
    s.dapAccess 0 a p write = (s, 2, 0) := if_pos h

theorem dapAccess_regRead (s : State) {a : Nat} (h : a < 2 ^ 26) (p : PanelId) :
    s.dapAccess 0 a p none = ((s.read32 a).1, 0, (s.read32 a).2) := if_neg (Nat.not_le.2 h)

theorem dapAccess_regWrite (s : State) {a : Nat} (h : a < 2 ^ 26) (p : PanelId) (v : BitVec 32) :
    s.dapAccess 0 a p (some v) = (s.dapRegWrite a v, 0, 0) := if_neg (Nat.not_le.2 h)

theorem dapRegWrite_plain (s : State) {a : Nat} (h : a ≠ 0x50000) (v : BitVec 32) : s.dapRegWrite a v = s.write32 a v := by
  refine if_neg (fun hoff => ?_)
  simp only [Bool.and_eq_true, decide_eq_true_eq] at hoff
  exact h hoff.1.1.1

/-- A write of GUARD_CTL changes no scope of the debugger. -/
theorem write32_guard_scopes (s : State) (v : BitVec 32) : (s.write32 0x50000 v).dev.thimble = s.dev.thimble := by
  have hplace : regPlace 0x50000 = .hub 5 0 := if_pos (by decide)
  have hwrite : s.write32 0x50000 v = s.regWrite 0x50000 (v.setWidth 64) 0xFFFFFFFF := if_pos (by decide)
  rw [hwrite]
  unfold State.regWrite
  rw [hplace]
  rfl

/-- With scope GUARANTEE_OFF, 0 turns guarantee mode off (R866). -/
theorem dapRegWrite_guarantee (s : State) {v : BitVec 32} (hv : v.getLsbD 0 = false) (hscope : s.dev.thimble.scopes.getLsbD 1 = true) :
    (s.dapRegWrite 0x50000 v).dev.guarantee = false := by
  have hthimble := write32_guard_scopes s v
  unfold State.dapRegWrite
  generalize s.write32 0x50000 v = t at hthimble ⊢
  dsimp only
  cases hg : t.dev.guarantee with
  | false => rw [if_neg (by rw [Bool.and_false]; exact Bool.false_ne_true)]; exact hg
  | true =>
    have hoff : (decide (0x50000 = 0x50000) && !v.getLsbD 0 && t.dev.thimble.scopes.getLsbD 1 && true) = true := by
      rw [hv, hthimble, hscope]
      rfl
    rw [if_pos hoff]
    unfold State.onDev
    dsimp only
    generalize he : ((t.dev.updRegs (fun r => { r with guardCtl := setBit r.guardCtl 0 false })).updThimble (fun t => { t with fromBoot := false })) = e
    obtain ⟨err, hguard⟩ := updateGuard_eq e
    rw [hguard, ← he]
    exact (bitOf_setBit _ 0 0 false (by decide)).trans (if_pos rfl)

/-! ### Module memory (R864) -/

/-- A word lies within one page. -/
theorem cutAt_word {a : Nat} (h : a % 4 = 0) : cutAt 65536 a 4 = [(a, 4)] := by
  have hcount : (a + 4 - 1) / 65536 - a / 65536 + 1 = 1 := by omega
  have hlo : max a ((a / 65536 + 0) * 65536) = a := by omega
  have hhi : min (a + 4) ((a / 65536 + 0 + 1) * 65536) = a + 4 := by omega
  have hmap : cutAt 65536 a 4 = (List.range ((a + 4 - 1) / 65536 - a / 65536 + 1)).map (fun i =>
      (max a ((a / 65536 + i) * 65536), min (a + 4) ((a / 65536 + i + 1) * 65536) - max a ((a / 65536 + i) * 65536))) := rfl
  rw [hmap, hcount, List.range_one, List.map_singleton, hlo, hhi]
  exact congrArg (fun n => [(a, n)]) (by omega)

theorem mergeReads_mem (d : Device) (mpa n : Nat) (b : Blame) : (d.mergeReads mpa n b).1.mem = d.mem :=
  foldl_enqueue (fun d => d.mem) (fun d _ => (mem_blind.raise _ _).trans (mem_blind.latchUe d _)) _ d

theorem writeUnit_mem (d : Device) (mpa n u : Nat) (bad : List Nat) (h : Hint) (c : ColourClass) (r : Requester) :
    (d.writeUnit mpa n u bad h c r).mem = d.mem := by
  unfold Device.writeUnit
  dsimp only
  split
  · exact (mem_blind.stackWritten _ _ _).trans (mem_blind.stackAccess _ _ _ _ _ _)
  · exact mem_blind.allocLine d _

/-- A word stored at a page that is in use. -/
theorem storeMpa_word {d : Device} {a : Nat} (halign : a % 4 = 0) (hpage : (d.panel (panelOf a)).retires (ppaOf a) = false)
    {bs : List Byte} (hbs : bs.length = 4) (h : Hint) (c : ColourClass) (r : Requester) (b : Blame) :
    (d.storeMpa a bs h c r b).mem = memWrite d.mem a bs := by
  have htake : (bs.drop (a - a)).take 4 = bs := by rw [Nat.sub_self, List.drop_zero, ← hbs, List.take_length]
  unfold Device.storeMpa
  rw [hbs, cutAt_word halign, List.foldl_cons, List.foldl_nil]
  dsimp only
  rw [hpage, if_neg Bool.false_ne_true]
  refine (foldl_enqueue (fun d => d.mem) (fun d u => writeUnit_mem d a 4 u _ h c r) _ _).trans ?_
  have hbefore := (mergeReads_mem (d.yokeFlits (panelOf a) (accessesOf a 4).length true c r) a 4 b).trans (mem_blind.yokeFlits d _ _ _ _ _)
  dsimp only
  rw [htake, hbefore]

theorem dapMemory_beyond (s : State) {a : Nat} (h : mpaEnd ≤ a) (write : Option (BitVec 32)) : s.dapMemory a write = (s, 2, 0) := if_pos h

section
variable {s : State} {a : Nat} (ha : a < mpaEnd)
include ha

theorem dapMemory_fenced (hfenced : (s.dev.panel (panelOf a)).fenced = true) (write : Option (BitVec 32)) : s.dapMemory a write = (s, 4, 0) :=
  (if_neg (Nat.not_le.2 ha)).trans (if_pos hfenced)

variable (hfenced : (s.dev.panel (panelOf a)).fenced = false)
include hfenced

theorem dapMemory_retired (hpage : (s.dev.panel (panelOf a)).retires (ppaOf a) = true) (write : Option (BitVec 32)) : s.dapMemory a write = (s, 2, 0) :=
  (if_neg (Nat.not_le.2 ha)).trans ((if_neg (by rw [hfenced]; exact Bool.false_ne_true)).trans (if_pos hpage))

variable (hpage : (s.dev.panel (panelOf a)).retires (ppaOf a) = false)
include hpage

theorem dapMemory_reads : ∃ e, s.dapMemory a none = ({ s with dev := e }, if s.dev.badIn a 4 then 3 else 0, bytesWord (memRead s.dev.mem a 4)) ∧
    e.mem = s.dev.mem := by
  have hmem := mem_blind.loadMpa s.dev a 4 .stream (fun _ => false) .indigo .nobody {}
  exact ⟨_, (if_neg (Nat.not_le.2 ha)).trans ((if_neg (by rw [hfenced]; exact Bool.false_ne_true)).trans (if_neg (by rw [hpage]; exact Bool.false_ne_true))), hmem⟩

theorem dapMemory_writes (halign : a % 4 = 0) (v : BitVec 32) : ∃ e, s.dapMemory a (some v) = ({ s with dev := e }, 0, 0) ∧
    e.mem = memWrite s.dev.mem a (leBytes 4 v.toNat) := by
  have hmem := storeMpa_word halign hpage (bs := wordBytes v) (leBytes_length 4 v.toNat) .stream .indigo .nobody {}
  exact ⟨_, (if_neg (Nat.not_le.2 ha)).trans ((if_neg (by rw [hfenced]; exact Bool.false_ne_true)).trans (if_neg (by rw [hpage]; exact Bool.false_ne_true))), hmem⟩

end

/-! ### Host memory (R806, R864) -/

theorem dapHost_down {s : State} (h : s.dev.host.link ≠ .l0) (a : Nat) (write : Option (BitVec 32)) : s.dapHost a write = (s, 2, 0) := by
  refine if_pos ?_
  rw [Bool.not_eq_true']
  exact Bool.eq_false_iff.2 (fun hup => h (hostUp_iff.1 hup))

section
variable {s : State} (h : s.dev.host.link = .l0) (a : Nat)
include h

theorem dapHost_reads : ∃ e, s.dapHost a none = ({ s with dev := e }, 0, bytesWord (memRead s.dev.hostMem a 4)) ∧ e.hostMem = s.dev.hostMem :=
  ⟨_, if_neg (by rw [hostUp_iff.2 h]; exact Bool.false_ne_true), hostFetch_hostMem s.dev a 4⟩

theorem dapHost_writes (v : BitVec 32) : ∃ e, s.dapHost a (some v) = ({ s with dev := e }, 0, 0) ∧
    e.hostMem = memWrite s.dev.hostMem a (leBytes 4 v.toNat) := by
  obtain ⟨k, ts, req, hput⟩ := hostPut_goes h false a (wordBytes v)
  refine ⟨_, if_neg (by rw [hostUp_iff.2 h]; exact Bool.false_ne_true), ?_⟩
  dsimp only
  unfold Device.hostWrite
  rw [hput]
  rfl

end

/-! ### A sequencer's memory and debug registers (R867 to R872) -/

/-- What a request leaves of the device at a sequencer address: of a panel its debug state alone, and no byte of memory. -/
theorem updDebug_dbg (d : Device) (p : PanelId) (f : SeqDebug → SeqDebug) : ((d.updDebug p f).panel p).dbg = f (d.panel p).dbg :=
  congrArg Panel.dbg (updPanel_panel d p _)

section
variable (d : Device) (p : PanelId)

theorem seqRead_memory {m : Nat} (h : m < 0xFF0000) : ∃ e v, d.seqRead p m = (e, 0, v) ∧ e.mem = d.mem := by
  unfold Device.seqRead
  dsimp only
  rw [if_pos h]
  cases (d.panel p).dbg.mem.find? (fun w => w.1 = m) with
  | none => exact ⟨_, _, rfl, rfl⟩
  | some w => exact ⟨_, _, rfl, rfl⟩

theorem seqRead_state {m : Nat} (hm : m = 0xFF0000) :
    d.seqRead p m = (d, 0, BitVec.ofNat 32 ((d.panel p).dbg.index * 16 + (d.panel p).dbg.cause * 2 + if (d.panel p).dbg.halted then 1 else 0)) := by
  subst hm
  rfl

theorem seqRead_pc {m : Nat} (hm : m = 0xFF0008) (h : (d.panel p).dbg.halted = true) : d.seqRead p m = (d, 0, (d.panel p).dbg.pc) := by
  subst hm
  unfold Device.seqRead
  dsimp only
  rw [if_neg (by decide), if_neg (by decide), if_pos rfl, if_pos h]

theorem breakpoint_place {m : Nat} {n : Fin 8} (hm : m = 0xFF0100 + 8 * n.val) : ¬ m < 0xFF0000 ∧ ¬ m = 0xFF0000 ∧ ¬ m = 0xFF0008 ∧
    (decide (0xFF0100 ≤ m) && decide (m < 0xFF0140) && decide (m % 8 = 0)) = true ∧ (m - 0xFF0100) / 8 = n.val := by
  simp only [Bool.and_eq_true, decide_eq_true_eq]
  omega

theorem seqRead_breakpoint {m : Nat} {n : Fin 8} (hm : m = 0xFF0100 + 8 * n.val) : d.seqRead p m = (d, 0, (d.panel p).dbg.bps[n.val]) := by
  obtain ⟨hmem, hstate, hpc, hbp, hn⟩ := breakpoint_place hm
  unfold Device.seqRead
  dsimp only
  rw [if_neg hmem, if_neg hstate, if_neg hpc, if_pos hbp, hn]
  refine congrArg (fun v => (d, 0, v)) ?_
  simp

theorem seqWrite_memory {m : Nat} (h : m < 0xFF0000) (v : BitVec 32) : ∃ e, d.seqWrite p m v = (e, 0) ∧ e.mem = d.mem := by
  unfold Device.seqWrite
  dsimp only
  rw [if_pos h]
  refine ⟨_, rfl, ?_⟩
  split <;> rfl

theorem seqWrite_pc {m : Nat} (hm : m = 0xFF0008) (h : (d.panel p).dbg.halted = true) (v : BitVec 32) :
    d.seqWrite p m v = (d.updDebug p (fun g => { g with pc := v }), 0) := by
  subst hm
  unfold Device.seqWrite
  dsimp only
  rw [if_neg (by decide), if_neg (by decide), if_pos rfl, if_pos h]

/-- The device with a breakpoint register written. -/
def Device.breakpointSet (d : Device) (p : PanelId) (v : BitVec 32) (n : Fin 8) : Device :=
  d.updDebug p (fun g => { g with bps := g.bps.set n.val (v &&& 0xFFFFFFFD) n.isLt })

theorem breakpointSet_dbg (v : BitVec 32) (n : Fin 8) :
    ((d.breakpointSet p v n).panel p).dbg = { (d.panel p).dbg with bps := (d.panel p).dbg.bps.set n.val (v &&& 0xFFFFFFFD) n.isLt } :=
  updDebug_dbg d p _

theorem seqWrite_breakpoint {m : Nat} {n : Fin 8} (hm : m = 0xFF0100 + 8 * n.val) (v : BitVec 32) : d.seqWrite p m v =
    (d.breakpointSet p v n, 0) := by
  obtain ⟨hmem, hstate, hpc, hbp, hn⟩ := breakpoint_place hm
  have hfin : Fin.ofNat 8 ((m - 0xFF0100) / 8) = n := Fin.ext (by rw [hn]; exact Nat.mod_eq_of_lt n.isLt)
  unfold Device.seqWrite
  dsimp only
  rw [if_neg hmem, if_neg hstate, if_neg hpc, if_pos hbp]
  exact congrArg (fun n => (d.breakpointSet p v n, 0)) hfin

end

/-! ### The token buffer (R862, R865) -/

theorem dapAccess_tokenRead (s : State) {a : Nat} (h : a < 4800 ∨ 0x1400 ≤ a ∧ a < 0x1420) (p : PanelId) :
    s.dapAccess 4 a p none = (s, 0, bytesWord (memRead s.dev.bodkin.token a 4)) :=
  if_pos (by simpa using h)

theorem dapAccess_tokenBeyond (s : State) {a : Nat} (h : ¬ (a < 4800 ∨ 0x1400 ≤ a ∧ a < 0x1420)) (p : PanelId) : s.dapAccess 4 a p none = (s, 2, 0) :=
  if_neg (by simpa using h)

theorem dapAccess_tokenWrite (s : State) {a : Nat} (h : a < 4800) (p : PanelId) (v : BitVec 32) :
    s.dapAccess 4 a p (some v) = (s.onDev (fun d => d.updBodkin (fun b => { b with token := memWrite b.token a (wordBytes v) })), 0, 0) :=
  if_pos h

theorem dapAccess_tokenFull (s : State) {a : Nat} (h : 4800 ≤ a) (p : PanelId) (v : BitVec 32) : s.dapAccess 4 a p (some v) = (s, 2, 0) :=
  if_neg (Nat.not_lt.2 h)

end Sys2Proof.Machine
end

section
/-! The challenge and the unlock (R787, R788, R865): the end of the confidential contexts leaves the Bodkin port as it is. -/

namespace Sys2Proof.Machine

/-! ### The end of a context's work does not touch the port -/

theorem sendMsg_seen (d : Device) (v : Fin 11) : (d.sendMsg v).resetSeen = d.resetSeen := by
  unfold Device.sendMsg
  split
  · exact resetSeen_blind.hostSide d d.hostMem _ rfl
  · exact resetSeen_blind.hostSide d d.hostMem _ rfl
  · rfl

theorem completionMsg_seen (d : Device) (p : PanelId) (status : Code) : (d.completionMsg p status).resetSeen = d.resetSeen := by
  unfold Device.completionMsg
  dsimp only
  split
  · exact sendMsg_seen d _
  split
  · exact (resetSeen_blind.hostSide _ _ _ rfl).trans (sendMsg_seen d _)
  · exact resetSeen_blind.hostSide d d.hostMem _ rfl

theorem addEc_seen (d : Device) (id : Code) (ec inc : Nat) : (d.addEc id ec inc).resetSeen = d.resetSeen := updCtx_seen d id _

theorem tally_seen (d : Device) (id : Code) (written late : Nat) : (d.tally id written late).resetSeen = d.resetSeen := updCtx_seen d id _

theorem tagComplete_seen (d : Device) (p : PanelId) (r : DescRef) : (d.tagComplete p r).resetSeen = d.resetSeen := resetSeen_blind.panel d p _

theorem hostWrite_seen (d : Device) (a : Nat) (bs : List Byte) : (d.hostWrite a bs).resetSeen = d.resetSeen := resetSeen_blind.hostPut d false a bs

theorem hostWrites_seen (l : List (Nat × List Byte)) (d : Device) :
    (l.foldl (fun (d : Device) w => d.hostWrite w.1 w.2) d).resetSeen = d.resetSeen := by
  induction l generalizing d with
  | nil => rw [List.foldl_nil]
  | cons w l ih =>
    rw [List.foldl_cons]
    exact (ih (d.hostWrite w.1 w.2)).trans (hostWrite_seen d w.1 w.2)

/-- A branch that may be passed over. -/
theorem ite_seen {d e : Device} (c : Prop) [Decidable c] (h : e.resetSeen = d.resetSeen) : (if c then e else d).resetSeen = d.resetSeen := by
  split
  · exact h
  · rfl

theorem completeHead_seen (d : Device) (id : Code) (n : RingId) (signal : Bool) (fault : CompletionFault) :
    (d.completeHead id n signal fault).resetSeen = d.resetSeen := by
  unfold Device.completeHead
  split
  next c r _ _ =>
    split
    next x _ =>
      split
      next status _ =>
        split
        next => rfl
        next err _ =>
          split
          · rfl
          extract_lets sig at_ bytes d₁ line d₂ d₃ ev d₄ d₅ d₆ d₇ d₈ d₉ left
          have h₁ : d₁.resetSeen = d.resetSeen := ite_seen _ (addEc_seen d _ _ _)
          clear_value d₁
          have h₂ : d₂.resetSeen = d₁.resetSeen := by
            dsimp only [d₂]
            split
            · rfl
            · exact hostWrites_seen line d₁
          clear_value d₂
          have h₃ : d₃.resetSeen = d₂.resetSeen := resetSeen_blind.updRing d₂ _ _ _
          clear_value d₃
          have h₄ : d₄.resetSeen = d₃.resetSeen := ite_seen _ (resetSeen_blind.count d₃ _ _ _)
          clear_value d₄
          have h₅ : d₅.resetSeen = d₄.resetSeen := ite_seen _ (resetSeen_blind.count d₄ _ _ _)
          clear_value d₅
          have h₆ : d₆.resetSeen = d₅.resetSeen := ite_seen _ (resetSeen_blind.count d₅ _ _ _)
          clear_value d₆
          have h₇ : d₇.resetSeen = d₆.resetSeen := ite_seen _ (resetSeen_blind.count d₆ _ _ _)
          clear_value d₇
          have h₈ : d₈.resetSeen = d₇.resetSeen := ite_seen _ (resetSeen_blind.panel d₇ _ _)
          clear_value d₈
          have h₉ : d₉.resetSeen = d₈.resetSeen := tally_seen d₈ _ _ _
          clear_value d₉
          have hall : d₉.resetSeen = d.resetSeen := h₉.trans (h₈.trans (h₇.trans (h₆.trans (h₅.trans (h₄.trans (h₃.trans (h₂.trans h₁)))))))
          split
          · exact (completionMsg_seen _ _ _).trans ((tagComplete_seen _ _ _).trans ((hostWrite_seen d₉ _ _).trans hall))
          · exact (resetSeen_blind.updRing d₉ _ _ _).trans hall
      next => rfl
    next => rfl
  next => rfl

theorem dropWork_seen (d : Device) (id : Code) (n : RingId) (r : Ring) : (d.dropWork id n r).resetSeen = d.resetSeen :=
  (updCtx_seen _ id _).trans ((foldl_enqueue Device.resetSeen (fun d x => resetSeen_blind.dropFill d id x) r.queue _).trans (discardRuns_seen d _))

theorem signalEc_seen (d : Device) (id : Code) (ec inc : Nat) : (d.signalEc id ec inc).resetSeen = d.resetSeen :=
  (hostWrite_seen _ _ _).trans (addEc_seen d id ec inc)

theorem pruneRuns_seen (d : Device) : d.pruneRuns.resetSeen = d.resetSeen := fabric_seen d _

theorem flushRing_seen (d : Device) (id : Code) (n : RingId) (tail : Nat) (status : Code) (signals : Bool) (ticket : Option Nat) :
    (d.flushRing id n tail status signals ticket).resetSeen = d.resetSeen := by
  unfold Device.flushRing
  split
  · rfl
  next r _ =>
    extract_lets k take ds d₁ d₂ d₃
    have h₁ : d₁.resetSeen = d.resetSeen := dropWork_seen d id n r
    have h₂ : d₂.resetSeen = d₁.resetSeen := by
      dsimp only [d₂]
      split
      · exact ite_seen _ (signalEc_seen d₁ _ _ _)
      · rfl
    have h₃ : d₃.resetSeen = d₂.resetSeen := resetSeen_blind.updRing d₂ _ _ _
    have hflushed := foldl_enqueue Device.resetSeen (fun (d : Device) (_ : Nat) => (resetSeen_blind.updRing (d.completeHead id n signals .none) id n
      (fun r => { r with halted := false, failed := none })).trans (completeHead_seen d id n signals .none)) (List.range k) d₃
    exact (pruneRuns_seen _).trans (hflushed.trans (h₃.trans (h₂.trans h₁)))

theorem endBy_seen (d : Device) (status : Code) (ticket : Option Nat) (id : Code) : (d.endBy status ticket id).resetSeen = d.resetSeen := by
  refine (endContext_seen _ id).trans (foldl_enqueue Device.resetSeen (fun d n => ?_) (List.finRange 4) d)
  split
  · exact flushRing_seen d id n _ status false ticket
  · rfl

theorem admissionDone_seen (d : Device) (status : Code) (tag : Nat) : (d.admissionDone status tag).resetSeen = d.resetSeen :=
  (sendMsg_seen _ 1).trans (hostWrite_seen d _ _)

theorem endCommand_seen (d : Device) (f : Context → Bool) (status : Code) : (d.endCommand f status).resetSeen = d.resetSeen := by
  unfold Device.endCommand
  split
  · rfl
  · exact ite_seen _ (admissionDone_seen d _ _)

/-! ### CHALLENGE and UNLOCK (R787, R788, R865) -/

/-- Every confidential context ends, and the command in progress for one with it. -/
def Device.confidentialEnded (d : Device) : Device :=
  ((d.endCommand (fun c => c.confidential) 0x0814).contexts.filter (fun c => c.confidential)).foldl (fun d c => d.endBy 0x0814 none c.id)
    (d.endCommand (fun c => c.confidential) 0x0814)

theorem confidentialEnded_bodkin (d : Device) : d.confidentialEnded.bodkin = d.bodkin := by
  have hseen : d.confidentialEnded.resetSeen = d.resetSeen :=
    (foldl_enqueue Device.resetSeen (fun d (c : Context) => endBy_seen d 0x0814 none c.id) _ _).trans (endCommand_seen d _ _)
  exact congrArg (fun x => x.2.2.2) hseen

theorem openDebug_dev (s : State) (token : List Byte) :
    (s.openDebug token).dev = ((s.dev.confidentialEnded.updThimble (fun t => { t with kem := [], debugOpen := true })).measure 3 0x05 (bytesField token 2 2)
      (Config.sha3 token)).updThimble (fun t => { t with scopes := t.scopes ||| BitVec.ofNat 3 (bytesField token 2 2) }) := (rfl)

/-- What an accepted unlock shows: the port as it was, the module open for debug, the fuses with one more unlock. -/
theorem openDebug_shows (s : State) (token : List Byte) :
    (s.openDebug token).dev.bodkin = s.dev.bodkin ∧ (s.openDebug token).dev.thimble.debugOpen = true ∧
      (s.openDebug token).vault = { s.vault with debugCount := min 32 (s.vault.debugCount + 1), debugFull := s.vault.debugFull || decide (s.vault.debugCount = 32) } := by
  have hbodkin := confidentialEnded_bodkin s.dev
  refine ⟨?_, ?_, rfl⟩
  · rw [openDebug_dev]
    generalize s.dev.confidentialEnded = e at hbodkin ⊢
    exact hbodkin
  · rw [openDebug_dev]
    generalize s.dev.confidentialEnded = e
    rfl

end Sys2Proof.Machine
end

section
/-! The requests of the debug access protocol (R861 to R866). -/

namespace Sys2Proof.Machine

/-! ### Thimble takes a challenge or an unlock (R787, R791, R865) -/

/-- Thimble serves and has no other request. -/
def Device.thimbleFree (d : Device) : Prop := d.thimble.serves = true ∧ d.thimble.busy = false

theorem thimbleFree_iff (d : Device) : (!d.thimble.serves || d.thimble.busy) = true ↔ ¬ d.thimbleFree := by
  unfold Device.thimbleFree
  cases d.thimble.serves <;> cases d.thimble.busy <;> decide

/-- The state with a request that waits, or with none. -/
def State.dapWaiting (s : State) (w : Option Nat) : State := { s with dev := { s.dev with bodkin := { s.dev.bodkin with waiting := w } } }

theorem onlyDevice_of_dev {s t : State} {e : Device} (h : t.OnlyDevice { s with dev := e }) : t.OnlyDevice s := by
  have hsame := congrArg (fun u => ({ u with dev := s.dev } : State)) h
  exact hsame

theorem dapThimble_rests {s : State} (h : s.dev.bodkin.waiting = none ∨ ¬ s.dev.thimbleFree) : s.dapThimble = s := by
  unfold State.dapThimble
  split
  · rfl
  next op hw =>
    have hbusy : ¬ s.dev.thimbleFree := h.resolve_left (by rw [hw]; exact Option.some_ne_none op)
    exact if_pos ((thimbleFree_iff _).2 hbusy)

/-- The device once a challenge has completed. -/
def Device.dapChallenged (d : Device) : Device :=
  (d.newChallenge.1.updBodkin (fun b => { b with token := memWrite b.token 0x1400 d.newChallenge.2 })).dapDone 5 0 0 0

theorem dapChallenged_eq (d : Device) : d.dapChallenged = { d with
    thimble := { d.thimble with challenge := some (freeBytes d.fresh 32) }, fresh := d.fresh + 32,
    bodkin := { d.bodkin with token := memWrite d.bodkin.token 0x1400 (freeBytes d.fresh 32), op := 5, status := 0, addr := 0, data := 0 } } := by
  unfold Device.dapChallenged Device.newChallenge
  generalize freeBytes d.fresh 32 = bs
  rfl

theorem dapThimble_challenge {s : State} (hfree : s.dev.thimbleFree) (hw : s.dev.bodkin.waiting = some 5) :
    s.dapThimble = { s with dev := (s.dapWaiting none).dev.dapChallenged } := by
  have htakes : ¬ (!s.dev.thimble.serves || s.dev.thimble.busy) = true := fun hbusy => (thimbleFree_iff _).1 hbusy hfree
  unfold State.dapThimble
  rw [hw]
  dsimp only
  rw [if_neg htakes, if_pos rfl]
  rfl

/-- The challenge is in the buffer, and Thimble holds it. -/
theorem dapThimble_challenged {s : State} (hfree : s.dev.thimbleFree) (hw : s.dev.bodkin.waiting = some 5) :
    s.dapThimble.OnlyDevice s ∧ s.dapThimble.dev.bodkin.waiting = none ∧ s.dapThimble.dev.bodkin.op = 5 ∧ s.dapThimble.dev.bodkin.status = 0 ∧
      s.dapThimble.dev.thimble.challenge = some (freeBytes s.dev.fresh 32) ∧
      s.dapThimble.dev.bodkin.token = memWrite s.dev.bodkin.token 0x1400 (freeBytes s.dev.fresh 32) := by
  rw [dapThimble_challenge hfree hw, dapChallenged_eq]
  unfold State.dapWaiting
  dsimp only
  exact ⟨rfl, rfl, rfl, rfl, rfl, rfl⟩

/-- The state once an unlock has completed with a reason code. -/
def State.unlockAnswered (s : State) (code : Code) : State :=
  s.onDev (fun d => (d.updThimble (fun t => { t with reason := code })).dapDone 6 (if code = 0 then 0 else 6) 0 0)

theorem dapThimble_unlock {s : State} (hfree : s.dev.thimbleFree) (hw : s.dev.bodkin.waiting = some 6) {t : State} {code : Code}
    (h : (s.dapWaiting none).unlock (memRead s.dev.bodkin.token 0 4800) = (t, code)) : s.dapThimble = t.unlockAnswered code := by
  have htakes : ¬ (!s.dev.thimble.serves || s.dev.thimble.busy) = true := fun hbusy => (thimbleFree_iff _).1 hbusy hfree
  have hthimble : s.dapThimble = ((s.dapWaiting none).unlock (memRead s.dev.bodkin.token 0 4800)).1.unlockAnswered
      ((s.dapWaiting none).unlock (memRead s.dev.bodkin.token 0 4800)).2 := by
    unfold State.dapThimble
    rw [hw]
    exact (if_neg htakes).trans (if_neg (by decide))
  rw [hthimble, h]

section
variable {s : State} {token : List Byte}

theorem unlock_unchallenged (h : s.dev.thimble.challenge = none) : s.unlock token = (s, 0x080B) := by
  unfold State.unlock
  rw [h]

/-- The challenge serves once. -/
def State.challengeSpent (s : State) : State := { s with dev := { s.dev with thimble := { s.dev.thimble with challenge := none } } }

theorem unlock_refused {ch : List Byte} (h : s.dev.thimble.challenge = some ch) (hbad : tokenOk token ch = false) :
    s.unlock token = (s.challengeSpent, 0x080A) := by
  unfold State.unlock
  rw [h]
  exact if_neg (by rw [hbad]; exact Bool.false_ne_true)

theorem unlock_accepted {ch : List Byte} (h : s.dev.thimble.challenge = some ch) (hok : tokenOk token ch = true) :
    s.unlock token = (s.challengeSpent.openDebug token, 0) := by
  unfold State.unlock
  rw [h]
  exact if_pos hok

end

/-- An accepted unlock, as the debugger and the fuses show it. -/
theorem unlockAnswered_accepted (s : State) (token : List Byte) :
    let t := ((s.dapWaiting none).challengeSpent.openDebug token).unlockAnswered 0
    t.dev.bodkin.status = 0 ∧ t.dev.bodkin.waiting = none ∧ t.dev.thimble.debugOpen = true ∧ t.dev.thimble.reason = 0 ∧
      t.vault = { s.vault with debugCount := min 32 (s.vault.debugCount + 1), debugFull := s.vault.debugFull || decide (s.vault.debugCount = 32) } := by
  obtain ⟨hbodkin, hopen, hvault⟩ := openDebug_shows (s.dapWaiting none).challengeSpent token
  generalize (s.dapWaiting none).challengeSpent.openDebug token = t at hbodkin hopen hvault ⊢
  exact ⟨rfl, congrArg Bodkin.waiting hbodkin, hopen, rfl, hvault⟩

/-- A refused unlock, as the debugger shows it. -/
theorem unlockAnswered_refused (s : State) {code : Code} (hcode : code ≠ 0) :
    (s.unlockAnswered code).OnlyDevice s ∧ (s.unlockAnswered code).dev.bodkin.status = 6 ∧
      (s.unlockAnswered code).dev.thimble = { s.dev.thimble with reason := code } :=
  ⟨rfl, if_neg hcode, rfl⟩

/-! ### A request is submitted -/

section
variable {s : State} (hrails : s.pins.railsOn = true)
include hrails

theorem dapChallenge_exec : exec .dapChallenge s = .next (s.dapSubmit 5) := powered_on hrails (fun s => s.dapSubmit 5)

theorem dapUnlock_exec : exec .dapUnlock s = .next (s.dapSubmit 6) := powered_on hrails (fun s => s.dapSubmit 6)

theorem dapNop_exec : exec .dapNop s = .next s.dapThimble := powered_on hrails State.dapThimble

end

theorem dapSubmit_ignored {s : State} (h : ¬ (s.dev.bodkin.ir = 0x10 ∧ s.dev.bodkin.waiting = none)) (op : Nat) : s.dapSubmit op = s :=
  if_pos ((dapTaken_iff _).2 h)

theorem dapSubmit_taken {s : State} (h : s.dev.bodkin.ir = 0x10 ∧ s.dev.bodkin.waiting = none) (op : Nat) :
    s.dapSubmit op = (s.dapWaiting (some op)).dapThimble :=
  if_neg (fun ht => (dapTaken_iff _).1 ht h)

end Sys2Proof.Machine
end

section
/-! The requests of the debug access protocol, together (R861 to R866). -/

namespace Sys2Proof.Machine

/-- A row that reads or writes a word, with its number, what it writes and whether its address goes on. -/
def wordRows (space : BitVec 4) (addr : BitVec 48) (data : BitVec 32) : List (Instr × Nat × Option (BitVec 32) × Bool) :=
  [(.dapRead32 space addr, 1, none, false), (.dapWrite32 space addr data, 2, some data, false), (.dapReadInc space addr, 3, none, true), (.dapWriteInc space addr data, 4, some data, true)]

theorem wordRows_exec {s : State} (hrails : s.pins.railsOn = true) {space : BitVec 4} {addr : BitVec 48} {data : BitVec 32}
    {x : Instr × Nat × Option (BitVec 32) × Bool} (hx : x ∈ wordRows space addr data) :
    exec x.1 s = .next (s.dapWord x.2.1 space addr x.2.2.1 x.2.2.2) := by
  simp only [wordRows, List.mem_cons, List.not_mem_nil, or_false] at hx
  rcases hx with rfl | rfl | rfl | rfl
  · exact powered_on hrails (fun s => s.dapWord 1 space addr none false)
  · exact powered_on hrails (fun s => s.dapWord 2 space addr (some data) false)
  · exact powered_on hrails (fun s => s.dapWord 3 space addr none true)
  · exact powered_on hrails (fun s => s.dapWord 4 space addr (some data) true)

/-! ### A word's row, space by space -/

/-- The row makes the access of a space, and completes with what it gives. -/
def State.Accesses (s : State) (row : Instr) (op n a : Nat) (p : PanelId) (write : Option (BitVec 32)) (next : BitVec 48) : Prop :=
  ∀ (t : State) (status : Nat) (w : BitVec 32), s.dapAccess n a p write = (t, status, w) → exec row s = .next (t.dapAnswered op status next w)

section
variable {s : State} {row : Instr} {op a : Nat} {p : PanelId} {write : Option (BitVec 32)} {next : BitVec 48}

theorem State.Accesses.regs (h : s.Accesses row op 0 a p write next) (data : BitVec 32) :
    (2 ^ 26 ≤ a → exec row s = .next (s.dapAnswered op 2 next 0)) ∧
      (a < 2 ^ 26 → (write = none → exec row s = .next ((s.read32 a).1.dapAnswered op 0 next (s.read32 a).2)) ∧
        (write = some data → (a ≠ 0x50000 → exec row s = .next ((s.write32 a data).dapAnswered op 0 next 0)) ∧
          (a = 0x50000 → Completes row s (fun t => t.dev.bodkin.status = 0 ∧ t.dev.bodkin.op = op ∧
            (data.getLsbD 0 = false → s.dev.thimble.scopes.getLsbD 1 = true → t.dev.guarantee = false))))) := by
  refine ⟨fun hbeyond => h _ _ _ (dapAccess_beyondRegs s hbeyond _ _), fun hin => ⟨?_, ?_⟩⟩
  · rintro rfl
    exact h _ _ _ (dapAccess_regRead s hin p)
  · rintro rfl
    have hwrite := dapAccess_regWrite s hin p data
    refine ⟨fun hplain => ?_, ?_⟩
    · rw [dapRegWrite_plain s hplain] at hwrite
      exact h _ _ _ hwrite
    · rintro rfl
      have hoff := dapRegWrite_guarantee s (v := data)
      have hexec := h _ _ _ hwrite
      generalize s.dapRegWrite 0x50000 data = t at hexec hoff
      exact ⟨_, hexec, rfl, rfl, hoff⟩

theorem State.Accesses.memory (h : s.Accesses row op 1 a p write next) (halign : a % 4 = 0) (data : BitVec 32) :
    (mpaEnd ≤ a → exec row s = .next (s.dapAnswered op 2 next 0)) ∧
      (a < mpaEnd → (s.dev.panel (panelOf a)).fenced = true → exec row s = .next (s.dapAnswered op 4 next 0)) ∧
      (a < mpaEnd → (s.dev.panel (panelOf a)).fenced = false → (s.dev.panel (panelOf a)).retires (ppaOf a) = true →
        exec row s = .next (s.dapAnswered op 2 next 0)) ∧
      (a < mpaEnd → (s.dev.panel (panelOf a)).fenced = false → (s.dev.panel (panelOf a)).retires (ppaOf a) = false → memWf s.dev.mem = true →
        (write = none → s.dev.badIn a 4 = false → Completes row s (fun t => t.OnlyDevice s ∧ t.dev.bodkin.status = 0 ∧
          t.dev.bodkin.data = bytesWord (memRead s.dev.mem a 4) ∧ t.dev.mem = s.dev.mem)) ∧
        (write = none → s.dev.badIn a 4 = true → Completes row s (fun t => t.OnlyDevice s ∧ t.dev.bodkin.status = 3 ∧ t.dev.mem = s.dev.mem)) ∧
        (write = some data → Completes row s (fun t => t.OnlyDevice s ∧ t.dev.bodkin.status = 0 ∧ memRead t.dev.mem a 4 = leBytes 4 data.toNat ∧
          ∀ o, o < a ∨ a + 4 ≤ o → memGet t.dev.mem o = memGet s.dev.mem o))) := by
  refine ⟨fun hbeyond => h _ _ _ (dapMemory_beyond s hbeyond write), fun hin hfenced => h _ _ _ (dapMemory_fenced hin hfenced write),
    fun hin hfenced hpage => h _ _ _ (dapMemory_retired hin hfenced hpage write), fun hin hfenced hpage hwf => ⟨?_, ?_, ?_⟩⟩
  · rintro rfl hsound
    obtain ⟨e, hmemory, hmem⟩ := dapMemory_reads hin hfenced hpage
    rw [hsound, if_neg Bool.false_ne_true] at hmemory
    exact ⟨_, h _ _ _ hmemory, rfl, rfl, rfl, hmem⟩
  · rintro rfl hbad
    obtain ⟨e, hmemory, hmem⟩ := dapMemory_reads hin hfenced hpage
    rw [hbad, if_pos rfl] at hmemory
    exact ⟨_, h _ _ _ hmemory, rfl, rfl, hmem⟩
  · rintro rfl
    obtain ⟨e, hmemory, hmem⟩ := dapMemory_writes hin hfenced hpage halign data
    have hread : memRead e.mem a 4 = leBytes 4 data.toNat := by
      rw [hmem]
      exact memRead_write (leBytes 4 data.toNat) s.dev.mem a hwf
    have hother (o : Nat) (ho : o < a ∨ a + 4 ≤ o) : memGet e.mem o = memGet s.dev.mem o := by
      rw [hmem]
      exact memGet_write_other (leBytes 4 data.toNat) s.dev.mem a o hwf (by rw [leBytes_length]; exact ho)
    exact ⟨_, h _ _ _ hmemory, rfl, rfl, hread, hother⟩

theorem State.Accesses.hostMemory (h : s.Accesses row op 2 a p write next) (data : BitVec 32) :
    (s.dev.host.link ≠ .l0 → exec row s = .next (s.dapAnswered op 2 next 0)) ∧
      (s.dev.host.link = .l0 →
        (write = none → Completes row s (fun t => t.OnlyDevice s ∧ t.dev.bodkin.status = 0 ∧
          t.dev.bodkin.data = bytesWord (memRead s.dev.hostMem a 4) ∧ t.dev.hostMem = s.dev.hostMem)) ∧
        (write = some data → Completes row s (fun t => t.OnlyDevice s ∧ t.dev.bodkin.status = 0 ∧
          t.dev.hostMem = memWrite s.dev.hostMem a (leBytes 4 data.toNat)))) := by
  refine ⟨fun hdown => h _ _ _ (dapHost_down hdown a write), fun hlink => ⟨?_, ?_⟩⟩
  · rintro rfl
    obtain ⟨e, hhost, hmem⟩ := dapHost_reads hlink a
    exact ⟨_, h _ _ _ hhost, rfl, rfl, rfl, hmem⟩
  · rintro rfl
    obtain ⟨e, hhost, hmem⟩ := dapHost_writes hlink a data
    exact ⟨_, h _ _ _ hhost, rfl, rfl, hmem⟩

theorem State.Accesses.seqReads (h : s.Accesses row op 3 a p none next) {e : Device} {status : Nat} {w : BitVec 32}
    (hr : s.dev.seqRead p (a % 2 ^ 24) = (e, status, w)) : exec row s = .next (({ s with dev := e } : State).dapAnswered op status next w) :=
  h _ _ _ (congrArg (fun (r : Device × Nat × BitVec 32) => (({ s with dev := r.1 }, r.2) : DapResult)) hr)

theorem State.Accesses.seqWrites {data : BitVec 32} (h : s.Accesses row op 3 a p (some data) next) {e : Device} {status : Nat}
    (hr : s.dev.seqWrite p (a % 2 ^ 24) data = (e, status)) : exec row s = .next (({ s with dev := e } : State).dapAnswered op status next 0) :=
  h _ _ _ (congrArg (fun (r : Device × Nat) => (({ s with dev := r.1 }, r.2, 0) : DapResult)) hr)

theorem State.Accesses.sequencer (h : s.Accesses row op 3 a p write next) (data : BitVec 32) (hwrite : write = none ∨ write = some data) :
    let g := (s.dev.panel p).dbg
    let m := a % 2 ^ 24
    (m < 0xFF0000 → Completes row s (fun t => t.OnlyDevice s ∧ t.dev.bodkin.status = 0 ∧ t.dev.mem = s.dev.mem)) ∧
      (m = 0xFF0000 → write = none →
        exec row s = .next (s.dapAnswered op 0 next (BitVec.ofNat 32 (g.index * 16 + g.cause * 2 + if g.halted then 1 else 0)))) ∧
      (m = 0xFF0008 → g.halted = true → (write = none → exec row s = .next (s.dapAnswered op 0 next g.pc)) ∧
        (write = some data → Completes row s (fun t => t.OnlyDevice s ∧ (t.dev.panel p).dbg = { g with pc := data } ∧ t.dev.bodkin.status = 0))) ∧
      (∀ n : Fin 8, m = 0xFF0100 + 8 * n.val → (write = none → exec row s = .next (s.dapAnswered op 0 next g.bps[n.val])) ∧
        (write = some data → Completes row s (fun t => t.OnlyDevice s ∧
          (t.dev.panel p).dbg = { g with bps := g.bps.set n.val (data &&& 0xFFFFFFFD) n.isLt } ∧ t.dev.bodkin.status = 0))) := by
  intro g m
  refine ⟨fun hm => ?_, ?_, fun hm hhalted => ⟨?_, ?_⟩, fun n hm => ⟨?_, ?_⟩⟩
  · rcases hwrite with rfl | rfl
    · obtain ⟨e, w, hr, hmem⟩ := seqRead_memory s.dev p hm
      exact ⟨_, h.seqReads hr, rfl, rfl, hmem⟩
    · obtain ⟨e, hr, hmem⟩ := seqWrite_memory s.dev p hm data
      exact ⟨_, h.seqWrites hr, rfl, rfl, hmem⟩
  · rintro hm rfl
    exact h.seqReads (seqRead_state s.dev p hm)
  · rintro rfl
    exact h.seqReads (seqRead_pc s.dev p hm hhalted)
  · rintro rfl
    exact ⟨_, h.seqWrites (seqWrite_pc s.dev p hm hhalted data), rfl, updDebug_dbg s.dev p (fun g => { g with pc := data }), rfl⟩
  · rintro rfl
    exact h.seqReads (seqRead_breakpoint s.dev p hm)
  · rintro rfl
    exact ⟨_, h.seqWrites (seqWrite_breakpoint s.dev p hm data), rfl, breakpointSet_dbg s.dev p data n, rfl⟩

theorem State.Accesses.token (h : s.Accesses row op 4 a p write next) (data : BitVec 32) :
    (write = none → ¬ (a < 4800 ∨ 0x1400 ≤ a ∧ a < 0x1420) → exec row s = .next (s.dapAnswered op 2 next 0)) ∧
      (write = some data → 4800 ≤ a → exec row s = .next (s.dapAnswered op 2 next 0)) ∧
      (write = none → (a < 4800 ∨ 0x1400 ≤ a ∧ a < 0x1420) → exec row s = .next (s.dapAnswered op 0 next (bytesWord (memRead s.dev.bodkin.token a 4)))) ∧
      (write = some data → a < 4800 → exec row s = .next { s with dev := { s.dev with bodkin := { s.dev.bodkin with
        token := memWrite s.dev.bodkin.token a (leBytes 4 data.toNat), op := op, status := 0, addr := next, data := 0 } } }) := by
  refine ⟨?_, ?_, ?_, ?_⟩
  · rintro rfl hbeyond
    exact h _ _ _ (dapAccess_tokenBeyond s hbeyond p)
  · rintro rfl hfull
    exact h _ _ _ (dapAccess_tokenFull s hfull p data)
  · rintro rfl hin
    exact h _ _ _ (dapAccess_tokenRead s hin p)
  · rintro rfl hin
    exact h _ _ _ (dapAccess_tokenWrite s hin p data)

end

theorem wordRows_write {space : BitVec 4} {addr : BitVec 48} {data : BitVec 32} {x : Instr × Nat × Option (BitVec 32) × Bool}
    (hx : x ∈ wordRows space addr data) : x.2.2.1 = none ∨ x.2.2.1 = some data := by
  simp only [wordRows, List.mem_cons, List.not_mem_nil, or_false] at hx
  rcases hx with rfl | rfl | rfl | rfl
  · exact .inl rfl
  · exact .inr rfl
  · exact .inl rfl
  · exact .inr rfl

/-- Settles O60: a request that is not taken leaves the state; one on a word makes the access of its space; a challenge or an
unlock is made as soon as Thimble takes it. -/
theorem bodkinRequests : Obligations.BodkinRequests := by
  intro s space addr data hrails d b a free words
  refine ⟨fun hbusy => ?_, fun hir hwait => ⟨fun x hx => ?_, fun hbusy => ?_, fun hfree => ?_⟩, fun h => ?_, fun hfree hwait => ?_⟩
  · have hignored : ¬ (b.ir = 0x10 ∧ b.waiting = none) := by
      rintro ⟨hir, hwait⟩
      rcases hbusy with hne | hsome
      · exact hne hir
      · rw [hwait] at hsome
        exact Bool.false_ne_true hsome
    refine ⟨fun x hx => ?_, ?_, ?_⟩
    · rw [wordRows_exec hrails hx, dapWord_ignored _ _ _ _ _ hignored]
    · rw [dapChallenge_exec hrails, dapSubmit_ignored hignored]
    · rw [dapUnlock_exec hrails, dapSubmit_ignored hignored]
  · intro permitted done read wrote
    have hexec := wordRows_exec hrails hx
    have hacc (hopen : permitted) (halign : a % 4 = 0) {n : Nat} (hn : n < 5) (hspace : space.toNat = n) :
        s.Accesses x.1 x.2.1 n a (dapPanel addr) x.2.2.1 (nextWord x.2.2.2 addr) := by
      intro t status w hr
      subst hspace
      rw [hexec, dapWord_accesses _ _ _ _ _ ⟨hir, hwait⟩ hopen hn halign hr]
    refine ⟨fun hlocked => ?_, fun hopen hinvalid => ?_, fun hopen halign => ⟨?regs, ?memory, ?hostMemory, ?sequencer, ?token⟩⟩
    · rw [hexec, dapWord_locked _ _ _ _ _ ⟨hir, hwait⟩ hlocked]
      rfl
    · rw [hexec, dapWord_invalid _ _ _ _ _ ⟨hir, hwait⟩ hopen hinvalid]
      rfl
    case regs =>
      intro hspace
      obtain ⟨hbeyond, hin⟩ := (hacc hopen halign (n := 0) (by decide) (congrArg BitVec.toNat hspace)).regs data
      refine ⟨hbeyond, fun ha => ⟨(hin ha).1, fun hwrote _ => (hin ha).2 hwrote⟩⟩
    case memory => exact fun hspace => (hacc hopen halign (n := 1) (by decide) (congrArg BitVec.toNat hspace)).memory halign data
    case hostMemory => exact fun hspace => (hacc hopen halign (n := 2) (by decide) (congrArg BitVec.toNat hspace)).hostMemory data
    case sequencer => exact fun hspace => (hacc hopen halign (n := 3) (by decide) (congrArg BitVec.toNat hspace)).sequencer data (wordRows_write hx)
    case token => exact fun hspace => (hacc hopen halign (n := 4) (by decide) (congrArg BitVec.toNat hspace)).token data
  · have hrest (op : Nat) : (s.dapWaiting (some op)).dapThimble = s.dapWaiting (some op) := dapThimble_rests (.inr hbusy)
    rw [dapChallenge_exec hrails, dapUnlock_exec hrails, dapSubmit_taken ⟨hir, hwait⟩, dapSubmit_taken ⟨hir, hwait⟩, hrest, hrest]
    exact ⟨rfl, rfl⟩
  · obtain ⟨honly, hchallenge⟩ := dapThimble_challenged (s := s.dapWaiting (some 5)) hfree rfl
    have hunlock {t : State} {code : Code} (h : (s.dapWaiting none).unlock (memRead b.token 0 4800) = (t, code)) : exec .dapUnlock s = .next (t.unlockAnswered code) := by
      rw [dapUnlock_exec hrails, dapSubmit_taken ⟨hir, hwait⟩, dapThimble_unlock (s := s.dapWaiting (some 6)) hfree rfl h]
    rw [← dapSubmit_taken ⟨hir, hwait⟩] at honly hchallenge
    refine ⟨⟨_, dapChallenge_exec hrails, onlyDevice_of_dev (s := s) honly, hchallenge⟩, fun hnone => ?_, fun ch hch => ⟨fun hbad => ?_, fun hok => ?_⟩⟩
    · obtain ⟨honly, hstatus, hthimble⟩ := unlockAnswered_refused (s.dapWaiting none) (code := 0x080B) (by decide)
      exact ⟨_, hunlock (unlock_unchallenged hnone), onlyDevice_of_dev (s := s) honly, hstatus, congrArg Thimble.reason hthimble⟩
    · obtain ⟨honly, hstatus, hthimble⟩ := unlockAnswered_refused (s.dapWaiting none).challengeSpent (code := 0x080A) (by decide)
      exact ⟨_, hunlock (unlock_refused hch hbad), onlyDevice_of_dev (s := s) honly, hstatus, hthimble⟩
    · exact ⟨_, hunlock (unlock_accepted hch hok), unlockAnswered_accepted s _⟩
  · rw [dapNop_exec hrails, dapThimble_rests h]
  · obtain ⟨honly, hnone, hop, -, hchallenge, -⟩ := dapThimble_challenged hfree hwait
    exact ⟨_, dapNop_exec hrails, honly, hnone, hop, hchallenge⟩

end Sys2Proof.Machine
end
